-- ==== Sys2Proof/Word.lean ====
section
/-! DEFINITION. The words of the block: a byte of memory and a 32-bit register (00_scope.md R2, R4). -/
namespace Sys2Proof

/-- A byte of memory or of a wire structure. -/
abbrev Byte := BitVec 8

/-- A register: 32 bits wide (00_scope.md R4). -/
abbrev Word := BitVec 32

/-- A 64-bit datum: an accumulator, a scalar register, a chunk's CRC-64. -/
abbrev Dword := BitVec 64

end Sys2Proof
end

