-- ==== Sys2Proof/Syntax.lean ====
section
/-! DEFINITION. The commands of the block (spec/opcode_table.json): one constructor per row, with the operands that
say which unit the row concerns and what arrives from outside. The table gives no row any bits. -/
namespace Sys2Proof

/-- The blocks with staged fields (18_host_interface.md R341). -/
inductive Block where
  | cle | lnd | gal | cmp | route | dfl
  | opt (quad : Fin 8)
  deriving DecidableEq, Repr

/-- Where a chunk comes from: a fabric packet's content, a line packet's content (header and payload), or this
gateway's own memory at LOCAL_ADDR (04_collectives_and_flights.md R85, R385). -/
inductive ChunkSource where
  | fabric (fibre : Fin 32) (bytes : List Byte)
  | line (bytes : List Byte)
  | own (group : Fin 4096) (chunk : Nat)
  deriving DecidableEq, Repr

/-- What the Landing's code finds while a chunk is worked on (19_faults_and_spares.md R348). -/
inductive LandingEcc where
  | clean
  | corrected (bank : Fin 192)
  | uncorrectable (bank : Fin 192)
  deriving DecidableEq, Repr

/-- A shadow mismatch: the lane in the form of KIND 0x01 (fp32) or 0x03 (fp64), the sampled element and the pattern
hash (02_reduction_arithmetic.md R51; 19_faults_and_spares.md R349, R351). -/
structure LaneMismatch where
  f64 : Bool
  lane : Nat
  element : Nat
  hash : Nat
  deriving DecidableEq, Repr

/-- What a recompute agrees with (R51). -/
inductive Agreement where
  | shadow | lane | neither
  deriving DecidableEq, Repr

/-- What the FEC decoder reports with a Span frame (08_span_framer.md R166). -/
structure FecCounts where
  corrected : Nat
  codewords : Nat
  uncorrectable : Nat
  /-- Byte offsets of the frame that came from uncorrectable codewords. -/
  badBytes : List Nat
  deriving DecidableEq, Repr

/-- Module and lane flags read from a module (08_span_framer.md R171). -/
structure ModuleFlags where
  state : Nat
  txFault : Bool
  rxLos : Bool
  deriving DecidableEq, Repr

/-- STATUS, TEC_ACT and SERIAL as read from a laser source (20_pins_package_electrical.md R363). -/
structure LaserStatus where
  stable : Bool
  fault : Bool
  tecAtSetpoint : Bool
  tecAct : Nat
  serial : Nat
  deriving DecidableEq, Repr

/-- What the power controller samples each microsecond (15_power_and_thermal.md R278). -/
structure PowerSample where
  /-- Power in mW of the compute units that hold a phase, by phase. -/
  phaseMw : List (Nat × Nat)
  /-- Power in mW of the compute units that hold no phase, and of the link domain. -/
  computeMw : Nat
  otherMw : Nat
  /-- Tj in degrees. -/
  tj : Nat
  deriving DecidableEq, Repr

/-- A link under qualification (16_bring_up_and_image.md R314). -/
inductive QualLink where
  | lane (port : Fin 16) (lane : Fin 4)
  | wave (fibre : Fin 32) (tx : Bool) (wave : Fin 16)
  deriving DecidableEq, Repr

/-- The commands that the block takes: one per row of the table (95_what_each_step_holds.md). -/
inductive Instr where
  /-- REGISTER_WRITE (R8): Host write to a BAR0 register that has no row of its own, acting by its access type and stored range. -/
  | registerWrite (addr size : Nat) (value : Word) (poisoned : Bool)
  /-- LATCHING_REGISTER_READ (R8): Read of a LO word or of TIME_NOW_SUBNS that latches the companion words of a wide value. -/
  | latchingRegisterRead (addr : Nat)
  /-- COMMIT_GO (R342): Writing GO snapshots a block's staged fields and starts their check; a GO during a check or pending set is refused. -/
  | commitGo (blk : Block)
  /-- COMMIT_CHECK_DONE (R342): The check of a submitted set ends with REFUSED or ACCEPTED and sets LAST, REASON and ITEM. -/
  | commitCheckDone (blk : Block)
  /-- COMMIT_TAKES_EFFECT (R343): An accepted set takes effect at its block's boundary (drain, in-flight zero, marker), DONE advances and PENDING clears. -/
  | commitTakesEffect (blk : Block)
  /-- QUEUE_ENABLE (R55): Setting ENABLE checks the queue region, resets FETCH and CQ_TAIL, zeroes the completion ring and starts fetching, or halts with REGION_INVALID. -/
  | queueEnable (q : Fin 64) (value : Word)
  /-- QUEUE_DISABLE (R62): Clearing ENABLE withdraws every unstarted entry below SQ_TAIL with ABORTED and stops fetching. -/
  | queueDisable (q : Fin 64) (value : Word)
  /-- QUEUE_CANCEL (R62): Writing CANCEL withdraws every unstarted entry below SQ_TAIL with ABORTED. -/
  | queueCancel (q : Fin 64) (value : Word)
  /-- SQ_TAIL_WRITE (R59): The Ibiraim notices a new SQ_TAIL and examines the queue for fetching. -/
  | sqTailWrite (q : Fin 64) (tail : Word) (before : List (Nat × List Byte))
  /-- CQ_HEAD_WRITE (R57): While CQ_STALL reads 1, a write advancing CQ_HEAD frees completion slots and resumes fetching. -/
  | cqHeadWrite (q : Fin 64) (head : Word)
  /-- DESCRIPTOR_FETCH (R58): An entry whose completion slot is free and in-flight limit allows is read once as a 64-byte snapshot.
  `bad` is the 64-bit word of an entry in BAR4 that its code finds uncorrectable (R338), if any. -/
  | descriptorFetch (q : Fin 64) (bad : Option (Fin 8))
  /-- TOKEN_COUNT_WRITE (R65): Host write of a token COUNT, ordered before any signal in the same cycle, which may satisfy waits. -/
  | tokenCountWrite (n : Fin 256) (value : Word)
  /-- ALLREDUCE (R85): An ALLREDUCE entry starts: checks, reservation or spill, OPEN, and reduction with results delivered at every gateway. -/
  | allreduce (q : Fin 64)
  /-- REDUCE_SCATTER (R85): A REDUCE_SCATTER entry starts; owners deliver their owned reduced chunks. -/
  | reduceScatter (q : Fin 64)
  /-- ALLGATHER (R85): An ALLGATHER entry starts; segments are sent to peers and counterparts and delivered in slot order. -/
  | allgather (q : Fin 64)
  /-- BROADCAST (R85): A BROADCAST entry starts; the root's chunks reach every gateway. -/
  | broadcast (q : Fin 64)
  /-- REDUCE (R85): A REDUCE entry starts; the root delivers every reduced chunk. -/
  | reduce (q : Fin 64)
  /-- STEP (R102): A STEP entry starts with an applied-map slot: reduction of leaves and counterpart partials, step program, update and state write-back. -/
  | step (q : Fin 64)
  /-- NORM (R87): A NORM entry starts: local sum of squares by NORM2_PARTIAL, exchange of NORM_SUM and write of the scalar register. -/
  | norm (q : Fin 64)
  /-- SEND (R88): A SEND entry starts a stream to the peer slot in AUX. -/
  | send (q : Fin 64)
  /-- RECV (R88): A RECV entry starts a stream from the peer slot, writing chunks at LOCAL_ADDR in index order. -/
  | recv (q : Fin 64)
  /-- BARRIER (R85): A BARRIER entry starts and sends ARRIVE to every peer and counterpart. -/
  | barrier (q : Fin 64)
  /-- VSTEP (R382): A VSTEP entry starts a step program over Gallery input X chunk by chunk, writing U and state. -/
  | vstep (q : Fin 64)
  /-- VSTEP_CHUNK_DONE (R382): One VSTEP chunk finishes its program and its outputs are written. -/
  | vstepChunkDone (q : Fin 64) (index : Word) (chunk samples : Nat) (faults : List (Nat × Nat))
  /-- COPY (R74): A COPY entry starts, taking two 256 KiB buffers or completing LANDING_FULL. -/
  | copy (q : Fin 64)
  /-- FILL (R74): A FILL entry starts, taking one 256 KiB buffer or completing LANDING_FULL. -/
  | fill (q : Fin 64)
  /-- XFE_TRANSFER_DONE (R74): A COPY or FILL finishes its data movement and completes, validating whole state units covered. -/
  | xfeTransferDone (q : Fin 64) (index : Word) (hostFail : Option Nat)
  /-- CHUNK_RECEIVE (R385): A chunk arrives whole from fabric or line and is tested in order: header, instance state, stray, credit, format, duplicate, CRC. -/
  | chunkReceive (src : ChunkSource)
  /-- CHUNK_ARITHMETIC_DONE (R19): The working lanes finish a chunk's reduction, program and casts; outputs are released or held for compares. -/
  | chunkArithmeticDone (group : Fin 4096) (chunk samples : Nat) (faults : List (Nat × Nat)) (ecc : LandingEcc)
  /-- SHADOW_COMPARE_DONE (R50): A shadow-lane compare result is known; in CHECKED mode a chunk whose compares all pass is released. -/
  | shadowCompareDone (n : Nat) (result : Option LaneMismatch)
  /-- CHUNK_RECOMPUTE_DONE (R51): After a mismatch the recompute on another set ends and the majority decides replace, retract or stand. -/
  | chunkRecomputeDone (n : Nat) (agree : Agreement)
  /-- LANE_RETIRE (R25): At the next chunk boundary a retired lane is replaced by its spare, or its set or group is retired. -/
  | laneRetire
  /-- RUE_SHADOW_CTRL_WRITE (R49): A write of shadow sampling settings takes effect at the next chunk boundary; ENABLE = 0 is logged. -/
  | rueShadowCtrlWrite (value : Word)
  /-- OPEN_RECEIVE (R90): An OPEN message arrives from a peer gateway. -/
  | openReceive (line : Bool) (msg : List Byte)
  /-- RESEND_RECEIVE (R97): A RESEND arrives; the kept copy is re-sent under TYPE 0x03/0x04, or NOT_RETAINED is replied. -/
  | resendReceive (line : Bool) (msg : List Byte)
  /-- NOT_RETAINED_RECEIVE (R98): NOT_RETAINED arrives and the instance completes CHECK_FAIL or DECOMP_LEN with an abort. -/
  | notRetainedReceive (line : Bool) (msg : List Byte)
  /-- ABORT_RECEIVE (R100): An ABORT or RETRACT arrives; the instance completes, the message is passed to Flight 0, or it is held. -/
  | abortReceive (line : Bool) (msg : List Byte)
  /-- ARRIVE_RECEIVE (R85): An ARRIVE arrives and is forwarded; BARRIER completes when held from every gateway member. -/
  | arriveReceive (line : Bool) (msg : List Byte)
  /-- NORM_SUM_RECEIVE (R87): A NORM_SUM scalar arrives; when all are held they are summed in rank order and written. -/
  | normSumReceive (line : Bool) (msg : List Byte)
  /-- CREDIT_RECEIVE (R251): A stream CREDIT packet arrives and raises the limit to which this gateway may send chunks. -/
  | creditReceive (node : Nat) (body : List Byte)
  /-- CREDIT_REFRESH (R251): Every 20 µs CREDIT is re-sent to a source that still has chunks outstanding. -/
  | creditRefresh (group : Fin 4096)
  /-- RESEND_TIMEOUT (R98): A re-send wait expires; RESEND is repeated or, when exhausted, the instance fails with CHECK_FAIL. -/
  | resendTimeout (group : Fin 4096) (chunk slot : Nat)
  /-- PROGRESS_TIMEOUT (R99): No traffic from an expected member for PROGRESS_US decides an abort with reason PROGRESS. -/
  | progressTimeout (group : Fin 4096)
  /-- ROUTE_LOSS_HOLD_EXPIRE (R99): Every route to a member's site in path fail for 1 ms decides an abort with reason LOST. -/
  | routeLossHoldExpire (group : Fin 4096)
  /-- KEY_LOSS_HOLD_EXPIRE (R99): No valid sending key towards a counterpart's site for 1 ms decides an abort with reason KEY. -/
  | keyLossHoldExpire (group : Fin 4096)
  /-- CLE_ABORT_GO (R99): Writing CLE_ABORT_CTRL.GO decides an abort with reason HOST if the instance is open. -/
  | cleAbortGo (value : Word)
  /-- MAP_RELEASE (R102): Writing RELEASE frees a HELD applied-map slot, letting a waiting STEP start. -/
  | mapRelease (n : Fin 16)
  /-- KEEP_EXPIRE (R96): A fabric chunk's keep time ends and its keep-ring copy is released. -/
  | keepExpire
  /-- RETENTION_EXPIRE (R96): A line chunk's retention hold ends and its copy is released, lowering in-flight counters. -/
  | retentionExpire
  /-- RETENTION_ROOM_FREED (R91): Room freed in a full retention part lets held-back site partials proceed. -/
  | retentionRoomFreed
  /-- ALLOC_RETRY (R110): A unit whose allocation failed retries after 1 µs. -/
  | allocRetry
  /-- SCRUB_PATROL_READ (R122): The patrol reads a Gallery codeword and handles it as a read under ECC rules. -/
  | scrubPatrolRead (addr symbols bank row : Nat)
  /-- ROW_REPAIR_DONE (R124): A row repair copy ends, its address is redirected and held accesses are served. -/
  | rowRepairDone
  /-- CHANNEL_RETIRE_DONE (R124): A channel's granules are all copied into the reserve and the channel is retired. -/
  | channelRetireDone (chan : Fin 192)
  /-- REFILL_START (R129): Writing START begins a refill as source or sink, or ends at once on a bad range. -/
  | refillStart (n : Fin 4) (value : Word)
  /-- REFILL_STOP (R130): Writing STOP ends a running refill with ABORTED. -/
  | refillStop (n : Fin 4) (value : Word)
  /-- REFILL_REQUEST_RECEIVE (R129): A REQUEST arrives at the source, which sends units from the requested index or ends with DESC_INVALID. -/
  | refillRequestReceive (node : Nat) (msg : List Byte)
  /-- REFILL_UNIT_RECEIVE (R129): A UNIT arrives at the sink, is checked, written and marked valid, or re-requested. -/
  | refillUnitReceive (node : Nat) (msg : List Byte)
  /-- REFILL_ACK_RECEIVE (R129): A cumulative ACK arrives at the source and opens its sending window. -/
  | refillAckReceive (node : Nat) (msg : List Byte)
  /-- REFILL_END_RECEIVE (R130): An END message arrives and ends the refill with its code. -/
  | refillEndReceive (node : Nat) (msg : List Byte)
  /-- REFILL_REQUEST_TIMER (R129): Every 10 ms until a UNIT arrives the sink repeats REQUEST. -/
  | refillRequestTimer (n : Fin 4)
  /-- REFILL_ACK_TIMER (R129): Every 1 ms the sink sends a cumulative ACK. -/
  | refillAckTimer (n : Fin 4)
  /-- REFILL_PEER_LOST (R130): The peer is judged lost by path fail, GOING_DOWN or 1 s of silence and the refill ends. -/
  | refillPeerLost (n : Fin 4)
  /-- REFILL_KEY_TIMEOUT (R130): No valid sending key to the peer for 1 ms ends the refill with KEY_ABSENT. -/
  | refillKeyTimeout (n : Fin 4)
  /-- BAR2_READ (R337): A host read through the Gallery window returns data, zeros or poisoned data by location. -/
  | bar2Read (offset len : Nat)
  /-- BAR2_WRITE (R337): A host write through the Gallery window is written or discarded by location. -/
  | bar2Write (offset : Nat) (bytes : List Byte) (poisoned : Bool)
  /-- BAR2_BASE_WRITE (R336): A write to TOP_BAR2_BASE moves the Gallery window for later requests. -/
  | bar2BaseWrite (value : Word)
  /-- SPAN_FRAME_RECEIVE (R153): A Span frame is received, advancing alignment, BIP, MFAS, justification and overhead processing. -/
  | spanFrameReceive (port : Fin 16) (frame : List Byte) (fec : FecCounts)
  /-- SPAN_FRAME_TRANSMIT (R150): A Span frame is built with overhead, REI, RDI, justification and scrambling and sent. -/
  | spanFrameTransmit (port : Fin 16)
  /-- LINE_SIGNAL_LOSS (R158): Loss of signal, CDR lock, module Rx LOS or module absence declares dLOS. -/
  | lineSignalLoss (port : Fin 16)
  /-- LINE_SIGNAL_RESTORE (R158): The loss-of-signal conditions end and dLOS clears. -/
  | lineSignalRestore (port : Fin 16)
  /-- DLOF_DECLARE_TIMER (R158): OOF or PRE held for 100 µs declares dLOF. -/
  | dlofDeclareTimer (port : Fin 16)
  /-- DLOF_CLEAR_TIMER (R158): IF held for 1 ms clears dLOF. -/
  | dlofClearTimer (port : Fin 16)
  /-- MODREF_LOSS (R152): The module reference is absent or out of range; REF_LOST is set and transmit is timed from REFCLK. -/
  | modrefLoss (port : Fin 16)
  /-- MODREF_RETURN (R152): A valid reference present for 10 ms is taken back and REF_LOST clears. -/
  | modrefReturn (port : Fin 16)
  /-- LINE_PM_LATCH (R167): At each seconds rollover native line counters are latched and cleared. -/
  | linePmLatch (port : Fin 16)
  /-- LINE_CPM_ADD (R169): Ten seconds after a second ends its compatibility classification is added to LINE_CPM counters. -/
  | lineCpmAdd (port : Fin 16)
  /-- MODULE_INSERT (R171): A module is inserted; it is logged, reset pulsed and brought up if ENABLE = 1. -/
  | moduleInsert (port : Fin 16)
  /-- MODULE_REMOVE (R171): A module is removed; dLOS is declared at once and the event logged. -/
  | moduleRemove (port : Fin 16)
  /-- MODULE_INTERRUPT (R171): The module interrupt is asserted and its flags are read. -/
  | moduleInterrupt (port : Fin 16) (flags : ModuleFlags)
  /-- MODULE_POLL (R171): At least every 10 ms the module and lane flags are read. -/
  | modulePoll (port : Fin 16) (flags : ModuleFlags)
  /-- MODULE_READY (R171): The module reaches Ready; APPSEL is checked and the data path configured. -/
  | moduleReady (port : Fin 16) (advertised : Bool)
  /-- MODULE_DATAPATH_ACTIVATED (R171): The module reports DataPathActivated; framer transmit and receive are enabled and qualification may begin. -/
  | moduleDatapathActivated (port : Fin 16)
  /-- MODULE_RESET_PULSE_END (R360): The 10 ms MOD_RESET_N pulse ends. -/
  | moduleResetPulseEnd (port : Fin 16)
  /-- LINE_ENABLE (R386): Writing LINE_CTRL.ENABLE = 1 turns a port on, or is discarded on L8–L15 without LINE16. -/
  | lineEnable (port : Fin 16) (value : Word)
  /-- LINE_DISABLE (R171): Writing ENABLE = 0 squelches the port and deactivates the module's data path. -/
  | lineDisable (port : Fin 16) (value : Word)
  /-- CMIS_GO (R172): One CMIS byte access is performed, serialised, or refused for page 10h under AUTO. -/
  | cmisGo (port : Fin 16) (value : Word) (reply : Option Byte)
  /-- CELL_RECEIVE (R177): A cell is delineated and taken whole, checked by the cipher and addressing, and its shard or message processed. -/
  | cellReceive (port : Fin 16) (coresAgree : Bool) (retryAgrees : Bool)
  /-- NAK_RECEIVE (R190): A NAK arrives; missing shards of retained stripes are re-sent or GONE is replied. -/
  | nakReceive (node : Nat) (msg : List Byte)
  /-- GONE_RECEIVE (R189): A GONE arrives and the named stripes are lost. -/
  | goneReceive (node : Nat) (msg : List Byte)
  /-- REPORT_RECEIVE (R187): A REPORT arrives and updates forward delays and the round-trip estimate. -/
  | reportReceive (node : Nat) (msg : List Byte)
  /-- GOING_DOWN_RECEIVE (R192): A GOING_DOWN arrives; instances with the peer abort, or a relay's port is marked unusable. -/
  | goingDownReceive (node : Nat) (port : Fin 16) (msg : List Byte)
  /-- STRIPE_DEADLINE (R189): A stripe reaches its deadline with fewer than K good shards and NAK is sent. -/
  | stripeDeadline (node vc : Nat) (seq : Nat)
  /-- NAK_REPEAT_TIMER (R189): NAK is repeated every round trip plus G; after ARQ_MAX the stripe is lost. -/
  | nakRepeatTimer (node vc : Nat) (seq : Nat)
  /-- STRIPE_FILL_TIMEOUT (R181): FILL_NS after its first byte a stripe is padded, closed and its shards queued. -/
  | stripeFillTimeout (node vc : Nat)
  /-- STRIPE_QUEUE_ROOM (R200): A full weighted queue gains room and its held stream closes stripes again. -/
  | stripeQueueRoom (route queue : Nat)
  /-- REPORT_TIMER (R179): Once per millisecond REPORT is sent to each valid peer. -/
  | reportTimer
  /-- DELAY_INTERVAL_END (R185): Each millisecond the interval minimum is formed and D_ref may change, a route delay event. -/
  | delayIntervalEnd
  /-- DREF_EXPIRE (R185): A route with no sample for 1 s loses its D_ref. -/
  | drefExpire (node route : Nat)
  /-- ORDERLY_RESET_GO (R192): Writing ROUTE_DOWN_CTRL.GO sends GOING_DOWN and starts the notice period. -/
  | orderlyResetGo (value : Word)
  /-- GOING_DOWN_NOTICE_EXPIRE (R192): After NOTICE_MS the gateway enters RESET. -/
  | goingDownNoticeExpire
  /-- PORT_MARK_CLEAR (R192): A port marked by a relay's GOING_DOWN clears after 1 ms free of path fail. -/
  | portMarkClear (port : Fin 16)
  /-- PORT_CELL_SELECT (R197): A port able to start a cell takes a CONTROL cell or the eligible head with the smallest tag, then encrypts and sends it. -/
  | portCellSelect (port : Fin 16) (mismatches : Fin 4)
  /-- SCHED_DEPTH_SAMPLE (R202): At each PERIOD_NS multiple every weighted queue's depth is sampled. -/
  | schedDepthSample
  /-- SCHED_PM_LATCH (R203): At each seconds rollover queue depth and delay statistics are latched and cleared. -/
  | schedPmLatch
  /-- SA_LOAD (R209): LOAD checks and loads a key slot, computes the KCV and clears staging. -/
  | saLoad (value : Word)
  /-- SA_SCHEDULE (R212): SCHEDULE sets the switch time of a transmit SA's armed slot. -/
  | saSchedule (value : Word)
  /-- SA_CLEAR (R212): CLEAR erases the selected slot and cancels a pending switch. -/
  | saClear (value : Word)
  /-- EPOCH_SWITCH (R212): At the switch time the armed slot becomes current and the old slot is erased. -/
  | epochSwitch (sa : Fin 512)
  /-- RX_HOLDDOWN_EXPIRE (R213): A receive slot in RX_HOLD reaches the end of its hold-down and is erased. -/
  | rxHolddownExpire (sa : Fin 512)
  /-- ALARM_ASSERT (R217): An armed alarm source asserts; cores stop, key material is erased and the latch bit set. -/
  | alarmAssert (asserted : Fin 512)
  /-- KEY_ERASE_COMPLETE (R218): Erasure read-back ends; LAST_OK is set, or a second failure sets VERIFY_FAIL and enters SAFE. -/
  | keyEraseComplete (ok : Bool)
  /-- ERASE_GO (R217): Writing SEC_ERASE_CTRL.GO asserts alarm source HOST. -/
  | eraseGo (value : Word)
  /-- ALARM_LATCH_CLEAR (R219): Writing 1 to a latched alarm bit clears it if its source is no longer asserted. -/
  | alarmLatchClear (value : Word)
  /-- PEG_UPDATE (R225): Every 1 µs a Peg updates its heater from its integration, with feed-forward and lock checks. -/
  | pegUpdate (quad : Fin 8) (ring : Fin 136) (error : Int) (inLock : Bool)
  /-- PEG_FINE_TRIM (R225): Every 100 µs the fine trim corrects the ring's set point. -/
  | pegFineTrim (quad : Fin 8) (ring : Fin 136) (error : Int)
  /-- PEG_SWEEP_STEP (R224): One calibration sweep heater step is taken and its crossings recorded, ending the sweep when done. -/
  | pegSweepStep (quad : Fin 8) (ring : Fin 136) (crossing : Bool)
  /-- LOCAL_RELOCK_DONE (R229): A local relock search ends, locked or falling back to a full sweep. -/
  | localRelockDone (quad : Fin 8) (ring : Fin 136) (ok : Bool)
  /-- SPARE_RING_JUMP_DONE (R229): A spare ring has jumped, relocked and is connected to the failed ring's data lane. -/
  | spareRingJumpDone (quad : Fin 8) (ring : Fin 136) (ok : Bool)
  /-- HEATER_REASON_CLEAR (R226): HEATER clears when every Peg has been within 0.5 GHz for 1 ms. -/
  | heaterReasonClear (quad : Fin 8)
  /-- LASER_LIGHT_LOSS (R225): Laser-input taps read no light for 100 ns and every Peg of the quad holds its heater. -/
  | laserLightLoss (quad : Fin 8)
  /-- LASER_LIGHT_RETURN (R225): Light returns and the Pegs resume their loops. -/
  | laserLightReturn (quad : Fin 8)
  /-- HEATER_GRANT (R228): Each microsecond the quad sequencer grants heater steps in priority order within 200 mW. -/
  | heaterGrant (quad : Fin 8)
  /-- FADE_MEASURE (R232): A fade measurement over ten 1 ms integrations moves the quad's fade state. -/
  | fadeMeasure (quad : Fin 8) (powers : List Int)
  /-- SPARE_SOURCE_READY (R232): A claimed spare's lines lie within 2 GHz of the lines to be replaced. -/
  | spareSourceReady (quad : Fin 8)
  /-- LASER_SWITCH (R234): The quad's selector moves to the other source and Concourse changes are held. -/
  | laserSwitch (quad : Fin 8)
  /-- LASER_SWITCH_RELOCK_DONE (R234): Every transceiver ring is back within 0.5 GHz; SOURCE updates and held changes are released. -/
  | laserSwitchRelockDone (quad : Fin 8)
  /-- LASER_SWITCH_STABLE (R234): The new source's output is stable; state returns to OK and the old source is darkened. -/
  | laserSwitchStable (quad : Fin 8)
  /-- LASER_REFERENCE_CAPTURE (R231): A new source serial's reference line powers are captured and stored. -/
  | laserReferenceCapture (quad : Fin 8) (powers : List Int)
  /-- LASER_SWITCH_CMD (R235): Host SWITCH claims a spare and switches at once or at the scheduled time. -/
  | laserSwitchCmd (quad : Fin 8) (value : Word)
  /-- LASER_RETURN_CMD (R236): Host RETURN warms and matches the primary and switches back to it. -/
  | laserReturnCmd (quad : Fin 8) (value : Word)
  /-- LASER_RELEASE_CMD (R233): Host RELEASE frees a claim that has not switched. -/
  | laserReleaseCmd (quad : Fin 8) (value : Word)
  /-- RETURN_PRIMARY_TIMEOUT (R236): The primary is not stable within 2 s and RETURN refuses with PRIMARY_NOT_READY. -/
  | returnPrimaryTimeout (quad : Fin 8)
  /-- MONITOR_GO (R223): Writing OPT_MON_SEL.GO starts one monitor reading. -/
  | monitorGo (quad : Fin 8) (value : Word)
  /-- MONITOR_READING_DONE (R223): The monitor integration ends and VALUE, ENOB and CAL are written. -/
  | monitorReadingDone (quad : Fin 8) (reading : Nat)
  /-- OPT_FIBRE_ENABLE (R237): A write of FIBRE_EN enables or disables a quad's fibres and drives its LASER_EN. -/
  | optFibreEnable (quad : Fin 8) (value : Word)
  /-- LCB_STATUS_POLL (R363): Every 10 ms a laser source's STATUS is read, reading SERIAL on stabilisation and judging faults. -/
  | lcbStatusPoll (source : Fin 10) (reply : Option LaserStatus)
  /-- DFL_MARKER_RECEIVE (R239): A marker slot arrives; lane lock, BIP, masks and node identity are taken from it. -/
  | dflMarkerReceive (fibre : Fin 32) (lane : Fin 16) (marker : List Byte)
  /-- DFL_MARKER_SEND (R240): Markers are sent on all lanes with the current TX_MASK and RX_OUT. -/
  | dflMarkerSend (fibre : Fin 32)
  /-- FLIT_RECEIVE (R243): A flit arrives; accepted in order with good CRC, or dropped with NAK. -/
  | flitReceive (fibre : Fin 32) (lane : Fin 16) (slot : List Byte)
  /-- FLIT_SEND (R253): A fibre selects and sends the next flit by credit, slot table and weighted order. -/
  | flitSend (fibre : Fin 32)
  /-- REPLAY_TIMEOUT (R243): ACK has not advanced for REPLAY_TO_NS and held flits are replayed. -/
  | replayTimeout (fibre : Fin 32)
  /-- LANE_ERROR_WINDOW (R241): Each 1 ms a lane's BIP errors are compared with DFL_LANE_THR. -/
  | laneErrorWindow (fibre : Fin 32) (lane : Fin 16)
  /-- LANE_READMIT (R241): A lane clean and locked for 1 s is readmitted. -/
  | laneReadmit (fibre : Fin 32) (lane : Fin 16)
  /-- LINK_HOLD_EXPIRE (R244): No flit or marker for HOLD_US takes the link DOWN and starts retraining. -/
  | linkHoldExpire (fibre : Fin 32)
  /-- LINK_TRAINING_DONE (R244): A retrained link returns to UP with SEQ and ACK at 0. -/
  | linkTrainingDone (fibre : Fin 32)
  /-- CIRCUIT_HOST_PTR_WRITE (R252): A write of HOST_PTR frees room in an RX circuit or releases data of a TX circuit. -/
  | circuitHostPtrWrite (fibre : Fin 32) (circ : Fin 32) (value : Word)
  /-- SLOT_ENTRY_BOUNDARY (R255): A new slot-table entry comes into force for scheduled VCs. -/
  | slotEntryBoundary (fibre : Fin 32)
  /-- DFL_PM_LATCH (R256): At each seconds rollover fibre and VC queue statistics are latched. -/
  | dflPmLatch
  /-- CONC_SCHED_ARM (R259): Arming a Concourse schedule entry sets its configuration and time, or starts at once if late. -/
  | concSchedArm (quad : Fin 8) (k : Fin 8) (value : Word)
  /-- CONCOURSE_SWITCH_START (R259): 1 µs before TIME the lanes leaving local service are masked and ring changes requested at TIME. -/
  | concourseSwitchStart (quad : Fin 8) (k : Fin 8)
  /-- CONCOURSE_RING_SETTLED (R259): A changed Concourse ring reaches its state; the last one completes the switch. -/
  | concourseRingSettled (quad : Fin 8) (ring : Fin 256)
  /-- CONCOURSE_RING_TIMEOUT (R260): A ring not at its new state within 24 µs is failed and parked OFF. -/
  | concourseRingTimeout (quad : Fin 8) (ring : Fin 256)
  /-- SYNC_SEND (R272): Every 1 ms a SYNC is sent on each fibre whose link is UP. -/
  | syncSend
  /-- SYNC_RECEIVE (R272): A received SYNC is dropped and counted as MSG_DROP. -/
  | syncReceive (line : Bool) (msg : List Byte)
  /-- PROBE_TIMER (R270): Every PERIOD_MS a PROBE is sent to each valid peer. -/
  | probeTimer
  /-- PROBE_RECEIVE (R270): A PROBE arrives and an ECHO with T2 and residence is returned within 10 µs. -/
  | probeReceive (line : Bool) (port : Fin 32) (msg : List Byte)
  /-- ECHO_RECEIVE (R270): An ECHO of the latest PROBE yields peer offset and delay. -/
  | echoReceive (port : Fin 16) (node : Nat) (msg : List Byte)
  /-- PPS_EDGE (R266): A 1PPS edge is validated and drives the discipline state machine and phase error. -/
  | ppsEdge
  /-- TOD_MESSAGE_RECEIVE (R265): A time-of-day message is received whole and accepted or rejected. -/
  | todMessageReceive (msg : List Byte)
  /-- HOLDOVER_TIMEOUT (R266): No valid edge with accepted message for 2 s in LOCKED enters HOLDOVER. -/
  | holdoverTimeout
  /-- TIME_SET (R266): Writing TIME_CTRL.SET in FREE loads TIME_SET into device time. -/
  | timeSet (value : Word)
  /-- REF10M_CHANGE (R266): The 10 MHz input appears or disappears and the time base clock source follows USE_10M. -/
  | ref10mChange (present : Bool)
  /-- POWER_CONTROL_TICK (R279): Every 1 µs power is estimated and the bubble fraction set against the effective cap. -/
  | powerControlTick (sample : PowerSample)
  /-- PMBUS_READ (R366): Every 10 ms regulator output power is read and the estimate scaled to it. -/
  | pmbusRead (readings : List (Option Nat))
  /-- PMBUS_STALE_TIMEOUT (R278): No good PMBus reading for 100 ms sets UNCAL and raises the estimate 5 %. -/
  | pmbusStaleTimeout
  /-- OPP_STEP_DOWN (R280): Bubble fraction above 0.1 throughout 1 ms moves one operating point slower. -/
  | oppStepDown
  /-- OPP_STEP_UP (R280): Bubble fraction 0 for 10 ms moves one point faster if the fit test passes. -/
  | oppStepUp
  /-- OPP_TRANSITION_DONE (R276): The voltage settles and the clock change of an operating-point move completes. -/
  | oppTransitionDone
  /-- CAP_UNMET_DETECT (R280): Bubble fraction at 0.875 for 1 ms with estimate above cap sets CAP_UNMET. -/
  | capUnmetDetect
  /-- DROOP_DETECT (R281): A droop detector below threshold doubles the compute clock period. -/
  | droopDetect
  /-- DROOP_RESTORE (R281): All detectors above threshold plus 10 mV for 100 ns restore the clock. -/
  | droopRestore
  /-- ILIM_ASSERT (R282): ILIM_N asserted raises the bubble fraction to at least 0.5. -/
  | ilimAssert
  /-- ILIM_RELEASE (R282): ILIM_N deasserted for 10 µs releases the hold on bubbles. -/
  | ilimRelease
  /-- PWRBRK_ASSERT (R368): PWRBRK_N asserted limits the effective cap to 200 W. -/
  | pwrbrkAssert
  /-- PWRBRK_RELEASE (R368): PWRBRK_N released for 10 µs lifts the 200 W cap. -/
  | pwrbrkRelease
  /-- THERMAL_STEP (R283): Every 1 ms with Tj at or above HOT_C one point slower, or more bubbles at OPP7. -/
  | thermalStep
  /-- OVERTEMP_SAFE (R283): Tj at or above 112 °C for 1 ms enters SAFE. -/
  | overtempSafe
  /-- IDLE_ENTRY (R287): Quiet for ENTRY_US stops the compute-domain clocks. -/
  | idleEntry
  /-- COMPUTE_WAKE (R288): A wake event restarts compute clocks within 4 µs. -/
  | computeWake
  /-- STAGGER_GROUP_START (R289): The next compute stagger group starts STEP_NS after the previous. -/
  | staggerGroupStart
  /-- PRESTART_WAKE (R291): At the phase lead before a TIMED entry the compute domain is woken. -/
  | prestartWake (q : Fin 64)
  /-- PHASE_CLEAR (R290): Writing CLEAR resets a phase envelope. -/
  | phaseClear (phase : Fin 16) (value : Word)
  /-- HEAT_FORECAST_SEND (R293): Every 10 ms a heat-forecast message is sent on HF_TXD. -/
  | heatForecastSend
  /-- TEC_SETPOINT_SEND (R294): A laser cooler set point is sent on change and at least once a second. -/
  | tecSetpointSend (source : Fin 10)
  /-- SAFE_WRITE (R295): Writing PWR_CTRL.SAFE sends GOING_DOWN if keyed and enters SAFE. -/
  | safeWrite (value : Word)
  /-- RESET_RELEASE (R377): MAIN_PG and PCIE_PERST_N are released and bring-up step 0 begins. -/
  | resetRelease
  /-- BRINGUP_STEP_BEGIN (R296): A bring-up step begins when the previous completes and its CONFIG entries are applied. -/
  | bringupStepBegin (step : Fin 5)
  /-- FIRMWARE_POLL_ROUND (R308): Controllers are polled and missing segments unicast; after five rounds incomplete ones are retired. -/
  | firmwarePollRound (cls : Fin 6) (missing : List (Nat × List Nat))
  /-- GALLERY_TRAINING_DONE (R313): Gallery channel training ends; failed channels are retired. -/
  | galleryTrainingDone (failed : List Nat)
  /-- LANDING_TEST_DONE (R313): The Landing march test ends and failed banks leave their pools. -/
  | landingTestDone (failed : List Nat)
  /-- LINK_QUALIFIED (R314): A link's PRBS31 measurement ends passed or failed, with spares or leave-out. -/
  | linkQualified (link : QualLink) (pass : Bool)
  /-- QUAL_WAIT_TIMEOUT (R315): A port or wavelength not begun within QUAL_WAIT_S is failed. -/
  | qualWaitTimeout (link : QualLink)
  /-- TX_SPARE_READMIT_TIMEOUT (R315): A wavelength moved to the transmit spare not readmitted within 2 s is left out. -/
  | txSpareReadmitTimeout (fibre : Fin 32) (lane : Fin 16)
  /-- VECTOR_UNIT_TEST_DONE (R316): A control-core vector unit's 50 ms test ends. -/
  | vectorUnitTestDone (cc : Fin 8) (pass : Bool)
  /-- RUE_SET_TEST_DONE (R316): RUE set tests at all operating points end and each RUE comes into service. -/
  | rueSetTestDone (rue : Fin 4) (failed : List (Bool × Nat))
  /-- RECOVERY_GO (R303): Writing BOOT_REC_CTRL.GO checks the image in boot memory and continues bring-up. -/
  | recoveryGo (value : Word)
  /-- RECOVERY_FLASH_WRITE (R303): GO with FLASH = 1 writes boot memory to the chosen flash copy. -/
  | recoveryFlashWrite (value : Word) (flashOk : Bool)
  /-- LICENCE_INSTALL (R307): Writing INSTALL checks the licence and adds its features. -/
  | licenceInstall (value : Word)
  /-- FIRMWARE_UPDATE_GO (R310): Writing BOOT_UPD_CTRL.GO checks an update image and broadcasts it to inactive banks. -/
  | firmwareUpdateGo (value : Word)
  /-- CONTROLLER_BANK_SWITCH (R310): A controller reaching its safe point changes to the updated bank. -/
  | controllerBankSwitch (cls : Fin 6) (n : Nat)
  /-- CC_BANK_SWITCH_TIMEOUT (R310): A control core finding no idle moment within 10 s stays on its old bank. -/
  | ccBankSwitchTimeout
  /-- SVN_BURN (R302): Writing SVN_BURN raises the fused security version to the running image's SVN. -/
  | svnBurn (value : Word)
  /-- LIFECYCLE_ADVANCE (R318): Writing ADVANCE erases keys, fails started entries, blows fuses and enters RESET. -/
  | lifecycleAdvance (value : Word)
  /-- RETURN_ERASE_DONE (R319): The RETURN erasure completes and RETURN_CLEAN is blown. -/
  | returnEraseDone
  /-- DEBUG_TOKEN_PRESENT (R322): Writing PRESENT checks a debug token, sets the level on acceptance and redraws NONCE. -/
  | debugTokenPresent (value : Word)
  /-- DEBUG_OPEN (R322): Writing OPEN in MANUFACTURE enters VENDOR without a token. -/
  | debugOpen (value : Word)
  /-- DEBUG_CLOSE (R324): Writing CLOSE ends the debug level in force. -/
  | debugClose (value : Word)
  /-- DEBUG_EXPIRE (R324): NOT_AFTER is reached and the debug level ends. -/
  | debugExpire
  /-- ATTEST_GET_KEY (R329): DOE GET_KEY request returns the attestation public key. -/
  | attestGetKey (request : List Byte)
  /-- ATTEST (R329): DOE ATTEST request returns a signed report or RATE, EXHAUSTED or NO_KEY. -/
  | attest (request : List Byte)
  /-- ATTEST_BUCKET_REFILL (R329): Once per second one report is added to the attestation bucket. -/
  | attestBucketRefill
  /-- DOE_DISCOVERY (R334): A DOE Discovery request is answered. -/
  | doeDiscovery (request : List Byte)
  /-- DOE_ABORT (R334): A DOE abort discards the response in progress. -/
  | doeAbort
  /-- HOST_RESET (R332): FLR, hot reset or link down disables queues, zeroes BAR4 and resets host-facing state. -/
  | hostReset
  /-- BUS_MASTER_ENABLE (R331): Bus mastering allowed again lets pending MSI-X messages go. -/
  | busMasterEnable
  /-- MSIX_UNMASK (R340): A vector's mask clears and its pending message is sent. -/
  | msixUnmask (vector : Fin 512)
  /-- CC_HEARTBEAT_TIMEOUT (R350): A control core missing its heartbeat for 10 ms is restarted, or retired on a second miss. -/
  | ccHeartbeatTimeout (cc : Fin 8)
  /-- CC_RESTART_DONE (R350): A restarted control core resumes its queues. -/
  | ccRestartDone (cc : Fin 8)
  /-- SUSPECT_CLEAR (R351): Writing SUSPECT_CLEAR clears the suspect state and band history. -/
  | suspectClear (value : Word)
  /-- FIBRE_ARRAY_DETACH (R365): FA_PRS_N rising darkens the connector's sources and treats its fibres as detached. -/
  | fibreArrayDetach (quad : Fin 8)
  /-- POWER_FAIL (R378): MAIN_PG falls or a supply leaves its window and RESET is entered within 2 µs. -/
  | powerFail
  /-- MESH_CHECK (R370): Every 100 µs the tamper loops are driven and judged open, short or in disagreement. -/
  | meshCheck (fault : Bool)
  /-- PMBUS_ALERT (R366): PMBUS_ALERT_N is recorded in PIN_IN_STATUS and the error log. -/
  | pmbusAlert (low : Bool)
  /-- ALWAYS_ON_POWER_UP (R7): VDD_AO comes up from OFF; the always-on domain starts and its held fields and the error-log sequence take their reset values. -/
  | alwaysOnPowerUp
  /-- FUNDAMENTAL_RESET_ASSERT (R332): PCIE_PERST_N is asserted and the Ibiraim enters RESET, with R63 applying. -/
  | fundamentalResetAssert
  /-- FIBRE_ARRAY_ATTACH (R233): FA_PRS_N of a quad goes low when its connector is latched, so a spare source it carries is no longer absent and may be claimed. -/
  | fibreArrayAttach (quad : Fin 8)
  /-- MARKER_LOCK_LOSS (R239): A DFL lane whose four expected markers in a row are missing loses lock and is left out in RX_OUT. -/
  | markerLockLoss (fibre : Fin 32) (lane : Fin 16)
  deriving DecidableEq, Repr

end Sys2Proof
end

