-- ==== Sys2Proof/Config.lean ====
section
/-! DEFINITION. What the specification leaves open: free values, which no proof can see (assumption log 7). -/
namespace Sys2Proof.Config

/-- A draw from the on-die entropy source, by its number (02 R40, 09 R180, 11 R218, 17 R322). -/
opaque entropy : Nat → Nat

/-- SR_BITS (02_reduction_arithmetic.md R40): instance key, instance, chunk, element, output selector. Its algorithm is
not part of the specification; the model uses its low 16 bits. -/
opaque srBits : Nat → Nat → Nat → Nat → Nat → Nat

/-- The combination of the 64-bit seed and the instance number in SEEDED mode (R40). -/
opaque seedKey : Nat → Nat → Nat

/-- The sum of squares that NORM2_PARTIAL's fixed tree gives: fp64 accumulation or not, and the elements (R45). -/
opaque norm2 : Bool → List Nat → Nat

/-- The result of RSQRT on a positive finite operand: fp64 accumulation or not, operand (R45). -/
opaque rsqrt : Bool → Nat → Nat

/-- The order in which a gateway's own site partial and the remote partials of a chunk are combined (R33), by draw. -/
opaque combineOrder : Nat → Nat

/-- The item of the line region, keep ring or spill slots that lies at a Gallery offset (06_gallery.md R125): the
specification gives no layout of these parts. -/
opaque placeAt : Nat → Nat

/-- Which of the buffers that may be taken an allocation takes (05_landing.md R107), by draw. -/
opaque freeBuffer : Nat → Nat

/-- The HSS signature of the part's attestation key: index, message (17_lifecycle_debug_power_states.md R328). -/
opaque hssSign : Nat → List Byte → List Byte

/-- The attestation public key generated from the part's private seed (R328): 60 bytes are used. -/
opaque attestKey : Nat → List Byte

/-- A value read from outside that the commands do not carry: bytes of a module's pages, by draw. -/
opaque outside : Nat → Nat

/-- The estimated power in milliwatts of a stagger group at full activity relative to the unit budget, by draw. -/
opaque unitPower : Nat → Nat

/-- The justification that a transmitter chooses for a frame, by draw (08_span_framer.md R151); the model takes its remainder
by 3: none, negative, positive. -/
opaque justify : Nat → Nat

/-- How many bytes of a port's transmit buffer are lost or repeated at a change of reference, by draw (R152): the model
takes at most 4,096. -/
opaque recentre : Nat → Nat

/-- How far steering moves device time in one nanosecond, by draw: the model takes -6 to 6 units of 2^-16 ns, at most
100 ppm (14_time.md R266). -/
opaque steer : Nat → Nat

/-- The cause written in an error-log entry 0x0402 (19_faults_and_spares.md), by the model's number of the cause. -/
opaque internalCause : Nat → Nat

/-- Where the specification shows a quotient in whole units and names no rounding: 1 or 0 added to the whole part. -/
opaque roundUp : Nat → Nat → Nat

/-- The k-th neighbour of a transceiver ring (12_optical_engines.md R227), by quad * 136 + ring: the model takes it modulo 393,
392 for none. -/
opaque neighbour : Nat → Nat → Nat

/-- The coupling coefficient that a Peg measures, by draw and neighbour: the model takes it modulo 128, in 128ths of 6 %. -/
opaque coupling : Nat → Nat → Nat

/-- The step that a Peg's lock loop or search gives its heater, in microwatts, by draw (R225, R229). -/
opaque heaterMove : Nat → Int

/-- Whether a Concourse ring's OFF place lies above or below its line, by quad * 256 + ring. -/
opaque parkSide : Nat → Nat

/-- Heater power of a quad's 256 Concourse rings in microwatts, by quad and the rings that are ON. -/
opaque concHeat : Nat → List Nat → Nat

/-- The trim of a source's cooler set point that matches its lines, in 0.01 degC, by draw (R232, R294). -/
opaque trim : Nat → Int

/-- The change of the heater rail VHTR in mV at one of its adjustments, by draw: the model takes -50 to 50 within 1,000 to
1,800 mV (20_pins_package_electrical.md R367). -/
opaque heaterRail : Nat → Nat

/-- The event code of an error-log entry for PMBUS_ALERT_N, which R347 gives no row (20_pins_package_electrical.md R366). -/
opaque alertCode : Nat

/-- The vendor ID that the PCI Express function reports (18_host_interface.md R334). -/
opaque vendorId : Nat

end Sys2Proof.Config
end

