-- ==== Sys2Proof/Machine/Bits.lean ====
section
/-! DEFINITION. Bit fields, byte order and small arithmetic used by every block
(00_scope.md "Numbers, bits and units", R2, R3). -/
namespace Sys2Proof.Machine

/-- The `n`-bit field at bit `lo` of a register. -/
def fld (w : Word) (lo n : Nat) : Nat := (w.toNat / 2 ^ lo) % 2 ^ n

/-- One bit of a register. -/
def bit (w : Word) (lo : Nat) : Bool := fld w lo 1 = 1

/-- A mask of `n` ones at bit `lo`. -/
def mask (lo n : Nat) : Word := BitVec.ofNat 32 ((2 ^ n - 1) * 2 ^ lo)

/-- `w` with its `n`-bit field at `lo` set to `v` (the value is cut to the field). -/
def setFld (w : Word) (lo n v : Nat) : Word :=
  (w &&& ~~~ mask lo n) ||| BitVec.ofNat 32 ((v % 2 ^ n) * 2 ^ lo)

/-- `w` with one bit set or cleared. -/
def setBit (w : Word) (lo : Nat) (b : Bool) : Word := setFld w lo 1 (if b then 1 else 0)

/-- The `n`-bit field at `lo` of a natural number. -/
def nfld (w lo n : Nat) : Nat := (w / 2 ^ lo) % 2 ^ n

/-- A flag as a number. -/
def b2n (b : Bool) : Nat := if b then 1 else 0

/-- Little-endian bytes of a number (R2). -/
def leBytes (n v : Nat) : List Byte :=
  match n with
  | 0 => []
  | k + 1 => BitVec.ofNat 8 v :: leBytes k (v / 256)

/-- Most-significant-byte-first bytes of a number (R3). -/
def beBytes (n v : Nat) : List Byte := (leBytes n v).reverse

/-- The number that little-endian bytes hold. -/
def leNat (bs : List Byte) : Nat :=
  match bs with
  | [] => 0
  | b :: r => b.toNat + 256 * leNat r

/-- The number that most-significant-first bytes hold. -/
def beNat (bs : List Byte) : Nat := bs.foldl (fun a b => a * 256 + b.toNat) 0

/-- `n` bytes from offset `k` of a structure, zeros past its end. -/
def bytesAt (bs : List Byte) (k n : Nat) : List Byte :=
  let t := (bs.drop k).take n
  t ++ List.replicate (n - t.length) 0

/-- A little-endian field of `n` bytes at byte offset `k`. -/
def leAt (bs : List Byte) (k n : Nat) : Nat := leNat (bytesAt bs k n)

/-- A most-significant-first field of `n` bytes at byte offset `k`. -/
def beAt (bs : List Byte) (k n : Nat) : Nat := beNat (bytesAt bs k n)

/-- `bs` with the bytes `v` written at offset `k`. -/
def patch (bs : List Byte) (k : Nat) (v : List Byte) : List Byte :=
  bs.take k ++ v ++ bs.drop (k + v.length)

/-- Cuts a list into pieces of `n` (the last may be shorter); `fuel` bounds the number of pieces. -/
def chunksOf {α : Type} (n : Nat) (fuel : Nat) (l : List α) : List (List α) :=
  match fuel with
  | 0 => []
  | f + 1 => if l.isEmpty then [] else l.take n :: chunksOf n f (l.drop n)

/-- Bits of bytes, most significant bit of each byte first (R3). -/
def bitsOf (bs : List Byte) : List Bool :=
  bs.flatMap (fun b => (List.range 8).map (fun i => b.getLsbD (7 - i)))

/-- Bytes of a bit sequence, most significant bit first; a short last byte is padded with zeros. -/
def bytesOfBits (bits : List Bool) : List Byte :=
  (chunksOf 8 bits.length bits).map (fun g =>
    BitVec.ofNat 8 ((g ++ List.replicate (8 - g.length) false).foldl (fun a b => 2 * a + b2n b) 0))

/-- Value cut to `lo … hi`: a value outside a stated range stores the nearer limit. -/
def clamp (lo hi v : Nat) : Nat := if v < lo then lo else if hi < v then hi else v

/-- Rounds `v` up to a multiple of `n`. -/
def roundUp (v n : Nat) : Nat := (v + n - 1) / n * n

/-- Ceiling division. -/
def cdiv (a b : Nat) : Nat := (a + b - 1) / b

/-- The signed reading of an `n`-bit number. -/
def sgn (n v : Nat) : Int := if v % 2 ^ n < 2 ^ (n - 1) then (v % 2 ^ n : Nat) else (v % 2 ^ n : Nat) - (2 ^ n : Nat)

/-- The two's complement of an integer in `n` bits. -/
def unsgn (n : Nat) (i : Int) : Nat := (i % (2 ^ n : Nat)).toNat

/-- Whether a counter of `n` bits that reads `a` has reached `b`, by signed difference. -/
def reached (n a b : Nat) : Bool := decide (0 ≤ sgn n (a + 2 ^ n - b % 2 ^ n))

/-- A number with its `n` bits in opposite order. -/
def bitRev (n v : Nat) : Nat :=
  (List.range n).foldl (fun a i => a * 2 + v / 2 ^ i % 2) 0

/-- Replaces entry `i` of a list. -/
def setAt {α : Type} (l : List α) (i : Nat) (v : α) : List α := l.take i ++ (if i < l.length then [v] else []) ++ l.drop (i + 1)

/-- Updates the first entry that satisfies `p`. -/
def updFirst {α : Type} (p : α → Bool) (f : α → α) (l : List α) : List α :=
  match l with
  | [] => []
  | x :: r => if p x then f x :: r else x :: updFirst p f r

/-- The Nat exclusive or of two bytes lists, entry by entry. -/
def xorBytes (a b : List Byte) : List Byte := List.zipWith (· ^^^ ·) a b

/-! ### Cyclic redundancy checks -/

/-- One byte of a bit-serial CRC of `w` bits, most significant bit first, generator `poly`. -/
def crcByte (w poly : Nat) (c : Nat) (b : Byte) : Nat :=
  (List.range 8).foldl (fun a i =>
    let top := (a / 2 ^ (w - 1) + b2n (b.getLsbD (7 - i))) % 2
    let sh := a * 2 % 2 ^ w
    if top = 1 then Nat.xor sh poly else sh) c

/-- A CRC of `w` bits over bytes, most significant bit first, from initial value `init`. -/
def crcMsb (w poly init : Nat) (bs : List Byte) : Nat := bs.foldl (crcByte w poly) init

/-- One byte of a reflected CRC of `w` bits (least significant bit first), `rpoly` the reversed generator. -/
def crcByteR (rpoly : Nat) (c : Nat) (b : Byte) : Nat :=
  (List.range 8).foldl (fun a i =>
    let low := (a + b2n (b.getLsbD i)) % 2
    if low = 1 then Nat.xor (a / 2) rpoly else a / 2) c

/-- A reflected CRC over bytes from initial value `init`. -/
def crcLsb (rpoly init : Nat) (bs : List Byte) : Nat := bs.foldl (crcByteR rpoly) init

/-- CRC-32C (Castagnoli), reflected, initial value and final inversion all ones (00_scope.md glossary). -/
def crc32c (bs : List Byte) : Nat := Nat.xor (crcLsb 0x82F63B78 0xFFFFFFFF bs) 0xFFFFFFFF

end Sys2Proof.Machine
end

