-- ==== Sys2Proof/Machine/Flags.lean ====
section
/-! DEFINITION. Floating-point arithmetic to the bit and its four sticky flags (02_reduction_arithmetic.md R28, R34,
R38, R39, R42, R45). A number is an exact dyadic value; an accumulator is the bit pattern of its format. -/
namespace Sys2Proof.Machine

/-! ### Flags (R38) -/

abbrev fNanIn : Nat := 1
abbrev fNanGen : Nat := 2
abbrev fOverflow : Nat := 4
abbrev fSaturated : Nat := 8

/-- Sticky flags together. -/
def orF (a b : Nat) : Nat := Nat.lor a b

/-! ### Formats with an exponent field (R27) -/

/-- What the largest exponent encodes: infinities and NaNs, one NaN pattern only (E4M3), or numbers only. -/
inductive TopExp where
  | ieee | nanOnly | finite
  deriving DecidableEq, Repr

/-- A floating-point format: exponent bits, mantissa bits, bias. -/
structure FFmt where
  eb : Nat
  mb : Nat
  bias : Nat
  top : TopExp
  deriving DecidableEq, Repr

abbrev fp32 : FFmt := ⟨8, 23, 127, .ieee⟩
abbrev bf16 : FFmt := ⟨8, 7, 127, .ieee⟩
abbrev fp16 : FFmt := ⟨5, 10, 15, .ieee⟩
abbrev e4m3 : FFmt := ⟨4, 3, 7, .nanOnly⟩
abbrev e5m2 : FFmt := ⟨5, 2, 15, .ieee⟩
abbrev e3m2 : FFmt := ⟨3, 2, 3, .finite⟩
abbrev e2m3 : FFmt := ⟨2, 3, 1, .finite⟩
abbrev e2m1 : FFmt := ⟨2, 1, 1, .finite⟩
abbrev fp64 : FFmt := ⟨11, 52, 1023, .ieee⟩

/-- The accumulation format: fp64 or fp32. -/
def accFmt (wide : Bool) : FFmt := if wide then fp64 else fp32

/-- Width of an element in bits. -/
def FFmt.width (f : FFmt) : Nat := 1 + f.eb + f.mb

/-- Exponent of the unit in the last place of subnormal values. -/
def FFmt.qmin (f : FFmt) : Int := 1 - (f.bias : Int) - f.mb

/-- Largest biased exponent of a finite value. -/
def FFmt.topField (f : FFmt) : Nat := match f.top with
  | .ieee => 2 ^ f.eb - 2
  | .nanOnly => 2 ^ f.eb - 1
  | .finite => 2 ^ f.eb - 1

/-- Significand and exponent of the largest finite magnitude. -/
def FFmt.maxSig (f : FFmt) : Nat := match f.top with
  | .nanOnly => 2 ^ (f.mb + 1) - 2
  | .ieee => 2 ^ (f.mb + 1) - 1
  | .finite => 2 ^ (f.mb + 1) - 1
def FFmt.maxExp (f : FFmt) : Int := (f.topField : Int) - f.bias - f.mb

/-- Exponent of the largest normal element value (R43). -/
def FFmt.emax (f : FFmt) : Int := (f.topField : Int) - f.bias

/-- The canonical NaN (R42). -/
def FFmt.nan (f : FFmt) : Nat := match f.top with
  | .ieee => (2 ^ f.eb - 1) * 2 ^ f.mb + 2 ^ (f.mb - 1)
  | .nanOnly => 2 ^ (f.eb + f.mb) - 1
  | .finite => 0

/-- Infinity of a sign, in a format that has one. -/
def FFmt.inf (f : FFmt) (neg : Bool) : Nat := b2n neg * 2 ^ (f.eb + f.mb) + (2 ^ f.eb - 1) * 2 ^ f.mb

/-- Largest finite magnitude of a sign. -/
def FFmt.maxFin (f : FFmt) (neg : Bool) : Nat :=
  b2n neg * 2 ^ (f.eb + f.mb) + f.topField * 2 ^ f.mb + (f.maxSig - 2 ^ f.mb)

/-! ### Exact values -/

/-- A value: NaN, an infinity, or `m` * 2^`e` with a sign. -/
inductive FV where
  | nan
  | inf (neg : Bool)
  | fin (neg : Bool) (m : Nat) (e : Int)
  deriving DecidableEq, Repr

/-- Whether the value is a NaN. -/
def FV.isNan (v : FV) : Bool := match v with
  | .nan => true
  | .inf _ => false
  | .fin _ _ _ => false

/-- Whether the value is finite. -/
def FV.isFin (v : FV) : Bool := match v with
  | .nan => false
  | .inf _ => false
  | .fin _ _ _ => true

/-- The value of a bit pattern, subnormals included (R28). -/
def FFmt.decode (f : FFmt) (w : Nat) : FV :=
  let neg := nfld w (f.eb + f.mb) 1 = 1
  let ex := nfld w f.mb f.eb
  let m := nfld w 0 f.mb
  if f.top = .ieee ∧ ex = 2 ^ f.eb - 1 then (if m = 0 then .inf neg else .nan)
  else if f.top = .nanOnly ∧ ex = 2 ^ f.eb - 1 ∧ m = 2 ^ f.mb - 1 then .nan
  else if ex = 0 then .fin neg m f.qmin
  else .fin neg (2 ^ f.mb + m) ((ex : Int) - f.bias - f.mb)

/-- Compares the magnitudes `m1` * 2^`e1` and `m2` * 2^`e2`: less. -/
def magLt (m1 : Nat) (e1 : Int) (m2 : Nat) (e2 : Int) : Bool :=
  decide (m1 * 2 ^ (e1 - e2).toNat < m2 * 2 ^ (e2 - e1).toNat)

/-- Less or equal. -/
def magLe (m1 : Nat) (e1 : Int) (m2 : Nat) (e2 : Int) : Bool := !magLt m2 e2 m1 e1

/-- ⌊log2⌋ of a non-zero magnitude. -/
def magLog2 (m : Nat) (e : Int) : Int := (Nat.log2 m : Int) + e

/-! ### Rounding (R34, R39) -/

/-- A rounding mode: to nearest-even, or stochastic with its 16 random bits. -/
inductive Rnd where
  | rne
  | sr (r : Nat)
  deriving DecidableEq, Repr

/-- Chooses `k` or `k` + 1 for a discarded part of `rem` out of `den`. -/
def Rnd.pick (r : Rnd) (k rem den : Nat) : Nat :=
  if rem = 0 then k
  else match r with
    | .rne => if den < 2 * rem ∨ (den = 2 * rem ∧ k % 2 = 1) then k + 1 else k
    | .sr bits => if 65536 ≤ 65536 * rem / den + bits then k + 1 else k

/-- A non-zero magnitude on the target's grid, whose exponents have no upper limit: significand and exponent. -/
def FFmt.grid (f : FFmt) (r : Rnd) (m : Nat) (e : Int) : Nat × Int :=
  let q := max (magLog2 m e - f.mb) f.qmin
  if q ≤ e then (m * 2 ^ (e - q).toNat, q)
  else
    let den := 2 ^ (q - e).toNat
    (r.pick (m / den) (m % den) den, q)

/-- The bit pattern of a magnitude on the grid and within the finite range. -/
def FFmt.pack (f : FFmt) (neg : Bool) (k : Nat) (q : Int) : Nat :=
  let s := b2n neg * 2 ^ (f.eb + f.mb)
  if k < 2 ^ f.mb then s + k
  else
    let (k, q) := if k = 2 ^ (f.mb + 1) then (2 ^ f.mb, q + 1) else (k, q)
    s + (q + f.bias + f.mb).toNat * 2 ^ f.mb + (k - 2 ^ f.mb)

/-- A cast (R42): the target's bits and the flags. A NaN becomes the canonical NaN. -/
def FFmt.cast (f : FFmt) (sat : Bool) (r : Rnd) (v : FV) : Nat × Nat :=
  match v with
  | .nan => (f.nan, 0)
  | .inf neg => if sat ∨ f.top ≠ .ieee then (f.maxFin neg, fSaturated) else (f.inf neg, 0)
  | .fin neg m e =>
    if m = 0 then (f.pack neg 0 f.qmin, 0)
    else
      let (k, q) := f.grid r m e
      if magLt f.maxSig f.maxExp k q then
        (if sat ∨ f.top ≠ .ieee then (f.maxFin neg, fSaturated) else (f.inf neg, fOverflow))
      else (f.pack neg k q, 0)

/-- An arithmetic result: rounded once to nearest-even; beyond range an infinity with OVERFLOW (R34, R38). -/
def FFmt.round (f : FFmt) (v : FV) : Nat × Nat := f.cast false .rne v

/-! ### Exact arithmetic -/

/-- The exact product; 0 × ∞ is NaN. -/
def FV.mul (a b : FV) : FV :=
  match a, b with
  | .nan, _ => .nan
  | _, .nan => .nan
  | .inf s, .inf t => .inf (s != t)
  | .inf s, .fin t m _ => if m = 0 then .nan else .inf (s != t)
  | .fin s m _, .inf t => if m = 0 then .nan else .inf (s != t)
  | .fin s m e, .fin t n g => .fin (s != t) (m * n) (e + g)

/-- The exact sum; ∞ − ∞ is NaN; an exact zero sum is +0 unless both terms are −0. -/
def FV.add (a b : FV) : FV :=
  match a, b with
  | .nan, _ => .nan
  | _, .nan => .nan
  | .inf s, .inf t => if s = t then .inf s else .nan
  | .inf s, .fin _ _ _ => .inf s
  | .fin _ _ _, .inf t => .inf t
  | .fin s m e, .fin t n g =>
    let q := min e g
    let x : Int := m * 2 ^ (e - q).toNat
    let y : Int := n * 2 ^ (g - q).toNat
    let z := (if s then -x else x) + (if t then -y else y)
    if z = 0 then .fin (if m = 0 ∧ n = 0 then s && t else false) 0 q
    else .fin (decide (z < 0)) z.natAbs q

/-- The opposite. -/
def FV.neg (a : FV) : FV := match a with
  | .nan => .nan
  | .inf s => .inf (!s)
  | .fin s m e => .fin (!s) m e

/-- Whether `a` is less than `b`; false for NaN, and −0 is not less than +0. -/
def FV.lt (a b : FV) : Bool :=
  match a, b with
  | .nan, _ => false
  | _, .nan => false
  | .inf s, .inf t => s && !t
  | .inf s, .fin _ _ _ => s
  | .fin _ _ _, .inf t => !t
  | .fin s m e, .fin t n g =>
    if m = 0 ∧ n = 0 then false
    else if m = 0 then !t
    else if n = 0 then s
    else if s != t then s
    else if s then magLt n g m e else magLt m e n g

/-- Sign of a value other than NaN. -/
def FV.isNeg (a : FV) : Bool := match a with
  | .nan => false
  | .inf s => s
  | .fin s _ _ => s

/-- Whether the value is a zero. -/
def FV.isZero (a : FV) : Bool := match a with
  | .nan => false
  | .inf _ => false
  | .fin _ m _ => m = 0

/-- Flag of a NaN result from operands of which none is NaN (R34). -/
def genFlag (ops : List FV) (r : FV) : Nat := if r.isNan && ops.all (fun o => !o.isNan) then fNanGen else 0

/-! ### Operations on accumulators (R34, R45) -/

/-- `a` + `b`. -/
def fAdd (w : Bool) (a b : Nat) : Nat × Nat :=
  let x := (accFmt w).decode a
  let y := (accFmt w).decode b
  let z := x.add y
  let (r, f) := (accFmt w).round z
  (r, orF f (genFlag [x, y] z))

/-- `a` · `b`. -/
def fMul (w : Bool) (a b : Nat) : Nat × Nat :=
  let x := (accFmt w).decode a
  let y := (accFmt w).decode b
  let z := x.mul y
  let (r, f) := (accFmt w).round z
  (r, orF f (genFlag [x, y] z))

/-- `a` · `b` + `c`, fused. -/
def fFma (w : Bool) (a b c : Nat) : Nat × Nat :=
  let x := (accFmt w).decode a
  let y := (accFmt w).decode b
  let u := (accFmt w).decode c
  let z := (x.mul y).add u
  let (r, f) := (accFmt w).round z
  (r, orF f (genFlag [x, y, u] z))

/-- `a` · `x` + `b` · `y`, computed exactly and rounded once. -/
def fAxpby (w : Bool) (a x b y : Nat) : Nat × Nat :=
  let a := (accFmt w).decode a
  let x := (accFmt w).decode x
  let b := (accFmt w).decode b
  let y := (accFmt w).decode y
  let z := (a.mul x).add (b.mul y)
  let (r, f) := (accFmt w).round z
  (r, orF f (genFlag [a, x, b, y] z))

/-- The larger operand: NaN for a NaN, +0 over −0 (R34). -/
def fMax (w : Bool) (a b : Nat) : Nat :=
  let x := (accFmt w).decode a
  let y := (accFmt w).decode b
  if x.isNan || y.isNan then (accFmt w).nan
  else if x.isZero && y.isZero then (if x.isNeg then b else a)
  else if x.lt y then b else a

/-- The smaller operand: NaN for a NaN, −0 over +0 (R34). -/
def fMin (w : Bool) (a b : Nat) : Nat :=
  let x := (accFmt w).decode a
  let y := (accFmt w).decode b
  if x.isNan || y.isNan then (accFmt w).nan
  else if x.isZero && y.isZero then (if x.isNeg then a else b)
  else if y.lt x then b else a

/-- min(max(`a`, `lo`), `hi`); a NaN in `a` stays NaN (R78). -/
def fClamp (w : Bool) (a lo hi : Nat) : Nat := fMin w (fMax w a lo) hi

/-- The condition of SELECT (R78): 0 A > 0, 1 A ≥ 0, 2 A is NaN, 3 A = 0. -/
def fCond (w : Bool) (c a : Nat) : Bool :=
  let x := (accFmt w).decode a
  if c = 0 then FV.lt (.fin false 0 0) x
  else if c = 1 then x.isZero || FV.lt (.fin false 0 0) x
  else if c = 2 then x.isNan
  else x.isZero

/-- The magnitude `m` * 2^`e` divided by `n` * 2^`g`, cut to enough bits that one rounding of it to any format of at
most 64 bits is the rounding of the quotient. -/
def quotient (m : Nat) (e : Int) (n : Nat) (g : Int) : Nat × Int :=
  let sh : Nat := 200
  let x := m * 2 ^ sh
  let q := x / n
  (2 * q + b2n (x % n ≠ 0), e - g - sh - 1)

/-- `a` divided by `b` as exact values, with a sticky last bit. -/
def FV.div (a b : FV) : FV :=
  match a, b with
  | .nan, _ => .nan
  | _, .nan => .nan
  | .inf _, .inf _ => .nan
  | .inf s, .fin t _ _ => .inf (s != t)
  | .fin s _ _, .inf t => .fin (s != t) 0 0
  | .fin s m e, .fin t n g =>
    if n = 0 then (if m = 0 then .nan else .inf (s != t))
    else
      let (k, q) := quotient m e n g
      .fin (s != t) k q

/-- `a` divided once by a leaf count, correctly rounded (R35). -/
def fAvg (w : Bool) (a n : Nat) : Nat × Nat :=
  (accFmt w).round (((accFmt w).decode a).div (.fin false n 0))

/-- Unit roundoff's exponent: 24 or 53. -/
def uBits (w : Bool) : Nat := if w then 53 else 24

/-- Square of a magnitude times another, compared with the bounds of RSQRT: whether `y`² · `x` lies within (1 ± 2u)². -/
def rsqrtOk (w : Bool) (my : Nat) (ey : Int) (mx : Nat) (ex : Int) : Bool :=
  let p := my * my * mx
  let e := ey + ey + ex
  let one : Nat := 2 ^ (uBits w - 1)
  magLe ((one - 1) * (one - 1)) (2 - 2 * (uBits w : Int)) p e && magLe p e ((one + 1) * (one + 1)) (2 - 2 * (uBits w : Int))

/-- Integer square root, by `fuel` steps of bisection between `lo` and `hi`. -/
def isqrtGo (n lo hi fuel : Nat) : Nat :=
  match fuel with
  | 0 => lo
  | k + 1 =>
    let mid := (lo + hi) / 2
    if hi ≤ lo + 1 then lo
    else if mid * mid ≤ n then isqrtGo n mid hi k else isqrtGo n lo mid k

/-- 1/√(`m` * 2^`e`) with a sticky last bit. -/
def rsqrtExact (m : Nat) (e : Int) : Nat × Int :=
  let (m, e) := if e % 2 = 0 then (m, e) else (2 * m, e - 1)
  let sh : Nat := 150
  let n := 2 ^ (2 * sh) / m
  let r := isqrtGo n 0 (2 ^ (Nat.log2 n / 2 + 1)) 200
  (2 * r + 1, -(e / 2) - sh - 1)

/-- 1/√`a` (R45). For a positive finite operand the result is a free value within 2u of the exact one (log 7). -/
def fRsqrt (w : Bool) (a : Nat) : Nat × Nat :=
  match (accFmt w).decode a with
  | .nan => ((accFmt w).nan, 0)
  | .inf neg => if neg then ((accFmt w).nan, fNanGen) else (0, 0)
  | .fin neg m e =>
    if m = 0 then ((accFmt w).inf neg, 0)
    else if neg then ((accFmt w).nan, fNanGen)
    else
      match (accFmt w).decode (Config.rsqrt w a % 2 ^ (accFmt w).width) with
      | .fin false my ey =>
        if rsqrtOk w my ey m e then (Config.rsqrt w a % 2 ^ (accFmt w).width, 0)
        else (accFmt w).round (.fin false (rsqrtExact m e).1 (rsqrtExact m e).2)
      | _ => (accFmt w).round (.fin false (rsqrtExact m e).1 (rsqrtExact m e).2)

/-- The exact sum of the squares of a list of values. -/
def sumSquares (vs : List FV) : FV := vs.foldl (fun a v => a.add (v.mul v)) (.fin false 0 0)

/-- Whether a magnitude lies within `k` · u of a sum of squares: |y − s| ≤ k·u·s. -/
def norm2Ok (w : Bool) (k my : Nat) (ey : Int) (ms : Nat) (es : Int) : Bool :=
  let one : Nat := 2 ^ uBits w
  let u : Int := uBits w
  magLe ((one - k) * ms) (es - u) my ey && magLe my ey ((one + k) * ms) (es - u)

/-- NORM2_PARTIAL over a chunk's elements (R45): the tree's order is not stated, so a finite sum is a free value within
the stated bound (log 7). -/
def fNorm2 (w : Bool) (xs : List Nat) : Nat × Nat :=
  let vs := xs.map (accFmt w).decode
  let s := sumSquares vs
  let r := (accFmt w).round s
  match s, (accFmt w).decode (Config.norm2 w xs % 2 ^ (accFmt w).width) with
  | .fin _ ms es, .fin false my ey =>
    if norm2Ok w xs.length my ey ms es && r.2 = 0 then (Config.norm2 w xs % 2 ^ (accFmt w).width, 0) else r
  | _, _ => r

end Sys2Proof.Machine
end

