-- ==== Sys2Proof/Machine/Operands.lean ====
section
/-! DEFINITION. The fields of a descriptor (03_command_lists_and_step_programs.md R64, R70, "Transfers"), the chunk
layout of every format (02_reduction_arithmetic.md R27, R30-R32), and decode and cast of whole chunks
(R28, R29, R39-R44). -/
namespace Sys2Proof.Machine

/-! ### Descriptor fields -/

/-- A 64-byte descriptor. -/
abbrev Desc := List Byte

/-- One byte of a descriptor. -/
def Desc.byte (d : Desc) (k : Nat) : Nat := (d.getD k 0).toNat

def Desc.opcode (d : Desc) : Nat := d.byte 0
def Desc.irq (d : Desc) : Bool := nfld (d.byte 1) 0 1 = 1
def Desc.fence (d : Desc) : Bool := nfld (d.byte 1) 1 1 = 1
def Desc.waitEn (d : Desc) : Bool := nfld (d.byte 1) 2 1 = 1
def Desc.guard (d : Desc) : Bool := nfld (d.byte 1) 3 1 = 1
def Desc.signalEn (d : Desc) : Bool := nfld (d.byte 1) 4 1 = 1
def Desc.timed (d : Desc) : Bool := nfld (d.byte 1) 5 1 = 1
def Desc.phaseId (d : Desc) : Nat := nfld (d.byte 2) 0 4
def Desc.ver (d : Desc) : Nat := d.byte 3
def Desc.waitToken (d : Desc) : Nat := d.byte 4
def Desc.signalToken (d : Desc) : Nat := d.byte 5
def Desc.userTag (d : Desc) : Nat := leAt d 6 2
def Desc.waitValue (d : Desc) : Nat := leAt d 8 4
def Desc.startTime (d : Desc) : Nat := leAt d 16 8
def Desc.group (d : Desc) : Nat := nfld (leAt d 24 2) 0 12
def Desc.redOp (d : Desc) : Nat := d.byte 26
def Desc.wide (d : Desc) : Bool := nfld (d.byte 27) 0 1 = 1
def Desc.compress (d : Desc) : Bool := nfld (d.byte 27) 1 1 = 1
def Desc.inFmt (d : Desc) : Nat := nfld (d.byte 28) 0 4
def Desc.outFmt (d : Desc) : Nat := nfld (d.byte 28) 4 4
def Desc.stateFmt (d : Desc) : Nat := nfld (d.byte 29) 0 4
def Desc.partFmtField (d : Desc) : Nat := nfld (d.byte 29) 4 4
def Desc.outSr (d : Desc) : Bool := nfld (d.byte 30) 0 1 = 1
def Desc.outSat (d : Desc) : Bool := nfld (d.byte 30) 1 1 = 1
def Desc.stateSr (d : Desc) : Bool := nfld (d.byte 30) 2 1 = 1
def Desc.stateSat (d : Desc) : Bool := nfld (d.byte 30) 3 1 = 1
def Desc.partEn (d : Desc) : Bool := nfld (d.byte 30) 4 1 = 1
def Desc.partSr (d : Desc) : Bool := nfld (d.byte 30) 5 1 = 1
def Desc.partSat (d : Desc) : Bool := nfld (d.byte 30) 6 1 = 1
def Desc.prog (d : Desc) : Nat := d.byte 31
def Desc.elements (d : Desc) : Nat := leAt d 32 8
def Desc.stateAddr (d : Desc) : Nat := leAt d 40 8
def Desc.localAddr (d : Desc) : Nat := leAt d 48 8
def Desc.scalarBase (d : Desc) : Nat := d.byte 56
def Desc.aux (d : Desc) : Nat := d.byte 57
def Desc.inst (d : Desc) : Nat := leAt d 60 4
def Desc.uAddr (d : Desc) : Nat := leAt d 58 6
def Desc.src (d : Desc) : Nat := leAt d 24 8
def Desc.dst (d : Desc) : Nat := leAt d 32 8
def Desc.bytes (d : Desc) : Nat := leAt d 40 8
def Desc.pattern (d : Desc) : Nat := leAt d 48 4

/-- The format of an intermediate partial (R37). -/
def Desc.partFmt (d : Desc) : Nat := if d.partEn then d.partFmtField else if d.wide then 0xB else 0x0

/-! ### Layout of formats (R30) -/

/-- A format's layout: elements per block (1 for an unscaled format), bits per element, bytes of a scale, elements of a
full chunk. -/
structure Layout where
  block : Nat
  bits : Nat
  scale : Nat
  full : Nat
  deriving DecidableEq, Repr

/-- The layout of a format code. -/
def layoutOf (code : Nat) : Layout :=
  match code with
  | 0x0 => ⟨1, 32, 0, 16384⟩
  | 0x1 => ⟨1, 16, 0, 32768⟩
  | 0x2 => ⟨1, 16, 0, 32768⟩
  | 0x3 => ⟨1, 8, 0, 65536⟩
  | 0x4 => ⟨1, 8, 0, 65536⟩
  | 0x5 => ⟨32, 8, 1, 63488⟩
  | 0x6 => ⟨32, 8, 1, 63488⟩
  | 0x7 => ⟨32, 6, 1, 81920⟩
  | 0x8 => ⟨32, 6, 1, 81920⟩
  | 0x9 => ⟨32, 4, 1, 122880⟩
  | 0xA => ⟨64, 8, 4, 61440⟩
  | _ => ⟨1, 64, 0, 8192⟩

/-- The element format of an unscaled or MX format code. -/
def elemFmt (code : Nat) : FFmt :=
  match code with
  | 0x0 => fp32
  | 0x1 => bf16
  | 0x2 => fp16
  | 0x3 => e4m3
  | 0x4 => e5m2
  | 0x5 => e4m3
  | 0x6 => e5m2
  | 0x7 => e3m2
  | 0x8 => e2m3
  | 0x9 => e2m1
  | _ => fp64

/-- Chunks of an operand of `n` elements. -/
def chunkCount (code n : Nat) : Nat := cdiv n (layoutOf code).full

/-- Elements of chunk `c` of an operand of `n` elements (R32). -/
def chunkElems (code n c : Nat) : Nat := min (layoutOf code).full (n - c * (layoutOf code).full)

/-- Bytes of a chunk that holds `n` elements: 65,536 for a full chunk, else element and scale areas (R30, R32). -/
def chunkBytes (code n : Nat) : Nat :=
  let l := layoutOf code
  if n = l.full then 65536 else cdiv n l.block * (l.block * l.bits / 8 + l.scale)

/-- Bytes of a chunk's elements where all of them travel in one message, be they more than a full chunk of the format
(log 21). -/
def partBytes (code n : Nat) : Nat := n * ((layoutOf code).bits / 8)

/-- Byte size of an element of a state format. -/
def fmtBytes (code : Nat) : Nat := (layoutOf code).bits / 8

/-! ### Decode (R28) -/

/-- One value into the accumulation format: exact, or rounded once where it does not fit (R28). -/
def toAcc (w : Bool) (v : FV) : Nat × Nat :=
  let (a, f) := (accFmt w).round v
  (a, orF f (if v.isNan then fNanIn else 0))

/-- Several results with their flags together. -/
def gather (rs : List (Nat × Nat)) : List Nat × Nat := (rs.map (·.1), rs.foldl (fun f r => orF f r.2) 0)

/-- Decodes unscaled elements, from the front of the bytes. -/
def decodePlain (w : Bool) (f : FFmt) (n : Nat) (bs : List Byte) : List Nat × Nat :=
  gather (((chunksOf (f.width / 8) n bs).take n).map (fun e => toAcc w (f.decode (leNat e))))

/-- A finite value scaled by a power of two. -/
def scaleBy (v : FV) (x : Int) : FV := match v with
  | .nan => .nan
  | .inf s => .inf s
  | .fin s m e => .fin s m (e + x)

/-- One MX block: its element bytes, its scale byte, and how many elements are used. -/
def decodeMx (w : Bool) (f : FFmt) (scale n : Nat) (bs : List Byte) : List Nat × Nat :=
  let word := leNat bs
  gather ((List.range n).map (fun j =>
    if scale = 0xFF then ((accFmt w).nan, fNanIn)
    else toAcc w (scaleBy (f.decode (nfld word (j * f.width) f.width)) ((scale : Int) - 127))))

/-- A two's-complement byte as a value. -/
def int8 (b : Nat) : FV := if b < 128 then .fin false b 0 else .fin true (256 - b) 0

/-- One INT8_BS block. -/
def decodeInt8 (w : Bool) (scale n : Nat) (bs : List Byte) : List Nat × Nat :=
  let s := fp32.decode scale
  gather ((bs.take n).map (fun b =>
    let x := int8 b.toNat
    let p := x.mul s
    if s.isNan then ((accFmt w).nan, fNanIn)
    else if p.isNan then ((accFmt w).nan, fNanGen)
    else (accFmt w).round p))

/-- Decodes the blocks of a scaled format from block `b` on. -/
def decodeBlocks (w : Bool) (code n b fuel : Nat) (elems scales : List Byte) : List Nat × Nat :=
  match fuel with
  | 0 => ([], 0)
  | k + 1 =>
    let l := layoutOf code
    let cnt := min l.block (n - b * l.block)
    let size := l.block * l.bits / 8
    let s := leNat (scales.take l.scale)
    let (xs, f) := if code = 0xA then decodeInt8 w s cnt (elems.take size)
      else decodeMx w (elemFmt code) s cnt (elems.take size)
    let (ys, g) := decodeBlocks w code n (b + 1) k (elems.drop size) (scales.drop l.scale)
    (xs ++ ys, orF f g)

/-- Decodes `n` elements of a chunk into accumulators, with the flags (R28, R30-R32). -/
def decodeElems (w : Bool) (code n : Nat) (bs : List Byte) : List Nat × Nat :=
  let l := layoutOf code
  if l.scale = 0 then decodePlain w (elemFmt code) n bs
  else
    let blocks := cdiv n l.block
    decodeBlocks w code n 0 blocks bs (bs.drop (blocks * (l.block * l.bits / 8)))

/-! ### Casts (R39-R44) -/

/-- The rounding mode of a cast for each element: SR draws by key, instance, chunk, element and selector. -/
def castRnd (sr : Bool) (key inst chunk sel j : Nat) : Rnd :=
  if sr then .sr (Config.srBits key inst chunk j sel % 65536) else .rne

/-- What a cast gives: the bytes (elements, then scales), the values held in the accumulation format, the flags. -/
structure Cast where
  elems : List Byte := []
  scales : List Byte := []
  held : List Nat := []
  flags : Nat := 0
  deriving DecidableEq, Repr

/-- Casts to an unscaled format, from element `j` on. -/
def castPlain (w : Bool) (f : FFmt) (sat : Bool) (rnd : Nat → Rnd) (j : Nat) (xs : List Nat) : Cast :=
  match xs with
  | [] => {}
  | x :: r =>
    let (q, g) := f.cast sat (rnd j) ((accFmt w).decode x)
    let t := castPlain w f sat rnd (j + 1) r
    { elems := leBytes (f.width / 8) q ++ t.elems, held := ((accFmt w).round (f.decode q)).1 :: t.held,
      flags := orF g t.flags }

/-- The largest magnitude of finite values. -/
def maxMag (vs : List FV) : Nat × Int :=
  vs.foldl (fun a v => match v with
    | .fin _ m e => if magLt a.1 a.2 m e then (m, e) else a
    | .nan => a
    | .inf _ => a) (0, 0)

/-- Flags of a block that holds a NaN or an infinity (R43, R44). -/
def blockBad (vs : List FV) : Nat :=
  vs.foldl (fun f v => match v with
    | .nan => orF f fNanGen
    | .inf _ => orF f fOverflow
    | .fin _ _ _ => f) 0

/-- Packs elements of `bits` bits into the bytes of a block of `n` elements (R31). -/
def packBlock (bits n : Nat) (qs : List Nat) : List Byte :=
  leBytes (n * bits / 8) ((qs.zipIdx.map (fun e => e.1 * 2 ^ (e.2 * bits))).sum)

/-- Casts one block to an MX format (R43), its first element being element `j` of the chunk. -/
def castMx (w : Bool) (f : FFmt) (rnd : Nat → Rnd) (j : Nat) (xs : List Nat) : Cast :=
  let vs := xs.map (accFmt w).decode
  let bad := blockBad vs
  if bad ≠ 0 then
    { elems := List.replicate (32 * f.width / 8) 0, scales := [0xFF#8], held := xs.map (fun _ => (accFmt w).nan), flags := bad }
  else
    let a := maxMag vs
    let x : Int := if a.1 = 0 then -127 else min 127 (max (-127) (magLog2 a.1 a.2 - f.emax))
    let qs := (vs.zipIdx).map (fun e => f.cast true (rnd (j + e.2)) (scaleBy e.1 (-x)))
    { elems := packBlock f.width 32 (qs.map (·.1)), scales := [BitVec.ofNat 8 (x + 127).toNat],
      held := qs.map (fun q => ((accFmt w).round (scaleBy (f.decode q.1) x)).1),
      flags := qs.foldl (fun g q => orF g q.2) 0 }

/-- A finite value rounded to an integer and clamped to 127 in magnitude: its two's complement byte and flags (R44). -/
def toInt8 (r : Rnd) (v : FV) : Nat × Nat :=
  match v with
  | .nan => (0, 0)
  | .inf s => (if s then 129 else 127, fSaturated)
  | .fin s m e =>
    let k := if 0 ≤ e then m * 2 ^ e.toNat else r.pick (m / 2 ^ (-e).toNat) (m % 2 ^ (-e).toNat) (2 ^ (-e).toNat)
    let c := min k 127
    (if s ∧ c ≠ 0 then 256 - c else c, if 127 < k then fSaturated else 0)

/-- Casts one block to INT8_BS (R44). -/
def castInt8 (w : Bool) (rnd : Nat → Rnd) (j : Nat) (xs : List Nat) : Cast :=
  let vs := xs.map (accFmt w).decode
  let bad := blockBad vs
  if bad ≠ 0 then
    { elems := List.replicate 64 0, scales := leBytes 4 fp32.nan, held := xs.map (fun _ => (accFmt w).nan), flags := bad }
  else
    let a := maxMag vs
    let (s, g) := fp32.cast true .rne (FV.div (.fin false a.1 a.2) (.fin false 127 0))
    let sv := fp32.decode s
    if sv.isZero then
      { elems := List.replicate 64 0, scales := leBytes 4 0, held := xs.map (fun _ => 0), flags := 0 }
    else
      let qs := (vs.zipIdx).map (fun e =>
        let y := (accFmt w).round (e.1.div sv)
        let (c, f) := toInt8 (rnd (j + e.2)) ((accFmt w).decode y.1)
        let h := (accFmt w).round ((int8 c).mul sv)
        (c, h.1, orF f (orF y.2 h.2)))
      { elems := qs.map (fun q => BitVec.ofNat 8 q.1) ++ List.replicate (64 - qs.length) 0, scales := leBytes 4 s,
        held := qs.map (fun q => q.2.1), flags := qs.foldl (fun f q => orF f q.2.2) g }

/-- Casts blocks of a scaled format, from element `j` on. -/
def castBlocks (w : Bool) (code : Nat) (rnd : Nat → Rnd) (j fuel : Nat) (xs : List Nat) : Cast :=
  match fuel with
  | 0 => {}
  | k + 1 =>
    let n := (layoutOf code).block
    let b := if code = 0xA then castInt8 w rnd j (xs.take n) else castMx w (elemFmt code) rnd j (xs.take n)
    let t := castBlocks w code rnd (j + n) k (xs.drop n)
    { elems := b.elems ++ t.elems, scales := b.scales ++ t.scales, held := b.held ++ t.held, flags := orF b.flags t.flags }

/-- Casts a list of accumulators to a format. -/
def castElems (w : Bool) (code : Nat) (sat : Bool) (rnd : Nat → Rnd) (xs : List Nat) : Cast :=
  if (layoutOf code).scale = 0 then castPlain w (elemFmt code) sat rnd 0 xs
  else castBlocks w code rnd 0 (cdiv xs.length (layoutOf code).block) xs

/-- The bytes of a chunk in memory: elements, scales, and zero padding after a full chunk (R30, R32). -/
def Cast.chunk (c : Cast) (code n : Nat) : List Byte :=
  let bs := c.elems ++ c.scales
  bs ++ List.replicate (chunkBytes code n - bs.length) 0

end Sys2Proof.Machine
end

