-- ==== Sys2Proof/Machine/Sparse.lean ====
section
/-! DEFINITION. Sparse maps in one canonical form: keys strictly rising, and no entry equal to what an
unlisted key reads as, so that equal maps are equal lists. -/
namespace Sys2Proof.Machine

/-- A map from numbers, listed by rising key; what an unlisted key reads as is given by each reader. -/
abbrev Sparse (V : Type) := List (Nat × V)

/-- The value at key `k`; `d` says what an unlisted key reads as. -/
def Sparse.get {V : Type} (d : Nat → V) (m : Sparse V) (k : Nat) : V :=
  match m with
  | [] => d k
  | (a, v) :: r => if a = k then v else Sparse.get d r k

/-- Places `v` at `k`, keeping the keys rising. -/
def Sparse.insert {V : Type} (m : Sparse V) (k : Nat) (v : V) : Sparse V :=
  match m with
  | [] => [(k, v)]
  | (a, w) :: r =>
    if a < k then (a, w) :: Sparse.insert r k v
    else if a = k then (k, v) :: r
    else (k, v) :: (a, w) :: r

/-- Removes whatever is listed at `k`. -/
def Sparse.erase {V : Type} (m : Sparse V) (k : Nat) : Sparse V :=
  m.filter (fun e => e.1 != k)

/-- Writes `v` at `k`; writing what an unlisted key reads as removes the entry. -/
def Sparse.put {V : Type} [DecidableEq V] (d : Nat → V) (m : Sparse V) (k : Nat) (v : V) : Sparse V :=
  if v = d k then Sparse.erase m k else Sparse.insert m k v

/-- Every listed key is above `lo`, the keys rise, and no entry is what an unlisted key reads as. -/
def Sparse.wfFrom {V : Type} [DecidableEq V] (d : Nat → V) (lo : Nat) (m : Sparse V) : Bool :=
  match m with
  | [] => true
  | (a, v) :: r => decide (lo ≤ a) && decide (v ≠ d a) && Sparse.wfFrom d (a + 1) r

/-- The canonical form. -/
def Sparse.wf {V : Type} [DecidableEq V] (d : Nat → V) (m : Sparse V) : Bool :=
  Sparse.wfFrom d 0 m

/-- Writes the values of a list at consecutive keys from `k`. -/
def Sparse.putList {V : Type} [DecidableEq V] (d : Nat → V) (m : Sparse V) (k : Nat) (vs : List V) : Sparse V :=
  match vs with
  | [] => m
  | v :: r => Sparse.putList d (Sparse.put d m k v) (k + 1) r

/-- Reads `n` consecutive keys from `k`. -/
def Sparse.getList {V : Type} (d : Nat → V) (m : Sparse V) (k n : Nat) : List V :=
  (List.range n).map (fun i => Sparse.get d m (k + i))

end Sys2Proof.Machine
end

