-- ==== Sys2Proof/Machine/Programs.lean ====
section
/-! DEFINITION. Step programs: encoding, the rules of COMMIT, the built-in templates and their execution
(03_command_lists_and_step_programs.md R76-R80; 02_reduction_arithmetic.md R45). -/
namespace Sys2Proof.Machine

/-- An instruction word of a program slot, by its fields (R77). -/
structure PIns where
  op : Nat
  dst : Nat := 0
  a : Nat := 0
  b : Nat := 0
  c : Nat := 0
  sa : Nat := 0
  sb : Nat := 0
  sc : Nat := 0
  fmt : Nat := 0
  rnd : Nat := 0
  sat : Nat := 0
  rest : Nat := 0
  deriving DecidableEq, Repr

/-- The fields of a 64-bit instruction word (R77). -/
def PIns.ofWord (w : Nat) : PIns :=
  { op := nfld w 0 8, dst := nfld w 8 4, a := nfld w 12 4, b := nfld w 16 4, c := nfld w 20 4, sa := nfld w 24 5,
    sb := nfld w 29 5, sc := nfld w 34 5, fmt := nfld w 39 4, rnd := nfld w 43 1, sat := nfld w 44 1, rest := nfld w 45 19 }

/-- Which fields an operation uses (R78): DST, sources A, B, C, scalars A, B by themselves, FMT, RND and SAT. -/
structure PUse where
  dst : Bool := false
  a : Bool := false
  b : Bool := false
  c : Bool := false
  sa : Bool := false
  sb : Bool := false
  fmt : Bool := false
  cast : Bool := false
  deriving DecidableEq, Repr

/-- The fields used by each operation code, none for a reserved one. -/
def pUse (op : Nat) : Option PUse :=
  match op with
  | 0x00 => some {}
  | 0x01 => some { dst := true, a := true, b := true, sa := true, sb := true }
  | 0x02 => some { dst := true, a := true, b := true, c := true }
  | 0x03 => some { dst := true, a := true, b := true }
  | 0x04 => some { dst := true, a := true }
  | 0x05 => some { dst := true, a := true, sa := true, sb := true }
  | 0x06 => some { dst := true, a := true, fmt := true, cast := true }
  | 0x07 => some { dst := true, a := true, c := true, fmt := true, cast := true }
  | 0x08 => some { a := true }
  | 0x09 => some { dst := true, a := true, b := true, c := true, fmt := true }
  | _ => none

/-- Register codes that are reserved as a source or destination. -/
def regReserved (r : Nat) : Bool := decide (9 ≤ r) && decide (r ≤ 14)

/-- The source registers that an instruction reads. -/
def PIns.sources (i : PIns) : List Nat :=
  match pUse i.op with
  | none => []
  | some u => (if u.a then [i.a] else []) ++ (if u.b then [i.b] else []) ++ (if u.c then [i.c] else [])

/-- The registers that an instruction writes: DST, and C for QUANT_EF. -/
def PIns.writes (i : PIns) : List Nat :=
  match pUse i.op with
  | none => []
  | some u => (if u.dst then [i.dst] else []) ++ (if i.op = 7 then [i.c] else [])

/-- The scalar indexes that an instruction reads. -/
def PIns.scalars (i : PIns) : List Nat :=
  match pUse i.op with
  | none => []
  | some u => (if u.sa ∨ (u.a ∧ i.a = 15) then [i.sa] else []) ++ (if u.sb ∨ (u.b ∧ i.b = 15) then [i.sb] else []) ++
      (if u.c ∧ i.c = 15 then [i.sc] else [])

/-- The instructions of a slot up to its first END. -/
def progOf (words : List Nat) : List PIns := ((words.take 64).map PIns.ofWord).takeWhile (fun i => i.op ≠ 0)

/-- Reason 0x01 of R79. -/
def PIns.bad1 (i : PIns) : Bool :=
  match pUse i.op with
  | none => true
  | some u =>
    decide (i.rest ≠ 0) || (!u.dst && decide (i.dst ≠ 0)) || (!u.a && decide (i.a ≠ 0)) || (!u.b && decide (i.b ≠ 0)) ||
    (!u.c && decide (i.c ≠ 0)) || (!u.fmt && decide (i.fmt ≠ 0)) || (!u.cast && (decide (i.rnd ≠ 0) || decide (i.sat ≠ 0))) ||
    (!(u.sa || (u.a && decide (i.a = 15))) && decide (i.sa ≠ 0)) ||
    (!(u.sb || (u.b && decide (i.b = 15))) && decide (i.sb ≠ 0)) ||
    (!(u.c && decide (i.c = 15)) && decide (i.sc ≠ 0))

/-- Reason 0x02. -/
def PIns.bad2 (i : PIns) : Bool :=
  match pUse i.op with
  | none => false
  | some u => (u.dst && (decide (i.dst = 0) || decide (i.dst = 15) || regReserved i.dst)) || i.sources.any regReserved

/-- Reason 0x03 over a program: a T or U register read before any instruction writes it. -/
def readsEarly (written : List Nat) (is : List PIns) : Bool :=
  match is with
  | [] => false
  | i :: r => i.sources.any (fun x => decide (5 ≤ x) && decide (x ≤ 8) && !written.contains x) || readsEarly (written ++ i.writes) r

/-- Reason 0x04. -/
def PIns.bad4 (i : PIns) : Bool :=
  (decide (i.op = 1) && (decide (i.a = 15) || decide (i.b = 15))) || (decide (i.op = 7) && !(decide (1 ≤ i.c) && decide (i.c ≤ 4)))

/-- Reason 0x05. -/
def PIns.bad5 (i : PIns) : Bool :=
  ((decide (i.op = 6) || decide (i.op = 7)) && decide (0xB < i.fmt)) || (decide (i.op = 9) && decide (3 < i.fmt))

/-- Reason 0x06. -/
def PIns.bad6 (licensed : Bool) (i : PIns) : Bool :=
  (decide (i.op = 6) || decide (i.op = 7)) && decide (i.fmt = 0xB) && !licensed

/-- The lowest refusal reason of a program, 0 when COMMIT accepts it (R79). -/
def progReason (licensed : Bool) (words : List Nat) : Nat :=
  let is := progOf words
  let ends := ((words.take 64).map PIns.ofWord).find? (fun i => i.op = 0)
  let endBad := match ends with
    | some e => e.bad1
    | none => false
  if is.any PIns.bad1 || endBad then 1
  else if is.any PIns.bad2 then 2
  else if readsEarly [] is then 3
  else if is.any PIns.bad4 then 4
  else if is.any PIns.bad5 then 5
  else if is.any (PIns.bad6 licensed) then 6
  else 0

/-- Distinct vector registers that a program names, X and U included (R76). -/
def progNames (is : List PIns) : List Nat := ((is.flatMap (fun i => i.sources ++ i.writes)).filter (fun r => r ≤ 8)).eraseDups

/-- The footprint of a program (R76): the distinct registers it names, X and U included. -/
def footprint (is : List PIns) : Nat := (0 :: 8 :: progNames is).eraseDups.length

/-- Whether a program writes U. -/
def writesU (is : List PIns) : Bool := is.any (fun i => i.writes.contains 8)

/-- State arrays that a program reads, in the sense that an instruction names one as a source before writing it. -/
def stateRead (is : List PIns) : List Nat := (List.range 4).filter (fun k => is.any (fun i => i.sources.contains (k + 1)))

/-- State arrays that a program writes. -/
def stateWritten (is : List PIns) : List Nat := (List.range 4).filter (fun k => is.any (fun i => i.writes.contains (k + 1)))

/-- State arrays that a program names. -/
def stateNamed (is : List PIns) : List Nat :=
  (List.range 4).filter (fun k => is.any (fun i => i.sources.contains (k + 1) || i.writes.contains (k + 1)))

/-! ### Templates (R80) -/

abbrev rX : Nat := 0
abbrev rS0 : Nat := 1
abbrev rS1 : Nat := 2
abbrev rT0 : Nat := 5
abbrev rT1 : Nat := 6
abbrev rT2 : Nat := 7
abbrev rU : Nat := 8
abbrev rK : Nat := 15

def insAxpby (dst sa a sb b : Nat) : PIns := { op := 1, dst := dst, a := a, b := b, sa := sa, sb := sb }
def insMul (dst a b : Nat) : PIns := { op := 3, dst := dst, a := a, b := b }
/-- `dst` = `a` times the scalar `k` repeated. -/
def insScale (dst a k : Nat) : PIns := { op := 3, dst := dst, a := a, b := rK, sb := k }

/-- Template 0x40 with input `x`. -/
def tmplNesterov (x : Nat) : List PIns := [insAxpby rS0 16 rS0 1 x, insAxpby rU 17 x 18 rS0]
/-- Template 0x41 with input `x`. -/
def tmplMomentum (x : Nat) : List PIns := [insAxpby rS0 16 rS0 1 x, insScale rU rS0 17]
/-- Template 0x42 with input `x`. -/
def tmplTwoMoment (x : Nat) : List PIns :=
  [insAxpby rS0 16 rS0 17 x, insMul rT0 x x, insAxpby rS1 18 rS1 19 rT0,
   { op := 2, dst := rT0, a := rS1, b := rK, c := rK, sb := 20, sc := 21 }, { op := 4, dst := rT0, a := rT0 },
   insMul rT0 rT0 rS0, insScale rU rT0 22]
/-- The prefix of the clip templates. -/
def tmplClip : List PIns :=
  [{ op := 4, dst := rT1, a := rK, sa := 31 }, insScale rT1 rT1 30, { op := 5, dst := rT1, a := rT1, sa := 0, sb := 1 },
   insMul rT2 rX rT1]

/-- The instructions of a built-in template. -/
def template (p : Nat) : Option (List PIns) :=
  match p with
  | 0x40 => some (tmplNesterov rX)
  | 0x41 => some (tmplMomentum rX)
  | 0x42 => some (tmplTwoMoment rX)
  | 0x43 => some [insScale rU rX 16]
  | 0x44 => some (tmplClip ++ tmplNesterov rT2)
  | 0x45 => some (tmplClip ++ tmplMomentum rT2)
  | 0x46 => some (tmplClip ++ tmplTwoMoment rT2)
  | _ => none

/-- The constants of a template: K0 = 0.0 and K1 = 1.0 in the accumulation format. -/
def templateConsts (wide : Bool) : List Nat := [0, if wide then 0x3FF0000000000000 else 0x3F800000]

/-! ### Execution -/

/-- The vector registers of one chunk, the flags, and the sums that NORM2_PARTIAL has added. -/
structure PState where
  regs : Sparse (List Nat) := []
  flags : Nat := 0
  sums : List Nat := []
  deriving DecidableEq, Repr

/-- What a program runs in: accumulation format, scalars K0 to K31, and the inputs of SR_BITS. -/
structure PEnv where
  wide : Bool
  scalars : List Nat
  key : Nat
  inst : Nat
  chunk : Nat
  n : Nat
  deriving DecidableEq, Repr

/-- Scalar K`i` as the accumulation format reads it. -/
def PEnv.scalar (e : PEnv) (i : Nat) : Nat :=
  let v := e.scalars.getD i 0
  if e.wide then v else v % 0x100000000

/-- A source operand: a register, or a scalar repeated over the chunk. -/
def PState.source (p : PState) (e : PEnv) (r k : Nat) : List Nat :=
  if r = 15 then List.replicate e.n (e.scalar k) else p.regs.get (fun _ => []) r

/-- Writes a register and adds the flags of its elements. -/
def PState.put (p : PState) (r : Nat) (v : List Nat × Nat) : PState :=
  { p with regs := p.regs.insert r v.1, flags := orF p.flags v.2 }

/-- The rounding modes of a cast of instruction number `w`. -/
def PEnv.rnd (e : PEnv) (i : PIns) (w j : Nat) : Rnd := castRnd (i.rnd = 1) e.key e.inst e.chunk w j

/-- Executes instruction `i`, word number `w` of its program (R78). -/
def PState.exec (p : PState) (e : PEnv) (i : PIns) (w : Nat) : PState :=
  let a := p.source e i.a i.sa
  let b := p.source e i.b i.sb
  let c := p.source e i.c i.sc
  let ka := e.scalar i.sa
  let kb := e.scalar i.sb
  match i.op with
  | 0x01 => p.put i.dst (gather (List.zipWith (fun x y => fAxpby e.wide ka x kb y) a b))
  | 0x02 => p.put i.dst (gather (List.zipWith (fun xy z => fFma e.wide xy.1 xy.2 z) (a.zip b) c))
  | 0x03 => p.put i.dst (gather (List.zipWith (fMul e.wide) a b))
  | 0x04 => p.put i.dst (gather (a.map (fRsqrt e.wide)))
  | 0x05 => p.put i.dst (a.map (fun x => fClamp e.wide x ka kb), 0)
  | 0x06 =>
    let q := castElems e.wide i.fmt (i.sat = 1) (e.rnd i w) a
    p.put i.dst (q.held, q.flags)
  | 0x07 =>
    let s := gather (List.zipWith (fAdd e.wide) a c)
    let q := castElems e.wide i.fmt (i.sat = 1) (e.rnd i w) s.1
    let r := gather (List.zipWith (fun x y => fAdd e.wide x (Nat.xor y (2 ^ ((accFmt e.wide).width - 1)))) s.1 q.held)
    (p.put i.dst (q.held, orF s.2 q.flags)).put i.c r
  | 0x08 =>
    let s := fNorm2 e.wide a
    { p with flags := orF p.flags s.2, sums := p.sums ++ [s.1] }
  | 0x09 => p.put i.dst (List.zipWith (fun x yz => if fCond e.wide i.fmt x then yz.1 else yz.2) a (b.zip c), 0)
  | _ => p

/-- Executes a program from word `w` on. -/
def PState.run (p : PState) (e : PEnv) (w : Nat) (is : List PIns) : PState :=
  match is with
  | [] => p
  | i :: r => (p.exec e i w).run e (w + 1) r

end Sys2Proof.Machine
end

