-- ==== Sys2Proof/Machine/RegMap.lean ====
section
/-! DEFINITION. The register map of BAR0, written from the register tables of the chapters (00_scope.md R4-R9,
18_host_interface.md R341 and index). Every row gives a register or an array of registers: its address, its
reset value, the bits of each access type, and the ranges of clamped fields. -/
namespace Sys2Proof.Machine

/-- Registers whose read value is computed from other state: that state is their one home. -/
inductive View where
  | stored
  | topLcStatus
  | timeStatus
  | timePeerSel
  | timeNowSubns
  | timeNowNs
  | timeNowSecLo
  | timeNowSecHi
  | timeNow64Lo
  | timeNow64Hi
  | timeMonoLo
  | timeMonoHi
  | timePeerOffset
  | timePeerDelay
  | secSaStatus
  | secSlotInfo
  | secSlotEpoch
  | secTxCtrLo
  | secTxCtrHi
  | secAlarmArmed
  | routeRseqStatus
  | routePeerState
  | routePeerRtt
  | routePeerRev
  | routePeerFwd
  | schedPm
  | lndSpillStatus
  | lndPoolStatus
  | lndClassUsed
  | galUnitState
  | galInvalidTotal
  | rueLane64Status
  | cleGroupTabort
  | cleGroupLeaves
  | cleGroupLast
  | optSpareStatus
  | dflPm
  | queQStatus
  | queQFetch
  | errLogFirst
  | errLogLast
  | errBandStat
  | errLogData
  | bootSvn
  | bootChipId
  | bootRecWin
  | pinGpioIn
  | pinLcbStatus
  | routeInflight
  | cmpInflight
  deriving DecidableEq, Repr

/-- Registers of an array whose reset value depends on the index. -/
inductive ResetKind where
  | const
  | phaseCfg | schedQCfg | schedQmapLo | schedQmapHi | lndMinA | lndMinB | dflDstMap | dflVcCfg
  deriving DecidableEq, Repr

/-- A field whose stored value is held to a range: bit, width, lowest, highest. -/
structure Clamp where
  lo : Nat
  width : Nat
  min : Nat
  max : Nat
  deriving DecidableEq, Repr

/-- One row of the register map: `n0` by `n1` registers from `base`, `s0` and `s1` bytes apart. -/
structure RegRow where
  base : Nat
  n0 : Nat
  s0 : Nat
  n1 : Nat
  s1 : Nat
  reset : Nat
  kind : ResetKind
  rw : Nat
  ro : Nat
  w1c : Nat
  sc : Nat
  wo : Nat
  st : Nat
  clamps : List Clamp
  view : View
  deriving DecidableEq, Repr

/-- The two indexes of address `a` in the row, if the row holds it. -/
def RegRow.index? (r : RegRow) (a : Nat) : Option (Nat × Nat) :=
  let d := a - r.base
  let i := d / r.s0
  let e := d % r.s0
  let j := e / r.s1
  if r.base ≤ a ∧ i < r.n0 ∧ j < r.n1 ∧ e % r.s1 = 0 then some (i, j) else none

/-! ### Addresses, by the registers' own names -/
namespace A

/-- TOP_ID: 18_host_interface.md R341 TOP registers. -/
abbrev topId : Nat := 0x0
/-- TOP_BAR2_BASE: 18_host_interface.md R336. -/
abbrev topBar2Base : Nat := 0x200
/-- TOP_IRQ_CTRL: 18_host_interface.md R341 TOP registers. -/
abbrev topIrqCtrl : Nat := 0x210
/-- TOP_MSIX_ADDR_LO: 18_host_interface.md MSI-X table (R340). -/
abbrev topMsixAddrLo (i : Nat) : Nat := 0x8000 + i * 0x10
/-- TOP_MSIX_ADDR_HI: 18_host_interface.md MSI-X table (R340). -/
abbrev topMsixAddrHi (i : Nat) : Nat := 0x8004 + i * 0x10
/-- TOP_MSIX_DATA: 18_host_interface.md MSI-X table (R340). -/
abbrev topMsixData (i : Nat) : Nat := 0x8008 + i * 0x10
/-- TOP_MSIX_VCTRL: 18_host_interface.md MSI-X table (R340) R332. -/
abbrev topMsixVctrl (i : Nat) : Nat := 0x800c + i * 0x10
/-- TOP_MSIX_PBA: 18_host_interface.md MSI-X table (R340). -/
abbrev topMsixPba (i : Nat) : Nat := 0xa000 + i * 0x4
/-- TOP_LC_STATUS: 17_lifecycle_debug_power_states.md registers (fused). -/
abbrev topLcStatus : Nat := 0x100
/-- TOP_LC_CTRL: 17_lifecycle_debug_power_states.md registers R318. -/
abbrev topLcCtrl : Nat := 0x104
/-- TOP_DBG_CTRL: 17_lifecycle_debug_power_states.md registers R322. -/
abbrev topDbgCtrl : Nat := 0x110
/-- TOP_DBG_STATUS: 17_lifecycle_debug_power_states.md registers. -/
abbrev topDbgStatus : Nat := 0x114
/-- TOP_DBG_NONCE_LO: 17_lifecycle_debug_power_states.md registers R322 (drawn). -/
abbrev topDbgNonceLo : Nat := 0x118
/-- TOP_DBG_NONCE_HI: 17_lifecycle_debug_power_states.md registers R322 (drawn). -/
abbrev topDbgNonceHi : Nat := 0x11c
/-- TOP_ATT_STATUS: 17_lifecycle_debug_power_states.md registers R329. -/
abbrev topAttStatus : Nat := 0x120
/-- TOP_DBG_WIN: 17_lifecycle_debug_power_states.md registers R322. -/
abbrev topDbgWin (i : Nat) : Nat := 0x1000 + i * 0x4
/-- PWR_CTRL: 15_power_and_thermal.md registers R279. -/
abbrev pwrCtrl : Nat := 0x100000
/-- PWR_EXT_CAP: 15_power_and_thermal.md registers R279. -/
abbrev pwrExtCap : Nat := 0x100004
/-- PWR_STATUS: 15_power_and_thermal.md registers R286. -/
abbrev pwrStatus : Nat := 0x100008
/-- PWR_EST: 15_power_and_thermal.md registers R278. -/
abbrev pwrEst : Nat := 0x10000c
/-- PWR_TEMP: 15_power_and_thermal.md registers R283. -/
abbrev pwrTemp : Nat := 0x100010
/-- PWR_IDLE_CTRL: 15_power_and_thermal.md registers R287. -/
abbrev pwrIdleCtrl : Nat := 0x100014
/-- PWR_STAGGER: 15_power_and_thermal.md registers R289. -/
abbrev pwrStagger : Nat := 0x100018
/-- PWR_DROOP: 15_power_and_thermal.md registers R281. -/
abbrev pwrDroop : Nat := 0x10001c
/-- PWR_FC_CTRL: 15_power_and_thermal.md registers R293. -/
abbrev pwrFcCtrl : Nat := 0x100020
/-- PWR_PHASE_CFG: 15_power_and_thermal.md registers R290. -/
abbrev pwrPhaseCfg (i : Nat) : Nat := 0x100100 + i * 0x10
/-- PWR_PHASE_ENV: 15_power_and_thermal.md registers R290. -/
abbrev pwrPhaseEnv (i : Nat) : Nat := 0x100104 + i * 0x10
/-- PWR_PHASE_DUR: 15_power_and_thermal.md registers R290. -/
abbrev pwrPhaseDur (i : Nat) : Nat := 0x100108 + i * 0x10
/-- PWR_PHASE_UNITS: 15_power_and_thermal.md registers R290. -/
abbrev pwrPhaseUnits (i : Nat) : Nat := 0x10010c + i * 0x10
/-- PWR_THR_US_LO: 15_power_and_thermal.md registers R285. -/
abbrev pwrThrUsLo (i : Nat) : Nat := 0x100200 + i * 0x8
/-- PWR_THR_US_HI: 15_power_and_thermal.md registers R285. -/
abbrev pwrThrUsHi (i : Nat) : Nat := 0x100204 + i * 0x8
/-- PWR_TEC: 15_power_and_thermal.md registers R294. -/
abbrev pwrTec (i : Nat) : Nat := 0x100300 + i * 0x8
/-- PWR_TEC_ACT: 15_power_and_thermal.md registers R294. -/
abbrev pwrTecAct (i : Nat) : Nat := 0x100304 + i * 0x8
/-- TIME_CTRL: 14_time.md registers R266. -/
abbrev timeCtrl : Nat := 0x200000
/-- TIME_STATUS: 14_time.md registers R266. -/
abbrev timeStatus : Nat := 0x200004
/-- TIME_PHASE_ERR: 14_time.md registers R266. -/
abbrev timePhaseErr : Nat := 0x200008
/-- TIME_NOW_SUBNS: 14_time.md registers. -/
abbrev timeNowSubns : Nat := 0x200010
/-- TIME_NOW_NS: 14_time.md registers. -/
abbrev timeNowNs : Nat := 0x200014
/-- TIME_NOW_SEC_LO: 14_time.md registers. -/
abbrev timeNowSecLo : Nat := 0x200018
/-- TIME_NOW_SEC_HI: 14_time.md registers. -/
abbrev timeNowSecHi : Nat := 0x20001c
/-- TIME_NOW64_LO: 14_time.md registers. -/
abbrev timeNow64Lo : Nat := 0x200020
/-- TIME_NOW64_HI: 14_time.md registers. -/
abbrev timeNow64Hi : Nat := 0x200024
/-- TIME_SET_NS: 14_time.md registers R266. -/
abbrev timeSetNs : Nat := 0x200030
/-- TIME_SET_SEC_LO: 14_time.md registers R266. -/
abbrev timeSetSecLo : Nat := 0x200034
/-- TIME_SET_SEC_HI: 14_time.md registers R266. -/
abbrev timeSetSecHi : Nat := 0x200038
/-- TIME_UTC_OFFSET: 14_time.md registers R265. -/
abbrev timeUtcOffset : Nat := 0x200040
/-- TIME_MONO_LO: 14_time.md registers R264. -/
abbrev timeMonoLo : Nat := 0x200048
/-- TIME_MONO_HI: 14_time.md registers R264. -/
abbrev timeMonoHi : Nat := 0x20004c
/-- TIME_LINE_ADJ_TX: 14_time.md registers R268. -/
abbrev timeLineAdjTx (i : Nat) : Nat := 0x200100 + i * 0x8
/-- TIME_LINE_ADJ_RX: 14_time.md registers R268. -/
abbrev timeLineAdjRx (i : Nat) : Nat := 0x200104 + i * 0x8
/-- TIME_FIB_ADJ_TX: 14_time.md registers R268. -/
abbrev timeFibAdjTx (i : Nat) : Nat := 0x200200 + i * 0x8
/-- TIME_FIB_ADJ_RX: 14_time.md registers R268. -/
abbrev timeFibAdjRx (i : Nat) : Nat := 0x200204 + i * 0x8
/-- TIME_PROBE_CTRL: 14_time.md registers R270. -/
abbrev timeProbeCtrl : Nat := 0x200300
/-- TIME_PEER_SEL: 14_time.md registers R270. -/
abbrev timePeerSel : Nat := 0x200304
/-- TIME_PEER_OFFSET: 14_time.md registers R270. -/
abbrev timePeerOffset : Nat := 0x200308
/-- TIME_PEER_DELAY: 14_time.md registers R270. -/
abbrev timePeerDelay : Nat := 0x20030c
/-- TIME_CNT: 14_time.md registers. -/
abbrev timeCnt (i : Nat) : Nat := 0x200400 + i * 0x4
/-- SEC_SA_SEL: 11_line_cipher.md registers. -/
abbrev secSaSel : Nat := 0x300000
/-- SEC_SA_CMD: 11_line_cipher.md registers R209. -/
abbrev secSaCmd : Nat := 0x300004
/-- SEC_EPOCH: 11_line_cipher.md registers. -/
abbrev secEpoch : Nat := 0x300008
/-- SEC_SALT: 11_line_cipher.md registers R10. -/
abbrev secSalt : Nat := 0x30000c
/-- SEC_KEY: 11_line_cipher.md registers R10. -/
abbrev secKey (i : Nat) : Nat := 0x300010 + i * 0x4
/-- SEC_SWITCH_TIME_LO: 11_line_cipher.md registers R212. -/
abbrev secSwitchTimeLo : Nat := 0x300030
/-- SEC_SWITCH_TIME_HI: 11_line_cipher.md registers R212. -/
abbrev secSwitchTimeHi : Nat := 0x300034
/-- SEC_SA_STATUS: 11_line_cipher.md registers. -/
abbrev secSaStatus : Nat := 0x300040
/-- SEC_SLOT_INFO: 11_line_cipher.md registers R210. -/
abbrev secSlotInfo (i : Nat) : Nat := 0x300044 + i * 0x4
/-- SEC_SLOT_EPOCH: 11_line_cipher.md registers. -/
abbrev secSlotEpoch (i : Nat) : Nat := 0x30004c + i * 0x4
/-- SEC_TX_CTR_LO: 11_line_cipher.md registers. -/
abbrev secTxCtrLo : Nat := 0x300054
/-- SEC_TX_CTR_HI: 11_line_cipher.md registers. -/
abbrev secTxCtrHi : Nat := 0x300058
/-- SEC_HOLD_CTRL: 11_line_cipher.md registers R213. -/
abbrev secHoldCtrl : Nat := 0x300060
/-- SEC_SCA_CTRL: 11_line_cipher.md registers R216. -/
abbrev secScaCtrl : Nat := 0x300064
/-- SEC_ALARM_STATUS: 11_line_cipher.md registers R217. -/
abbrev secAlarmStatus : Nat := 0x300080
/-- SEC_ALARM_LATCH: 11_line_cipher.md registers R219. -/
abbrev secAlarmLatch : Nat := 0x300084
/-- SEC_ALARM_ARMED: 11_line_cipher.md registers R327 (by state). -/
abbrev secAlarmArmed : Nat := 0x300088
/-- SEC_ERASE_CTRL: 11_line_cipher.md registers R218. -/
abbrev secEraseCtrl : Nat := 0x30008c
/-- SEC_CNT: 11_line_cipher.md registers. -/
abbrev secCnt (i : Nat) : Nat := 0x300100 + i * 0x4
/-- LINE_CTRL: 08_span_framer.md registers R153 R386. -/
abbrev lineCtrl (i : Nat) : Nat := 0x400000 + i * 0x20000
/-- LINE_STATUS: 08_span_framer.md registers R158. -/
abbrev lineStatus (i : Nat) : Nat := 0x400004 + i * 0x20000
/-- LINE_DEFECT_LATCH: 08_span_framer.md registers R158. -/
abbrev lineDefectLatch (i : Nat) : Nat := 0x400008 + i * 0x20000
/-- LINE_DEG_CTRL: 08_span_framer.md registers R158. -/
abbrev lineDegCtrl (i : Nat) : Nat := 0x40000c + i * 0x20000
/-- LINE_PTTI_TX: 08_span_framer.md registers R164. -/
abbrev linePttiTx (i j : Nat) : Nat := 0x400010 + i * 0x20000 + j * 0x4
/-- LINE_PTTI_EXP: 08_span_framer.md registers R164. -/
abbrev linePttiExp (i j : Nat) : Nat := 0x400020 + i * 0x20000 + j * 0x4
/-- LINE_PTTI_ACC: 08_span_framer.md registers R164. -/
abbrev linePttiAcc (i j : Nat) : Nat := 0x400030 + i * 0x20000 + j * 0x4
/-- LINE_NBR_EXP_ID: 08_span_framer.md registers R164. -/
abbrev lineNbrExpId (i : Nat) : Nat := 0x400040 + i * 0x20000
/-- LINE_NBR_EXP_PORT: 08_span_framer.md registers R164. -/
abbrev lineNbrExpPort (i : Nat) : Nat := 0x400044 + i * 0x20000
/-- LINE_NBR_RX_ID: 08_span_framer.md registers R164. -/
abbrev lineNbrRxId (i : Nat) : Nat := 0x400048 + i * 0x20000
/-- LINE_NBR_RX_PORT: 08_span_framer.md registers R164. -/
abbrev lineNbrRxPort (i : Nat) : Nat := 0x40004c + i * 0x20000
/-- LINE_SECT_DELAY: 08_span_framer.md registers R165. -/
abbrev lineSectDelay (i : Nat) : Nat := 0x400050 + i * 0x20000
/-- LINE_MOD_CTRL: 08_span_framer.md registers R171. -/
abbrev lineModCtrl (i : Nat) : Nat := 0x400060 + i * 0x20000
/-- LINE_MOD_STATUS: 08_span_framer.md registers R171. -/
abbrev lineModStatus (i : Nat) : Nat := 0x400064 + i * 0x20000
/-- LINE_CMIS_CTRL: 08_span_framer.md registers R172. -/
abbrev lineCmisCtrl (i : Nat) : Nat := 0x400068 + i * 0x20000
/-- LINE_CMIS_DATA: 08_span_framer.md registers R172. -/
abbrev lineCmisData (i : Nat) : Nat := 0x40006c + i * 0x20000
/-- LINE_PM_SEQ: 08_span_framer.md registers R167. -/
abbrev linePmSeq (i : Nat) : Nat := 0x400100 + i * 0x20000
/-- LINE_PM_LEN: 08_span_framer.md registers R167. -/
abbrev linePmLen (i : Nat) : Nat := 0x400104 + i * 0x20000
/-- LINE_PM: 08_span_framer.md registers R167. -/
abbrev linePm (i j : Nat) : Nat := 0x400110 + i * 0x20000 + j * 0x4
/-- LINE_CPM: 08_span_framer.md registers R168. -/
abbrev lineCpm (i j : Nat) : Nat := 0x400200 + i * 0x20000 + j * 0x4
/-- ROUTE_CTRL: 09_routes_striping_resequencing.md registers R173. -/
abbrev routeCtrl : Nat := 0x600000
/-- ROUTE_SLOT: 09_routes_striping_resequencing.md registers R173. -/
abbrev routeSlot (i : Nat) : Nat := 0x600010 + i * 0x4
/-- ROUTE_STATUS: 09_routes_striping_resequencing.md registers R193. -/
abbrev routeStatus : Nat := 0x600020
/-- ROUTE_INFLIGHT: 09_routes_striping_resequencing.md registers R193. -/
abbrev routeInflight (i : Nat) : Nat := 0x600030 + i * 0x4
/-- ROUTE_RSEQ_CTRL: 09_routes_striping_resequencing.md registers R186. -/
abbrev routeRseqCtrl : Nat := 0x600040
/-- ROUTE_TIMER_CTRL: 09_routes_striping_resequencing.md registers. -/
abbrev routeTimerCtrl : Nat := 0x600044
/-- ROUTE_RSEQ_STATUS: 09_routes_striping_resequencing.md registers R186. -/
abbrev routeRseqStatus : Nat := 0x600048
/-- ROUTE_DOWN_CTRL: 09_routes_striping_resequencing.md registers R192. -/
abbrev routeDownCtrl : Nat := 0x60004c
/-- ROUTE_PEER_SEL: 09_routes_striping_resequencing.md registers. -/
abbrev routePeerSel : Nat := 0x600080
/-- ROUTE_PEER_STATE: 09_routes_striping_resequencing.md registers R175 R186. -/
abbrev routePeerState : Nat := 0x600084
/-- ROUTE_PEER_RTT: 09_routes_striping_resequencing.md registers R187. -/
abbrev routePeerRtt : Nat := 0x600088
/-- ROUTE_PEER_REV: 09_routes_striping_resequencing.md registers R185. -/
abbrev routePeerRev (i : Nat) : Nat := 0x6000a0 + i * 0x4
/-- ROUTE_PEER_FWD: 09_routes_striping_resequencing.md registers R187. -/
abbrev routePeerFwd (i : Nat) : Nat := 0x6000c0 + i * 0x4
/-- ROUTE_CNT: 09_routes_striping_resequencing.md registers. -/
abbrev routeCnt (i : Nat) : Nat := 0x600100 + i * 0x4
/-- ROUTE_TABLES_PORT: 09_routes_striping_resequencing.md registers R173. -/
abbrev routeTablesPort (i j : Nat) : Nat := 0x610000 + i * 0x1000 + j * 0x4
/-- ROUTE_TABLES_PEER: 09_routes_striping_resequencing.md registers R173. -/
abbrev routeTablesPeer (i j : Nat) : Nat := 0x610100 + i * 0x1000 + j * 0x4
/-- SCHED_Q_CFG: 10_line_scheduler.md registers R197 R199. -/
abbrev schedQCfg (i j : Nat) : Nat := 0x700000 + i * 0x100 + j * 0x4
/-- SCHED_QMAP_LO: 10_line_scheduler.md registers R194. -/
abbrev schedQmapLo (i : Nat) : Nat := 0x700800 + i * 0x8
/-- SCHED_QMAP_HI: 10_line_scheduler.md registers R194. -/
abbrev schedQmapHi (i : Nat) : Nat := 0x700804 + i * 0x8
/-- SCHED_SAMPLE_CTRL: 10_line_scheduler.md registers R202. -/
abbrev schedSampleCtrl : Nat := 0x700c00
/-- SCHED_PM_SEL: 10_line_scheduler.md registers R203. -/
abbrev schedPmSel : Nat := 0x700c10
/-- SCHED_PM_SEQ: 10_line_scheduler.md registers R203. -/
abbrev schedPmSeq : Nat := 0x700c14
/-- SCHED_PM_LEN: 10_line_scheduler.md registers R203. -/
abbrev schedPmLen : Nat := 0x700c18
/-- SCHED_PM: 10_line_scheduler.md registers R203. -/
abbrev schedPm (i : Nat) : Nat := 0x700c20 + i * 0x4
/-- SCHED_CNT: 10_line_scheduler.md registers. -/
abbrev schedCnt (i : Nat) : Nat := 0x700d00 + i * 0x4
/-- LND_POOL_BANKS: 05_landing.md registers R105. -/
abbrev lndPoolBanks : Nat := 0x800000
/-- LND_BANK_STATUS: 05_landing.md registers R105. -/
abbrev lndBankStatus : Nat := 0x800004
/-- LND_SPILL_STATUS: 05_landing.md registers R114. -/
abbrev lndSpillStatus : Nat := 0x800008
/-- LND_POOL_STATUS: 05_landing.md registers R107. -/
abbrev lndPoolStatus (i : Nat) : Nat := 0x800040 + i * 0x4
/-- LND_MIN_A: 05_landing.md registers R109. -/
abbrev lndMinA (i : Nat) : Nat := 0x800100 + i * 0x10
/-- LND_MIN_B: 05_landing.md registers R109. -/
abbrev lndMinB (i : Nat) : Nat := 0x800104 + i * 0x10
/-- LND_CLASS_MAX: 05_landing.md registers R107. -/
abbrev lndClassMax (i : Nat) : Nat := 0x800108 + i * 0x10
/-- LND_CLASS_USED: 05_landing.md registers R107. -/
abbrev lndClassUsed (i : Nat) : Nat := 0x80010c + i * 0x10
/-- LND_CNT: 05_landing.md registers. -/
abbrev lndCnt (i : Nat) : Nat := 0x800200 + i * 0x4
/-- LND_FULL: 05_landing.md registers R107. -/
abbrev lndFull (i : Nat) : Nat := 0x800240 + i * 0x4
/-- GAL_REGION: 06_gallery.md registers R118. -/
abbrev galRegion : Nat := 0x900000
/-- GAL_REGION_STATUS: 06_gallery.md registers R119 R124. -/
abbrev galRegionStatus : Nat := 0x900004
/-- GAL_CHAN_RETIRED: 06_gallery.md registers R124. -/
abbrev galChanRetired (i : Nat) : Nat := 0x900010 + i * 0x4
/-- GAL_SCRUB_CTRL: 06_gallery.md registers R122. -/
abbrev galScrubCtrl : Nat := 0x900028
/-- GAL_UNIT_SEL: 06_gallery.md registers R126. -/
abbrev galUnitSel : Nat := 0x900030
/-- GAL_UNIT_STATE: 06_gallery.md registers R126. -/
abbrev galUnitState : Nat := 0x900034
/-- GAL_INVALID_TOTAL: 06_gallery.md registers R126. -/
abbrev galInvalidTotal : Nat := 0x900038
/-- GAL_CNT: 06_gallery.md registers. -/
abbrev galCnt (i : Nat) : Nat := 0x900100 + i * 0x4
/-- GAL_REFILL_CTRL: 06_gallery.md registers R129. -/
abbrev galRefillCtrl (i : Nat) : Nat := 0x900400 + i * 0x40
/-- GAL_REFILL_ID: 06_gallery.md registers R129. -/
abbrev galRefillId (i : Nat) : Nat := 0x900404 + i * 0x40
/-- GAL_REFILL_PEER: 06_gallery.md registers R129. -/
abbrev galRefillPeer (i : Nat) : Nat := 0x900408 + i * 0x40
/-- GAL_REFILL_LOCAL_LO: 06_gallery.md registers R129. -/
abbrev galRefillLocalLo (i : Nat) : Nat := 0x90040c + i * 0x40
/-- GAL_REFILL_LOCAL_HI: 06_gallery.md registers R129. -/
abbrev galRefillLocalHi (i : Nat) : Nat := 0x900410 + i * 0x40
/-- GAL_REFILL_UNITS: 06_gallery.md registers R129. -/
abbrev galRefillUnits (i : Nat) : Nat := 0x900414 + i * 0x40
/-- GAL_REFILL_STATUS: 06_gallery.md registers R129. -/
abbrev galRefillStatus (i : Nat) : Nat := 0x900418 + i * 0x40
/-- GAL_REFILL_DONE: 06_gallery.md registers R129. -/
abbrev galRefillDone (i : Nat) : Nat := 0x90041c + i * 0x40
/-- GAL_REFILL_LOST_FIRST: 06_gallery.md registers R129. -/
abbrev galRefillLostFirst (i : Nat) : Nat := 0x900420 + i * 0x40
/-- GAL_REFILL_LOST_COUNT: 06_gallery.md registers R129. -/
abbrev galRefillLostCount (i : Nat) : Nat := 0x900424 + i * 0x40
/-- RUE_SR_CTRL: 02_reduction_arithmetic.md registers R40. -/
abbrev rueSrCtrl : Nat := 0xa00010
/-- RUE_SR_SEED_LO: 02_reduction_arithmetic.md registers R40. -/
abbrev rueSrSeedLo : Nat := 0xa00014
/-- RUE_SR_SEED_HI: 02_reduction_arithmetic.md registers R40. -/
abbrev rueSrSeedHi : Nat := 0xa00018
/-- RUE_SHADOW_CTRL: 02_reduction_arithmetic.md registers R49. -/
abbrev rueShadowCtrl : Nat := 0xa00020
/-- RUE_LANE_STATUS: 02_reduction_arithmetic.md registers R25. -/
abbrev rueLaneStatus (i : Nat) : Nat := 0xa00100 + i * 0x40
/-- RUE_LANE64_STATUS: 02_reduction_arithmetic.md registers R25. -/
abbrev rueLane64Status (i : Nat) : Nat := 0xa00104 + i * 0x40
/-- CLE_ABORT_INST: 04_collectives_and_flights.md registers R99. -/
abbrev cleAbortInst : Nat := 0xb00000
/-- CLE_ABORT_CTRL: 04_collectives_and_flights.md registers R99. -/
abbrev cleAbortCtrl : Nat := 0xb00004
/-- CLE_KEEP_CTRL: 04_collectives_and_flights.md registers R96. -/
abbrev cleKeepCtrl : Nat := 0xb00008
/-- CLE_GROUP_SEL: 04_collectives_and_flights.md registers. -/
abbrev cleGroupSel : Nat := 0xb00010
/-- CLE_GROUP_TABORT: 04_collectives_and_flights.md registers R100. -/
abbrev cleGroupTabort : Nat := 0xb00014
/-- CLE_GROUP_LEAVES: 04_collectives_and_flights.md registers R84. -/
abbrev cleGroupLeaves : Nat := 0xb00018
/-- CLE_GROUP_LAST: 04_collectives_and_flights.md registers R89. -/
abbrev cleGroupLast : Nat := 0xb0001c
/-- CLE_CNT: 04_collectives_and_flights.md registers R95. -/
abbrev cleCnt (i : Nat) : Nat := 0xb00100 + i * 0x4
/-- CLE_MAP_CTRL: 04_collectives_and_flights.md registers R102. -/
abbrev cleMapCtrl (i : Nat) : Nat := 0xb00200 + i * 0x10
/-- CLE_MAP_INST: 04_collectives_and_flights.md registers R102. -/
abbrev cleMapInst (i : Nat) : Nat := 0xb00204 + i * 0x10
/-- CLE_MAP_COUNT: 04_collectives_and_flights.md registers R102. -/
abbrev cleMapCount (i : Nat) : Nat := 0xb00208 + i * 0x10
/-- CLE_SCALAR_LO: 03_command_lists_and_step_programs.md registers R76. -/
abbrev cleScalarLo (i : Nat) : Nat := 0xb00800 + i * 0x8
/-- CLE_SCALAR_HI: 03_command_lists_and_step_programs.md registers R76. -/
abbrev cleScalarHi (i : Nat) : Nat := 0xb00804 + i * 0x8
/-- CLE_PROG: 03_command_lists_and_step_programs.md registers R77. -/
abbrev cleProg (i j : Nat) : Nat := 0xb10000 + i * 0x400 + j * 0x4
/-- CMP_CTRL: 07_compression.md registers R132. -/
abbrev cmpCtrl : Nat := 0xc00000
/-- CMP_SLOT: 07_compression.md registers R144. -/
abbrev cmpSlot (i : Nat) : Nat := 0xc00010 + i * 0x4
/-- CMP_STATUS: 07_compression.md registers R144. -/
abbrev cmpStatus : Nat := 0xc00020
/-- CMP_INFLIGHT: 07_compression.md registers R144. -/
abbrev cmpInflight (i : Nat) : Nat := 0xc00030 + i * 0x4
/-- CMP_CNT: 07_compression.md registers. -/
abbrev cmpCnt (i : Nat) : Nat := 0xc00100 + i * 0x4
/-- CMP_LOGICAL_LO: 07_compression.md registers. -/
abbrev cmpLogicalLo : Nat := 0xc00140
/-- CMP_LOGICAL_HI: 07_compression.md registers. -/
abbrev cmpLogicalHi : Nat := 0xc00144
/-- CMP_CODED_LO: 07_compression.md registers. -/
abbrev cmpCodedLo : Nat := 0xc00148
/-- CMP_CODED_HI: 07_compression.md registers. -/
abbrev cmpCodedHi : Nat := 0xc0014c
/-- CMP_TABLES_MAP: 07_compression.md registers R140. -/
abbrev cmpTablesMap (i j : Nat) : Nat := 0xc10000 + i * 0x1000 + j * 0x4
/-- CMP_TABLES_LEN: 07_compression.md registers R140. -/
abbrev cmpTablesLen (i j : Nat) : Nat := 0xc10100 + i * 0x1000 + j * 0x4
/-- OPT_CTRL: 12_optical_engines.md registers R232 R237. -/
abbrev optCtrl (i : Nat) : Nat := 0xd00000 + i * 0x20000
/-- OPT_LASER_STATUS: 12_optical_engines.md registers R232. -/
abbrev optLaserStatus (i : Nat) : Nat := 0xd00004 + i * 0x20000
/-- OPT_FADE_THR: 12_optical_engines.md registers R232. -/
abbrev optFadeThr (i : Nat) : Nat := 0xd00008 + i * 0x20000
/-- OPT_LASER_CMD: 12_optical_engines.md registers R235 R236. -/
abbrev optLaserCmd (i : Nat) : Nat := 0xd0000c + i * 0x20000
/-- OPT_SWITCH_TIME_LO: 12_optical_engines.md registers R235. -/
abbrev optSwitchTimeLo (i : Nat) : Nat := 0xd00010 + i * 0x20000
/-- OPT_SWITCH_TIME_HI: 12_optical_engines.md registers R235. -/
abbrev optSwitchTimeHi (i : Nat) : Nat := 0xd00014 + i * 0x20000
/-- OPT_SPARE_STATUS: 12_optical_engines.md registers R233. -/
abbrev optSpareStatus (i : Nat) : Nat := 0xd00018 + i * 0x20000
/-- OPT_TX_STATUS: 12_optical_engines.md registers R229. -/
abbrev optTxStatus (i j : Nat) : Nat := 0xd00020 + i * 0x20000 + j * 0x4
/-- OPT_RX_STATUS: 12_optical_engines.md registers R229. -/
abbrev optRxStatus (i j : Nat) : Nat := 0xd00030 + i * 0x20000 + j * 0x4
/-- OPT_WL_OUT: 12_optical_engines.md registers R222. -/
abbrev optWlOut (i j : Nat) : Nat := 0xd00040 + i * 0x20000 + j * 0x4
/-- OPT_MON_SEL: 12_optical_engines.md registers R223. -/
abbrev optMonSel (i : Nat) : Nat := 0xd00050 + i * 0x20000
/-- OPT_MON_DATA: 12_optical_engines.md registers R223. -/
abbrev optMonData (i : Nat) : Nat := 0xd00054 + i * 0x20000
/-- OPT_HTR_POWER: 12_optical_engines.md registers. -/
abbrev optHtrPower (i : Nat) : Nat := 0xd00058 + i * 0x20000
/-- OPT_CNT: 12_optical_engines.md registers. -/
abbrev optCnt (i j : Nat) : Nat := 0xd00100 + i * 0x20000 + j * 0x4
/-- CONC_STATUS: 13_fabric_links_and_concourse.md Concourse registers R259. -/
abbrev concStatus (i : Nat) : Nat := 0xd00200 + i * 0x20000
/-- CONC_SCHED_CTRL: 13_fabric_links_and_concourse.md Concourse registers R259. -/
abbrev concSchedCtrl (i j : Nat) : Nat := 0xd00210 + i * 0x20000 + j * 0x10
/-- CONC_SCHED_TIME_LO: 13_fabric_links_and_concourse.md Concourse registers R259. -/
abbrev concSchedTimeLo (i j : Nat) : Nat := 0xd00214 + i * 0x20000 + j * 0x10
/-- CONC_SCHED_TIME_HI: 13_fabric_links_and_concourse.md Concourse registers R259. -/
abbrev concSchedTimeHi (i j : Nat) : Nat := 0xd00218 + i * 0x20000 + j * 0x10
/-- CONC_RING_FAIL: 13_fabric_links_and_concourse.md Concourse registers R260. -/
abbrev concRingFail (i j : Nat) : Nat := 0xd00300 + i * 0x20000 + j * 0x4
/-- CONC_CNT: 13_fabric_links_and_concourse.md Concourse registers. -/
abbrev concCnt (i j : Nat) : Nat := 0xd00320 + i * 0x20000 + j * 0x4
/-- CONC_CFG: 13_fabric_links_and_concourse.md Concourse registers R257. -/
abbrev concCfg (i j : Nat) : Nat := 0xd01000 + i * 0x20000 + j * 0x4
/-- DFL_NODE_ID: 13_fabric_links_and_concourse.md registers. -/
abbrev dflNodeId : Nat := 0xe00000
/-- DFL_LANE_THR: 13_fabric_links_and_concourse.md registers R241. -/
abbrev dflLaneThr : Nat := 0xe00004
/-- DFL_DST_MAP: 13_fabric_links_and_concourse.md registers R249. -/
abbrev dflDstMap (i : Nat) : Nat := 0xe00100 + i * 0x4
/-- DFL_VC_CFG: 13_fabric_links_and_concourse.md registers R253. -/
abbrev dflVcCfg (i : Nat) : Nat := 0xe00200 + i * 0x4
/-- DFL_VC_THR: 13_fabric_links_and_concourse.md registers R254. -/
abbrev dflVcThr (i : Nat) : Nat := 0xe00220 + i * 0x4
/-- DFL_SLOT_CTRL: 13_fabric_links_and_concourse.md registers R255. -/
abbrev dflSlotCtrl : Nat := 0xe00300
/-- DFL_SLOT_START_LO: 13_fabric_links_and_concourse.md registers R255. -/
abbrev dflSlotStartLo : Nat := 0xe00304
/-- DFL_SLOT_START_HI: 13_fabric_links_and_concourse.md registers R255. -/
abbrev dflSlotStartHi : Nat := 0xe00308
/-- DFL_PM_SEL: 13_fabric_links_and_concourse.md registers R256. -/
abbrev dflPmSel : Nat := 0xe00400
/-- DFL_PM_SEQ: 13_fabric_links_and_concourse.md registers R256. -/
abbrev dflPmSeq : Nat := 0xe00404
/-- DFL_PM_LEN: 13_fabric_links_and_concourse.md registers R256. -/
abbrev dflPmLen : Nat := 0xe00408
/-- DFL_PM: 13_fabric_links_and_concourse.md registers R256. -/
abbrev dflPm (i : Nat) : Nat := 0xe00420 + i * 0x4
/-- DFL_CNT_NO_PEER: 13_fabric_links_and_concourse.md registers R250. -/
abbrev dflCntNoPeer : Nat := 0xe00500
/-- DFL_LINK_CTRL: 13_fabric_links_and_concourse.md registers R243 R244. -/
abbrev dflLinkCtrl (i : Nat) : Nat := 0xe01000 + i * 0x100
/-- DFL_LINK_STATUS: 13_fabric_links_and_concourse.md registers R244. -/
abbrev dflLinkStatus (i : Nat) : Nat := 0xe01004 + i * 0x100
/-- DFL_LANE: 13_fabric_links_and_concourse.md registers R240. -/
abbrev dflLane (i : Nat) : Nat := 0xe01008 + i * 0x100
/-- DFL_LANE_OUT: 13_fabric_links_and_concourse.md registers R241 R257. -/
abbrev dflLaneOut (i : Nat) : Nat := 0xe0100c + i * 0x100
/-- DFL_LINK_RTT: 13_fabric_links_and_concourse.md registers R245. -/
abbrev dflLinkRtt (i : Nat) : Nat := 0xe01010 + i * 0x100
/-- DFL_F_CNT: 13_fabric_links_and_concourse.md registers. -/
abbrev dflFCnt (i j : Nat) : Nat := 0xe01040 + i * 0x100 + j * 0x4
/-- DFL_CIRC: 13_fabric_links_and_concourse.md registers R252. -/
abbrev dflCirc (i j : Nat) : Nat := 0xe40000 + i * 0x200 + j * 0x4
/-- DFL_CIRC_DEV_PTR: 13_fabric_links_and_concourse.md registers R252. -/
abbrev dflCircDevPtr (i j : Nat) : Nat := 0xe60000 + i * 0x200 + j * 0x10
/-- DFL_CIRC_HOST_PTR: 13_fabric_links_and_concourse.md registers R252. -/
abbrev dflCircHostPtr (i j : Nat) : Nat := 0xe60004 + i * 0x200 + j * 0x10
/-- DFL_SLOT: 13_fabric_links_and_concourse.md registers R255. -/
abbrev dflSlot (i j : Nat) : Nat := 0xe80000 + i * 0x800 + j * 0x4
/-- QUE_TOKEN: 03_command_lists_and_step_programs.md registers R65. -/
abbrev queToken (i : Nat) : Nat := 0xf00000 + i * 0x4
/-- QUE_TOKEN_FAIL: 03_command_lists_and_step_programs.md registers R65. -/
abbrev queTokenFail (i : Nat) : Nat := 0xf00400 + i * 0x4
/-- QUE_Q_CTRL: 03_command_lists_and_step_programs.md registers R53 R54. -/
abbrev queQCtrl (i : Nat) : Nat := 0xf01000 + i * 0x40
/-- QUE_Q_BASE_LO: 03_command_lists_and_step_programs.md registers R54. -/
abbrev queQBaseLo (i : Nat) : Nat := 0xf01004 + i * 0x40
/-- QUE_Q_BASE_HI: 03_command_lists_and_step_programs.md registers R54. -/
abbrev queQBaseHi (i : Nat) : Nat := 0xf01008 + i * 0x40
/-- QUE_Q_STATUS: 03_command_lists_and_step_programs.md registers. -/
abbrev queQStatus (i : Nat) : Nat := 0xf0100c + i * 0x40
/-- QUE_Q_FETCH: 03_command_lists_and_step_programs.md registers R55. -/
abbrev queQFetch (i : Nat) : Nat := 0xf01010 + i * 0x40
/-- ERR_CTRL: 19_faults_and_spares.md registers R347 R352. -/
abbrev errCtrl : Nat := 0x1000000
/-- ERR_HEALTH: 19_faults_and_spares.md registers R351 R354. -/
abbrev errHealth : Nat := 0x1000004
/-- ERR_PATTERN: 19_faults_and_spares.md registers R351. -/
abbrev errPattern : Nat := 0x1000008
/-- ERR_LOG_FIRST: 19_faults_and_spares.md registers R346. -/
abbrev errLogFirst : Nat := 0x1000010
/-- ERR_LOG_LAST: 19_faults_and_spares.md registers R346. -/
abbrev errLogLast : Nat := 0x1000014
/-- ERR_LOG_SEL: 19_faults_and_spares.md registers R346. -/
abbrev errLogSel : Nat := 0x1000018
/-- ERR_LOG_LOST: 19_faults_and_spares.md registers R346. -/
abbrev errLogLost : Nat := 0x100001c
/-- ERR_ACCESS_ADDR: 19_faults_and_spares.md registers R353. -/
abbrev errAccessAddr : Nat := 0x1000020
/-- ERR_ACCESS_INFO: 19_faults_and_spares.md registers R353. -/
abbrev errAccessInfo : Nat := 0x1000024
/-- ERR_ACCESS_COUNT: 19_faults_and_spares.md registers R353. -/
abbrev errAccessCount : Nat := 0x1000028
/-- ERR_VEC_STATUS: 19_faults_and_spares.md registers. -/
abbrev errVecStatus : Nat := 0x1000030
/-- ERR_VEC_MASK: 19_faults_and_spares.md registers. -/
abbrev errVecMask : Nat := 0x1000034
/-- ERR_BAND_SEL: 19_faults_and_spares.md registers R351. -/
abbrev errBandSel : Nat := 0x1000040
/-- ERR_BAND_STAT: 19_faults_and_spares.md registers R351. -/
abbrev errBandStat : Nat := 0x1000044
/-- ERR_LOG_DATA: 19_faults_and_spares.md registers R346. -/
abbrev errLogData (i : Nat) : Nat := 0x1000100 + i * 0x4
/-- BOOT_STATUS: 16_bring_up_and_image.md registers R296. -/
abbrev bootStatus : Nat := 0x1100000
/-- BOOT_CTRL: 16_bring_up_and_image.md registers R315. -/
abbrev bootCtrl : Nat := 0x1100004
/-- BOOT_SEQ_LO: 16_bring_up_and_image.md registers. -/
abbrev bootSeqLo : Nat := 0x1100008
/-- BOOT_SEQ_HI: 16_bring_up_and_image.md registers. -/
abbrev bootSeqHi : Nat := 0x110000c
/-- BOOT_SVN: 16_bring_up_and_image.md registers. -/
abbrev bootSvn : Nat := 0x1100010
/-- BOOT_CHIP_ID: 16_bring_up_and_image.md registers R306 (fused). -/
abbrev bootChipId (i : Nat) : Nat := 0x1100020 + i * 0x4
/-- BOOT_FEATURES: 16_bring_up_and_image.md registers R306. -/
abbrev bootFeatures : Nat := 0x1100030
/-- BOOT_LIC_CTRL: 16_bring_up_and_image.md registers R307. -/
abbrev bootLicCtrl : Nat := 0x1100040
/-- BOOT_UPD_CTRL: 16_bring_up_and_image.md registers R310. -/
abbrev bootUpdCtrl : Nat := 0x1100050
/-- BOOT_UPD_ADDR_LO: 16_bring_up_and_image.md registers R310. -/
abbrev bootUpdAddrLo : Nat := 0x1100054
/-- BOOT_UPD_ADDR_HI: 16_bring_up_and_image.md registers R310. -/
abbrev bootUpdAddrHi : Nat := 0x1100058
/-- BOOT_UPD_LEN: 16_bring_up_and_image.md registers R310. -/
abbrev bootUpdLen : Nat := 0x110005c
/-- BOOT_REC_CTRL: 16_bring_up_and_image.md registers R303. -/
abbrev bootRecCtrl : Nat := 0x1100060
/-- BOOT_LINK_QUAL: 16_bring_up_and_image.md registers R315. -/
abbrev bootLinkQual : Nat := 0x1100100
/-- BOOT_FIB_QUAL: 16_bring_up_and_image.md registers R315. -/
abbrev bootFibQual : Nat := 0x1100104
/-- BOOT_CNT: 16_bring_up_and_image.md registers. -/
abbrev bootCnt (i : Nat) : Nat := 0x1100180 + i * 0x4
/-- BOOT_LIC_WIN: 16_bring_up_and_image.md registers R307. -/
abbrev bootLicWin (i : Nat) : Nat := 0x1101000 + i * 0x4
/-- BOOT_REC_WIN: 16_bring_up_and_image.md registers R303. -/
abbrev bootRecWin (i : Nat) : Nat := 0x1110000 + i * 0x4
/-- PIN_IN_STATUS: 20_pins_package_electrical.md registers. -/
abbrev pinInStatus : Nat := 0x1200000
/-- PIN_GPIO_DIR: 20_pins_package_electrical.md registers R373. -/
abbrev pinGpioDir : Nat := 0x1200010
/-- PIN_GPIO_OUT: 20_pins_package_electrical.md registers R373. -/
abbrev pinGpioOut : Nat := 0x1200014
/-- PIN_GPIO_IN: 20_pins_package_electrical.md registers R373. -/
abbrev pinGpioIn : Nat := 0x1200018
/-- PIN_PMB_DEV: 20_pins_package_electrical.md registers R366. -/
abbrev pinPmbDev (i : Nat) : Nat := 0x1200100 + i * 0x8
/-- PIN_PMB_POUT: 20_pins_package_electrical.md registers R366. -/
abbrev pinPmbPout (i : Nat) : Nat := 0x1200104 + i * 0x8
/-- PIN_LCB_STATUS: 20_pins_package_electrical.md registers R363. -/
abbrev pinLcbStatus (i : Nat) : Nat := 0x1200200 + i * 0x4
/-- CLE_COMMIT: 18_host_interface.md R341. -/
abbrev cleCommit : Nat := 0xb0ff00
/-- CLE_COMMIT_STATUS: 18_host_interface.md R341. -/
abbrev cleCommitStatus : Nat := 0xb0ff04
/-- CLE_COMMIT_DETAIL: 18_host_interface.md R341. -/
abbrev cleCommitDetail : Nat := 0xb0ff08
/-- CLE_COMMIT_SEQ: 18_host_interface.md R341. -/
abbrev cleCommitSeq : Nat := 0xb0ff0c
/-- LND_COMMIT: 18_host_interface.md R341. -/
abbrev lndCommit : Nat := 0x80ff00
/-- LND_COMMIT_STATUS: 18_host_interface.md R341. -/
abbrev lndCommitStatus : Nat := 0x80ff04
/-- LND_COMMIT_DETAIL: 18_host_interface.md R341. -/
abbrev lndCommitDetail : Nat := 0x80ff08
/-- LND_COMMIT_SEQ: 18_host_interface.md R341. -/
abbrev lndCommitSeq : Nat := 0x80ff0c
/-- GAL_COMMIT: 18_host_interface.md R341. -/
abbrev galCommit : Nat := 0x90ff00
/-- GAL_COMMIT_STATUS: 18_host_interface.md R341. -/
abbrev galCommitStatus : Nat := 0x90ff04
/-- GAL_COMMIT_DETAIL: 18_host_interface.md R341. -/
abbrev galCommitDetail : Nat := 0x90ff08
/-- GAL_COMMIT_SEQ: 18_host_interface.md R341. -/
abbrev galCommitSeq : Nat := 0x90ff0c
/-- CMP_COMMIT: 18_host_interface.md R341. -/
abbrev cmpCommit : Nat := 0xc0ff00
/-- CMP_COMMIT_STATUS: 18_host_interface.md R341. -/
abbrev cmpCommitStatus : Nat := 0xc0ff04
/-- CMP_COMMIT_DETAIL: 18_host_interface.md R341. -/
abbrev cmpCommitDetail : Nat := 0xc0ff08
/-- CMP_COMMIT_SEQ: 18_host_interface.md R341. -/
abbrev cmpCommitSeq : Nat := 0xc0ff0c
/-- ROUTE_COMMIT: 18_host_interface.md R341. -/
abbrev routeCommit : Nat := 0x60ff00
/-- ROUTE_COMMIT_STATUS: 18_host_interface.md R341. -/
abbrev routeCommitStatus : Nat := 0x60ff04
/-- ROUTE_COMMIT_DETAIL: 18_host_interface.md R341. -/
abbrev routeCommitDetail : Nat := 0x60ff08
/-- ROUTE_COMMIT_SEQ: 18_host_interface.md R341. -/
abbrev routeCommitSeq : Nat := 0x60ff0c
/-- DFL_COMMIT: 18_host_interface.md R341. -/
abbrev dflCommit : Nat := 0xe0ff00
/-- DFL_COMMIT_STATUS: 18_host_interface.md R341. -/
abbrev dflCommitStatus : Nat := 0xe0ff04
/-- DFL_COMMIT_DETAIL: 18_host_interface.md R341. -/
abbrev dflCommitDetail : Nat := 0xe0ff08
/-- DFL_COMMIT_SEQ: 18_host_interface.md R341. -/
abbrev dflCommitSeq : Nat := 0xe0ff0c
/-- OPT_COMMIT: 18_host_interface.md R341. -/
abbrev optCommit (i : Nat) : Nat := 0xd0ff00 + i * 0x20000
/-- OPT_COMMIT_STATUS: 18_host_interface.md R341. -/
abbrev optCommitStatus (i : Nat) : Nat := 0xd0ff04 + i * 0x20000
/-- OPT_COMMIT_DETAIL: 18_host_interface.md R341. -/
abbrev optCommitDetail (i : Nat) : Nat := 0xd0ff08 + i * 0x20000
/-- OPT_COMMIT_SEQ: 18_host_interface.md R341. -/
abbrev optCommitSeq (i : Nat) : Nat := 0xd0ff0c + i * 0x20000

end A

/-- The TOP block's rows. -/
def topRows : List RegRow :=
  [⟨0x0, 1, 0x10000000, 1, 0x10000000, 0xa11640, .const, 0x0, 0xffffffff, 0x0, 0x0, 0x0, 0x0, [], .stored⟩,
   ⟨0x200, 1, 0x10000000, 1, 0x10000000, 0x60, .const, 0x3ff, 0x0, 0x0, 0x0, 0x0, 0x0, [⟨0, 10, 0, 572⟩], .stored⟩,
   ⟨0x210, 1, 0x10000000, 1, 0x10000000, 0x1ff01ff, .const, 0x81ff01ff, 0x0, 0x0, 0x0, 0x0, 0x0, [], .stored⟩,
   ⟨0x8000, 512, 0x10, 1, 0x10000000, 0x0, .const, 0xfffffffc, 0x0, 0x0, 0x0, 0x0, 0x0, [], .stored⟩,
   ⟨0x8004, 512, 0x10, 1, 0x10000000, 0x0, .const, 0xffffffff, 0x0, 0x0, 0x0, 0x0, 0x0, [], .stored⟩,
   ⟨0x8008, 512, 0x10, 1, 0x10000000, 0x0, .const, 0xffffffff, 0x0, 0x0, 0x0, 0x0, 0x0, [], .stored⟩,
   ⟨0x800c, 512, 0x10, 1, 0x10000000, 0x1, .const, 0x1, 0x0, 0x0, 0x0, 0x0, 0x0, [], .stored⟩,
   ⟨0xa000, 16, 0x4, 1, 0x10000000, 0x0, .const, 0x0, 0xffffffff, 0x0, 0x0, 0x0, 0x0, [], .stored⟩,
   ⟨0x100, 1, 0x10000000, 1, 0x10000000, 0x0, .const, 0x0, 0xf, 0x0, 0x0, 0x0, 0x0, [], .topLcStatus⟩,
   ⟨0x104, 1, 0x10000000, 1, 0x10000000, 0x0, .const, 0x3, 0xf000, 0x0, 0x100, 0x0, 0x0, [], .stored⟩,
   ⟨0x110, 1, 0x10000000, 1, 0x10000000, 0x0, .const, 0x8, 0x0, 0x0, 0x7, 0x0, 0x0, [], .stored⟩,
   ⟨0x114, 1, 0x10000000, 1, 0x10000000, 0x0, .const, 0x0, 0xf0f, 0x0, 0x0, 0x0, 0x0, [], .stored⟩] ++
  [⟨0x118, 1, 0x10000000, 1, 0x10000000, 0x0, .const, 0x0, 0xffffffff, 0x0, 0x0, 0x0, 0x0, [], .stored⟩,
   ⟨0x11c, 1, 0x10000000, 1, 0x10000000, 0x0, .const, 0x0, 0xffffffff, 0x0, 0x0, 0x0, 0x0, [], .stored⟩,
   ⟨0x120, 1, 0x10000000, 1, 0x10000000, 0x80000, .const, 0x0, 0xf1fff, 0x0, 0x0, 0x0, 0x0, [], .stored⟩,
   ⟨0x1000, 3072, 0x4, 1, 0x10000000, 0x0, .const, 0xffffffff, 0x0, 0x0, 0x0, 0x0, 0x0, [], .stored⟩]

/-- The PWR block's rows. -/
def pwrRows : List RegRow :=
  [⟨0x100000, 1, 0x10000000, 1, 0x10000000, 0x4190, .const, 0xf3ff, 0x0, 0x0, 0x80000000, 0x0, 0x0, [⟨0, 10, 200, 480⟩, ⟨12, 4, 1, 15⟩], .stored⟩,
   ⟨0x100004, 1, 0x10000000, 1, 0x10000000, 0x190, .const, 0x800003ff, 0x0, 0x0, 0x0, 0x0, 0x0, [⟨0, 10, 200, 480⟩], .stored⟩,
   ⟨0x100008, 1, 0x10000000, 1, 0x10000000, 0x23, .const, 0x0, 0xffffffff, 0x0, 0x0, 0x0, 0x0, [], .stored⟩,
   ⟨0x10000c, 1, 0x10000000, 1, 0x10000000, 0x0, .const, 0x0, 0xffffffff, 0x0, 0x0, 0x0, 0x0, [], .stored⟩,
   ⟨0x100010, 1, 0x10000000, 1, 0x10000000, 0x5f00, .const, 0xff00, 0xff, 0x0, 0x0, 0x0, 0x0, [⟨8, 8, 85, 105⟩], .stored⟩,
   ⟨0x100014, 1, 0x10000000, 1, 0x10000000, 0x80140064, .const, 0x80ffffff, 0x0, 0x0, 0x0, 0x0, 0x0, [⟨0, 16, 10, 65535⟩], .stored⟩,
   ⟨0x100018, 1, 0x10000000, 1, 0x10000000, 0x1f4, .const, 0xfff, 0x0, 0x0, 0x0, 0x0, 0x0, [⟨0, 12, 100, 4000⟩], .stored⟩,
   ⟨0x10001c, 1, 0x10000000, 1, 0x10000000, 0x32, .const, 0x7f, 0x0, 0x0, 0x0, 0x0, 0x0, [⟨0, 7, 20, 100⟩], .stored⟩,
   ⟨0x100020, 1, 0x10000000, 1, 0x10000000, 0x1, .const, 0x1, 0x0, 0x0, 0x0, 0x0, 0x0, [], .stored⟩,
   ⟨0x100100, 16, 0x10, 1, 0x10000000, 0xa, .phaseCfg, 0xf, 0x0, 0x10, 0x80000000, 0x0, 0x0, [], .stored⟩,
   ⟨0x100104, 16, 0x10, 1, 0x10000000, 0x0, .const, 0x0, 0xffffffff, 0x0, 0x0, 0x0, 0x0, [], .stored⟩,
   ⟨0x100108, 16, 0x10, 1, 0x10000000, 0x0, .const, 0x0, 0xffffffff, 0x0, 0x0, 0x0, 0x0, [], .stored⟩] ++
  [⟨0x10010c, 16, 0x10, 1, 0x10000000, 0x0, .const, 0x0, 0xffffffff, 0x0, 0x0, 0x0, 0x0, [], .stored⟩,
   ⟨0x100200, 6, 0x8, 1, 0x10000000, 0x0, .const, 0xffffffff, 0x0, 0x0, 0x0, 0x0, 0x0, [], .stored⟩,
   ⟨0x100204, 6, 0x8, 1, 0x10000000, 0x0, .const, 0xffffffff, 0x0, 0x0, 0x0, 0x0, 0x0, [], .stored⟩,
   ⟨0x100300, 10, 0x8, 1, 0x10000000, 0x1194, .const, 0xffff, 0x0, 0x0, 0x0, 0x0, 0x0, [⟨0, 16, 2000, 6000⟩], .stored⟩,
   ⟨0x100304, 10, 0x8, 1, 0x10000000, 0x0, .const, 0x0, 0xffffffff, 0x0, 0x0, 0x0, 0x0, [], .stored⟩]

/-- The TIME block's rows. -/
def timeRows : List RegRow :=
  [⟨0x200000, 1, 0x10000000, 1, 0x10000000, 0x4004, .const, 0xff2f, 0x0, 0x0, 0x10000, 0x0, 0x0, [⟨8, 8, 8, 255⟩], .stored⟩,
   ⟨0x200004, 1, 0x10000000, 1, 0x10000000, 0x0, .const, 0x0, 0xffffffff, 0x0, 0x0, 0x0, 0x0, [], .timeStatus⟩,
   ⟨0x200008, 1, 0x10000000, 1, 0x10000000, 0x0, .const, 0x0, 0xffffffff, 0x0, 0x0, 0x0, 0x0, [], .stored⟩,
   ⟨0x200010, 1, 0x10000000, 1, 0x10000000, 0x0, .const, 0x0, 0xffffffff, 0x0, 0x0, 0x0, 0x0, [], .timeNowSubns⟩,
   ⟨0x200014, 1, 0x10000000, 1, 0x10000000, 0x0, .const, 0x0, 0xffffffff, 0x0, 0x0, 0x0, 0x0, [], .timeNowNs⟩,
   ⟨0x200018, 1, 0x10000000, 1, 0x10000000, 0x0, .const, 0x0, 0xffffffff, 0x0, 0x0, 0x0, 0x0, [], .timeNowSecLo⟩,
   ⟨0x20001c, 1, 0x10000000, 1, 0x10000000, 0x0, .const, 0x0, 0xffffffff, 0x0, 0x0, 0x0, 0x0, [], .timeNowSecHi⟩,
   ⟨0x200020, 1, 0x10000000, 1, 0x10000000, 0x0, .const, 0x0, 0xffffffff, 0x0, 0x0, 0x0, 0x0, [], .timeNow64Lo⟩,
   ⟨0x200024, 1, 0x10000000, 1, 0x10000000, 0x0, .const, 0x0, 0xffffffff, 0x0, 0x0, 0x0, 0x0, [], .timeNow64Hi⟩,
   ⟨0x200030, 1, 0x10000000, 1, 0x10000000, 0x0, .const, 0xffffffff, 0x0, 0x0, 0x0, 0x0, 0x0, [], .stored⟩,
   ⟨0x200034, 1, 0x10000000, 1, 0x10000000, 0x0, .const, 0xffffffff, 0x0, 0x0, 0x0, 0x0, 0x0, [], .stored⟩,
   ⟨0x200038, 1, 0x10000000, 1, 0x10000000, 0x0, .const, 0xffffffff, 0x0, 0x0, 0x0, 0x0, 0x0, [], .stored⟩] ++
  [⟨0x200040, 1, 0x10000000, 1, 0x10000000, 0x25, .const, 0xffff, 0x0, 0x0, 0x0, 0x0, 0x0, [], .stored⟩,
   ⟨0x200048, 1, 0x10000000, 1, 0x10000000, 0x0, .const, 0x0, 0xffffffff, 0x0, 0x0, 0x0, 0x0, [], .timeMonoLo⟩,
   ⟨0x20004c, 1, 0x10000000, 1, 0x10000000, 0x0, .const, 0x0, 0xffffffff, 0x0, 0x0, 0x0, 0x0, [], .timeMonoHi⟩,
   ⟨0x200100, 16, 0x8, 1, 0x10000000, 0x0, .const, 0xffffffff, 0x0, 0x0, 0x0, 0x0, 0x0, [], .stored⟩,
   ⟨0x200104, 16, 0x8, 1, 0x10000000, 0x0, .const, 0xffffffff, 0x0, 0x0, 0x0, 0x0, 0x0, [], .stored⟩,
   ⟨0x200200, 32, 0x8, 1, 0x10000000, 0x0, .const, 0xffffffff, 0x0, 0x0, 0x0, 0x0, 0x0, [], .stored⟩,
   ⟨0x200204, 32, 0x8, 1, 0x10000000, 0x0, .const, 0xffffffff, 0x0, 0x0, 0x0, 0x0, 0x0, [], .stored⟩,
   ⟨0x200300, 1, 0x10000000, 1, 0x10000000, 0x13883e8, .const, 0xfffff3ff, 0x0, 0x0, 0x0, 0x0, 0x0, [⟨0, 10, 10, 1000⟩, ⟨12, 20, 100, 1048575⟩], .stored⟩,
   ⟨0x200304, 1, 0x10000000, 1, 0x10000000, 0x0, .const, 0x3f, 0x300, 0x0, 0x0, 0x0, 0x0, [], .timePeerSel⟩,
   ⟨0x200308, 1, 0x10000000, 1, 0x10000000, 0x0, .const, 0x0, 0xffffffff, 0x0, 0x0, 0x0, 0x0, [], .timePeerOffset⟩,
   ⟨0x20030c, 1, 0x10000000, 1, 0x10000000, 0x0, .const, 0x0, 0xffffffff, 0x0, 0x0, 0x0, 0x0, [], .timePeerDelay⟩,
   ⟨0x200400, 7, 0x4, 1, 0x10000000, 0x0, .const, 0xffffffff, 0x0, 0x0, 0x0, 0x0, 0x0, [], .stored⟩]

/-- The SEC block's rows. -/
def secRows : List RegRow :=
  [⟨0x300000, 1, 0x10000000, 1, 0x10000000, 0x0, .const, 0x1173f, 0x0, 0x0, 0x0, 0x0, 0x0, [], .stored⟩,
   ⟨0x300004, 1, 0x10000000, 1, 0x10000000, 0x0, .const, 0x0, 0xf00, 0x0, 0x7, 0x0, 0x0, [], .stored⟩,
   ⟨0x300008, 1, 0x10000000, 1, 0x10000000, 0x0, .const, 0xffffffff, 0x0, 0x0, 0x0, 0x0, 0x0, [], .stored⟩,
   ⟨0x30000c, 1, 0x10000000, 1, 0x10000000, 0x0, .const, 0x0, 0x0, 0x0, 0x0, 0xffffffff, 0x0, [], .stored⟩,
   ⟨0x300010, 8, 0x4, 1, 0x10000000, 0x0, .const, 0x0, 0x0, 0x0, 0x0, 0xffffffff, 0x0, [], .stored⟩,
   ⟨0x300030, 1, 0x10000000, 1, 0x10000000, 0x0, .const, 0xffffffff, 0x0, 0x0, 0x0, 0x0, 0x0, [], .stored⟩,
   ⟨0x300034, 1, 0x10000000, 1, 0x10000000, 0x0, .const, 0xffffffff, 0x0, 0x0, 0x0, 0x0, 0x0, [], .stored⟩,
   ⟨0x300040, 1, 0x10000000, 1, 0x10000000, 0x0, .const, 0x0, 0x3, 0x0, 0x0, 0x0, 0x0, [], .secSaStatus⟩,
   ⟨0x300044, 2, 0x4, 1, 0x10000000, 0x0, .const, 0x0, 0x7ffffff, 0x0, 0x0, 0x0, 0x0, [], .secSlotInfo⟩,
   ⟨0x30004c, 2, 0x4, 1, 0x10000000, 0x0, .const, 0x0, 0xffffffff, 0x0, 0x0, 0x0, 0x0, [], .secSlotEpoch⟩,
   ⟨0x300054, 1, 0x10000000, 1, 0x10000000, 0x0, .const, 0x0, 0xffffffff, 0x0, 0x0, 0x0, 0x0, [], .secTxCtrLo⟩,
   ⟨0x300058, 1, 0x10000000, 1, 0x10000000, 0x0, .const, 0x0, 0xffffffff, 0x0, 0x0, 0x0, 0x0, [], .secTxCtrHi⟩] ++
  [⟨0x300060, 1, 0x10000000, 1, 0x10000000, 0x19, .const, 0xff, 0x0, 0x0, 0x0, 0x0, 0x0, [⟨0, 8, 1, 255⟩], .stored⟩,
   ⟨0x300064, 1, 0x10000000, 1, 0x10000000, 0x2, .const, 0x7, 0x0, 0x0, 0x0, 0x0, 0x0, [⟨0, 3, 1, 4⟩], .stored⟩,
   ⟨0x300080, 1, 0x10000000, 1, 0x10000000, 0x0, .const, 0x0, 0x1ff, 0x0, 0x0, 0x0, 0x0, [], .stored⟩,
   ⟨0x300084, 1, 0x10000000, 1, 0x10000000, 0x0, .const, 0x0, 0x0, 0x1ff, 0x0, 0x0, 0x0, [], .stored⟩,
   ⟨0x300088, 1, 0x10000000, 1, 0x10000000, 0x0, .const, 0x0, 0x1ff, 0x0, 0x0, 0x0, 0x0, [], .secAlarmArmed⟩,
   ⟨0x30008c, 1, 0x10000000, 1, 0x10000000, 0x0, .const, 0x0, 0x300, 0x0, 0x1, 0x0, 0x0, [], .stored⟩,
   ⟨0x300100, 9, 0x4, 1, 0x10000000, 0x0, .const, 0xffffffff, 0x0, 0x0, 0x0, 0x0, 0x0, [], .stored⟩]

/-- The LINE block's rows. -/
def lineRows : List RegRow :=
  [⟨0x400000, 16, 0x20000, 1, 0x10000000, 0x530, .const, 0x7ff1, 0x0, 0x0, 0x0, 0x0, 0x0, [⟨4, 4, 2, 8⟩, ⟨8, 4, 2, 15⟩], .stored⟩,
   ⟨0x400004, 16, 0x20000, 1, 0x10000000, 0x0, .const, 0x0, 0x1fff, 0x0, 0x0, 0x0, 0x0, [], .stored⟩,
   ⟨0x400008, 16, 0x20000, 1, 0x10000000, 0x0, .const, 0x0, 0x0, 0x1ffc, 0x0, 0x0, 0x0, [], .stored⟩,
   ⟨0x40000c, 16, 0x20000, 1, 0x10000000, 0x7017f0, .const, 0xffffff, 0x0, 0x0, 0x0, 0x0, 0x0, [⟨20, 4, 2, 10⟩], .stored⟩,
   ⟨0x400010, 16, 0x20000, 4, 0x4, 0x0, .const, 0xffffffff, 0x0, 0x0, 0x0, 0x0, 0x0, [], .stored⟩,
   ⟨0x400020, 16, 0x20000, 4, 0x4, 0x0, .const, 0xffffffff, 0x0, 0x0, 0x0, 0x0, 0x0, [], .stored⟩,
   ⟨0x400030, 16, 0x20000, 4, 0x4, 0x0, .const, 0x0, 0xffffffff, 0x0, 0x0, 0x0, 0x0, [], .stored⟩,
   ⟨0x400040, 16, 0x20000, 1, 0x10000000, 0x0, .const, 0xffffffff, 0x0, 0x0, 0x0, 0x0, 0x0, [], .stored⟩,
   ⟨0x400044, 16, 0x20000, 1, 0x10000000, 0x0, .const, 0xf, 0x0, 0x0, 0x0, 0x0, 0x0, [], .stored⟩,
   ⟨0x400048, 16, 0x20000, 1, 0x10000000, 0x0, .const, 0x0, 0xffffffff, 0x0, 0x0, 0x0, 0x0, [], .stored⟩,
   ⟨0x40004c, 16, 0x20000, 1, 0x10000000, 0x0, .const, 0x0, 0x10f, 0x0, 0x0, 0x0, 0x0, [], .stored⟩,
   ⟨0x400050, 16, 0x20000, 1, 0x10000000, 0x0, .const, 0x0, 0xffffffff, 0x0, 0x0, 0x0, 0x0, [], .stored⟩] ++
  [⟨0x400060, 16, 0x20000, 1, 0x10000000, 0x10, .const, 0x1f, 0x0, 0x0, 0x0, 0x0, 0x0, [], .stored⟩,
   ⟨0x400064, 16, 0x20000, 1, 0x10000000, 0x0, .const, 0x0, 0xff, 0x0, 0x0, 0x0, 0x0, [], .stored⟩,
   ⟨0x400068, 16, 0x20000, 1, 0x10000000, 0x0, .const, 0x1ffffff, 0x0, 0x0, 0x80000000, 0x0, 0x0, [], .stored⟩,
   ⟨0x40006c, 16, 0x20000, 1, 0x10000000, 0x0, .const, 0xff, 0x300, 0x0, 0x0, 0x0, 0x0, [], .stored⟩,
   ⟨0x400100, 16, 0x20000, 1, 0x10000000, 0x0, .const, 0x0, 0xffffffff, 0x0, 0x0, 0x0, 0x0, [], .stored⟩,
   ⟨0x400104, 16, 0x20000, 1, 0x10000000, 0x0, .const, 0x0, 0xffffffff, 0x0, 0x0, 0x0, 0x0, [], .stored⟩,
   ⟨0x400110, 16, 0x20000, 16, 0x4, 0x0, .const, 0x0, 0xffffffff, 0x0, 0x0, 0x0, 0x0, [], .stored⟩,
   ⟨0x400200, 16, 0x20000, 12, 0x4, 0x0, .const, 0xffffffff, 0x0, 0x0, 0x0, 0x0, 0x0, [], .stored⟩]

/-- The ROUTE block's rows. -/
def routeRows : List RegRow :=
  [⟨0x600000, 1, 0x10000000, 1, 0x10000000, 0x0, .const, 0x0, 0x0, 0x0, 0x0, 0x0, 0x1, [], .stored⟩,
   ⟨0x600010, 2, 0x4, 1, 0x10000000, 0x0, .const, 0x0, 0x0, 0x0, 0x0, 0x0, 0x1ff, [], .stored⟩,
   ⟨0x600020, 1, 0x10000000, 1, 0x10000000, 0x0, .const, 0x0, 0x1, 0x0, 0x0, 0x0, 0x0, [], .stored⟩,
   ⟨0x600030, 2, 0x4, 1, 0x10000000, 0x0, .const, 0x0, 0xffffffff, 0x0, 0x0, 0x0, 0x0, [], .routeInflight⟩,
   ⟨0x600040, 1, 0x10000000, 1, 0x10000000, 0x8fa088b8, .const, 0xffffffff, 0x0, 0x0, 0x0, 0x0, 0x0, [⟨0, 18, 1000, 200000⟩, ⟨18, 10, 100, 1000⟩, ⟨28, 4, 1, 15⟩], .stored⟩,
   ⟨0x600044, 1, 0x10000000, 1, 0x10000000, 0x141907d0, .const, 0xffffffff, 0x0, 0x0, 0x0, 0x0, 0x0, [⟨0, 16, 100, 65535⟩, ⟨16, 8, 1, 255⟩, ⟨24, 8, 1, 255⟩], .stored⟩,
   ⟨0x600048, 1, 0x10000000, 1, 0x10000000, 0x0, .const, 0x0, 0x3ffff, 0x0, 0x0, 0x0, 0x0, [], .routeRseqStatus⟩,
   ⟨0x60004c, 1, 0x10000000, 1, 0x10000000, 0x0, .const, 0x0, 0x0, 0x0, 0x1, 0x0, 0x0, [], .stored⟩,
   ⟨0x600080, 1, 0x10000000, 1, 0x10000000, 0x0, .const, 0x3f, 0x0, 0x0, 0x0, 0x0, 0x0, [], .stored⟩,
   ⟨0x600084, 1, 0x10000000, 1, 0x10000000, 0x0, .const, 0x0, 0xffff, 0x0, 0x0, 0x0, 0x0, [], .routePeerState⟩,
   ⟨0x600088, 1, 0x10000000, 1, 0x10000000, 0x0, .const, 0x0, 0xfffff, 0x0, 0x0, 0x0, 0x0, [], .routePeerRtt⟩,
   ⟨0x6000a0, 8, 0x4, 1, 0x10000000, 0xffffffff, .const, 0x0, 0xffffffff, 0x0, 0x0, 0x0, 0x0, [], .routePeerRev⟩] ++
  [⟨0x6000c0, 8, 0x4, 1, 0x10000000, 0xffffffff, .const, 0x0, 0xffffffff, 0x0, 0x0, 0x0, 0x0, [], .routePeerFwd⟩,
   ⟨0x600100, 13, 0x4, 1, 0x10000000, 0x0, .const, 0xffffffff, 0x0, 0x0, 0x0, 0x0, 0x0, [], .stored⟩,
   ⟨0x610000, 2, 0x1000, 16, 0x4, 0x0, .const, 0x0, 0x0, 0x0, 0x0, 0x0, 0xffffffff, [], .stored⟩,
   ⟨0x610100, 2, 0x1000, 256, 0x4, 0x0, .const, 0x0, 0x0, 0x0, 0x0, 0x0, 0xffffffff, [], .stored⟩,
   ⟨0x60ff00, 1, 0x10000000, 1, 0x10000000, 0x0, .const, 0x0, 0x0, 0x0, 0x1, 0x0, 0x0, [], .stored⟩,
   ⟨0x60ff04, 1, 0x10000000, 1, 0x10000000, 0x0, .const, 0x0, 0xff0103, 0x0, 0x0, 0x0, 0x0, [], .stored⟩,
   ⟨0x60ff08, 1, 0x10000000, 1, 0x10000000, 0x0, .const, 0x0, 0xffffffff, 0x0, 0x0, 0x0, 0x0, [], .stored⟩,
   ⟨0x60ff0c, 1, 0x10000000, 1, 0x10000000, 0x0, .const, 0x0, 0xffffffff, 0x0, 0x0, 0x0, 0x0, [], .stored⟩]

/-- The SCHED block's rows. -/
def schedRows : List RegRow :=
  [⟨0x700000, 8, 0x100, 64, 0x4, 0x0, .schedQCfg, 0xffffff, 0x0, 0x0, 0x0, 0x0, 0x0, [⟨0, 16, 1, 65535⟩], .stored⟩,
   ⟨0x700800, 64, 0x8, 1, 0x10000000, 0x0, .schedQmapLo, 0x3fffffff, 0x0, 0x0, 0x0, 0x0, 0x0, [], .stored⟩,
   ⟨0x700804, 64, 0x8, 1, 0x10000000, 0x0, .schedQmapHi, 0xfff, 0x0, 0x0, 0x0, 0x0, 0x0, [], .stored⟩,
   ⟨0x700c00, 1, 0x10000000, 1, 0x10000000, 0x3e8, .const, 0x1ffff, 0x0, 0x0, 0x0, 0x0, 0x0, [⟨0, 17, 100, 100000⟩], .stored⟩,
   ⟨0x700c10, 1, 0x10000000, 1, 0x10000000, 0x0, .const, 0x73f, 0x0, 0x0, 0x0, 0x0, 0x0, [], .stored⟩,
   ⟨0x700c14, 1, 0x10000000, 1, 0x10000000, 0x0, .const, 0x0, 0xffffffff, 0x0, 0x0, 0x0, 0x0, [], .stored⟩,
   ⟨0x700c18, 1, 0x10000000, 1, 0x10000000, 0x0, .const, 0x0, 0xffffffff, 0x0, 0x0, 0x0, 0x0, [], .stored⟩,
   ⟨0x700c20, 7, 0x4, 1, 0x10000000, 0x0, .const, 0x0, 0xffffffff, 0x0, 0x0, 0x0, 0x0, [], .schedPm⟩,
   ⟨0x700d00, 4, 0x4, 1, 0x10000000, 0x0, .const, 0xffffffff, 0x0, 0x0, 0x0, 0x0, 0x0, [], .stored⟩]

/-- The LND block's rows. -/
def lndRows : List RegRow :=
  [⟨0x800000, 1, 0x10000000, 1, 0x10000000, 0x20404020, .const, 0x0, 0x0, 0x0, 0x0, 0x0, 0xffffffff, [], .stored⟩,
   ⟨0x800004, 1, 0x10000000, 1, 0x10000000, 0x0, .const, 0x0, 0x1ff, 0x0, 0x0, 0x0, 0x0, [], .stored⟩,
   ⟨0x800008, 1, 0x10000000, 1, 0x10000000, 0x0, .const, 0x0, 0xf1fff, 0x0, 0x0, 0x0, 0x0, [], .lndSpillStatus⟩,
   ⟨0x800040, 4, 0x4, 1, 0x10000000, 0x0, .const, 0x0, 0x3fff3fff, 0x0, 0x0, 0x0, 0x0, [], .lndPoolStatus⟩,
   ⟨0x800100, 16, 0x10, 1, 0x10000000, 0x0, .lndMinA, 0x0, 0x0, 0x0, 0x0, 0x0, 0x3fff3fff, [], .stored⟩,
   ⟨0x800104, 16, 0x10, 1, 0x10000000, 0x0, .lndMinB, 0x0, 0x0, 0x0, 0x0, 0x0, 0x3fff3fff, [], .stored⟩,
   ⟨0x800108, 16, 0x10, 1, 0x10000000, 0x3000, .const, 0x0, 0x0, 0x0, 0x0, 0x0, 0x3fff, [], .stored⟩,
   ⟨0x80010c, 16, 0x10, 1, 0x10000000, 0x0, .const, 0x0, 0x3fff, 0x0, 0x0, 0x0, 0x0, [], .lndClassUsed⟩,
   ⟨0x800200, 8, 0x4, 1, 0x10000000, 0x0, .const, 0xffffffff, 0x0, 0x0, 0x0, 0x0, 0x0, [], .stored⟩,
   ⟨0x800240, 16, 0x4, 1, 0x10000000, 0x0, .const, 0xffffffff, 0x0, 0x0, 0x0, 0x0, 0x0, [], .stored⟩,
   ⟨0x80ff00, 1, 0x10000000, 1, 0x10000000, 0x0, .const, 0x0, 0x0, 0x0, 0x1, 0x0, 0x0, [], .stored⟩,
   ⟨0x80ff04, 1, 0x10000000, 1, 0x10000000, 0x0, .const, 0x0, 0xff0103, 0x0, 0x0, 0x0, 0x0, [], .stored⟩] ++
  [⟨0x80ff08, 1, 0x10000000, 1, 0x10000000, 0x0, .const, 0x0, 0xffffffff, 0x0, 0x0, 0x0, 0x0, [], .stored⟩,
   ⟨0x80ff0c, 1, 0x10000000, 1, 0x10000000, 0x0, .const, 0x0, 0xffffffff, 0x0, 0x0, 0x0, 0x0, [], .stored⟩]

/-- The GAL block's rows. -/
def galRows : List RegRow :=
  [⟨0x900000, 1, 0x10000000, 1, 0x10000000, 0x2203860, .const, 0x0, 0x0, 0x0, 0x0, 0x0, 0xfffffff, [], .stored⟩,
   ⟨0x900004, 1, 0x10000000, 1, 0x10000000, 0x20, .const, 0x0, 0x1fff1, 0x0, 0x0, 0x0, 0x0, [], .stored⟩,
   ⟨0x900010, 6, 0x4, 1, 0x10000000, 0x0, .const, 0x0, 0xffffffff, 0x0, 0x0, 0x0, 0x0, [], .stored⟩,
   ⟨0x900028, 1, 0x10000000, 1, 0x10000000, 0x118, .const, 0x1ff, 0x0, 0x0, 0x0, 0x0, 0x0, [⟨0, 8, 1, 168⟩], .stored⟩,
   ⟨0x900030, 1, 0x10000000, 1, 0x10000000, 0x0, .const, 0x7fffff, 0x0, 0x0, 0x0, 0x0, 0x0, [], .stored⟩,
   ⟨0x900034, 1, 0x10000000, 1, 0x10000000, 0x0, .const, 0x0, 0x1, 0x0, 0x0, 0x0, 0x0, [], .galUnitState⟩,
   ⟨0x900038, 1, 0x10000000, 1, 0x10000000, 0x0, .const, 0x0, 0x7fffff, 0x0, 0x0, 0x0, 0x0, [], .galInvalidTotal⟩,
   ⟨0x900100, 8, 0x4, 1, 0x10000000, 0x0, .const, 0xffffffff, 0x0, 0x0, 0x0, 0x0, 0x0, [], .stored⟩,
   ⟨0x900400, 4, 0x40, 1, 0x10000000, 0x0, .const, 0x1ff0001, 0x0, 0x0, 0x6, 0x0, 0x0, [], .stored⟩,
   ⟨0x900404, 4, 0x40, 1, 0x10000000, 0x0, .const, 0xffffffff, 0x0, 0x0, 0x0, 0x0, 0x0, [], .stored⟩,
   ⟨0x900408, 4, 0x40, 1, 0x10000000, 0x0, .const, 0xffffffff, 0x0, 0x0, 0x0, 0x0, 0x0, [], .stored⟩,
   ⟨0x90040c, 4, 0x40, 1, 0x10000000, 0x0, .const, 0xffff0000, 0x0, 0x0, 0x0, 0x0, 0x0, [], .stored⟩] ++
  [⟨0x900410, 4, 0x40, 1, 0x10000000, 0x0, .const, 0xffffffff, 0x0, 0x0, 0x0, 0x0, 0x0, [], .stored⟩,
   ⟨0x900414, 4, 0x40, 1, 0x10000000, 0x0, .const, 0x7fffff, 0x0, 0x0, 0x0, 0x0, 0x0, [⟨0, 23, 0, 7340032⟩], .stored⟩,
   ⟨0x900418, 4, 0x40, 1, 0x10000000, 0x0, .const, 0x0, 0x1ff, 0x0, 0x0, 0x0, 0x0, [], .stored⟩,
   ⟨0x90041c, 4, 0x40, 1, 0x10000000, 0x0, .const, 0x0, 0x7fffff, 0x0, 0x0, 0x0, 0x0, [], .stored⟩,
   ⟨0x900420, 4, 0x40, 1, 0x10000000, 0x0, .const, 0x0, 0x7fffff, 0x0, 0x0, 0x0, 0x0, [], .stored⟩,
   ⟨0x900424, 4, 0x40, 1, 0x10000000, 0x0, .const, 0x0, 0x7fffff, 0x0, 0x0, 0x0, 0x0, [], .stored⟩,
   ⟨0x90ff00, 1, 0x10000000, 1, 0x10000000, 0x0, .const, 0x0, 0x0, 0x0, 0x1, 0x0, 0x0, [], .stored⟩,
   ⟨0x90ff04, 1, 0x10000000, 1, 0x10000000, 0x0, .const, 0x0, 0xff0103, 0x0, 0x0, 0x0, 0x0, [], .stored⟩,
   ⟨0x90ff08, 1, 0x10000000, 1, 0x10000000, 0x0, .const, 0x0, 0xffffffff, 0x0, 0x0, 0x0, 0x0, [], .stored⟩,
   ⟨0x90ff0c, 1, 0x10000000, 1, 0x10000000, 0x0, .const, 0x0, 0xffffffff, 0x0, 0x0, 0x0, 0x0, [], .stored⟩]

/-- The RUE block's rows. -/
def rueRows : List RegRow :=
  [⟨0xa00010, 1, 0x10000000, 1, 0x10000000, 0x0, .const, 0x1, 0x0, 0x0, 0x0, 0x0, 0x0, [], .stored⟩,
   ⟨0xa00014, 1, 0x10000000, 1, 0x10000000, 0x0, .const, 0xffffffff, 0x0, 0x0, 0x0, 0x0, 0x0, [], .stored⟩,
   ⟨0xa00018, 1, 0x10000000, 1, 0x10000000, 0x0, .const, 0xffffffff, 0x0, 0x0, 0x0, 0x0, 0x0, [], .stored⟩,
   ⟨0xa00020, 1, 0x10000000, 1, 0x10000000, 0x1000c, .const, 0x1011f, 0x0, 0x0, 0x0, 0x0, 0x0, [⟨0, 5, 6, 16⟩], .stored⟩,
   ⟨0xa00100, 4, 0x40, 1, 0x10000000, 0x0, .const, 0x0, 0xffffffff, 0x0, 0x0, 0x0, 0x0, [], .stored⟩,
   ⟨0xa00104, 4, 0x40, 1, 0x10000000, 0x0, .const, 0x0, 0xff, 0x0, 0x0, 0x0, 0x0, [], .rueLane64Status⟩]

/-- The CLE block's rows. -/
def cleRows : List RegRow :=
  [⟨0xb00000, 1, 0x10000000, 1, 0x10000000, 0x0, .const, 0xffffffff, 0x0, 0x0, 0x0, 0x0, 0x0, [], .stored⟩,
   ⟨0xb00004, 1, 0x10000000, 1, 0x10000000, 0x0, .const, 0xfff, 0x0, 0x0, 0x80000000, 0x0, 0x0, [], .stored⟩,
   ⟨0xb00008, 1, 0x10000000, 1, 0x10000000, 0x3e8, .const, 0x3fff, 0x0, 0x0, 0x0, 0x0, 0x0, [⟨0, 14, 100, 10000⟩], .stored⟩,
   ⟨0xb00010, 1, 0x10000000, 1, 0x10000000, 0x0, .const, 0xfff, 0x0, 0x0, 0x0, 0x0, 0x0, [], .stored⟩,
   ⟨0xb00014, 1, 0x10000000, 1, 0x10000000, 0x7d0, .const, 0x0, 0xfffff, 0x0, 0x0, 0x0, 0x0, [], .cleGroupTabort⟩,
   ⟨0xb00018, 1, 0x10000000, 1, 0x10000000, 0x0, .const, 0x0, 0x1ffff, 0x0, 0x0, 0x0, 0x0, [], .cleGroupLeaves⟩,
   ⟨0xb0001c, 1, 0x10000000, 1, 0x10000000, 0x0, .const, 0x0, 0xffffffff, 0x0, 0x0, 0x0, 0x0, [], .cleGroupLast⟩,
   ⟨0xb00100, 16, 0x4, 1, 0x10000000, 0x0, .const, 0xffffffff, 0x0, 0x0, 0x0, 0x0, 0x0, [], .stored⟩,
   ⟨0xb00200, 16, 0x10, 1, 0x10000000, 0x0, .const, 0x0, 0x30000fff, 0x0, 0x80000000, 0x0, 0x0, [], .stored⟩,
   ⟨0xb00204, 16, 0x10, 1, 0x10000000, 0x0, .const, 0x0, 0xffffffff, 0x0, 0x0, 0x0, 0x0, [], .stored⟩,
   ⟨0xb00208, 16, 0x10, 1, 0x10000000, 0x0, .const, 0x0, 0xffffffff, 0x0, 0x0, 0x0, 0x0, [], .stored⟩,
   ⟨0xb00800, 256, 0x8, 1, 0x10000000, 0x0, .const, 0xffffffff, 0x0, 0x0, 0x0, 0x0, 0x0, [], .stored⟩] ++
  [⟨0xb00804, 256, 0x8, 1, 0x10000000, 0x0, .const, 0xffffffff, 0x0, 0x0, 0x0, 0x0, 0x0, [], .stored⟩,
   ⟨0xb10000, 64, 0x400, 160, 0x4, 0x0, .const, 0x0, 0x0, 0x0, 0x0, 0x0, 0xffffffff, [], .stored⟩,
   ⟨0xb0ff00, 1, 0x10000000, 1, 0x10000000, 0x0, .const, 0x0, 0x0, 0x0, 0x1, 0x0, 0x0, [], .stored⟩,
   ⟨0xb0ff04, 1, 0x10000000, 1, 0x10000000, 0x0, .const, 0x0, 0xff0103, 0x0, 0x0, 0x0, 0x0, [], .stored⟩,
   ⟨0xb0ff08, 1, 0x10000000, 1, 0x10000000, 0x0, .const, 0x0, 0xffffffff, 0x0, 0x0, 0x0, 0x0, [], .stored⟩,
   ⟨0xb0ff0c, 1, 0x10000000, 1, 0x10000000, 0x0, .const, 0x0, 0xffffffff, 0x0, 0x0, 0x0, 0x0, [], .stored⟩]

/-- The CMP block's rows. -/
def cmpRows : List RegRow :=
  [⟨0xc00000, 1, 0x10000000, 1, 0x10000000, 0x0, .const, 0x0, 0x0, 0x0, 0x0, 0x0, 0x3, [], .stored⟩,
   ⟨0xc00010, 2, 0x4, 1, 0x10000000, 0x0, .const, 0x0, 0x0, 0x0, 0x0, 0x0, 0x1ff, [], .stored⟩,
   ⟨0xc00020, 1, 0x10000000, 1, 0x10000000, 0x0, .const, 0x0, 0x1, 0x0, 0x0, 0x0, 0x0, [], .stored⟩,
   ⟨0xc00030, 2, 0x4, 1, 0x10000000, 0x0, .const, 0x0, 0xffffffff, 0x0, 0x0, 0x0, 0x0, [], .cmpInflight⟩,
   ⟨0xc00100, 8, 0x4, 1, 0x10000000, 0x0, .const, 0xffffffff, 0x0, 0x0, 0x0, 0x0, 0x0, [], .stored⟩,
   ⟨0xc00140, 1, 0x10000000, 1, 0x10000000, 0x0, .const, 0xffffffff, 0x0, 0x0, 0x0, 0x0, 0x0, [], .stored⟩,
   ⟨0xc00144, 1, 0x10000000, 1, 0x10000000, 0x0, .const, 0xffffffff, 0x0, 0x0, 0x0, 0x0, 0x0, [], .stored⟩,
   ⟨0xc00148, 1, 0x10000000, 1, 0x10000000, 0x0, .const, 0xffffffff, 0x0, 0x0, 0x0, 0x0, 0x0, [], .stored⟩,
   ⟨0xc0014c, 1, 0x10000000, 1, 0x10000000, 0x0, .const, 0xffffffff, 0x0, 0x0, 0x0, 0x0, 0x0, [], .stored⟩,
   ⟨0xc10000, 2, 0x1000, 2, 0x4, 0x0, .const, 0x0, 0x0, 0x0, 0x0, 0x0, 0xffffffff, [], .stored⟩,
   ⟨0xc10100, 2, 0x1000, 512, 0x4, 0x0, .const, 0x0, 0x0, 0x0, 0x0, 0x0, 0xffffffff, [], .stored⟩,
   ⟨0xc0ff00, 1, 0x10000000, 1, 0x10000000, 0x0, .const, 0x0, 0x0, 0x0, 0x1, 0x0, 0x0, [], .stored⟩] ++
  [⟨0xc0ff04, 1, 0x10000000, 1, 0x10000000, 0x0, .const, 0x0, 0xff0103, 0x0, 0x0, 0x0, 0x0, [], .stored⟩,
   ⟨0xc0ff08, 1, 0x10000000, 1, 0x10000000, 0x0, .const, 0x0, 0xffffffff, 0x0, 0x0, 0x0, 0x0, [], .stored⟩,
   ⟨0xc0ff0c, 1, 0x10000000, 1, 0x10000000, 0x0, .const, 0x0, 0xffffffff, 0x0, 0x0, 0x0, 0x0, [], .stored⟩]

/-- The OPT block's rows. -/
def optRows : List RegRow :=
  [⟨0xd00000, 8, 0x20000, 1, 0x10000000, 0x10, .const, 0x1f, 0x0, 0x0, 0x0, 0x0, 0x0, [], .stored⟩,
   ⟨0xd00004, 8, 0x20000, 1, 0x10000000, 0xf00, .const, 0x0, 0xfffffff, 0x0, 0x0, 0x0, 0x0, [], .stored⟩,
   ⟨0xd00008, 8, 0x20000, 1, 0x10000000, 0x2819140f, .const, 0xffffffff, 0x0, 0x0, 0x0, 0x0, 0x0, [⟨0, 8, 5, 30⟩, ⟨8, 8, 10, 35⟩, ⟨16, 8, 15, 40⟩, ⟨24, 8, 20, 60⟩], .stored⟩,
   ⟨0xd0000c, 8, 0x20000, 1, 0x10000000, 0x0, .const, 0x4, 0xf00, 0x0, 0xb, 0x0, 0x0, [], .stored⟩,
   ⟨0xd00010, 8, 0x20000, 1, 0x10000000, 0x0, .const, 0xffffffff, 0x0, 0x0, 0x0, 0x0, 0x0, [], .stored⟩,
   ⟨0xd00014, 8, 0x20000, 1, 0x10000000, 0x0, .const, 0xffffffff, 0x0, 0x0, 0x0, 0x0, 0x0, [], .stored⟩,
   ⟨0xd00018, 8, 0x20000, 1, 0x10000000, 0xff, .const, 0x0, 0x3ff, 0x0, 0x0, 0x0, 0x0, [], .optSpareStatus⟩,
   ⟨0xd00020, 8, 0x20000, 4, 0x4, 0x0, .const, 0x0, 0x3fffff, 0x0, 0x0, 0x0, 0x0, [], .stored⟩,
   ⟨0xd00030, 8, 0x20000, 4, 0x4, 0x0, .const, 0x0, 0x3fffff, 0x0, 0x0, 0x0, 0x0, [], .stored⟩,
   ⟨0xd00040, 8, 0x20000, 4, 0x4, 0x0, .const, 0x0, 0xffffffff, 0x0, 0x0, 0x0, 0x0, [], .stored⟩,
   ⟨0xd00050, 8, 0x20000, 1, 0x10000000, 0x0, .const, 0x17ff, 0x0, 0x0, 0x80000000, 0x0, 0x0, [], .stored⟩,
   ⟨0xd00054, 8, 0x20000, 1, 0x10000000, 0x0, .const, 0x0, 0x1ffff, 0x0, 0x0, 0x0, 0x0, [], .stored⟩] ++
  [⟨0xd00058, 8, 0x20000, 1, 0x10000000, 0x0, .const, 0x0, 0xffff, 0x0, 0x0, 0x0, 0x0, [], .stored⟩,
   ⟨0xd00100, 8, 0x20000, 9, 0x4, 0x0, .const, 0xffffffff, 0x0, 0x0, 0x0, 0x0, 0x0, [], .stored⟩,
   ⟨0xd00200, 8, 0x20000, 1, 0x10000000, 0x0, .const, 0x0, 0x1f, 0x0, 0x0, 0x0, 0x0, [], .stored⟩,
   ⟨0xd00210, 8, 0x20000, 8, 0x10, 0x0, .const, 0x10f, 0x0, 0x0, 0x0, 0x0, 0x0, [], .stored⟩,
   ⟨0xd00214, 8, 0x20000, 8, 0x10, 0x0, .const, 0xffffffff, 0x0, 0x0, 0x0, 0x0, 0x0, [], .stored⟩,
   ⟨0xd00218, 8, 0x20000, 8, 0x10, 0x0, .const, 0xffffffff, 0x0, 0x0, 0x0, 0x0, 0x0, [], .stored⟩,
   ⟨0xd00300, 8, 0x20000, 8, 0x4, 0x0, .const, 0x0, 0xffffffff, 0x0, 0x0, 0x0, 0x0, [], .stored⟩,
   ⟨0xd00320, 8, 0x20000, 4, 0x4, 0x0, .const, 0xffffffff, 0x0, 0x0, 0x0, 0x0, 0x0, [], .stored⟩,
   ⟨0xd01000, 8, 0x20000, 128, 0x4, 0x44444444, .const, 0x0, 0x0, 0x0, 0x0, 0x0, 0xffffffff, [], .stored⟩,
   ⟨0xd0ff00, 8, 0x20000, 1, 0x10000000, 0x0, .const, 0x0, 0x0, 0x0, 0x1, 0x0, 0x0, [], .stored⟩,
   ⟨0xd0ff04, 8, 0x20000, 1, 0x10000000, 0x0, .const, 0x0, 0xff0103, 0x0, 0x0, 0x0, 0x0, [], .stored⟩,
   ⟨0xd0ff08, 8, 0x20000, 1, 0x10000000, 0x0, .const, 0x0, 0xffffffff, 0x0, 0x0, 0x0, 0x0, [], .stored⟩] ++
  [⟨0xd0ff0c, 8, 0x20000, 1, 0x10000000, 0x0, .const, 0x0, 0xffffffff, 0x0, 0x0, 0x0, 0x0, [], .stored⟩]

/-- The DFL block's rows. -/
def dflRows : List RegRow :=
  [⟨0xe00000, 1, 0x10000000, 1, 0x10000000, 0x0, .const, 0xffffffff, 0x0, 0x0, 0x0, 0x0, 0x0, [], .stored⟩,
   ⟨0xe00004, 1, 0x10000000, 1, 0x10000000, 0x460, .const, 0xffff, 0x0, 0x0, 0x0, 0x0, 0x0, [], .stored⟩,
   ⟨0xe00100, 64, 0x4, 1, 0x10000000, 0x0, .dflDstMap, 0x1f1f1f1f, 0x0, 0x0, 0x0, 0x0, 0x0, [], .stored⟩,
   ⟨0xe00200, 8, 0x4, 1, 0x10000000, 0x0, .dflVcCfg, 0x0, 0x0, 0x0, 0x0, 0x0, 0xffffff01, [], .stored⟩,
   ⟨0xe00220, 8, 0x4, 1, 0x10000000, 0x2000040, .const, 0x0, 0x0, 0x0, 0x0, 0x0, 0xfff0fff, [], .stored⟩,
   ⟨0xe00300, 1, 0x10000000, 1, 0x10000000, 0x3e80000, .const, 0x0, 0x0, 0x0, 0x0, 0x0, 0xffff01ff, [⟨0, 9, 0, 256⟩, ⟨16, 16, 100, 65535⟩], .stored⟩,
   ⟨0xe00304, 1, 0x10000000, 1, 0x10000000, 0x0, .const, 0x0, 0x0, 0x0, 0x0, 0x0, 0xffffffff, [], .stored⟩,
   ⟨0xe00308, 1, 0x10000000, 1, 0x10000000, 0x0, .const, 0x0, 0x0, 0x0, 0x0, 0x0, 0xffffffff, [], .stored⟩,
   ⟨0xe00400, 1, 0x10000000, 1, 0x10000000, 0x0, .const, 0x71f, 0x0, 0x0, 0x0, 0x0, 0x0, [], .stored⟩,
   ⟨0xe00404, 1, 0x10000000, 1, 0x10000000, 0x0, .const, 0x0, 0xffffffff, 0x0, 0x0, 0x0, 0x0, [], .stored⟩,
   ⟨0xe00408, 1, 0x10000000, 1, 0x10000000, 0x0, .const, 0x0, 0xffffffff, 0x0, 0x0, 0x0, 0x0, [], .stored⟩,
   ⟨0xe00420, 7, 0x4, 1, 0x10000000, 0x0, .const, 0x0, 0xffffffff, 0x0, 0x0, 0x0, 0x0, [], .dflPm⟩] ++
  [⟨0xe00500, 1, 0x10000000, 1, 0x10000000, 0x0, .const, 0xffffffff, 0x0, 0x0, 0x0, 0x0, 0x0, [], .stored⟩,
   ⟨0xe01000, 32, 0x100, 1, 0x10000000, 0x3e8028, .const, 0x7ffffff, 0x0, 0x0, 0x0, 0x0, 0x0, [⟨1, 10, 8, 1000⟩, ⟨11, 16, 500, 65535⟩], .stored⟩,
   ⟨0xe01004, 32, 0x100, 1, 0x10000000, 0x0, .const, 0x0, 0x3, 0x0, 0x0, 0x0, 0x0, [], .stored⟩,
   ⟨0xe01008, 32, 0x100, 1, 0x10000000, 0x0, .const, 0x0, 0xffffffff, 0x0, 0x0, 0x0, 0x0, [], .stored⟩,
   ⟨0xe0100c, 32, 0x100, 1, 0x10000000, 0x0, .const, 0x0, 0xffffffff, 0x0, 0x0, 0x0, 0x0, [], .stored⟩,
   ⟨0xe01010, 32, 0x100, 1, 0x10000000, 0x0, .const, 0x0, 0xffff, 0x0, 0x0, 0x0, 0x0, [], .stored⟩,
   ⟨0xe01040, 32, 0x100, 10, 0x4, 0x0, .const, 0xffffffff, 0x0, 0x0, 0x0, 0x0, 0x0, [], .stored⟩,
   ⟨0xe40000, 32, 0x200, 128, 0x4, 0x0, .const, 0x0, 0x0, 0x0, 0x0, 0x0, 0xffffffff, [], .stored⟩,
   ⟨0xe60000, 32, 0x200, 32, 0x10, 0x0, .const, 0x0, 0xffffffff, 0x0, 0x0, 0x0, 0x0, [], .stored⟩,
   ⟨0xe60004, 32, 0x200, 32, 0x10, 0x0, .const, 0xffffffff, 0x0, 0x0, 0x0, 0x0, 0x0, [], .stored⟩,
   ⟨0xe80000, 32, 0x800, 512, 0x4, 0x0, .const, 0x0, 0x0, 0x0, 0x0, 0x0, 0xffffffff, [], .stored⟩,
   ⟨0xe0ff00, 1, 0x10000000, 1, 0x10000000, 0x0, .const, 0x0, 0x0, 0x0, 0x1, 0x0, 0x0, [], .stored⟩] ++
  [⟨0xe0ff04, 1, 0x10000000, 1, 0x10000000, 0x0, .const, 0x0, 0xff0103, 0x0, 0x0, 0x0, 0x0, [], .stored⟩,
   ⟨0xe0ff08, 1, 0x10000000, 1, 0x10000000, 0x0, .const, 0x0, 0xffffffff, 0x0, 0x0, 0x0, 0x0, [], .stored⟩,
   ⟨0xe0ff0c, 1, 0x10000000, 1, 0x10000000, 0x0, .const, 0x0, 0xffffffff, 0x0, 0x0, 0x0, 0x0, [], .stored⟩]

/-- The QUE block's rows. -/
def queRows : List RegRow :=
  [⟨0xf00000, 256, 0x4, 1, 0x10000000, 0x0, .const, 0xffffffff, 0x0, 0x0, 0x0, 0x0, 0x0, [], .stored⟩,
   ⟨0xf00400, 8, 0x4, 1, 0x10000000, 0x0, .const, 0x0, 0x0, 0xffffffff, 0x0, 0x0, 0x0, [], .stored⟩,
   ⟨0xf01000, 64, 0x40, 1, 0x10000000, 0x60, .const, 0x1ff7fff, 0x0, 0x0, 0x2000000, 0x0, 0x0, [⟨4, 5, 6, 16⟩], .stored⟩,
   ⟨0xf01004, 64, 0x40, 1, 0x10000000, 0x0, .const, 0xfffff000, 0x0, 0x0, 0x0, 0x0, 0x0, [], .stored⟩,
   ⟨0xf01008, 64, 0x40, 1, 0x10000000, 0x0, .const, 0xffffffff, 0x0, 0x0, 0x0, 0x0, 0x0, [], .stored⟩,
   ⟨0xf0100c, 64, 0x40, 1, 0x10000000, 0x0, .const, 0x0, 0xffff, 0x0, 0x0, 0x0, 0x0, [], .queQStatus⟩,
   ⟨0xf01010, 64, 0x40, 1, 0x10000000, 0x0, .const, 0x0, 0xffffffff, 0x0, 0x0, 0x0, 0x0, [], .queQFetch⟩]

/-- The ERR block's rows. -/
def errRows : List RegRow :=
  [⟨0x1000000, 1, 0x10000000, 1, 0x10000000, 0x3, .const, 0x107, 0x0, 0x0, 0x200, 0x0, 0x0, [], .stored⟩,
   ⟨0x1000004, 1, 0x10000000, 1, 0x10000000, 0x0, .const, 0x0, 0x7f1f07, 0x0, 0x0, 0x0, 0x0, [], .stored⟩,
   ⟨0x1000008, 1, 0x10000000, 1, 0x10000000, 0x0, .const, 0x0, 0xffffffff, 0x0, 0x0, 0x0, 0x0, [], .stored⟩,
   ⟨0x1000010, 1, 0x10000000, 1, 0x10000000, 0x0, .const, 0x0, 0xffffffff, 0x0, 0x0, 0x0, 0x0, [], .errLogFirst⟩,
   ⟨0x1000014, 1, 0x10000000, 1, 0x10000000, 0x0, .const, 0x0, 0xffffffff, 0x0, 0x0, 0x0, 0x0, [], .errLogLast⟩,
   ⟨0x1000018, 1, 0x10000000, 1, 0x10000000, 0x0, .const, 0xffffffff, 0x0, 0x0, 0x0, 0x0, 0x0, [], .stored⟩,
   ⟨0x100001c, 1, 0x10000000, 1, 0x10000000, 0x0, .const, 0xffffffff, 0x0, 0x0, 0x0, 0x0, 0x0, [], .stored⟩,
   ⟨0x1000020, 1, 0x10000000, 1, 0x10000000, 0x0, .const, 0x0, 0xffffffff, 0x0, 0x0, 0x0, 0x0, [], .stored⟩,
   ⟨0x1000024, 1, 0x10000000, 1, 0x10000000, 0x0, .const, 0x0, 0xf, 0x80000000, 0x0, 0x0, 0x0, [], .stored⟩,
   ⟨0x1000028, 1, 0x10000000, 1, 0x10000000, 0x0, .const, 0xffffffff, 0x0, 0x0, 0x0, 0x0, 0x0, [], .stored⟩,
   ⟨0x1000030, 1, 0x10000000, 1, 0x10000000, 0x0, .const, 0x0, 0x0, 0x3f, 0x0, 0x0, 0x0, [], .stored⟩,
   ⟨0x1000034, 1, 0x10000000, 1, 0x10000000, 0x0, .const, 0x3f, 0x0, 0x0, 0x0, 0x0, 0x0, [], .stored⟩] ++
  [⟨0x1000040, 1, 0x10000000, 1, 0x10000000, 0x0, .const, 0x1f, 0x0, 0x0, 0x0, 0x0, 0x0, [⟨0, 5, 0, 20⟩], .stored⟩,
   ⟨0x1000044, 1, 0x10000000, 1, 0x10000000, 0x0, .const, 0x0, 0xffffffff, 0x0, 0x0, 0x0, 0x0, [], .errBandStat⟩,
   ⟨0x1000100, 16, 0x4, 1, 0x10000000, 0x0, .const, 0x0, 0xffffffff, 0x0, 0x0, 0x0, 0x0, [], .errLogData⟩]

/-- The BOOT block's rows. -/
def bootRows : List RegRow :=
  [⟨0x1100000, 1, 0x10000000, 1, 0x10000000, 0x0, .const, 0x0, 0xffffffff, 0x0, 0x0, 0x0, 0x0, [], .stored⟩,
   ⟨0x1100004, 1, 0x10000000, 1, 0x10000000, 0xb4000000, .const, 0xff0001ff, 0x0, 0x0, 0x10000, 0x0, 0x0, [⟨24, 8, 10, 255⟩], .stored⟩,
   ⟨0x1100008, 1, 0x10000000, 1, 0x10000000, 0x0, .const, 0x0, 0xffffffff, 0x0, 0x0, 0x0, 0x0, [], .stored⟩,
   ⟨0x110000c, 1, 0x10000000, 1, 0x10000000, 0x0, .const, 0x0, 0xffffffff, 0x0, 0x0, 0x0, 0x0, [], .stored⟩,
   ⟨0x1100010, 1, 0x10000000, 1, 0x10000000, 0x0, .const, 0x0, 0x7fff, 0x0, 0x0, 0x0, 0x0, [], .bootSvn⟩,
   ⟨0x1100020, 4, 0x4, 1, 0x10000000, 0x0, .const, 0x0, 0xffffffff, 0x0, 0x0, 0x0, 0x0, [], .bootChipId⟩,
   ⟨0x1100030, 1, 0x10000000, 1, 0x10000000, 0x0, .const, 0x0, 0x1f, 0x0, 0x0, 0x0, 0x0, [], .stored⟩,
   ⟨0x1100040, 1, 0x10000000, 1, 0x10000000, 0x0, .const, 0x0, 0xf00, 0x0, 0x1, 0x0, 0x0, [], .stored⟩,
   ⟨0x1100050, 1, 0x10000000, 1, 0x10000000, 0x0, .const, 0x0, 0xff0f00, 0x0, 0x1, 0x0, 0x0, [], .stored⟩,
   ⟨0x1100054, 1, 0x10000000, 1, 0x10000000, 0x0, .const, 0xffffffff, 0x0, 0x0, 0x0, 0x0, 0x0, [], .stored⟩,
   ⟨0x1100058, 1, 0x10000000, 1, 0x10000000, 0x0, .const, 0xffffffff, 0x0, 0x0, 0x0, 0x0, 0x0, [], .stored⟩,
   ⟨0x110005c, 1, 0x10000000, 1, 0x10000000, 0x0, .const, 0xffffffff, 0x0, 0x0, 0x0, 0x0, 0x0, [], .stored⟩] ++
  [⟨0x1100060, 1, 0x10000000, 1, 0x10000000, 0x0, .const, 0x37f, 0xf000, 0x0, 0x80000000, 0x0, 0x0, [], .stored⟩,
   ⟨0x1100100, 1, 0x10000000, 1, 0x10000000, 0x0, .const, 0x0, 0xffffffff, 0x0, 0x0, 0x0, 0x0, [], .stored⟩,
   ⟨0x1100104, 1, 0x10000000, 1, 0x10000000, 0x0, .const, 0x0, 0xffffffff, 0x0, 0x0, 0x0, 0x0, [], .stored⟩,
   ⟨0x1100180, 7, 0x4, 1, 0x10000000, 0x0, .const, 0xffffffff, 0x0, 0x0, 0x0, 0x0, 0x0, [], .stored⟩,
   ⟨0x1101000, 4096, 0x4, 1, 0x10000000, 0x0, .const, 0xffffffff, 0x0, 0x0, 0x0, 0x0, 0x0, [], .stored⟩,
   ⟨0x1110000, 16384, 0x4, 1, 0x10000000, 0x0, .const, 0xffffffff, 0x0, 0x0, 0x0, 0x0, 0x0, [], .bootRecWin⟩]

/-- The PIN block's rows. -/
def pinRows : List RegRow :=
  [⟨0x1200000, 1, 0x10000000, 1, 0x10000000, 0x0, .const, 0x0, 0x7ffffff, 0x0, 0x0, 0x0, 0x0, [], .stored⟩,
   ⟨0x1200010, 1, 0x10000000, 1, 0x10000000, 0x0, .const, 0xffff, 0x0, 0x0, 0x0, 0x0, 0x0, [], .stored⟩,
   ⟨0x1200014, 1, 0x10000000, 1, 0x10000000, 0x0, .const, 0xffff, 0x0, 0x0, 0x0, 0x0, 0x0, [], .stored⟩,
   ⟨0x1200018, 1, 0x10000000, 1, 0x10000000, 0x0, .const, 0x0, 0xffff, 0x0, 0x0, 0x0, 0x0, [], .pinGpioIn⟩,
   ⟨0x1200100, 16, 0x8, 1, 0x10000000, 0x0, .const, 0x80ff0f7f, 0x0, 0x0, 0x0, 0x0, 0x0, [], .stored⟩,
   ⟨0x1200104, 16, 0x8, 1, 0x10000000, 0x0, .const, 0x0, 0x8000ffff, 0x0, 0x0, 0x0, 0x0, [], .stored⟩,
   ⟨0x1200200, 10, 0x4, 1, 0x10000000, 0x0, .const, 0x0, 0xffff0007, 0x0, 0x0, 0x0, 0x0, [], .pinLcbStatus⟩]

/-- The rows of the block that holds an address (R4). -/
def rowsAt (a : Nat) : List RegRow :=
  match a / 0x100000 with
  | 0x0 => topRows
  | 0x1 => pwrRows
  | 0x2 => timeRows
  | 0x3 => secRows
  | 0x4 => lineRows
  | 0x5 => lineRows
  | 0x6 => routeRows
  | 0x7 => schedRows
  | 0x8 => lndRows
  | 0x9 => galRows
  | 0xa => rueRows
  | 0xb => cleRows
  | 0xc => cmpRows
  | 0xd => optRows
  | 0xe => dflRows
  | 0xf => queRows
  | 0x10 => errRows
  | 0x11 => bootRows
  | 0x12 => pinRows
  | _ => []

/-- The row and indexes of the register at an address. -/
def regAt (a : Nat) : Option (RegRow × Nat × Nat) :=
  (rowsAt a).findSome? (fun r => (r.index? a).map (fun ij => (r, ij.1, ij.2)))

/-- Default WFQ weight of line VC `v` (10_line_scheduler.md SCHED_Q_CFG reset). -/
def schedWeightReset (v : Nat) : Nat :=
  [0x8000, 0x4000, 0x1000, 0x1000].getD v 0x0400

/-- Reset value of the register (R7), for arrays by index. -/
def RegRow.resetAt (r : RegRow) (i j : Nat) : Word :=
  BitVec.ofNat 32 (match r.kind with
  | .const => r.reset
  | .phaseCfg => if i = 0 then 0x2 else 0xA
  | .schedQCfg => 0x210000 + schedWeightReset (j / 8)
  | .schedQmapLo => 0x20610200 + (i % 8) * 0x01041041
  | .schedQmapHi => 0x0C28 + (i % 8) * 0x41
  | .lndMinA => [0, 64, 0, 0, 0x800000, 0x800000, 0x1000000, 0x200000, 256, 256, 128, 64, 0x400000, 16, 32, 0].getD i 0
  | .lndMinB => [40, 0, 16, 0x40000].getD i 0
  | .dflDstMap => let f := 4 * i % 32
    f + (f + 1) * 0x100 + (f + 2) * 0x10000 + (f + 3) * 0x1000000
  | .dflVcCfg => [0x200, 0x80001000, 0x40001000, 0x10001000, 0x10001000].getD i 0x04001000)

/-- The value a register that nothing has written reads as: its reset value, 0 where no register lies. -/
def regReset (a : Nat) : Word :=
  match regAt a with
  | some (r, i, j) => r.resetAt i j
  | none => 0

end Sys2Proof.Machine
end

