-- ==== Sys2Proof/Machine/State.lean ====
section
/-! DEFINITION. The state of the block as plain data: everything INVENTORY.md lists under "State", and the machine
right after reset. Reset values that the spec does not give are named in the assumption log (5, 6). -/
namespace Sys2Proof.Machine

/-- Stops of a step. No meaning of this model ends in one; the type is the host interface's. -/
inductive Fault where
  /-- Raised by no meaning: the spec describes no access that has no outcome (every bad access is discarded,
  reads 0 or is recorded, 00_scope.md R5, 18_host_interface.md R337). Safe. -/
  | unreachable
  deriving DecidableEq, Repr

/-- Refusals of a step. -/
inductive Refusal where
  /-- A command whose meaning is not modelled yet, by its mnemonic; raised by `exec`'s arms alone. Safe. -/
  | notModelled (mnemonic : String)
  deriving DecidableEq, Repr

/-! ### Time (14_time.md) -/

/-- What the time base knows of one peer (R270): SEQ of the latest PROBE, whether one has been sent, the latest offset and
mean delay in units of 2^-17 ns (twice their value in 2^-16 ns, so that no half is lost), and the state it reported. -/
structure PeerTime where
  seq : Nat := 0
  sent : Bool := false
  offset : Int := 0
  delay : Int := 0
  farState : Nat := 0
  deriving DecidableEq, Repr

/-- The time base. `dev` is device time in units of 2^-16 ns (R263), `mono` the monotonic count in ns (R264). -/
structure TimeBase where
  dev : Nat := 0
  mono : Nat := 0
  /-- Monotonic time of the previous valid 1PPS edge. -/
  lastEdge : Option Nat := none
  /-- Device reading at the previous valid edge, until its message has been accepted. -/
  edgeReading : Option Nat := none
  /-- Monotonic time of the last valid edge with an accepted message, and of the last accepted message. -/
  lastGood : Option Nat := none
  lastTod : Option Nat := none
  /-- The time (seconds) named for the last edge that had an accepted message, and that edge's monotonic time. -/
  named : Option (Nat × Nat) := none
  goodRun : Nat := 0
  badRun : Nat := 0
  stepNext : Bool := false
  /-- Phase error still to be removed by slewing at 100 ppm, in 2^-16 ns; 0 when it does not slew (R266). -/
  slew : Int := 0
  tenMHz : Bool := false
  peers : Sparse PeerTime := []
  deriving DecidableEq, Repr

/-! ### Error log and host interface (18, 19) -/

/-- One entry of the error log (19_faults_and_spares.md R346). -/
structure LogEntry where
  seq : Nat
  time : Nat
  cls : Nat
  blk : Nat
  code : Nat
  phase : Nat
  tj : Nat
  vcore : Nat
  kind : Nat
  reason : Nat
  index : Nat
  arg0 : Nat
  arg1 : Nat
  arg2 : Nat
  arg3 : Nat
  deriving DecidableEq, Repr

/-- The error log: entries held, oldest first, and the next sequence number (always-on domain). -/
structure ErrLog where
  entries : List LogEntry := []
  seq : Nat := 0
  deriving DecidableEq, Repr

/-- The host function (18_host_interface.md R330-R340). -/
structure HostIf where
  /-- Bus Master Enable. -/
  bme : Bool := false
  d3hot : Bool := false
  /-- MSI-X Function Mask. -/
  fnMask : Bool := false
  /-- DOE response in progress. -/
  doeResponse : Option (List Byte) := none
  deriving DecidableEq, Repr

/-- A snapshot of a block's staged fields: its registers and, for CLE, the listed bytes of the staged group table by
their offset in it (R342, 04 R81). -/
structure StagedSet where
  regs : Sparse Word := []
  table : Sparse Byte := []
  deriving DecidableEq, Repr

/-- The set under its check with the outcome that the check will show (reason 0: accepted; item), and the accepted set that
waits for its boundary (R342, R343). -/
structure Commit where
  checking : Option (StagedSet × Nat × Nat) := none
  accepted : Option StagedSet := none
  deriving DecidableEq, Repr

/-! ### Optics (12_optical_engines.md) and the Concourse (13_fabric_links_and_concourse.md) -/

/-- What a transceiver ring's Peg is doing (R224, R229). -/
inductive RingMode where
  | parked | sweep | locked | relock | resweep | jump | failed
  deriving DecidableEq, Repr

/-- One transceiver ring with its Peg. Heater values in microwatts. -/
structure Ring where
  mode : RingMode := .parked
  heater : Nat := 0
  /-- Stage 1 sweep: present heater step, crossings found, gap, latest crossing, already repeated once. -/
  h : Nat := 0
  xs : List Nat := []
  gap : Option Nat := none
  last : Nat := 0
  again : Bool := false
  /-- Crossings and gap recorded by the bring-up sweep. -/
  recXs : List Nat := []
  recGap : Option Nat := none
  trimmed : Bool := false
  /-- Set point of the lock loop, as the fine trim has corrected it. -/
  setPoint : Int := 0
  outRun : Nat := 0
  trackRun : Nat := 0
  /-- Monotonic times of this ring's full sweeps in service. -/
  fullSweeps : List Nat := []
  carries : Option Nat := none
  /-- Neighbours by ring number in the quad, and their coupling coefficients in 128ths of 6 % (R227). -/
  neighbours : List (Nat × Nat) := []
  deriving DecidableEq, Repr

/-- Classes of heater steps in the order of grant (R228). -/
inductive HeatClass where
  | tracking | relock | concourse | sweep
  deriving DecidableEq, Repr

/-- A heater step that waits for its grant: class, ring number in the quad (136 and above: Concourse ring), new
heater value and size of the step in microwatts. -/
structure HeatReq where
  cls : HeatClass
  ring : Nat
  target : Nat
  size : Nat
  /-- Not granted before this monotonic time; and whether its deferral has been counted. -/
  due : Nat := 0
  counted : Bool := false
  deriving DecidableEq, Repr

/-- A laser switch in progress (R234): the source it goes to, whether it returns to the primary, when decided,
whether the selector has moved, and whether the rings have relocked. -/
structure LaserSwitch where
  target : Nat
  back : Bool
  decided : Nat
  moved : Bool := false
  relocked : Bool := false
  relockedAt : Nat := 0
  deriving DecidableEq, Repr

/-- A command of the host that waits for its time or its source (R235, R236). -/
inductive LaserPending where
  | none
  | switch (timed : Bool)
  | back (timed : Bool) (since : Nat)
  deriving DecidableEq, Repr

/-- A Concourse switch in progress (R259). -/
structure ConcSwitch where
  config : Nat
  started : Nat
  /-- Rings still to reach their state: ring number, on, when granted. -/
  waiting : List (Nat × Bool × Option Nat) := []
  deriving DecidableEq, Repr

/-- One quad: its rings, its light and its Concourse. -/
structure Quad where
  rings : Sparse Ring := []
  light : Bool := false
  /-- When steps were last granted, and steps that wait. -/
  grantAt : Option Nat := none
  backlog : List HeatReq := []
  /-- Concourse ring changes made: monotonic times within the last 10 us (R228). -/
  concChanges : List Nat := []
  /-- Since when every Peg has been within 0.5 GHz, after HEATER was raised. -/
  trackOkSince : Option Nat := none
  heaterReason : Bool := false
  /-- For the thresholds WARN to CRIT: since when the fade has been at least 0.3 dB above it (R232). -/
  fadeRise : List (Option Nat) := [none, none, none, none]
  switch : Option LaserSwitch := none
  pendingCmd : LaserPending := .none
  /-- Since when the output of the source that feeds the quad has been stable at it. -/
  stableSince : Option Nat := none
  /-- OPT_MON_SEL as written with the GO whose reading runs. -/
  mon : Option Word := none
  /-- Concourse rings that are ON, and the switch in progress. -/
  concOn : List Nat := []
  concSwitch : Option ConcSwitch := none
  /-- Schedule entries that have fallen due and wait for a switch to end (R259, R260). -/
  concDue : List Nat := []
  deriving DecidableEq, Repr

/-- One external laser source E0 to E9 (R221, 20 R363). -/
structure Source where
  en : Bool := false
  faulted : Bool := false
  badRun : Nat := 0
  goodRun : Nat := 0
  stable : Bool := false
  serial : Option Nat := none
  /-- Every line lies within 2 GHz of the line it replaces (R232, R236). -/
  matched : Bool := false
  tecAct : Nat := 0
  deriving DecidableEq, Repr

/-- All quads and sources; reference sets by serial number are held in the field-repair record (R231). -/
structure Optics where
  quads : Sparse Quad := []
  sources : Sparse Source := []
  /-- VHTR in mV, and when it was last changed (20 R367). -/
  vhtr : Nat := 1000
  vhtrAt : Nat := 0
  deriving DecidableEq, Repr

/-! ### Weighted fair queues (10_line_scheduler.md R197) -/

/-- A weighted queue: items with finish tag and enqueue time (monotonic ns), oldest first, and F_last. -/
structure Wfq (α : Type) where
  items : List (α × Nat × Nat) := []
  flast : Nat := 0
  deriving DecidableEq, Repr

/-- Statistics of one queue over one second (R202, R203). -/
structure QStat where
  depthMin : Nat := 0
  depthMax : Nat := 0
  depthSum : Nat := 0
  samples : Nat := 0
  delayMin : Nat := 0xFFFFFFFF
  delayMax : Nat := 0
  delaySum : Nat := 0
  cells : Nat := 0
  deriving DecidableEq, Repr

/-! ### Fabric links (13_fabric_links_and_concourse.md) -/

/-- One DFL lane of a fibre (R238-R241). -/
structure Lane where
  locked : Bool := false
  good : Nat := 0
  missed : Nat := 0
  /-- BIP errors in the present millisecond and clean milliseconds in a row. -/
  errs : Nat := 0
  cleanMs : Nat := 0
  /-- BIP-32 over the scrambled flit slots of the present group, received and sent. -/
  rxBip : Nat := 0
  txBip : Nat := 0
  /-- Scrambler states (58 bits) of the present group. -/
  rxScr : Nat := 0x3FFFFFFFFFFFFFF
  txScr : Nat := 0x3FFFFFFFFFFFFFF
  mseq : Nat := 0
  farMseq : Nat := 0
  deriving DecidableEq, Repr

/-- A flit that waits to be sent: everything but SEQ, ACK, NAK, CREDIT and CRC. -/
structure FlitReq where
  ftype : Nat
  sop : Bool
  eop : Bool
  vc : Nat
  circ : Nat
  dst : Nat
  payload : List Byte
  deriving DecidableEq, Repr

/-- A flit held for replay: its SEQ, its content, and the credit it carried (R243). -/
structure HeldFlit where
  seq : Nat
  req : FlitReq
  cvc : Nat
  credit : Nat
  deriving DecidableEq, Repr

/-- One fibre port. -/
structure Fibre where
  lanes : Sparse Lane := []
  farRxOut : Nat := 0xFFFF
  farNode : Nat := 0
  farPort : Nat := 0
  /-- Next new SEQ, the latest ACK received, and when ACK last advanced (monotonic ns). -/
  seq : Nat := 1
  ackIn : Nat := 0
  ackAt : Nat := 0
  /-- Flits held for replay, oldest first, and the SEQs of a replay still to be resent. -/
  held : List HeldFlit := []
  replaying : List Nat := []
  /-- SEQ of the last flit accepted in order, and whether NAK has been sent since; a NAK still to be sent. -/
  ackOut : Nat := 0
  nakSent : Bool := false
  nakDue : Bool := false
  /-- Credits held per VC at the far end, and buffers freed here not yet returned. -/
  credits : Sparse Nat := []
  freed : Sparse Nat := []
  queues : Sparse (Wfq FlitReq) := []
  /-- Packets that their producers hold, by VC (R253, R254). -/
  waiting : Sparse (List (List FlitReq)) := []
  vtime : Nat := 0
  /-- Partial packets received per VC. -/
  partials : Sparse (List Byte) := []
  /-- CIRCUIT flits held in the receive buffer, oldest first: VC, circuit number and data (R252). -/
  circHeld : List (Nat × Nat × List Byte) := []
  /-- Slot position in the present group and the next lane in it (R240). -/
  slotPos : Nat := 0
  nextLane : Nat := 0
  lastHeard : Nat := 0
  stat : Sparse QStat := []
  latched : Sparse QStat := []
  /-- SEQ and send time of the flit that measures the acknowledgement loop (R245). -/
  probe : Option (Nat × Nat) := none
  /-- Slot-table entry in force (R255). -/
  slotEntry : Option Nat := none
  /-- Packets of a scheduled VC in progress past their slot (R255). -/
  midPacket : List Nat := []
  deriving DecidableEq, Repr

/-- All fibres, and the monotonic time of the last latch of DFL_PM. -/
structure Fabric where
  fibres : Sparse Fibre := []
  lastLatch : Nat := 0
  deriving DecidableEq, Repr

/-! ### Line ports (08_span_framer.md) -/

/-- State of cell delineation at a port (09_routes_striping_resequencing.md R176). -/
inductive Delin where
  | hunt | presync | sync
  deriving DecidableEq, Repr

/-- Compatibility class of one second, one of the four of R168: errored, severely errored. -/
structure SecondClass where
  es : Bool
  ses : Bool
  deriving DecidableEq, Repr

/-- One line port. Alignment state, defects and module state are in its registers. -/
structure LinePort where
  /-- PRE count, run of errored FAS, frames received in IF since entry (up to 2). -/
  preCount : Nat := 0
  fasRun : Nat := 0
  mfasExp : Option Nat := none
  mfasBad : Nat := 0
  /-- Computed (section, path) BIP-32 of the last frames received in IF, newest first, at most two. -/
  rxBips : List (Nat × Nat) := []
  /-- BIP errors still to return in SREI and PREI, carried remainder included (R157). -/
  sRei : Nat := 0
  pRei : Nat := 0
  sRdiOn : Nat := 0
  sRdiOff : Nat := 0
  pRdiOn : Nat := 0
  pRdiOff : Nat := 0
  aisOn : Nat := 0
  aisOff : Nat := 0
  /-- Section message being gathered, and the neighbour candidate with how often it came in a row. -/
  comms : List Byte := []
  nbrCand : Option (Nat × Nat) := none
  nbrRun : Nat := 0
  trace : List Byte := []
  traceCand : Option (List Byte) := none
  traceRun : Nat := 0
  traceAccepted : Bool := false
  /-- Payload bytes received, with the mark of an uncorrectable codeword (R166), not yet delineated. -/
  rx : List (Byte × Bool) := []
  delin : Delin := .hunt
  /-- Payload bytes to send. -/
  tx : List Byte := []
  mfasTx : Nat := 0
  txBips : List (Nat × Nat) := []
  /-- Relay: incoming path syndromes to merge, carried PREI, latest PRDI (R161, R162). -/
  relaySyn : Nat := 0
  relayPrei : Nat := 0
  relayPrdi : Bool := false
  relayPais : Bool := false
  /-- Working per-second counts 0 to 15 (R167), and the monotonic time of the last latch. -/
  pm : List Nat := List.replicate 16 0
  lastLatch : Nat := 0
  /-- Far-end errored blocks of the second, section and path (R168). -/
  farBlocks : Nat × Nat := (0, 0)
  /-- Seconds classified and not yet added, oldest first; the four classes in the order of LINE_CPM, none for a second with
  ENABLE = 0. -/
  history : List (List SecondClass) := []
  unavailable : List Bool := [false, false, false, false]
  degBadS : Nat := 0
  degOkS : Nat := 0
  degBadP : Nat := 0
  degOkP : Nat := 0
  /-- Since when the port has been in OOF or PRE, and in IF (monotonic ns). -/
  outSince : Option Nat := some 0
  inSince : Option Nat := none
  /-- Loss of signal or CDR lock on a host lane. -/
  sigLost : Bool := false
  /-- The module's reference clock is lost (R170). -/
  refLost : Bool := false
  /-- Transmit and receive framers enabled (R171). -/
  framerOn : Bool := false
  resetPulse : Option Nat := none
  /-- Marked by a GOING_DOWN notice of a relay (R192), and since when the path has been free of path fail. -/
  downMark : Bool := false
  clearSince : Option Nat := none
  /-- Since when the port has been in loss of frame or path fail (R99). -/
  lossSince : Option Nat := none
  /-- State of the PRBS31 generator sent while the port is qualified (16 R314). -/
  prbs : Nat := 0x7FFFFFFF
  deriving DecidableEq, Repr

/-! ### Routes, stripes, resequencing (09_routes_striping_resequencing.md) -/

/-- A closed stripe: what its shards carry (R180-R182). -/
structure Stripe where
  peer : Nat
  node : Nat
  vc : Nat
  seq : Nat
  slot : Nat
  gen : Nat
  k : Nat
  m : Nat
  routes : List Nat
  firstPkt : Nat
  data : List Byte
  /-- Shards queued or sent, with the route that took them (10 R201). -/
  out : List (Nat × Nat)
  /-- End of its hold on the monotonic count (R96, R193). -/
  holdEnd : Nat
  deriving DecidableEq, Repr

/-- The sending side of one stripe stream, keyed by NODE_ID and VC. -/
structure TxStream where
  seq : Nat := 0
  area : List Byte := []
  /-- Where in `area` packets begin. -/
  heads : List Nat := []
  openedAt : Nat := 0
  /-- Bytes that wait because a queue is full, and whether a packet header stands at their front (10 R200). -/
  waiting : List (List Byte × Bool) := []
  /-- The stream is held and the hold has been counted. -/
  held : Bool := false
  deriving DecidableEq, Repr

/-- A stripe at the receiver: shards held good by index, decoded data area. -/
structure RxStripe where
  seq : Nat
  k : Nat
  m : Nat
  firstPkt : Nat
  shards : Sparse (List Byte) := []
  tFirst : Nat
  naks : Nat := 0
  nextNak : Option Nat := none
  decoded : Option (List Byte) := none
  lost : Bool := false
  deriving DecidableEq, Repr

/-- The receiving side of one stripe stream, keyed by NODE_ID and VC. -/
structure RxStream where
  next : Nat := 0
  stripes : List RxStripe := []
  part : List Byte := []
  skip : Bool := false
  deriving DecidableEq, Repr

/-- Delay estimate of one (source, route number) (R185), and the forward delay the peer reported (R187). -/
structure RouteDelay where
  dref : Option Int := none
  intMin : Option Int := none
  /-- Interval minima that differ from D_ref in one direction by more than 50 us. -/
  run : List Int := []
  lastSample : Nat := 0
  fwd : Option Nat := none
  deriving DecidableEq, Repr

/-- The route layer. Streams are keyed by NODE_ID * 8 + VC, delays by NODE_ID * 8 + route. -/
structure RouteLayer where
  incarnation : Nat := 0
  txs : Sparse TxStream := []
  retained : List Stripe := []
  rxs : Sparse RxStream := []
  farInc : Sparse Nat := []
  delays : Sparse RouteDelay := []
  /-- Orderly reset in progress: monotonic time at which RESET is entered (R192). -/
  downAt : Option Nat := none
  lastReport : Nat := 0
  /-- Device time in ns at which delay intervals last ended (R185). -/
  lastInterval : Nat := 0
  deriving DecidableEq, Repr

/-! ### Line scheduler (10_line_scheduler.md) -/

/-- A shard cell that waits in a weighted queue; its header is completed when it is sent. -/
structure ShardCell where
  peer : Nat
  node : Nat
  vc : Nat
  route : Nat
  slot : Nat
  gen : Nat
  k : Nat
  m : Nat
  index : Nat
  resent : Bool
  seq : Nat
  firstPkt : Nat
  bytes : List Byte
  deriving DecidableEq, Repr

/-- A CONTROL cell that waits on one port: destination peer entry, its NODE_ID and the message. -/
structure CtrlCell where
  peer : Nat
  node : Nat
  msg : List Byte
  deriving DecidableEq, Repr

/-- The scheduler: weighted queues by route * 64 + queue, control queues by port, virtual times by route. -/
structure Scheduler where
  queues : Sparse (Wfq ShardCell) := []
  ctrl : Sparse (List CtrlCell) := []
  vtime : Sparse Nat := []
  stat : Sparse QStat := []
  latched : Sparse QStat := []
  lastLatch : Nat := 0
  /-- Sampling period in force (a write takes effect at the next second, R202). -/
  period : Nat := 1000
  /-- Device time in ns of the last depth sample (R202). -/
  lastSample : Nat := 0
  deriving DecidableEq, Repr

/-! ### Line cipher (11_line_cipher.md) -/

/-- State of a key slot (SEC_SLOT_INFO). -/
inductive SlotState where
  | empty | rxValid | rxHold | txArmed | txCurrent | txExhausted
  deriving DecidableEq, Repr

/-- A key slot of a security association. -/
structure KeySlot where
  state : SlotState := .empty
  key : List Byte := []
  salt : Nat := 0
  epoch : Nat := 0
  kcv : Nat := 0
  /-- Next transmit counter. -/
  ctr : Nat := 0
  highest : Nat := 0
  /-- Counters accepted within the replay window. -/
  seen : List Nat := []
  holdEnd : Nat := 0
  deriving DecidableEq, Repr

/-- A security association: slot 0 for even epochs, slot 1 for odd. -/
structure SecAssoc where
  s0 : KeySlot := {}
  s1 : KeySlot := {}
  switchAt : Option Nat := none
  deriving DecidableEq, Repr

/-- The cipher: associations by direction * 512 + peer * 8 + route (R204). -/
structure Cipher where
  sas : Sparse SecAssoc := []
  /-- Key check values of the last 64 transmit keys loaded since RESET (R209). -/
  recent : List Nat := []
  /-- When a peer entry lost its last sending key (monotonic ns; 0 when it never had one). -/
  keyLost : Sparse Nat := []
  /-- Monotonic times of core mismatches within the last millisecond (R215). -/
  mismatches : List Nat := []
  /-- Seconds, per port, in which transmit mismatches dropped cells (19 R350). -/
  dropSeconds : List (Nat × Nat) := []
  erasing : Bool := false
  retried : Bool := false
  deriving DecidableEq, Repr

/-! ### Power (15_power_and_thermal.md) -/

/-- Power state of the device (17_lifecycle_debug_power_states.md R326, 15 R286). `service` is RUN to HOT. -/
inductive PowerState where
  | off | ao | reset | bringup | service | safe
  deriving DecidableEq, Repr

/-- What a phase's present occurrence has shown (R290): its start on the monotonic count, summed power in mW per
tick, ticks, peak in mW at OPP2, stagger groups used as a bit mask, and how many units hold it. -/
structure PhaseOcc where
  start : Nat := 0
  sumMw : Nat := 0
  ticks : Nat := 0
  peakMw : Nat := 0
  groups : Nat := 0
  holders : Nat := 0
  deriving DecidableEq, Repr

/-- The power controller. -/
structure Power where
  state : PowerState := .bringup
  /-- Compute clocks stopped (IDLE, R287). -/
  idle : Bool := false
  /-- Since when the conditions of IDLE have held together (monotonic ns). -/
  quietSince : Option Nat := none
  /-- A wake event waits for its effect (R288). -/
  wake : Bool := false
  /-- Bubble fraction of the cap rule as an exact fraction. -/
  bNum : Nat := 0
  bDen : Nat := 1
  /-- Slower points demanded by the cap and by temperature; 0 demands none. -/
  capPoint : Nat := 0
  thermPoint : Nat := 0
  /-- Bubble fraction in tenths demanded at OPP7 by temperature. -/
  thermTenths : Nat := 0
  /-- Point chosen by the fit test of R292. -/
  fitPoint : Nat := 2
  /-- A move of operating point in progress: the point it goes to. -/
  moving : Option Nat := none
  overSince : Option Nat := none
  zeroSince : Option Nat := none
  maxSince : Option Nat := none
  overTempSince : Option Nat := none
  hot : Bool := false
  lastThermStep : Nat := 0
  droop : Bool := false
  ilimHold : Bool := false
  brake : Bool := false
  heater : Bool := false
  /-- Compute power of the last tick in mW, for the ramp limit of R284. -/
  lastCompute : Nat := 0
  /-- Bubble fraction (of 256) that the ramp limit adds. -/
  rampBubble : Nat := 0
  /-- Background of the last tick in mW, the estimates' sum and count since the last PMBus reading, and the sums of
  estimate and background with their count since the last heat-forecast message. -/
  background : Nat := 0
  estSum : Nat := 0
  estCount : Nat := 0
  heatSum : Nat := 0
  backSum : Nat := 0
  heatCount : Nat := 0
  calNum : Nat := 1
  calDen : Nat := 1
  lastPmbus : Nat := 0
  occ : Sparse PhaseOcc := []
  /-- Stagger groups running (bit mask of 24) and wanted (R289). -/
  started : Nat := 0
  wanted : Nat := 0
  lastGroup : Option Nat := none
  fcSeq : Nat := 0
  /-- Trim of each source's cooler set point (R294), in 0.01 degC, and when it was last sent. -/
  trim : Sparse Int := []
  tecSent : Sparse Nat := []
  deriving DecidableEq, Repr


/-! ### The Gallery (06_gallery.md) -/

/-- A row of a Gallery bank: channel 0 to 191 (stack * 32 + channel), bank and row. -/
structure Row where
  chan : Nat
  bank : Nat
  row : Nat
  deriving DecidableEq, Repr

/-- A channel whose granules are being copied into the repair reserve (R124). -/
structure ChanCopy where
  chan : Nat
  started : Nat
  deriving DecidableEq, Repr

/-- The run of seconds in which a channel had at least 1,000 corrected errors (R123). -/
structure ErrRate where
  second : Nat := 0
  count : Nat := 0
  run : Nat := 0
  deriving DecidableEq, Repr

/-- A refill set that has been started (R129, R130). Its parameters are in its registers. -/
structure Refill where
  source : Bool
  id : Nat
  peer : Nat
  base : Nat
  units : Nat
  /-- Source: next unit to send. Sink: next unit expected. -/
  next : Nat := 0
  /-- Source: the sink's last cumulative ACK. -/
  ack : Nat := 0
  /-- Sink: failed checks of the present unit. -/
  fails : Nat := 0
  /-- Sink: the unit asked for again, and when. -/
  asked : Option (Nat × Nat) := none
  /-- A message of the other end has arrived. -/
  seen : Bool := false
  /-- First and last lost unit. -/
  lost : Option (Nat × Nat) := none
  /-- Units made valid by this refill. -/
  done : Nat := 0
  lastHeard : Nat := 0
  lastSent : Nat := 0
  deriving DecidableEq, Repr

/-- The Gallery's own state beside its bytes. -/
structure Gallery where
  /-- Valid state units (R126); an unlisted unit is invalid. -/
  valid : Sparse Bool := []
  /-- Poisoned codewords, by codeword number (offset / 64). -/
  poison : Sparse Bool := []
  /-- Corrected errors with their monotonic times, at most 24 h old. -/
  corrected : List (Row × Nat) := []
  /-- Rows repaired in each channel, and spare rows used in each bank (channel * 65536 + bank). -/
  rows : Sparse Nat := []
  spares : Sparse Nat := []
  rates : Sparse ErrRate := []
  rowCopies : List (Row × Nat) := []
  chanCopies : List ChanCopy := []
  /-- Channels retired by the installed record or a repair, and those degraded for want of reserve. -/
  degraded : List Nat := []
  /-- A change of the line region in progress: the LINE_GIB before it (R119). -/
  lineChange : Option Nat := none
  refills : Sparse Refill := []
  deriving DecidableEq, Repr

/-! ### The Landing (05_landing.md) -/

/-- One bank of 256 KiB: the pool it is assigned to, whether it moves (R105), and its buffers in use, each with
the owner class. A bank without a pool is retired or not yet tested. -/
structure Bank where
  pool : Option Nat := none
  /-- The pool whose buffers it is cut into; a retired bank keeps it until its last buffer is freed. -/
  cut : Nat := 0
  moving : Bool := false
  used : List (Nat × Nat) := []
  /-- Corrected errors with their monotonic times, at most one hour old (19 R348). -/
  corrected : List Nat := []
  deriving DecidableEq, Repr

/-- A request that failed and is retried after 1 us (R110): class, size, when, and the message it is for. -/
structure Waiting where
  cls : Nat
  size : Nat
  due : Nat
  msg : List Byte
  deriving DecidableEq, Repr

/-- The Landing. -/
structure Landing where
  banks : List Bank := List.replicate 192 {}
  waiting : List Waiting := []
  deriving DecidableEq, Repr

/-! ### Queues (03_command_lists_and_step_programs.md) -/

/-- A fetched entry: its index and its 64-byte snapshot. -/
structure QEntry where
  index : Nat
  desc : List Byte
  /-- Its completion record and token signal are discarded (R332). -/
  mute : Bool := false
  deriving DecidableEq, Repr

/-- One queue. ENABLE and the ring's place are in its registers. -/
structure Queue where
  fetch : Nat := 0
  cqTail : Nat := 0
  /-- Last SQ_TAIL read, and the last CQ_HEAD. -/
  tail : Nat := 0
  cqHead : Nat := 0
  /-- Fetched and not started, oldest first; started and not completed. -/
  fetched : List QEntry := []
  started : List QEntry := []
  /-- HALT_REASON. -/
  halt : Nat := 0
  stall : Bool := false
  deriving DecidableEq, Repr

/-- The queues and the control cores that watch them (R53, 19 R350). -/
structure Queues where
  q : Sparse Queue := []
  /-- Control cores: bit mask of those restarting, and their misses' monotonic times. -/
  restarting : Nat := 0
  misses : List (Nat × Nat) := []
  /-- Control cores retired (bit mask). -/
  retired : Nat := 0
  deriving DecidableEq, Repr

/-! ### Collectives (04_collectives_and_flights.md) and the RUEs (02_reduction_arithmetic.md) -/

/-- A member entry of a group. -/
structure Member where
  node : Nat
  contributor : Bool
  site : Nat
  link : Nat
  deriving DecidableEq, Repr

/-- The copy of a group that an instance uses (R82). -/
structure Group where
  partition : Bool
  localLeaf : Bool
  vc : Nat
  resendMax : Nat
  progressUs : Nat
  members : List Member
  deriving DecidableEq, Repr

/-- The copy of program, constants and scalar registers that an instance uses (R76). -/
structure ProgCopy where
  words : List Nat := []
  consts : List Nat := []
  scalars : List Nat := []
  deriving DecidableEq, Repr

/-- What the arithmetic on a chunk gives: an intermediate partial, or a final result with its state writes; for NORM
the chunk's sum of squares. -/
structure OutSet where
  isPartial : Bool
  leaves : Nat
  fmt : Nat
  data : List Byte
  writes : List (Nat × List Byte) := []
  norm : Option Nat := none
  deriving DecidableEq, Repr

/-- A result or a carried chunk as it arrived or was read: format, slot that produced it, leaf count, logical bytes. -/
structure Carried where
  fmt : Nat
  slot : Nat
  leaves : Nat
  data : List Byte
  deriving DecidableEq, Repr

/-- One chunk of an instance at this gateway while it is being reduced. -/
structure Chunk where
  /-- The accumulator of this gateway's partial: one element a value, empty until the first contribution. -/
  acc : List Nat := []
  leaves : Nat := 0
  /-- Slots whose contribution has won, in order of arrival; this gateway's own slot for its local leaf. -/
  got : List Nat := []
  /-- The gateway's own partial has been computed; as sent: leaves and logical bytes (R91). -/
  sent : Bool := false
  own : Option (Nat × List Byte) := none
  /-- The retention copy of the own partial has become unreadable (R91). -/
  ownLost : Bool := false
  /-- Counterpart partials that wait: slot, leaves, logical bytes. -/
  waiting : List (Nat × Nat × List Byte) := []
  /-- The chunk carried without arithmetic, or a result that waits for its turn. -/
  carried : Option Carried := none
  /-- The final computation has been made. -/
  finished : Bool := false
  /-- Outputs held for their compares, as computed and as a recompute gives them (R50, R51). -/
  held : Option (OutSet × OutSet) := none
  /-- A partial held back because the retention part has no room (R91). -/
  blocked : Option OutSet := none
  /-- Counts as released once its sends to site peers have gone (R101, R251). -/
  owed : Bool := false
  deriving DecidableEq, Repr

/-- A re-send that is awaited (R98): chunk, slot, path, requests made, whether the failure was DECOMP_LEN, and
when to ask again. -/
structure Resend where
  chunk : Nat
  slot : Nat
  line : Bool
  count : Nat
  decomp : Bool
  due : Nat
  deriving DecidableEq, Repr

/-- An open instance, or a VSTEP in flight. -/
structure Inst where
  q : Nat
  entry : QEntry
  late : Bool
  group : Group
  /-- This gateway's member slot. -/
  self : Nat
  prog : ProgCopy := {}
  /-- SR instance key (R40). -/
  key : Nat := 0
  /-- NAN_IN, NAN_GEN, OVERFLOW, SATURATED. -/
  flags : Nat := 0
  bufs : List Nat := []
  spilled : Bool := false
  mapSlot : Option Nat := none
  chunks : Sparse Chunk := []
  /-- CRC64 of the winner, by chunk * 1024 + slot (R94). -/
  winners : Sparse Nat := []
  /-- Chunks complete at this gateway; results released; chunks applied (R101). -/
  done : List Nat := []
  released : Nat := 0
  applied : Nat := 0
  /-- Chunks to site peers that wait for credit or order, by slot: chunk index and packet. -/
  out : Sparse (List (Nat × List Byte)) := []
  /-- Chunks sent in each fabric stream, and the LIMIT that its receiver granted. -/
  outNext : Sparse Nat := []
  limits : Sparse Nat := []
  /-- Site peers known to be open (R90). -/
  opened : List Nat := []
  /-- LIMIT granted to each fabric source and when CREDIT was last sent. -/
  granted : Sparse Nat := []
  creditAt : Sparse Nat := []
  resends : List Resend := []
  /-- Fabric sources that the spill window holds back (R115). -/
  stalled : List Nat := []
  /-- Last sign of each member (monotonic ns). -/
  heard : Sparse Nat := []
  startedAt : Nat := 0
  /-- Sums of squares by chunk (NORM2_PARTIAL), and for NORM the scalars held by slot. -/
  parts : Sparse Nat := []
  scalars : Sparse Nat := []
  /-- BARRIER: slots from which ARRIVE is held, and those already forwarded. -/
  arrived : List Nat := []
  /-- First chunk whose state was lost and last one; cause of an INTERNAL completion at the end (R128, R125). -/
  lostFirst : Option Nat := none
  lostLast : Nat := 0
  internal : Option Nat := none
  deriving DecidableEq, Repr

/-- A kept copy: in retention (line) or in the keep ring (fabric) (R96). `hdr` is the chunk header of the first
transmission, `node` the NODE_ID it went to, `data` the logical bytes. -/
structure Kept where
  line : Bool
  node : Nat
  vc : Nat
  hdr : List Byte
  data : List Byte
  /-- CMP slot it was coded with (07 R144). -/
  cmpSlot : Option Nat
  expiry : Nat
  pinned : Bool := false
  deriving DecidableEq, Repr

/-- A COPY or FILL in flight. -/
structure Xfer where
  q : Nat
  entry : QEntry
  late : Bool
  bufs : List Nat
  deriving DecidableEq, Repr

/-- A held ABORT or NORM_SUM with its CLE_MSG buffer (R90). -/
structure HeldMsg where
  msg : List Byte
  buf : Nat
  deriving DecidableEq, Repr

/-- The collective engine. -/
structure Cle where
  /-- Open instances by group. -/
  insts : Sparse Inst := []
  /-- Last instance started, by group. -/
  last : Sparse Nat := []
  /-- When the last instance of a group completed (monotonic ns, R52). -/
  ended : Sparse Nat := []
  heldMsgs : List HeldMsg := []
  kept : List Kept := []
  vsteps : List Inst := []
  xfers : List Xfer := []
  /-- ABORTs already received: group, instance, reason, origin. -/
  passed : List (Nat × Nat × Nat × Nat) := []
  deriving DecidableEq, Repr

/-- The compares of one set of outputs whose results are awaited (R49-R51): queue and entry index of the command, group
and instance (0 and the index for a VSTEP), chunk, compares left, whether the outputs are held for them, and the
mismatches found. -/
structure Compare where
  vstep : Bool
  q : Nat
  index : Nat
  group : Nat
  inst : Nat
  chunk : Nat
  isPartial : Bool
  left : Nat
  held : Bool
  bad : List LaneMismatch := []
  deriving DecidableEq, Repr

/-- A lane whose retirement waits for the chunk boundary: fp64 lane, INDEX of its KIND, reason (19 R349). -/
structure LaneOut where
  f64 : Bool
  index : Nat
  reason : Nat
  deriving DecidableEq, Repr

/-- The reduction and update engines. -/
structure Rue where
  /-- RUE_SHADOW_CTRL in force (a new value waits for the next chunk boundary, R49). -/
  shadow : Word := 0x0001000C#32
  compares : List Compare := []
  /-- Attributed mismatches: fp64, lane index, monotonic time (24 h). -/
  mismatches : List (Bool × Nat × Nat) := []
  retiring : List LaneOut := []
  /-- Lanes retired: fp64, lane index. -/
  lanesOut : List (Bool × Nat) := []
  /-- RUEs that have come into service at this start (16 R316), bit mask. -/
  inService : Nat := 0
  deriving DecidableEq, Repr

/-- A packet that the line or the fabric has delivered whole and that waits for its consumer. -/
structure Packet where
  line : Bool
  /-- NODE_ID of the sending gateway or node. -/
  node : Nat
  vc : Nat
  ptype : Nat
  bytes : List Byte
  deriving DecidableEq, Repr

/-! ### Bring-up (16), lifecycle and attestation (17), faults (19), pins (20) -/

/-- An installed licence: serial number, features, and its 128 bytes. -/
structure Licence where
  serial : Nat
  features : Nat
  bytes : List Byte
  deriving DecidableEq, Repr

/-- An entry of the field-repair record (16 R312). -/
structure RepairEntry where
  kind : Nat
  index : Nat
  seconds : Nat
  payload : List Byte
  deriving DecidableEq, Repr

/-- The fuses of the part (16 R301, R311; 17 R317, R328). They survive RESET and OFF. -/
structure Fuses where
  /-- CHIP_ID, 128 bits. -/
  chipId : Nat := 0
  /-- The pair of bits of each lifecycle state MANUFACTURE to RETURN (R317). -/
  lifecycle : List Bool := [true, true, true, true, true, true, false, false]
  returnClean : Bool := false
  attKey : Bool := true
  /-- Private seed of the attestation key. -/
  attSeed : Nat := 0
  /-- SHA-256 of the root keys of the four slots, and their revocation fuses. -/
  rootHash : List (List Byte) := [[], [], [], []]
  revoked : List Bool := [false, false, false, false]
  svn : Nat := 0
  attBlocks : Nat := 0
  /-- Units found bad at manufacture: KIND and INDEX. -/
  badUnits : List (Nat × Nat) := []
  parityBad : Bool := false
  deriving DecidableEq, Repr

/-- A link's qualification (16 R314, R315): attempts made, moved to a spare ring, waiting for readmission since, when it was
enabled, and left out only until it has qualified anew (19 R355). -/
structure Qual where
  attempts : Nat := 0
  passed : Bool := false
  leftOut : Bool := false
  spare : Bool := false
  readmitSince : Option Nat := none
  since : Nat := 0
  retry : Bool := false
  deriving DecidableEq, Repr

/-- Bring-up and image. -/
structure Boot where
  fuses : Fuses := {}
  /-- The running image, whole. -/
  image : List Byte := []
  step3At : Option Nat := none
  /-- Parts of steps that have ended: Gallery trained, Landing tested, vector units tested (mask), RUE sets tested
  (mask of RUEs). -/
  galleryDone : Bool := false
  landingDone : Bool := false
  vectorDone : Nat := 0
  /-- Vector units that have failed their test (bit mask). -/
  vectorBad : Nat := 0
  rueDone : Nat := 0
  /-- Firmware: rounds made per class, classes complete (bit mask), controllers retired (class * 65536 + number). -/
  fwRounds : Sparse Nat := []
  fwComplete : Nat := 0
  retired : List Nat := []
  /-- Banks in use, by class (bit mask of 6), control cores' banks (bit mask), image of an update in progress and
  when it reached the control cores. -/
  banks : Nat := 0
  ccBanks : Nat := 0
  update : Option (List Byte) := none
  updateAt : Nat := 0
  /-- Classes and control cores that have changed bank in the update (bit masks). -/
  switched : Nat := 0
  ccSwitched : Nat := 0
  /-- Firmware in use, by class: the bytes of its record (bank in use); class 0 is the MC. -/
  firmware : Sparse (List Byte) := []
  ccFirmware : Sparse (List Byte) := []
  /-- Qualification of a line port. -/
  portQual : Sparse Qual := []
  /-- Host lanes of a port that have passed, bit mask by port; wavelengths by fibre * 32 + direction * 16 + w. -/
  hostLanes : Sparse Nat := []
  waveQual : Sparse Qual := []
  licences : List Licence := []
  /-- The field-repair record's valid entries. -/
  record : List RepairEntry := []
  recordGen : Nat := 0
  recordBytes : Nat := 16
  deriving DecidableEq, Repr

/-- Lifecycle, debug and attestation. -/
structure Life where
  notAfter : Nat := 0
  /-- Monotonic limit of the level in force. -/
  monoLimit : Nat := 0
  /-- Signatures issued in the present index block. -/
  attIndex : Nat := 0x40000
  refilledAt : Nat := 0
  /-- RETURN erasure in progress. -/
  erasing : Bool := false
  deriving DecidableEq, Repr

/-- Mismatch history for suspicion (19 R351): band, lane (fp64, index), pattern hash, phase, monotonic time. -/
structure Mismatch where
  band : Nat
  f64 : Bool
  lane : Nat
  hash : Nat
  phase : Nat
  time : Nat
  deriving DecidableEq, Repr

/-- Suspicion and band statistics. -/
structure Faults where
  history : List Mismatch := []
  /-- Tj's bands, newest first: band and the monotonic time from which Tj lay in it (7 days). -/
  bandLog : List (Nat × Nat) := []
  /-- Phases under which the suspect pattern was seen. -/
  patPhases : List Nat := []
  deriving DecidableEq, Repr

/-- Pins (20). Inputs as last sampled, outputs as driven. -/
structure Pins where
  gpioIn : Nat := 0
  modLpLow : Nat := 0
  modResetLow : Nat := 0
  mainPg : Bool := true
  perst : Bool := false
  alarmN : Bool := false
  alarmAoN : Bool := false
  ppsOut : Option Nat := none
  lastMesh : Nat := 0
  lastLcb : Sparse Nat := []
  deriving DecidableEq, Repr

/-- What the block puts on its faces, oldest first: the model's own record. -/
inductive Sent where
  /-- MSI-X message of a vector: address and data (18 R340). -/
  | msix (vector addr data : Nat)
  /-- Completion of a BAR0 read. -/
  | readData (addr : Nat) (data : Word)
  /-- Completion of a BAR2 read; `poisoned` as R125. -/
  | bar2Data (offset : Nat) (bytes : List Byte) (poisoned : Bool)
  /-- DOE response object (18 R334). -/
  | doe (bytes : List Byte)
  /-- Span frame sent on a port (08 R150). -/
  | frame (port : Nat) (bytes : List Byte)
  /-- Marker and flit slots sent on a DFL lane or fibre (13 R240, R243). -/
  | marker (fibre lane : Nat) (bytes : List Byte)
  | flit (fibre lane : Nat) (bytes : List Byte)
  /-- Heat-forecast message on HF_TXD (15 R293). -/
  | heat (bytes : List Byte)
  /-- TEC_SET written to a laser source (15 R294). -/
  | tecSet (source value : Nat)
  /-- Byte written to or read from a module's management interface (08 R171, R172). -/
  | cmisWrite (port page addr value : Nat)
  | cmisRead (port page addr : Nat)
  /-- Firmware segment sent to a class of controllers or to one of them (16 R308). -/
  | segment (target : Option Nat) (bytes : List Byte)
  /-- AVSBus write of a rail's voltage in mV (20 R367). -/
  | avs (rail millivolt : Nat)
  /-- Error reported through AER: 0x1 corrected internal error (18 R333). -/
  | aer (kind : Nat)
  deriving DecidableEq, Repr

/-! ### The whole state -/

/-- The state of the block: the queue of commands that wait, and every piece of state that the spec names. -/
structure State where
  /-- Commands that wait, first in first out (the row's cut: the model's own field). -/
  pending : List Instr := []
  /-- Number of the next free value (the model's own field, log 7). -/
  freeCtr : Nat := 0
  /-- What the block has put on its faces, oldest first (the model's own field, log 8). -/
  outbox : List Sent := []
  /-- Registers of BAR0 by address: effective values; an unlisted register reads its reset value (R7). -/
  regs : Sparse Word := []
  /-- Staged values of registers with ST fields (R9). -/
  staged : Sparse Word := []
  /-- Companion words latched by a read (R8, ERR_LOG_DATA, TIME registers), by address. -/
  rlatch : Sparse Word := []
  /-- COMMIT in progress by block number (cle 0, lnd 1, gal 2, cmp 3, route 4, dfl 5, opt 6 + q). -/
  commits : Sparse Commit := []
  power : Power := {}
  time : TimeBase := {}
  host : HostIf := {}
  log : ErrLog := {}
  /-- Bytes of the Gallery, of BAR4, of host memory, of the flash and of the MC's boot memory. -/
  gallery : Sparse Byte := []
  bar4 : Sparse Byte := []
  hostMem : Sparse Byte := []
  flash : Sparse Byte := []
  bootMem : Sparse Byte := []
  gal : Gallery := {}
  lnd : Landing := {}
  que : Queues := {}
  cle : Cle := {}
  rue : Rue := {}
  ports : Sparse LinePort := []
  rte : RouteLayer := {}
  sched : Scheduler := {}
  sec : Cipher := {}
  opt : Optics := {}
  dfl : Fabric := {}
  boot : Boot := {}
  life : Life := {}
  pins : Pins := {}
  faults : Faults := {}
  /-- Packets handed over by the line and the fabric that wait for their consumers. -/
  delivered : List Packet := []
  deriving DecidableEq, Repr

/-- The machine right after reset: every register at the value of its Reset column, and bring-up at its first step
(R7, R296). -/
def State.reset : State := {}

end Sys2Proof.Machine
end

