-- ==== Sys2Proof/Machine/Ops.lean ====
section
/-! DEFINITION. Operations that every block shares: registers and counters, time, free values, the error log and its
vector, MSI-X, register-access errors and bytes of memory. -/
namespace Sys2Proof.Machine

/-! ### Registers -/

/-- The effective value of the register at an address. -/
def State.reg (s : State) (a : Nat) : Word := s.regs.get regReset a

/-- The staged value of the register at an address (00_scope.md R9). -/
def State.sreg (s : State) (a : Nat) : Word := s.staged.get regReset a

/-- Sets the effective value of a register. -/
def State.setReg (s : State) (a : Nat) (v : Word) : State := { s with regs := s.regs.put regReset a v }

/-- Sets the staged value of a register. -/
def State.setSreg (s : State) (a : Nat) (v : Word) : State := { s with staged := s.staged.put regReset a v }

/-- The `n`-bit field at bit `lo` of a register. -/
def State.f (s : State) (a lo n : Nat) : Nat := fld (s.reg a) lo n

/-- One bit of a register. -/
def State.b (s : State) (a lo : Nat) : Bool := bit (s.reg a) lo

/-- Sets the `n`-bit field at bit `lo` of a register. -/
def State.setF (s : State) (a lo n v : Nat) : State := s.setReg a (setFld (s.reg a) lo n v)

/-- Sets or clears one bit of a register. -/
def State.setB (s : State) (a lo : Nat) (v : Bool) : State := s.setF a lo 1 (b2n v)

/-- Adds to a counter that stops at 0xFFFF_FFFF. -/
def State.bumpBy (s : State) (a n : Nat) : State :=
  s.setReg a (BitVec.ofNat 32 (min 0xFFFFFFFF ((s.reg a).toNat + n)))

/-- Counts one event. -/
def State.bump (s : State) (a : Nat) : State := s.bumpBy a 1

/-- Counts one event when `c` holds. -/
def State.bumpIf (s : State) (c : Bool) (a : Nat) : State := if c then s.bump a else s

/-- The 64-bit value of a LO and HI pair. -/
def State.reg64 (s : State) (lo hi : Nat) : Nat := (s.reg lo).toNat + 0x100000000 * (s.reg hi).toNat

/-- Writes a 64-bit value into a LO and HI pair. -/
def State.setReg64 (s : State) (lo hi v : Nat) : State :=
  (s.setReg lo (BitVec.ofNat 32 v)).setReg hi (BitVec.ofNat 32 (v / 0x100000000))

/-! ### Accesses to BAR0 (16_bring_up_and_image.md R297, R300) -/

/-- Whether the block of an address takes accesses: none before step 0 of bring-up is complete, then TOP, BOOT, ERR, PWR, TIME
and PIN, and every block from the end of step 1; BOOT and ERR alone once bring-up has failed. -/
def State.accepts (s : State) (a : Nat) : Bool :=
  let blk := a / 0x100000
  match s.power.state with
  | .off => false
  | .ao => false
  | .reset => false
  | .bringup =>
    if s.f A.bootStatus 12 4 ≠ 0 then [0x10, 0x11].contains blk
    else if s.b A.bootStatus 4 then true
    else s.b A.bootStatus 3 && [0x00, 0x01, 0x02, 0x10, 0x11, 0x12].contains blk
  | .service => true
  | .safe => true

/-- A host access to the register at `a`, where its block takes it. -/
def State.onAccess (s : State) (a : Nat) (run : State → State) : State := if s.accepts a then run s else s

/-! ### Time (14_time.md R263, R264) -/

/-- Device time in nanosecond form, modulo 2^64. -/
def State.now (s : State) : Nat := s.time.dev / 0x10000 % 0x10000000000000000

/-- The monotonic count in ns. -/
def State.mono (s : State) : Nat := s.time.mono

/-- Whether device time has reached a scheduled time, by signed 64-bit difference. -/
def State.hasReached (s : State) (t : Nat) : Bool := reached 64 s.now t

/-- Whether at least `d` ns have passed on the monotonic count since `t`. -/
def State.elapsed (s : State) (t d : Nat) : Bool := decide (t + d ≤ s.mono)

/-- As `elapsed`, for a moment that need not have come. -/
def State.elapsedSince (s : State) (t : Option Nat) (d : Nat) : Bool :=
  match t with
  | some t => s.elapsed t d
  | none => false

/-- The 96 bits of a device time in units of 2^-16 ns (R263): seconds, nanoseconds, sub-nanoseconds. -/
def time96 (dev : Nat) : Nat :=
  let ns := dev / 0x10000
  (ns / 1000000000 % 0x1000000000000) * 0x1000000000000 + (ns % 1000000000) * 0x10000 + dev % 0x10000

/-- The device time in units of 2^-16 ns that 96 bits name. -/
def untime96 (t : Nat) : Nat :=
  (t / 0x1000000000000 * 1000000000 + t / 0x10000 % 0x100000000) * 0x10000 + t % 0x10000

/-! ### Free values and faces -/

/-- The number of the next free value, and the state in which it has been used. -/
def State.draw (s : State) : Nat × State := (s.freeCtr, { s with freeCtr := s.freeCtr + 1 })

/-- Puts something on one of the block's faces. -/
def State.emit (s : State) (e : Sent) : State := { s with outbox := s.outbox ++ [e] }

/-! ### Licences (R1) -/

/-- Whether a feature is installed: 0 LINE16, 1 FP64, 2 OUTER, 3 CONCOURSE, 4 CODE8 (16_bring_up_and_image.md R306). -/
def State.licensed (s : State) (k : Nat) : Bool := s.b A.bootFeatures k

/-! ### MSI-X (18_host_interface.md R331, R332, R340) -/

/-- Whether requests may go to the host (R331). -/
def State.busMaster (s : State) : Bool := s.host.bme && !s.host.d3hot

/-- Whether the vector's own mask or the Function Mask is set. -/
def State.vectorMasked (s : State) (v : Nat) : Bool := s.b (A.topMsixVctrl v) 0 || s.host.fnMask

/-- Sends a vector's message and clears its pending bit. -/
def State.sendVector (s : State) (v : Nat) : State :=
  (s.setB (A.topMsixPba (v / 32)) (v % 32) false).emit
    (.msix v (s.reg64 (A.topMsixAddrLo v) (A.topMsixAddrHi v)) (s.reg (A.topMsixData v)).toNat)

/-- Raises a vector: its message goes, or its pending bit is set (R340). -/
def State.raiseVector (s : State) (v : Nat) : State :=
  if s.vectorMasked v || !s.busMaster then s.setB (A.topMsixPba (v / 32)) (v % 32) true else s.sendVector v

/-- Sends the message of every pending vector that may go. -/
def State.flushVectors (s : State) : State :=
  (List.range 512).foldl (fun s v =>
    if s.b (A.topMsixPba (v / 32)) (v % 32) && !s.vectorMasked v && s.busMaster then s.sendVector v else s) s

/-- Sets a source bit of the error vector and raises the vector unless it is masked (ERR_VEC_STATUS). -/
def State.raiseError (s : State) (src : Nat) : State :=
  let s := s.setB A.errVecStatus src true
  if s.b A.errVecMask src then s else s.raiseVector (s.f A.topIrqCtrl 0 9)

/-! ### The error log (19_faults_and_spares.md R345-R347) -/

/-- Class of an entry. -/
inductive Cls where
  | info | corrected | spared | degraded | contained | suspect | replace | fatal
  deriving DecidableEq, Repr

/-- The class's code (R345). -/
def Cls.code (c : Cls) : Nat :=
  match c with
  | .info => 0 | .corrected => 1 | .spared => 2 | .degraded => 3
  | .contained => 4 | .suspect => 5 | .replace => 6 | .fatal => 7

/-- What an event reports: the fields of R346 that depend on it. -/
structure Event where
  code : Nat
  cls : Cls
  reason : Nat := 0
  arg0 : Nat := 0
  arg1 : Nat := 0
  arg2 : Nat := 0
  arg3 : Nat := 0
  kind : Nat := 0
  index : Nat := 0
  phase : Nat := 0
  /-- The block, where the event's code has no row in R347. -/
  blk : Option Nat := none
  deriving DecidableEq, Repr

/-- The block of an event code: the chapter of its row (log 20). -/
def Event.block (e : Event) : Nat :=
  if e.code = 0x0402 then 0x0F
  else [0x10, 0x0A, 0x08, 0x09, 0x0B, 0x0D, 0x04, 0x06, 0x03, 0x02, 0x11, 0x10, 0x10, 0x01].getD (e.code / 256) 0x10

/-- Codes whose Vector column reads yes (R347), and those whose own rule raises the vector (R124, R351, R354). -/
def Event.vector (e : Event) : Bool :=
  [0x0104, 0x0105, 0x0303, 0x0401, 0x0503, 0x0801, 0x0802, 0x0902, 0x0A02, 0x0B01, 0x0C01].contains e.code

/-- The bit of ERR_VEC_STATUS that an entry sets. -/
def Event.source (e : Event) : Nat :=
  if e.code = 0x0B01 then 1 else if e.code = 0x0105 then 2 else if e.code = 0x0C01 then 3
  else if e.code = 0x0802 then 4 else if e.code = 0x0401 then 5 else 0

/-- VDD_CORE in mV of an operating point (15_power_and_thermal.md R275). -/
def oppMillivolt (p : Nat) : Nat := [780, 760, 740, 710, 680, 660, 640, 620].getD p 740

/-- The operating point in force. -/
def State.opp (s : State) : Nat := s.f A.pwrStatus 4 3

/-- Tj in degrees (PWR_TEMP.TJ_C). -/
def State.tj (s : State) : Nat := s.f A.pwrTemp 0 8

/-- The entry of an event, with the next sequence number. -/
def State.entryOf (s : State) (e : Event) : LogEntry :=
  { seq := s.log.seq, time := s.time.dev, cls := e.cls.code, blk := e.blk.getD e.block, code := e.code, phase := e.phase,
    tj := s.tj, vcore := oppMillivolt s.opp, kind := e.kind, reason := e.reason % 0x10000, index := e.index,
    arg0 := e.arg0 % 0x100000000, arg1 := e.arg1 % 0x100000000, arg2 := e.arg2, arg3 := e.arg3 }

/-- Appends an entry to the ring; a full ring loses its oldest entry, which is counted. -/
def State.appendLog (s : State) (e : LogEntry) : State :=
  let full := decide (4096 ≤ s.log.entries.length)
  let old := if full then s.log.entries.drop 1 else s.log.entries
  ({ s with log := { entries := old ++ [e], seq := (s.log.seq + 1) % 0x100000000 } }).bumpIf full A.errLogLost

/-- Writes the entry of an event and raises the error vector where R347 says so. -/
def State.logEvent (s : State) (e : Event) : State :=
  let s := s.appendLog (s.entryOf e)
  if e.vector || decide (s.f A.errCtrl 0 3 ≤ e.cls.code) then s.raiseError e.source else s

/-- Records a register-access error (R353): every one is counted, the first after a clear is recorded and logged. -/
def State.accessError (s : State) (kind offset : Nat) : State :=
  let s := s.bump A.errAccessCount
  if s.b A.errAccessInfo 31 then s
  else
    let s := s.setReg A.errAccessAddr (BitVec.ofNat 32 offset)
    let s := s.setReg A.errAccessInfo (BitVec.ofNat 32 (0x80000000 + kind))
    s.logEvent { code := 0x0B01, cls := .info, reason := kind, arg0 := offset }

/-- Bits of ERR_HEALTH.REPLACE_WHY: GALLERY, LANDING, ARITH, CC, OPTICS, KEYS (R354). -/
def State.replaceCriterion (s : State) (why : Nat) : State :=
  if s.b A.errHealth (17 + why) then s
  else
    let s := (s.setB A.errHealth (17 + why) true).setB A.errHealth 16 true
    s.logEvent { code := 0x0C01, cls := .replace, reason := s.f A.errHealth 17 6 }

/-! ### Bytes of memory -/

/-- What a byte of the Gallery, BAR4, host or boot memory that nothing has written reads as (log 3). -/
def zeroByte (_ : Nat) : Byte := 0

/-- What a byte of flash that nothing has written reads as: erased (log 3). -/
def erasedByte (_ : Nat) : Byte := 0xFF#8

def State.galRead (s : State) (a n : Nat) : List Byte := s.gallery.getList zeroByte a n

def State.galWrite (s : State) (a : Nat) (bs : List Byte) : State :=
  { s with gallery := s.gallery.putList zeroByte a bs }

def State.bar4Read (s : State) (a n : Nat) : List Byte := s.bar4.getList zeroByte a n

def State.bar4Write (s : State) (a : Nat) (bs : List Byte) : State :=
  { s with bar4 := s.bar4.putList zeroByte a bs }

def State.hostRead (s : State) (a n : Nat) : List Byte := s.hostMem.getList zeroByte a n

def State.hostWrite (s : State) (a : Nat) (bs : List Byte) : State :=
  { s with hostMem := s.hostMem.putList zeroByte a bs }

def State.flashRead (s : State) (a n : Nat) : List Byte := s.flash.getList erasedByte a n

def State.flashWrite (s : State) (a : Nat) (bs : List Byte) : State :=
  { s with flash := s.flash.putList erasedByte a bs }

def State.bootRead (s : State) (a n : Nat) : List Byte := s.bootMem.getList zeroByte a n

def State.bootWrite (s : State) (a : Nat) (bs : List Byte) : State :=
  { s with bootMem := s.bootMem.putList zeroByte a bs }

/-- Copies the listed bytes of a range to another place: `n` bytes from `src` to `dst`. -/
def copySparse (m : Sparse Byte) (src dst n : Nat) : Sparse Byte :=
  let keep := m.filter (fun e => !(decide (dst ≤ e.1) && decide (e.1 < dst + n)))
  (m.filter (fun e => decide (src ≤ e.1) && decide (e.1 < src + n))).foldl
    (fun acc e => acc.insert (e.1 - src + dst) e.2) keep

/-- Removes every listed byte of a range, so that it reads as nothing had been written. -/
def eraseRange (m : Sparse Byte) (a n : Nat) : Sparse Byte :=
  m.filter (fun e => !(decide (a ≤ e.1) && decide (e.1 < a + n)))

end Sys2Proof.Machine
end

