-- ==== Sys2Proof/Machine/GalleryOps.lean ====
section
/-! DEFINITION. The Gallery's regions, the ranges that commands may name, codewords, validity of state units and the
repair of rows and channels (06_gallery.md R117-R128; 03 R71). -/
namespace Sys2Proof.Machine

/-! ### Regions (R118, "CLE areas") -/

/-- 1 GiB. -/
abbrev gib : Nat := 0x40000000

/-- Bytes of the Gallery. -/
abbrev galBytes : Nat := 576 * gib

/-- First byte of the state region, of the working region, and of the repair reserve. -/
def State.stateBase (s : State) : Nat := s.f A.galRegion 0 8 * gib
def State.workBase (s : State) : Nat := galBytes - s.f A.galRegion 16 8 * gib
def State.reserveBase (s : State) : Nat := galBytes - s.f A.galRegion 24 4 * (3 * gib)
def State.reseqBytes (s : State) : Nat := s.f A.galRegion 8 8 * gib

/-- State units of 64 KiB (R126). -/
def State.stateUnits (s : State) : Nat := (s.workBase - s.stateBase) / 0x10000

/-- Offsets of the CLE areas in the working region. -/
abbrev areaStaged : Nat := 0
abbrev areaEffective : Nat := 0x800000
abbrev areaMaps : Nat := 0x1000000
abbrev areaKeep : Nat := 0x2000000
abbrev areaSpill : Nat := 0x202000000
abbrev areaFree : Nat := 0x602000000
/-- Length of a group table: 4.25 MiB. -/
abbrev tableBytes : Nat := 0x440000

/-- What lies at a Gallery offset. -/
inductive Loc where
  | reseq | retention | state | staged | tableRest | effective | maps | keep | spill | work | reserve | beyond
  deriving DecidableEq, Repr

/-- The location of offset `a`. -/
def State.locate (s : State) (a : Nat) : Loc :=
  if galBytes ≤ a then .beyond
  else if a < s.reseqBytes then .reseq
  else if a < s.stateBase then .retention
  else if a < s.workBase then .state
  else if s.reserveBase ≤ a then .reserve
  else
    let w := a - s.workBase
    if w < tableBytes then .staged
    else if w < areaEffective then .tableRest
    else if w < areaEffective + tableBytes then .effective
    else if w < areaMaps then .tableRest
    else if w < areaKeep then .maps
    else if w < areaSpill then .keep
    else if w < areaFree then .spill
    else .work

/-- Whether two ranges meet. -/
def rangesMeet (a n b m : Nat) : Bool := decide (a < b + m) && decide (b < a + n) && decide (0 < n) && decide (0 < m)

/-- Whether the range lies in the usable working region (R71). -/
def State.inWorking (s : State) (a n : Nat) : Bool :=
  let w := s.workBase
  (decide (w ≤ a) && decide (a + n ≤ w + tableBytes)) || (decide (w + areaFree ≤ a) && decide (a + n ≤ s.reserveBase))

/-- Whether the range lies in the state region, or in the usable working region (R71). -/
def State.inUsable (s : State) (a n : Nat) : Bool :=
  (decide (s.stateBase ≤ a) && decide (a + n ≤ s.workBase)) || s.inWorking a n

/-- Whether the range includes an address that a pending change takes out of the line region (R119). -/
def State.lineBusy (s : State) (a n : Nat) : Bool :=
  match s.gal.lineChange with
  | some c => rangesMeet a n s.stateBase (c * gib - s.stateBase)
  | none => false

/-- Whether a running refill's range meets this one (R131). -/
def State.refillBusy (s : State) (a n : Nat) : Bool :=
  s.gal.refills.any (fun e => rangesMeet a n e.2.base (e.2.units * 0x10000))

/-- A Gallery range that a command may name: a multiple of 64 in the usable regions, not in a line region in change,
not under a refill (R71, R118, R119, R131). -/
def State.rangeAllowed (s : State) (a n : Nat) : Bool :=
  decide (a % 64 = 0) && s.inUsable a n && !s.lineBusy a n && !s.refillBusy a n

/-! ### Validity of state (R126, R127) -/

/-- The state unit that holds offset `a` of the Gallery. -/
def State.unitOf (s : State) (a : Nat) : Nat := (a - s.stateBase) / 0x10000

def State.unitValid (s : State) (u : Nat) : Bool := s.gal.valid.get (fun _ => false) u

def State.setUnit (s : State) (u : Nat) (v : Bool) : State :=
  { s with gal := { s.gal with valid := s.gal.valid.put (fun _ => false) u v } }

/-- The units of the state region that a range touches. -/
def State.unitsIn (s : State) (a n : Nat) : List Nat :=
  if n = 0 ∨ a < s.stateBase ∨ s.workBase ≤ a then []
  else
    let u0 := s.unitOf a
    let u1 := s.unitOf (a + n - 1)
    (List.range (u1 + 1 - u0)).map (· + u0)

/-- Marks invalid every unit that the range touches. -/
def State.invalidate (s : State) (a n : Nat) : State := (s.unitsIn a n).foldl (fun s u => s.setUnit u false) s

/-- The first and the last invalid unit that the range touches. -/
def State.invalidIn (s : State) (a n : Nat) : Option (Nat × Nat) :=
  match (s.unitsIn a n).filter (fun u => !s.unitValid u) with
  | [] => none
  | u :: us => some (u, us.getLastD u)

/-- Units in the state region that are invalid (GAL_INVALID_TOTAL). -/
def State.invalidTotal (s : State) : Nat :=
  s.stateUnits - (s.gal.valid.filter (fun e => e.2 && decide (e.1 < s.stateUnits))).length

/-! ### Codewords (R121) -/

def State.poisoned (s : State) (cw : Nat) : Bool := s.gal.poison.get (fun _ => false) cw

def State.setPoison (s : State) (cw : Nat) (v : Bool) : State :=
  { s with gal := { s.gal with poison := s.gal.poison.put (fun _ => false) cw v } }

/-- The first poisoned codeword that a range touches. -/
def State.firstPoison (s : State) (a n : Nat) : Option Nat :=
  (s.gal.poison.find? (fun e => e.2 && rangesMeet a n (e.1 * 64) 64)).map (·.1)

/-- Writes bytes; codewords written whole are no longer poisoned. -/
def State.galStore (s : State) (a : Nat) (bs : List Byte) : State :=
  let s := s.galWrite a bs
  let poison := s.gal.poison.filter (fun e => !(decide (a ≤ e.1 * 64) && decide (e.1 * 64 + 64 ≤ a + bs.length)))
  { s with gal := { s.gal with poison := poison } }

/-- Counts and logs an uncorrectable read of a codeword under a location code of R125. -/
def State.noteUncorrectable (s : State) (cw code : Nat) : State :=
  let s := if s.poisoned cw then s.bump (A.galCnt 4) else s.bump (A.galCnt 1)
  let s := s.setPoison cw true
  s.logEvent { code := 0x0301, cls := .contained, reason := code, arg0 := cw * 64, arg1 := cw * 64 / 0x100000000 }

/-- The location code of R125 at an offset, for a read that no command or host access makes. -/
def locCode (l : Loc) : Nat :=
  match l with
  | .reseq => 1 | .retention => 2 | .keep => 2 | .state => 3 | .spill => 4 | .work => 5
  | .staged => 6 | .effective => 6 | .maps => 6 | .tableRest => 6 | .reserve => 5 | .beyond => 0

/-! ### Rows and channels (R117, R123, R124) -/

/-- The channel 0 to 191 (stack * 32 + channel) that holds offset `a` (R117). -/
def channelOf (a : Nat) : Nat :=
  let g := a / 4096
  g % 6 * 32 + g / 6 % 32

/-- Whether a channel is retired. -/
def State.chanRetired (s : State) (c : Nat) : Bool := s.b (A.galChanRetired (c / 32)) (c % 32)

/-- RESERVE_FREE and CH_RETIRED as shown. -/
def State.reserveFree (s : State) : Nat := s.f A.galRegionStatus 4 4

/-- Appends an entry to the field-repair record (16_bring_up_and_image.md R312). -/
def State.recordUnit (s : State) (kind index : Nat) (payload : List Byte) : State :=
  let len := roundUp (12 + payload.length + 4) 16
  let e : RepairEntry := { kind := kind, index := index, seconds := s.now / 1000000000 % 0x100000000,
                           payload := payload ++ List.replicate (len - 16 - payload.length) 0 }
  let full := decide (0x100000 < s.boot.recordBytes + len + 4096)
  let record := s.boot.record ++ [e]
  let kept := if full then record.reverse.foldl (fun acc e =>
      if e.kind = 0x0B ∧ acc.any (fun x => x.kind = 0x0B ∧ x.payload.take 16 = e.payload.take 16) then acc else e :: acc) []
    else record
  let bytes := if full then 16 + (kept.map (fun e => 16 + e.payload.length)).sum else s.boot.recordBytes + len
  { s with boot := { s.boot with record := kept, recordGen := s.boot.recordGen + b2n full, recordBytes := bytes } }

/-- Starts a channel's retirement, or marks it degraded when the reserve holds none (R124). -/
def State.retireChannel (s : State) (c : Nat) : State :=
  if s.chanRetired c || s.gal.chanCopies.any (fun x => x.chan = c) || s.gal.degraded.contains c then s
  else if s.reserveFree = 0 then
    let s := { s with gal := { s.gal with degraded := s.gal.degraded ++ [c] } }
    let s := s.setB A.galRegionStatus 16 true
    (s.logEvent { code := 0x0303, cls := .replace, reason := c, kind := 6, index := c }).replaceCriterion 0
  else
    let s := s.setF A.galRegionStatus 4 4 (s.reserveFree - 1)
    { s with gal := { s.gal with chanCopies := s.gal.chanCopies ++ [{ chan := c, started := s.mono }] } }

/-- Starts a row repair, or the channel's retirement when the bank's 8 spare rows are used (R123). -/
def State.repairRow (s : State) (r : Row) : State :=
  if s.gal.rowCopies.any (fun x => x.1 = r) then s
  else if 8 ≤ s.gal.spares.get (fun _ => 0) (r.chan * 65536 + r.bank) then s.retireChannel r.chan
  else { s with gal := { s.gal with rowCopies := s.gal.rowCopies ++ [(r, s.mono)] } }

end Sys2Proof.Machine
end

