-- ==== Sys2Proof/Machine/PowerOps.lean ====
section
/-! DEFINITION. Power phases, the operating point in force, throttle reasons and wake events, as every family uses them
(15_power_and_thermal.md R275-R292). -/
namespace Sys2Proof.Machine

/-- A quotient shown in whole units where no rounding is stated: one of its two neighbours (log 7). -/
def openDiv (a b : Nat) : Nat := a / b + (if a % b = 0 then 0 else Config.roundUp a b % 2)

/-! ### Operating points (R275) -/

/-- Compute power relative to OPP2, in per cent. -/
def relPower (p : Nat) : Nat := [128, 113, 100, 82, 66, 53, 39, 26].getD p 26

/-- The cap in force in W, and whether it is taken from PWR_EXT_CAP or the power brake (R279, R285). -/
def State.capW (s : State) : Nat × Bool :=
  let own := s.f A.pwrCtrl 0 10
  let ext := if s.b A.pwrExtCap 31 then s.f A.pwrExtCap 0 10 else 480
  let brk := if s.power.brake then 200 else 480
  let least := min ext brk
  if least < own then (least, true) else (own, false)

/-! ### Phases (R69, R290-R292) -/

def State.occ (s : State) (n : Nat) : PhaseOcc := s.power.occ.get (fun _ => {}) n
def State.setOcc (s : State) (n : Nat) (x : PhaseOcc) : State :=
  { s with power := { s.power with occ := s.power.occ.put (fun _ => {}) n x } }

/-- Phases that some unit holds. -/
def State.heldPhases (s : State) : List Nat := (List.range 16).filter (fun n => decide (0 < (s.occ n).holders))

/-- Full-rate budget of all compute units, W (R274). -/
abbrev computeBudgetW : Nat := 156

/-- Occurrences learnt. -/
def State.phaseCount (s : State) (n : Nat) : Nat := s.f (A.pwrPhaseEnv n) 20 8

/-- PEAK_W, MEAN_W and group count of a phase; until COUNT reaches 4 the full-rate budget of all compute units (R290). -/
def State.peakW (s : State) (n : Nat) : Nat := if s.phaseCount n < 4 then computeBudgetW else s.f (A.pwrPhaseEnv n) 0 10
def State.meanW (s : State) (n : Nat) : Nat := if s.phaseCount n < 4 then computeBudgetW else s.f (A.pwrPhaseEnv n) 10 10
def State.phaseGroups (s : State) (n : Nat) : Nat :=
  if s.phaseCount n < 4 then 24 else ((List.range 24).filter (fun g => s.b (A.pwrPhaseUnits n) g)).length

/-- The operating point that the held phases ask for: the fastest PREF_OPP, or OPP2 with none held (R292). -/
def State.preferredOpp (s : State) : Nat :=
  match s.heldPhases.map (fun n => s.f (A.pwrPhaseCfg n) 0 3) with
  | [] => 2
  | p :: ps => ps.foldl min p

/-- The fit test of R292 at a point, for given phases: background and peaks within 0.98 of the cap. -/
def State.fits (s : State) (phases : List Nat) (p : Nat) : Bool :=
  decide ((s.power.background * 100 + (phases.map s.peakW).sum * 1000 * relPower p) * 100 ≤ 98 * s.capW.1 * 1000 * 100)

/-- The point that R292 chooses for given phases from a preferred one. -/
def State.fitPointOf (s : State) (phases : List Nat) (pref : Nat) : Nat :=
  (((List.range 8).drop pref).find? (s.fits phases)).getD 7

/-- The slowest point that anything demands. -/
def Power.demanded (p : Power) : Nat := max p.fitPoint (max p.capPoint p.thermPoint)

/-- Starts a move to the demanded point when none is in progress (R276): toward a faster point the voltage is raised first.
The point in force changes when the move ends. -/
def State.moveOpp (s : State) : State :=
  let p := s.power.demanded
  if s.power.moving.isNone && decide (p ≠ s.opp) then
    let s := { s with power := { s.power with moving := some p } }
    if p < s.opp then s.emit (.avs 0 (oppMillivolt p)) else s
  else s

/-! ### Throttle reasons and the state shown (R285, R286) -/

/-- Whether the cap holds the compute domain back: bubbles, a step-down, or a fit test that failed. -/
def State.capActs (s : State) : Bool :=
  decide (0 < s.power.bNum) || decide (s.preferredOpp < max s.power.fitPoint s.power.capPoint)

/-- The reason bits that hold now. -/
def State.reasonBits (s : State) : Nat :=
  let p := s.power
  let therm := p.hot || decide (s.f A.pwrTemp 8 8 ≤ s.tj) || decide (s.preferredOpp < p.thermPoint) || decide (0 < p.thermTenths)
  b2n (s.capActs && !s.capW.2) + 2 * b2n p.droop + 4 * b2n p.ilimHold + 8 * b2n therm + 16 * b2n p.heater +
    32 * b2n (s.capActs && s.capW.2)

/-- PWR_STATUS.STATE (R286). -/
def State.powerCode (s : State) : Nat :=
  match s.power.state with
  | .safe => 8
  | .service =>
    if s.b A.pwrStatus 11 then 7
    else if s.b A.pwrStatus 8 || s.b A.pwrStatus 10 || s.b A.pwrStatus 13 then 6
    else if s.power.idle then 5 else 4
  | _ => 3

/-- Shows the power state. -/
def State.showPower (s : State) : State := s.setF A.pwrStatus 0 4 s.powerCode

/-- Shows the throttle reasons and the power state. -/
def State.showReasons (s : State) : State := (s.setF A.pwrStatus 8 6 s.reasonBits).showPower

/-- The choice of R292, made at each phase start and end. -/
def State.chooseOpp (s : State) : State :=
  let p := s.fitPointOf s.heldPhases s.preferredOpp
  (({ s with power := { s.power with fitPoint := p } }).moveOpp).showReasons

/-- A command takes phase `n` with the stagger groups of its units (R69, R289). -/
def State.phaseTake (s : State) (n groups : Nat) : State :=
  let o := s.occ n
  let o := if o.holders = 0 then { start := s.mono } else o
  let s := s.setOcc n { o with holders := o.holders + 1, groups := Nat.lor o.groups groups }
  ({ s with power := { s.power with wanted := Nat.lor s.power.wanted groups, quietSince := none } }).chooseOpp

/-- One eighth of the way from `a` to `b`. -/
def eighth (a b : Nat) : Nat := if a ≤ b then a + openDiv (b - a) 8 else a - openDiv (a - b) 8

/-- The envelope of phase `n` after an occurrence (R290). -/
def State.learn (s : State) (n : Nat) (o : PhaseOcc) : State :=
  let mean := if o.ticks = 0 then 0 else openDiv o.sumMw (o.ticks * 1000)
  let peak := openDiv o.peakMw 1000
  let dur := openDiv (s.mono - o.start) 1000000
  let e := s.reg (A.pwrPhaseEnv n)
  let oldPeak := fld e 0 10
  let e1 := setFld e 0 10 (if oldPeak < peak then min peak 1023 else eighth oldPeak peak)
  let e2 := setFld e1 10 10 (min 1023 (eighth (fld e 10 10) mean))
  let e3 := setFld e2 20 8 (min 255 (fld e 20 8 + 1))
  let s := s.setReg (A.pwrPhaseEnv n) e3
  let s := s.setF (A.pwrPhaseDur n) 0 16 (min 0xFFFF (eighth (s.f (A.pwrPhaseDur n) 0 16) dur))
  s.setReg (A.pwrPhaseUnits n) (BitVec.ofNat 32 (Nat.lor (s.reg (A.pwrPhaseUnits n)).toNat (o.groups % 0x1000000)))

/-- A command gives its phase back; the last holder lets the phase be learnt (R290). -/
def State.phaseRelease (s : State) (n : Nat) : State :=
  let o := s.occ n
  if o.holders = 0 then s
  else if o.holders = 1 then
    let s := if n ≠ 0 ∧ s.b (A.pwrPhaseCfg n) 3 then s.learn n o else s
    (s.setOcc n {}).chooseOpp
  else (s.setOcc n { o with holders := o.holders - 1 }).chooseOpp

/-! ### IDLE and waking (R287, R288) -/

/-- A wake event: in IDLE the compute clocks are to be restarted. -/
def State.wakeEvent (s : State) : State :=
  if s.power.idle then { s with power := { s.power with wake := true } } else s

/-- Whether the compute domain runs: outside OFF, AO, RESET and SAFE, and not in IDLE. -/
def State.computeRuns (s : State) : Bool :=
  match s.power.state with
  | .bringup => !s.power.idle
  | .service => !s.power.idle
  | .off => false
  | .ao => false
  | .reset => false
  | .safe => false

/-- Whether queues are fetched: reduced service has begun (16_bring_up_and_image.md R298). -/
def State.serving (s : State) : Bool := decide (s.f A.bootStatus 8 2 ≠ 0) && s.computeRuns

end Sys2Proof.Machine
end

