-- ==== Sys2Proof/Machine/QueueOps.lean ====
section
/-! DEFINITION. Queue regions, tokens, completion records and the conditions under which an entry starts
(03_command_lists_and_step_programs.md R53-R69, R75). -/
namespace Sys2Proof.Machine

/-! ### Completion status codes (00_scope.md R11) -/

abbrev stOk : Nat := 0x00
abbrev stOkEmpty : Nat := 0x01
abbrev stOkSpilled : Nat := 0x02
abbrev stDescInvalid : Nat := 0x10
abbrev stGroupInvalid : Nat := 0x11
abbrev stLicenceAbsent : Nat := 0x12
abbrev stLandingFull : Nat := 0x20
abbrev stCheckFail : Nat := 0x30
abbrev stDecompLen : Nat := 0x31
abbrev stAborted : Nat := 0x40
abbrev stStepInvalid : Nat := 0x41
abbrev stStateLost : Nat := 0x50
abbrev stKeyAbsent : Nat := 0x60
abbrev stInternal : Nat := 0x7F

/-- Whether a status is a success (R65). -/
def statusOk (st : Nat) : Bool := decide (st = stOk) || decide (st = stOkEmpty) || decide (st = stOkSpilled)

/-! ### Fields of a queue's registers -/

def State.queue (s : State) (q : Nat) : Queue := s.que.q.get (fun _ => {}) q
def State.setQueue (s : State) (q : Nat) (x : Queue) : State := { s with que := { s.que with q := s.que.q.put (fun _ => {}) q x } }

def State.qEnabled (s : State) (q : Nat) : Bool := s.b (A.queQCtrl q) 0
def State.qClass (s : State) (q : Nat) : Nat := s.f (A.queQCtrl q) 1 2
def State.qLoc (s : State) (q : Nat) : Nat := s.f (A.queQCtrl q) 3 1
def State.qLog2 (s : State) (q : Nat) : Nat := s.f (A.queQCtrl q) 4 5
def State.qSize (s : State) (q : Nat) : Nat := 2 ^ s.qLog2 q
def State.qInflight (s : State) (q : Nat) : Nat := s.f (A.queQCtrl q) 9 6
def State.qVector (s : State) (q : Nat) : Nat := s.f (A.queQCtrl q) 16 9
def State.qBase (s : State) (q : Nat) : Nat := s.reg64 (A.queQBaseLo q) (A.queQBaseHi q)
/-- Bytes of the queue region. -/
def State.qBytes (s : State) (q : Nat) : Nat := 4096 + 80 * s.qSize q

/-- ACTIVE: enabled, or entries still in flight. -/
def State.qActive (s : State) (q : Nat) : Bool := s.qEnabled q || !(s.queue q).started.isEmpty

/-- BAR4's size. -/
abbrev bar4Bytes : Nat := 0x1000000

/-! ### Queue memory -/

/-- Reads bytes of a queue region; none where the Gallery read is uncorrectable (06_gallery.md R125). -/
def State.qRead (s : State) (q off n : Nat) : Option (List Byte) :=
  let a := s.qBase q + off
  if s.qLoc q = 0 then some (s.bar4Read a n)
  else if (s.firstPoison a n).isSome then none
  else some (s.galRead a n)

/-- Writes bytes of a queue region. -/
def State.qWrite (s : State) (q off : Nat) (bs : List Byte) : State :=
  let a := s.qBase q + off
  if s.qLoc q = 0 then s.bar4Write a bs else s.galStore a bs

/-- Halts a queue with a reason. -/
def State.qHalt (s : State) (q reason : Nat) : State := s.setQueue q { s.queue q with halt := reason }

/-- Halts a queue whose region has read uncorrectable (R125, code 0x5). -/
def State.qMemoryError (s : State) (q off n : Nat) : State :=
  match s.firstPoison (s.qBase q + off) n with
  | some cw => (s.noteUncorrectable cw 0x5).qHalt q 3
  | none => s.qHalt q 3

/-- Whether the region lies where R55 wants it. -/
def State.regionFits (s : State) (q : Nat) : Bool :=
  let a := s.qBase q
  let n := s.qBytes q
  if s.qLoc q = 0 then decide (a + n ≤ bar4Bytes)
  else
    let w := s.workBase
    (decide (w ≤ a) && decide (a + n ≤ w + tableBytes)) || (decide (w + areaFree ≤ a) && decide (a + n ≤ s.reserveBase))

/-- Whether the region meets that of another ACTIVE queue. -/
def State.regionMeets (s : State) (q : Nat) : Bool :=
  (List.range 64).any (fun p => decide (p ≠ q) && s.qActive p && decide (s.qLoc p = s.qLoc q) &&
    rangesMeet (s.qBase q) (s.qBytes q) (s.qBase p) (s.qBytes p))

/-! ### Control cores (19_faults_and_spares.md R350) -/

def State.ccRetired (s : State) (c : Nat) : Bool := nfld s.que.retired c 1 = 1
def State.ccRestarting (s : State) (c : Nat) : Bool := nfld s.que.restarting c 1 = 1

/-- The control core that watches a queue: core n / 8, or the next active one in ascending order. -/
def State.watcher (s : State) (q : Nat) : Option Nat :=
  ((List.range 8).map (fun i => (q / 8 + i) % 8)).find? (fun c => !s.ccRetired c)

/-- Whether the queue's core works. -/
def State.watched (s : State) (q : Nat) : Bool :=
  match s.watcher q with
  | some c => !s.ccRestarting c
  | none => false

/-! ### Tokens (R65) -/

def State.tokenCount (s : State) (n : Nat) : Nat := (s.reg (A.queToken n)).toNat
def State.tokenFail (s : State) (n : Nat) : Bool := s.b (A.queTokenFail (n / 32)) (n % 32)

/-- A signal: COUNT + 1, and FAIL for a failure. -/
def State.signalToken (s : State) (n : Nat) (ok : Bool) : State :=
  let s := s.setReg (A.queToken n) (BitVec.ofNat 32 (s.tokenCount n + 1))
  if ok then s else s.setB (A.queTokenFail (n / 32)) (n % 32) true

/-- Whether a descriptor's token wait is satisfied. -/
def State.waitDone (s : State) (d : Desc) : Bool := !d.waitEn || reached 32 (s.tokenCount d.waitToken) d.waitValue

/-! ### Completion (R61, R75) -/

/-- The 16 bytes of a completion record. -/
def recordBytes (index status flags : Nat) (late phase : Bool) (tag detail : Nat) : List Byte :=
  leBytes 4 index ++ leBytes 1 status ++ leBytes 1 (flags % 16 + 16 * b2n late + 128 * b2n phase) ++ leBytes 2 tag ++ leBytes 8 detail

/-- Writes the record, advances CQ_TAIL, signals the token and raises the vector, in this order (R61). -/
def State.completeEntry (s : State) (q : Nat) (e : QEntry) (status flags : Nat) (late : Bool) (detail : Nat) : State :=
  if e.mute then s
  else
    let d : Desc := e.desc
    let c := (s.queue q).cqTail
    let phase := decide (c / s.qSize q % 2 = 0)
    let s := s.qWrite q (0x1000 + 64 * s.qSize q + 16 * (c % s.qSize q)) (recordBytes e.index status flags late phase d.userTag detail)
    let c' := (c + 1) % 0x100000000
    let s := (s.setQueue q { s.queue q with cqTail := c' }).qWrite q 0x08 (leBytes 4 c')
    let s := if d.signalEn then s.signalToken d.signalToken (statusOk status) else s
    if d.irq then s.raiseVector (s.qVector q) else s

/-- Completes a started entry: it leaves the queue's started entries and gives its phase back. -/
def State.completeStarted (s : State) (q : Nat) (e : QEntry) (status flags : Nat) (late : Bool) (detail : Nat) : State :=
  let started := (s.queue q).started
  match started.find? (fun x => x.index = e.index) with
  | none => s
  | some x =>
    let s := s.setQueue q { s.queue q with started := started.filter (fun y => y.index ≠ e.index) }
    (s.phaseRelease (Desc.phaseId e.desc)).completeEntry q x status flags late detail

/-! ### Tail, fetching and withdrawal (R55-R62) -/

/-- Whether a queue has an entry that it may not fetch for want of a completion slot alone (R57). -/
def State.stalled (s : State) (q : Nat) : Bool :=
  let x := s.queue q
  decide (x.fetch ≠ x.tail) && decide (s.qSize q ≤ (x.fetch + 0x100000000 - x.cqHead) % 0x100000000) &&
    decide (x.started.length < s.qInflight q + 1)

/-- Reads SQ_TAIL and CQ_HEAD and applies R56. -/
def State.examine (s : State) (q : Nat) : State :=
  match s.qRead q 0 16 with
  | none => s.qMemoryError q 0 16
  | some bs =>
    let x := s.queue q
    let tail := leAt bs 0 4
    let head := leAt bs 12 4
    if s.qSize q < (tail + 0x100000000 - head) % 0x100000000 ∨ !reached 32 tail x.tail then
      s.setQueue q { x with halt := if x.halt = 0 then 1 else x.halt }
    else
      let s := s.setQueue q { x with tail := tail, cqHead := head }
      s.setQueue q { s.queue q with stall := s.stalled q }

/-- Examines a queue that is enabled, fetches and is not halted (R59); before reduced service a tail waits (R298). -/
def State.notice (s : State) (q : Nat) : State :=
  if s.qEnabled q && s.serving && decide ((s.queue q).halt = 0) then s.examine q else s

/-- The snapshot of entry `i`. -/
def State.entryBytes (s : State) (q i : Nat) : Option (List Byte) := s.qRead q (0x1000 + 64 * (i % s.qSize q)) 64

/-- Moves FETCH past one entry and copies it to SQ_HEAD. -/
def State.advanceFetch (s : State) (q : Nat) : State :=
  let f := ((s.queue q).fetch + 1) % 0x100000000
  (s.setQueue q { s.queue q with fetch := f }).qWrite q 0x04 (leBytes 4 f)

/-- Completes every fetched entry that has not started with ABORTED. -/
def State.withdrawFetched (s : State) (q : Nat) : State :=
  let es := (s.queue q).fetched
  es.foldl (fun s e => s.completeEntry q e stAborted 0 false 0) (s.setQueue q { s.queue q with fetched := [] })

/-- Completes the entries from FETCH up to the tail with ABORTED. -/
def State.withdrawUnfetched (s : State) (q fuel : Nat) : State :=
  match fuel with
  | 0 => s
  | n + 1 =>
    let x := s.queue q
    if x.fetch = x.tail then s
    else
      match s.entryBytes q x.fetch with
      | none => s.qMemoryError q (0x1000 + 64 * (x.fetch % s.qSize q)) 64
      | some bs =>
        let e : QEntry := { index := x.fetch, desc := bs }
        ((s.advanceFetch q).completeEntry q e stAborted 0 false 0).withdrawUnfetched q n

/-- Withdraws every entry below SQ_TAIL that has not started (R62). -/
def State.cancelQueue (s : State) (q : Nat) : State :=
  if s.qEnabled q then
    let s := if (s.queue q).halt = 0 then s.examine q else s
    let s := s.withdrawFetched q
    let n := ((s.queue q).tail + 0x100000000 - (s.queue q).fetch) % 0x100000000
    let s := s.withdrawUnfetched q n
    s.setQueue q { s.queue q with stall := false }
  else s

/-- ENABLE from 0 to 1 (R55). -/
def State.enableQueue (s : State) (q : Nat) : State :=
  if !s.regionFits q || s.regionMeets q then s.qHalt q 2
  else
    let s := s.setB (A.queQCtrl q) 0 true
    let s := s.setQueue q { s.queue q with fetch := 0, cqTail := 0, tail := 0, cqHead := 0, fetched := [], halt := 0, stall := false }
    let s := s.qWrite q 0x04 (leBytes 8 0)
    let n := 16 * s.qSize q
    let a := s.qBase q + 0x1000 + 64 * s.qSize q
    let s := if s.qLoc q = 0 then { s with bar4 := eraseRange s.bar4 a n }
      else { s with gallery := eraseRange s.gallery a n,
                    gal := { s.gal with poison := s.gal.poison.filter (fun e => !(decide (a ≤ e.1 * 64) && decide (e.1 * 64 + 64 ≤ a + n))) } }
    s.notice q

/-- ENABLE from 1 to 0: as CANCEL, then fetching stops (R62). -/
def State.disableQueue (s : State) (q : Nat) : State := (s.cancelQueue q).setB (A.queQCtrl q) 0 false

/-- Bits of QUE_Q_CTRL other than ENABLE and CANCEL, as stored (LOG2_SIZE stores the nearer limit). -/
def qCtrlStored (value : Word) : Word := setFld (value &&& 0x01FF7FFE#32) 4 5 (clamp 6 16 (fld value 4 5))

/-- A write of QUE_Q_CTRL_n (R54, R55, R62). -/
def State.writeQCtrl (s : State) (q : Nat) (value : Word) : State :=
  let a := A.queQCtrl q
  let old := s.reg a
  let s := s.wakeEvent
  let other := qCtrlStored value
  let active := s.qActive q
  let s :=
    if active then
      if other = (old &&& 0x01FF7FFE#32) then s else s.accessError 3 a
    else s.setReg a (other ||| (old &&& 1#32))
  let was := bit old 0
  let s := if bit value 25 && was then s.cancelQueue q else s
  if bit value 0 && !was then s.enableQueue q
  else if !bit value 0 && was then s.disableQueue q
  else s

/-! ### The start point (R60, R66-R68) -/

/-- Class of an opcode: 0 CLE, 1 RUE, 2 XFE; none for a reserved one. -/
def opClass (op : Nat) : Option Nat :=
  if 0x01 ≤ op ∧ op ≤ 0x0A then some 0 else if op = 0x20 then some 1 else if op = 0x40 ∨ op = 0x41 then some 2 else none

/-- Whether an applied-map slot is FREE, and the lowest such slot (R102). -/
def State.freeMap (s : State) : Option Nat := (List.range 16).find? (fun n => decide (s.f (A.cleMapCtrl n) 28 2 = 0))

/-- Whether the conditions of R60 hold for the oldest entry that has not started. -/
def State.mayStart (s : State) (q : Nat) (e : QEntry) : Bool :=
  let x := s.queue q
  let d : Desc := e.desc
  let own := decide (opClass d.opcode = some (s.qClass q))
  decide (x.started.length < s.qInflight q + 1) && (!d.fence || x.started.isEmpty) && s.waitDone d &&
    (!d.timed || s.hasReached d.startTime) &&
    (!(own && decide (opClass d.opcode = some 0)) || (s.cle.insts.find? (fun i => i.1 = d.group)).isNone) &&
    (!(own && decide (d.opcode = 0x06)) || s.freeMap.isSome)

/-- The entry of a queue that starts now, if any. -/
def State.startable (s : State) (q : Nat) : Option QEntry :=
  match (s.queue q).fetched with
  | [] => none
  | e :: _ => if s.serving && s.watched q && s.mayStart q e then some e else none

/-- Whether a start lies more than 8 ns after START_TIME (R68). -/
def State.lateStart (s : State) (d : Desc) : Bool :=
  d.timed && decide (8 * 0x10000 < sgn 80 (s.time.dev % 2 ^ 80 + 2 ^ 80 - d.startTime * 0x10000))

/-- Takes the oldest entry out of the fetched ones. -/
def State.popFetched (s : State) (q : Nat) : State := s.setQueue q { s.queue q with fetched := (s.queue q).fetched.drop 1 }

/-- Completes the oldest entry at its start point without starting it: withdrawn, refused or empty. -/
def State.completeAtStart (s : State) (q : Nat) (e : QEntry) (status detail : Nat) : State :=
  (s.popFetched q).completeEntry q e status 0 (s.lateStart e.desc) detail

/-- Stagger groups that a command uses (R289): all 24 for what reduces or steps. -/
def opGroups (q op : Nat) : Nat :=
  let cc := if q / 8 < 4 then 1 else 2
  if op = 0x0A then cc + 4
  else if op = 0x03 ∨ op = 0x04 ∨ op = 0x08 ∨ op = 0x09 then cc + 4 + 0x78 + 0x80
  else if op = 0x20 then cc + 0x78 + 0xFFFF00
  else if 0x40 ≤ op then cc + 4 + 0x78
  else 0xFFFFFF

/-- Moves the oldest entry from the fetched to the started ones; its units take its phase (R69). -/
def State.beginEntry (s : State) (q : Nat) (e : QEntry) : State :=
  let s := s.popFetched q
  let s := s.setQueue q { s.queue q with started := (s.queue q).started ++ [e] }
  s.phaseTake (Desc.phaseId e.desc) (opGroups q (Desc.opcode e.desc))

/-! ### Check 1 of R73 and the offsets of R383 -/

/-- Offsets of reserved bits that are set: byte offset and mask of each reserved part. -/
def reservedSet (d : Desc) (parts : List (Nat × Nat)) : List Nat :=
  parts.filterMap (fun p => if Nat.land (d.byte p.1) p.2 = 0 then none else some p.1)

/-- Reserved parts of the header, of the CLE and RUE body, and of the XFE body. -/
def headerReserved : List (Nat × Nat) := [(1, 0xC0), (2, 0xF0), (12, 0xFF), (13, 0xFF), (14, 0xFF), (15, 0xFF)]
def bodyReserved : List (Nat × Nat) := [(25, 0xF0), (27, 0xFC), (30, 0x80)]
def xfeReserved : List (Nat × Nat) := (List.range 12).map (fun i => (52 + i, 0xFF))

/-- The lowest offset of a failure of check 1. -/
def check1 (cls : Nat) (d : Desc) : Option Nat :=
  let c := opClass d.opcode
  let parts := headerReserved ++ (match c with
    | some 0 => bodyReserved ++ [(58, 0xFF), (59, 0xFF)]
    | some 1 => bodyReserved
    | some _ => xfeReserved
    | none => [])
  let bad := (if c ≠ some cls then [0] else []) ++ (if d.ver ≠ 1 then [3] else []) ++ reservedSet d parts
  bad.min?

/-- What the start of the oldest entry of queue `q` by the row of opcode `op` comes to: withdrawn by its guard (R66),
refused by check 1, or checked further by `run`. An entry of another opcode is left to its own row. -/
def State.startRow (s : State) (q op : Nat) (run : QEntry → State) : State :=
  match s.startable q with
  | none => s
  | some e =>
    let d : Desc := e.desc
    if d.opcode = op ∨ opClass d.opcode ≠ some (s.qClass q) then
      if d.guard && d.waitEn && s.tokenFail d.waitToken then s.completeAtStart q e stAborted 0
      else
        match check1 (s.qClass q) d with
        | some off => s.completeAtStart q e stDescInvalid off
        | none => run e
    else s

end Sys2Proof.Machine
end

