-- ==== Sys2Proof/Machine/Descriptors.lean ====
section
/-! DEFINITION. Checks 2 and 3 of a descriptor: licences, field values, programs, addresses and overlaps
(03_command_lists_and_step_programs.md R70-R74, R79, R381-R383). -/
namespace Sys2Proof.Machine

/-! ### Use of the fields by opcode -/

/-- ALLREDUCE, REDUCE_SCATTER, REDUCE, STEP and NORM. -/
def opReduces (op : Nat) : Bool := [0x01, 0x02, 0x05, 0x06, 0x07].contains op
/-- STEP and VSTEP. -/
def opSteps (op : Nat) : Bool := decide (op = 0x06) || decide (op = 0x20)
/-- Opcodes that use OUT_FMT (R381). -/
def opUsesOut (op : Nat) : Bool := [0x01, 0x02, 0x05, 0x06, 0x20].contains op
/-- Opcodes that use ACC_FMT. -/
def opUsesAcc (op : Nat) : Bool := opReduces op || decide (op = 0x20)
/-- Opcodes that use OP. -/
def opUsesOp (op : Nat) : Bool := [0x01, 0x02, 0x05, 0x06].contains op

/-- Format codes in the fields that the opcode uses (R381). -/
def fmtsUsed (d : Desc) : List Nat :=
  if d.opcode = 0x0A then []
  else [d.inFmt] ++ (if opUsesOut d.opcode then [d.outFmt] else []) ++ (if opSteps d.opcode then [d.stateFmt] else []) ++
    (if opReduces d.opcode && d.partEn then [d.partFmtField] else [])

/-- Check 2 of R73: whether a licence is absent. -/
def State.check2 (s : State) (d : Desc) : Bool :=
  (((opUsesAcc d.opcode && d.wide) || (fmtsUsed d).contains 0xB) && !s.licensed 1) ||
  ((decide (d.prog ≠ 0xFF) || opSteps d.opcode) && !s.licensed 2)

/-! ### Programs (R76, R77, R80) -/

/-- A 64-bit word of a program slot's window. -/
def State.progWord (s : State) (p i : Nat) : Nat := s.reg64 (A.cleProg p (2 * i)) (A.cleProg p (2 * i + 1))

/-- The 64 instruction words of an effective program slot. -/
def State.slotWords (s : State) (p : Nat) : List Nat := (List.range 64).map (s.progWord p)

/-- The instructions that PROG names, none for a value that names none. -/
def State.programOf (s : State) (p : Nat) : Option (List PIns) :=
  if p < 0x40 then some (progOf (s.slotWords p)) else template p

/-- CLE scalar register `n`. -/
def State.scalar (s : State) (n : Nat) : Nat := s.reg64 (A.cleScalarLo n) (A.cleScalarHi n)
def State.setScalar (s : State) (n v : Nat) : State := s.setReg64 (A.cleScalarLo n) (A.cleScalarHi n) v

/-- The copy of program, constants and scalar registers that an instance takes at its start. -/
def State.progCopy (s : State) (d : Desc) : ProgCopy :=
  let p := d.prog
  { words := if p < 0x40 then s.slotWords p else [],
    consts := if p < 0x40 then (List.range 16).map (fun i => s.progWord p (64 + i)) else templateConsts d.wide,
    scalars := (List.range 16).map (fun i => if d.scalarBase + i ≤ 255 then s.scalar (d.scalarBase + i) else 0) }

/-- The instructions of a copy. -/
def ProgCopy.code (c : ProgCopy) (d : Desc) : List PIns :=
  if d.prog < 0x40 then progOf c.words else (template d.prog).getD []

/-- K0 to K31 of a copy. -/
def ProgCopy.scalarList (c : ProgCopy) : List Nat :=
  (List.range 16).map (fun i => c.consts.getD i 0) ++ c.scalars

/-! ### Ranges (R71, R382) -/

/-- Bytes from the base of an operand whose chunk `c` of `n` elements in format `code` lies at `c` * 65,536, the chunks
being those of IN_FMT. -/
def spanOf (inFmt code n : Nat) : Nat :=
  let k := chunkCount inFmt n
  if k = 0 then 0
  else
    let last := (k - 1) * 65536 + chunkBytes code (chunkElems inFmt n (k - 1))
    if k = 1 then last else max last ((k - 2) * 65536 + chunkBytes code (layoutOf inFmt).full)

/-- Whether LOCAL_ADDR, SRC or DST names the Gallery, and its offset there. -/
def addrGallery (a : Nat) : Bool := nfld a 63 1 = 1
def addrOffset (a : Nat) : Nat := nfld a 0 40

/-- Whether an address in the encoding of R71 with a range of `n` bytes is not allowed. -/
def State.addrBad (s : State) (a n : Nat) : Bool :=
  decide (a % 64 ≠ 0) ||
  (if addrGallery a then decide (nfld a 40 23 ≠ 0) || (decide (n ≠ 0) && !s.rangeAllowed (addrOffset a) n)
   else !s.busMaster)

/-- Stride of the state arrays (R71). -/
def stateStride (d : Desc) : Nat := roundUp (d.elements * fmtBytes d.stateFmt) 0x10000

/-- Ranges of the state arrays that a program names. -/
def stateRanges (d : Desc) (is : List PIns) : List (Nat × Nat) :=
  (stateNamed is).map (fun k => (d.stateAddr + k * stateStride d, stateStride d))

/-- State ranges of every STEP and VSTEP in flight. -/
def State.stateInFlight (s : State) : List (Nat × Nat) :=
  ((s.cle.insts.map (·.2)).filter (fun i => Desc.opcode i.entry.desc = 0x06) ++ s.cle.vsteps).flatMap
    (fun i => stateRanges i.entry.desc (i.prog.code i.entry.desc))

/-- Whether a range meets a state range in flight (R72, R74). -/
def State.meetsState (s : State) (a n : Nat) : Bool := s.stateInFlight.any (fun r => rangesMeet a n r.1 r.2)

/-! ### Check 3 of R73 -/

/-- Offsets of field values that the opcode does not allow. -/
def badFields (d : Desc) : List Nat :=
  let op := d.opcode
  let zero (b : Bool) (off : Nat) : List Nat := if b then [off] else []
  zero (if opUsesOp op then decide (4 < d.redOp) else decide (d.redOp ≠ 0)) 26 ++
  zero ((decide (0xB < d.inFmt) || (opUsesOut op && decide (0xB < d.outFmt))) && decide (op ≠ 0x0A)) 28 ++
  zero (opSteps op && !([0x0, 0x1, 0x2, 0xB].contains d.stateFmt)) 29 ++
  zero (opReduces op && d.partEn && !([0x0, 0x1, 0x2].contains d.partFmtField)) 29 ++
  zero (!opSteps op && decide (d.prog ≠ 0xFF)) 31 ++
  zero (decide (op = 0x0A) && decide (d.elements ≠ 0)) 32 ++
  zero (decide (op = 0x06) && decide (d.inFmt ≤ 0xB) && decide (8388608 < chunkCount d.inFmt d.elements)) 32 ++
  zero (!opSteps op && decide (d.stateAddr ≠ 0)) 40 ++
  zero (decide (op = 0x0A) && decide (d.localAddr ≠ 0)) 48 ++
  zero ((decide (op = 0x08) || decide (op = 0x09)) && decide (d.localAddr = 0)) 48 ++
  zero ([0x01, 0x02, 0x03, 0x06, 0x0A, 0x20].contains op && decide (d.aux ≠ 0)) 57 ++
  zero (decide (op = 0x20) && decide (d.group ≠ 0)) 24

/-- Offsets of what is wrong with a program (R73, R79). -/
def State.badProgram (s : State) (d : Desc) : List Nat :=
  if !opSteps d.opcode then []
  else
    match s.programOf d.prog with
    | none => [31]
    | some is =>
      (if writesU is then [] else [31]) ++
      (if is.any (fun i => i.scalars.any (fun k => decide (16 ≤ k) && decide (255 < d.scalarBase + k - 16))) then [56] else [])

/-- Offsets of addresses and ranges that are not allowed, overlaps with state in flight included. -/
def State.badRanges (s : State) (d : Desc) : List Nat :=
  let op := d.opcode
  if 0xB < d.inFmt ∨ (opUsesOut op = true ∧ 0xB < d.outFmt) then []
  else
    let spanIn := spanOf d.inFmt d.inFmt d.elements
    let spanOut := if opUsesOut op then spanOf d.inFmt d.outFmt d.elements else 0
    let loc :=
      if op = 0x0A then []
      else if op = 0x20 then (if !addrGallery d.localAddr || s.addrBad d.localAddr spanIn then [48] else [])
      else if d.localAddr = 0 then []
      else (if s.addrBad d.localAddr (max spanIn spanOut) then [48] else [])
    let u :=
      if op = 0x20 then
        (let n := spanOf d.outFmt d.outFmt d.elements
         if d.uAddr % 64 ≠ 0 ∨ (n ≠ 0 ∧ s.rangeAllowed d.uAddr n = false) then [58] else [])
      else []
    let st :=
      match (if opSteps op && [0x0, 0x1, 0x2, 0xB].contains d.stateFmt then s.programOf d.prog else none) with
      | none => []
      | some is =>
        let rs := stateRanges d is
        if rs.isEmpty then []
        else if d.stateAddr % 64 ≠ 0 ∨ rs.any (fun r => decide (r.2 ≠ 0) && (!s.rangeAllowed r.1 r.2 || s.meetsState r.1 r.2)) then [40]
        else []
    loc ++ u ++ st

/-- The lowest offset of a failure of check 3 for a CLE or RUE command. -/
def State.check3 (s : State) (d : Desc) : Option Nat := (badFields d ++ s.badProgram d ++ s.badRanges d).min?

/-- The lowest offset of a failure of check 3 for COPY and FILL (R74). -/
def State.check3x (s : State) (d : Desc) : Option Nat :=
  let n := d.bytes
  let copy := decide (d.opcode = 0x40)
  let gs := copy && addrGallery d.src
  let gd := addrGallery d.dst
  let same := copy && decide (addrGallery d.src = addrGallery d.dst) &&
    rangesMeet (nfld d.src 0 63) n (nfld d.dst 0 63) n
  let bad :=
    (if !copy && decide (d.src ≠ 0) then [24] else []) ++
    (if copy && (s.addrBad d.src n || (gs && s.meetsState (addrOffset d.src) n)) then [24] else []) ++
    (if s.addrBad d.dst n || (gd && s.meetsState (addrOffset d.dst) n) || same then [32] else []) ++
    (if n % 64 ≠ 0 then [40] else []) ++
    (if copy && decide (d.pattern ≠ 0) then [48] else [])
  bad.min?

/-- The lost extent of a step's state in chunks of the operand (R75, R127): first invalid chunk, and the count from it to
the last. -/
def State.lostChunks (s : State) (d : Desc) (is : List PIns) : Option (Nat × Nat) :=
  let size := fmtBytes d.stateFmt
  let full := (layoutOf d.inFmt).full
  let per (k : Nat) : Option (Nat × Nat) :=
    let base := d.stateAddr + k * stateStride d
    match s.invalidIn base (d.elements * size) with
    | none => none
    | some (u, v) =>
      let lo := s.stateBase + u * 0x10000
      let hi := s.stateBase + v * 0x10000 + 0xFFFF
      let c0 := (lo - base) / size / full
      let c1 := min ((hi - base) / size / full) (chunkCount d.inFmt d.elements - 1)
      some (c0, c1)
  let all := (stateNamed is).filterMap per
  match all with
  | [] => none
  | x :: xs =>
    let lo := (xs.map (·.1)).foldl min x.1
    let hi := (xs.map (·.2)).foldl max x.2
    some (lo, hi + 1 - lo)

end Sys2Proof.Machine
end

