-- ==== Sys2Proof/Machine/Codes.lean ====
section
/-! DEFINITION. The codes that the specification fixes by name: the erasure code over GF(2^8)
(09_routes_striping_resequencing.md R183), AES-256 and AES-256-GCM (11_line_cipher.md R205, R210; NIST SP 800-38D) and
SHA-256 (16_bring_up_and_image.md R301, R305). -/
namespace Sys2Proof.Machine

/-! ### GF(2^8) -/

/-- Product in GF(2^8) with reduction polynomial `poly` (9 bits), by the bits of `b` from the top, `n` left. -/
def gfMulGo (poly a b acc n : Nat) : Nat :=
  match n with
  | 0 => acc
  | k + 1 =>
    let d := acc * 2
    let d := if 256 ≤ d then Nat.xor d poly else d
    let d := if b / 2 ^ k % 2 = 1 then Nat.xor d a else d
    gfMulGo poly a b d k

/-- Product in GF(2^8) with reduction polynomial `poly`. -/
def gfMul (poly a b : Nat) : Nat := gfMulGo poly a b 0 8

/-- Power. -/
def gfPow (poly a n : Nat) : Nat :=
  match n with
  | 0 => 1
  | k + 1 => gfMul poly a (gfPow poly a k)

/-- Inverse: the 254th power; 0 for 0. -/
def gfInv (poly a : Nat) : Nat :=
  let a2 := gfMul poly a a
  let a3 := gfMul poly a2 a
  let a6 := gfMul poly a3 a3
  let a12 := gfMul poly a6 a6
  let a15 := gfMul poly a12 a3
  let a30 := gfMul poly a15 a15
  let a60 := gfMul poly a30 a30
  let a120 := gfMul poly a60 a60
  let a126 := gfMul poly a120 a6
  let a127 := gfMul poly a126 a
  gfMul poly a127 a127

/-! ### The erasure code (R183) -/

/-- The code's field. -/
def rsPoly : Nat := 0x11D

/-- The coefficient c of parity shard `j` and data shard `i`. -/
def rsCoef (j i : Nat) : Nat := gfInv rsPoly (Nat.xor (gfPow rsPoly 2 i) (gfPow rsPoly 2 (8 + j)))

/-- The bytes of `d` times a coefficient. -/
def rsScale (c : Nat) (d : List Byte) : List Byte := d.map (fun b => BitVec.ofNat 8 (gfMul rsPoly c b.toNat))

/-- Parity shard `j` of data shards. -/
def rsParity (j : Nat) (data : List (List Byte)) : List Byte :=
  (data.zipIdx).foldl (fun acc d => xorBytes acc (rsScale (rsCoef j d.2) d.1))
    (List.replicate (data.headD []).length 0)

/-- A row of the linear system: coefficients of the data shards and the bytes they give. -/
abbrev RsRow := List Nat × List Byte

/-- The row of shard `s` of a stripe with `k` data shards. -/
def rsRow (k s : Nat) (bytes : List Byte) : RsRow :=
  ((List.range k).map (fun i => if s < k then (if s = i then 1 else 0) else rsCoef (s - k) i), bytes)

/-- `r` plus `c` times `p`. -/
def rsAddRow (c : Nat) (p r : RsRow) : RsRow :=
  (List.zipWith (fun x y => Nat.xor x (gfMul rsPoly c y)) r.1 p.1, xorBytes r.2 (rsScale c p.2))

/-- Eliminates column `i` and those after it: `done` holds the pivot rows so far. -/
def rsSolve (i n : Nat) (done rest : List RsRow) : List RsRow :=
  match n with
  | 0 => done
  | m + 1 =>
    match rest.find? (fun r => r.1.getD i 0 ≠ 0) with
    | none => done
    | some p =>
      let others := rest.eraseP (fun r => r.1.getD i 0 ≠ 0)
      let c := gfInv rsPoly (p.1.getD i 0)
      let p := (p.1.map (gfMul rsPoly c), rsScale c p.2)
      let clear := fun (r : RsRow) => rsAddRow (r.1.getD i 0) p r
      rsSolve (i + 1) m (done.map clear ++ [p]) (others.map clear)

/-- The data area that `k` good shards determine; shards are given by index. -/
def rsDecode (k : Nat) (shards : List (Nat × List Byte)) : List Byte :=
  (rsSolve 0 k [] ((shards.take k).map (fun s => rsRow k s.1 s.2))).flatMap (·.2)

/-! ### AES-256 -/

/-- The field of AES. -/
def aesPoly : Nat := 0x11B

/-- Rotates a byte left. -/
def rotl8 (b n : Nat) : Nat := (b * 2 ^ n + b / 2 ^ (8 - n)) % 256

/-- The S-box. -/
def aesSub (b : Nat) : Nat :=
  let i := gfInv aesPoly b
  Nat.xor (Nat.xor (Nat.xor i (rotl8 i 1)) (Nat.xor (rotl8 i 2) (rotl8 i 3))) (Nat.xor (rotl8 i 4) 0x63)

/-- The S-box as a table, so that a block costs no inversions. -/
def aesTable : List Nat := (List.range 256).map aesSub

/-- Words of the key schedule, newest first; `i` is the number of the next word, `n` words are left to make. -/
def aesExpand (t : List Nat) (ws : List (List Nat)) (i n : Nat) : List (List Nat) :=
  match n with
  | 0 => ws
  | m + 1 =>
    let prev := ws.getD 0 []
    let old := ws.getD 7 []
    let rot := prev.drop 1 ++ prev.take 1
    let sub := fun (l : List Nat) => l.map (fun b => t.getD b 0)
    let f := if i % 8 = 0 then
        (match sub rot with
         | x :: r => Nat.xor x (gfPow aesPoly 2 (i / 8 - 1)) :: r
         | [] => [])
      else if i % 8 = 4 then sub prev else prev
    aesExpand t (List.zipWith Nat.xor old f :: ws) (i + 1) m

/-- The 15 round keys of a 256-bit key, 16 bytes each. -/
def aesKeys (t : List Nat) (key : List Byte) : List (List Nat) :=
  let ws := ((chunksOf 4 8 (key.map (·.toNat))).reverse)
  chunksOf 16 15 ((aesExpand t ws 8 52).reverse.flatten)

/-- Rows shifted: byte `4c + r` comes from column `c + r`. -/
def aesShift (s : List Nat) : List Nat :=
  (List.range 16).map (fun i => s.getD ((i / 4 + i % 4) % 4 * 4 + i % 4) 0)

/-- One mixed column. -/
def aesMixCol (c : List Nat) : List Nat :=
  (List.range 4).map (fun r =>
    let g := fun k => c.getD ((r + k) % 4) 0
    Nat.xor (Nat.xor (gfMul aesPoly 2 (g 0)) (gfMul aesPoly 3 (g 1))) (Nat.xor (g 2) (g 3)))

/-- The rounds after the first key addition. -/
def aesRounds (t : List Nat) (ks : List (List Nat)) (s : List Nat) : List Nat :=
  match ks with
  | [] => s
  | [k] => List.zipWith Nat.xor (aesShift (s.map (fun b => t.getD b 0))) k
  | k :: r =>
    aesRounds t r (List.zipWith Nat.xor ((chunksOf 4 4 (aesShift (s.map (fun b => t.getD b 0)))).flatMap aesMixCol) k)

/-- AES-256 of one block under expanded keys. -/
def aesBlock (t : List Nat) (ks : List (List Nat)) (block : List Nat) : List Nat :=
  match ks with
  | [] => block
  | k :: r => aesRounds t r (List.zipWith Nat.xor block k)

/-- AES-256 of one block under a 32-byte key. -/
def aes256 (key : List Byte) (block : List Byte) : List Byte :=
  (aesBlock aesTable (aesKeys aesTable key) (block.map (·.toNat))).map (BitVec.ofNat 8)

/-! ### GCM -/

/-- Product in GF(2^128) as GCM orders bits (the first bit is the most significant): `v` runs through `y` · x^i. -/
def ghashMul (x v acc n : Nat) : Nat :=
  match n with
  | 0 => acc
  | k + 1 =>
    let acc := if x / 2 ^ k % 2 = 1 then Nat.xor acc v else acc
    let v := if v % 2 = 1 then Nat.xor (v / 2) 0xE1000000000000000000000000000000 else v / 2
    ghashMul x v acc k

/-- Bytes padded with zeros to whole blocks. -/
def padBlocks (bs : List Byte) : List Byte := bs ++ List.replicate (roundUp bs.length 16 - bs.length) 0

/-- GHASH of additional data and ciphertext under subkey `h`. -/
def ghash (h : Nat) (aad ct : List Byte) : Nat :=
  let bs := padBlocks aad ++ padBlocks ct ++ beBytes 8 (aad.length * 8) ++ beBytes 8 (ct.length * 8)
  (chunksOf 16 (bs.length / 16) bs).foldl (fun y b => ghashMul (Nat.xor y (beNat b)) h 0 128) 0

/-- The key stream XORed over the bytes, from block counter `c`. -/
def gcmStream (t : List Nat) (ks : List (List Nat)) (iv : List Byte) (c fuel : Nat) (bs : List Byte) : List Byte :=
  match fuel with
  | 0 => []
  | k + 1 =>
    if bs.isEmpty then []
    else
      let e := (aesBlock t ks ((iv ++ beBytes 4 c).map (·.toNat))).map (BitVec.ofNat 8)
      xorBytes (bs.take 16) e ++ gcmStream t ks iv (c + 1) k (bs.drop 16)

/-- The text (encryption and decryption are one) and the 16-byte tag over `ct`. -/
def gcmText (key iv bs : List Byte) : List Byte :=
  gcmStream aesTable (aesKeys aesTable key) iv 2 (bs.length / 16 + 1) bs

/-- The tag of additional data and ciphertext. -/
def gcmTag (key iv aad ct : List Byte) : List Byte :=
  let ks := aesKeys aesTable key
  let h := beNat ((aesBlock aesTable ks (List.replicate 16 0)).map (BitVec.ofNat 8))
  let e := (aesBlock aesTable ks ((iv ++ beBytes 4 1).map (·.toNat))).map (BitVec.ofNat 8)
  xorBytes e (beBytes 16 (ghash h aad ct))

/-! ### SHA-256 -/

/-- Whether a number above 1 has no divisor from `d` on. -/
def noDivisor (n d fuel : Nat) : Bool :=
  match fuel with
  | 0 => true
  | k + 1 => if n < d * d then true else if n % d = 0 then false else noDivisor n (d + 1) k

/-- The first primes from `n` on. -/
def primesFrom (n count fuel : Nat) : List Nat :=
  match fuel with
  | 0 => []
  | k + 1 =>
    if count = 0 then []
    else if noDivisor n 2 20 then n :: primesFrom (n + 1) (count - 1) k
    else primesFrom (n + 1) count k

/-- Largest root below `hi` of x^`p` ≤ `n`, by bisection. -/
def rootGo (p n lo hi fuel : Nat) : Nat :=
  match fuel with
  | 0 => lo
  | k + 1 =>
    let mid := (lo + hi) / 2
    if hi ≤ lo + 1 then lo
    else if mid ^ p ≤ n then rootGo p n mid hi k else rootGo p n lo mid k

/-- First 32 bits of the fractional part of the `p`-th root of `n` (FIPS 180-4). -/
def rootFrac (p n : Nat) : Nat := rootGo p (n * 2 ^ (32 * p)) 0 (2 ^ 40) 50 % 0x100000000

/-- The round constants and the initial value. -/
def shaK : List Nat := (primesFrom 2 64 400).map (rootFrac 3)
def shaInit : List Nat := (primesFrom 2 8 30).map (rootFrac 2)

/-- Rotates a 32-bit word right. -/
def rotr32 (x n : Nat) : Nat := x / 2 ^ n + x * 2 ^ (32 - n) % 0x100000000

/-- Message schedule, newest first. -/
def shaSchedule (ws : List Nat) (n : Nat) : List Nat :=
  match n with
  | 0 => ws
  | m + 1 =>
    let w15 := ws.getD 14 0
    let w2 := ws.getD 1 0
    let s0 := Nat.xor (Nat.xor (rotr32 w15 7) (rotr32 w15 18)) (w15 / 8)
    let s1 := Nat.xor (Nat.xor (rotr32 w2 17) (rotr32 w2 19)) (w2 / 1024)
    shaSchedule ((ws.getD 15 0 + s0 + ws.getD 6 0 + s1) % 0x100000000 :: ws) m

/-- One round: the eight working variables, a word and its constant. -/
def shaRound (v : List Nat) (wk : Nat) : List Nat :=
  let g := fun i => v.getD i 0
  let e := g 4
  let a := g 0
  let s1 := Nat.xor (Nat.xor (rotr32 e 6) (rotr32 e 11)) (rotr32 e 25)
  let ch := Nat.xor (Nat.land e (g 5)) (Nat.land (0xFFFFFFFF - e) (g 6))
  let t1 := (g 7 + s1 + ch + wk) % 0x100000000
  let s0 := Nat.xor (Nat.xor (rotr32 a 2) (rotr32 a 13)) (rotr32 a 22)
  let mj := Nat.xor (Nat.xor (Nat.land a (g 1)) (Nat.land a (g 2))) (Nat.land (g 1) (g 2))
  [(t1 + s0 + mj) % 0x100000000, a, g 1, g 2, (g 3 + t1) % 0x100000000, e, g 5, g 6]

/-- One block. -/
def shaBlock (h : List Nat) (block : List Byte) : List Nat :=
  let ws := (shaSchedule ((chunksOf 4 16 block).map beNat).reverse 48).reverse
  let v := (List.zip ws shaK).foldl (fun v wk => shaRound v (wk.1 + wk.2)) h
  List.zipWith (fun x y => (x + y) % 0x100000000) h v

/-- SHA-256: 32 bytes. -/
def sha256 (bs : List Byte) : List Byte :=
  let pad := bs ++ [0x80#8] ++ List.replicate ((119 - bs.length % 64) % 64) 0 ++ beBytes 8 (bs.length * 8)
  ((chunksOf 64 (pad.length / 64) pad).foldl shaBlock shaInit).flatMap (beBytes 4)

/-! ### Smaller checks -/

/-- CRC-16 with x^16 + x^12 + x^5 + 1 and initial value 0 (R176). -/
def crc16 (bs : List Byte) : Nat := crcMsb 16 0x1021 0 bs

/-- CRC-64 of a chunk (04_collectives_and_flights.md R92): reflected, initial value and final inversion all ones. -/
def crc64 (bs : List Byte) : Nat := Nat.xor (crcLsb 0xC96C5795D7870F42 0xFFFFFFFFFFFFFFFF bs) 0xFFFFFFFFFFFFFFFF

end Sys2Proof.Machine
end

