-- ==== Sys2Proof/Machine/LineOps.lean ====
section
/-! DEFINITION. The line side's shared operations: route table, usable ports and routes, delay windows, control
messages, stripe formation, weighted queues and withdrawal (09_routes_striping_resequencing.md R173-R193;
10_line_scheduler.md R194-R201; 11_line_cipher.md R204, R207). -/
namespace Sys2Proof.Machine

/-! ### This gateway -/

/-- This gateway's installation identifier, which is its DFL node address (13_fabric_links_and_concourse.md). -/
def State.nodeId (s : State) : Nat := (s.reg A.dflNodeId).toNat

/-! ### The effective route table (R173) -/

def State.curSlot (s : State) : Nat := s.f A.routeCtrl 0 1

/-- Whether the slot in use is valid. -/
def State.slotValid (s : State) : Bool := s.b (A.routeSlot s.curSlot) 8

def State.portEntry (s : State) (p : Nat) : Word := s.reg (A.routeTablesPort s.curSlot p)

/-- ROLE: 0 UNUSED, 1 ENDPOINT, 2 RELAY. -/
def State.portRole (s : State) (p : Nat) : Nat := if s.slotValid then fld (s.portEntry p) 0 2 else 0
def State.portRoute (s : State) (p : Nat) : Nat := fld (s.portEntry p) 2 3
def State.portPeer (s : State) (p : Nat) : Nat := fld (s.portEntry p) 5 6
def State.portPass (s : State) (p : Nat) : Nat := fld (s.portEntry p) 16 4

/-- Word `w` of peer entry `e`. -/
def State.peerWord (s : State) (e w : Nat) : Word := s.reg (A.routeTablesPeer s.curSlot (e * 4 + w))

def State.peerValid (s : State) (e : Nat) : Bool := s.slotValid && bit (s.peerWord e 1) 0
def State.peerNode (s : State) (e : Nat) : Nat := (s.peerWord e 0).toNat
def State.peerK (s : State) (e : Nat) : Nat := fld (s.peerWord e 1) 4 4
def State.peerM (s : State) (e : Nat) : Nat := fld (s.peerWord e 1) 8 3
/-- Route of shard `i`. -/
def State.peerRoute (s : State) (e i : Nat) : Nat := fld (s.peerWord e 2) (3 * i) 3

/-- The valid peer entry whose NODE_ID is `node`. -/
def State.peerOf (s : State) (node : Nat) : Option Nat :=
  (List.range 64).find? (fun e => s.peerValid e && decide (s.peerNode e = node))

/-- The ENDPOINT ports whose PEER names entry `e`. -/
def State.portsTo (s : State) (e : Nat) : List Nat :=
  (List.range 16).filter (fun p => decide (s.portRole p = 1) && decide (s.portPeer p = e))

/-! ### Ports -/

def State.port (s : State) (p : Nat) : LinePort := s.ports.get (fun _ => {}) p
def State.setPort (s : State) (p : Nat) (x : LinePort) : State := { s with ports := s.ports.put (fun _ => {}) p x }

/-- Bits of LINE_STATUS. -/
abbrev dLOS : Nat := 2
abbrev dLOF : Nat := 3
abbrev dLOM : Nat := 4
abbrev dSID : Nat := 5
abbrev dSDEG : Nat := 6
abbrev dSRDI : Nat := 7
abbrev dPAIS : Nat := 8
abbrev dPTIM : Nat := 9
abbrev dPDEG : Nat := 10
abbrev dPRDI : Nat := 11

/-- Whether a defect is present. -/
def State.defect (s : State) (p d : Nat) : Bool := s.b (A.lineStatus p) d

/-- Section fail (08_span_framer.md R158). -/
def State.sectionFail (s : State) (p : Nat) : Bool := s.defect p dLOS || s.defect p dLOF || s.defect p dLOM || s.defect p dSID

/-- Path fail. -/
def State.pathFail (s : State) (p : Nat) : Bool := s.sectionFail p || s.defect p dPAIS || s.defect p dPTIM

/-- LINE_CTRL.ENABLE. -/
def State.portEnabled (s : State) (p : Nat) : Bool := s.b (A.lineCtrl p) 0

/-- Qualification of a port (16_bring_up_and_image.md R314, R305). -/
def State.portQualOf (s : State) (p : Nat) : Qual := s.boot.portQual.get (fun _ => {}) p

/-- A port that carries traffic: enabled, qualified and not left out (R305, R315; log 22). -/
def State.portOpen (s : State) (p : Nat) : Bool := s.portEnabled p && (s.portQualOf p).passed && !(s.portQualOf p).leftOut

/-- An ENDPOINT port usable for sending (R175). -/
def State.portUsable (s : State) (p : Nat) : Bool :=
  decide (s.portRole p = 1) && s.portOpen p && !s.sectionFail p && !s.defect p dSRDI && !s.defect p dPRDI && !(s.port p).downMark

/-! ### Security associations (11_line_cipher.md R204, R207) -/

/-- Number of an association: direction (0 transmit), peer entry, route. -/
def saNumber (dir e r : Nat) : Nat := dir * 512 + e * 8 + r

def State.sa (s : State) (n : Nat) : SecAssoc := s.sec.sas.get (fun _ => {}) n
def State.setSa (s : State) (n : Nat) (x : SecAssoc) : State :=
  { s with sec := { s.sec with sas := s.sec.sas.put (fun _ => {}) n x } }

/-- Slot 0 or 1 of an association. -/
def SecAssoc.slot (x : SecAssoc) (i : Nat) : KeySlot := if i = 0 then x.s0 else x.s1
def SecAssoc.setSlot (x : SecAssoc) (i : Nat) (k : KeySlot) : SecAssoc := if i = 0 then { x with s0 := k } else { x with s1 := k }

/-- The slot in a state. -/
def SecAssoc.inState (x : SecAssoc) (st : SlotState) : Option Nat :=
  if x.s0.state = st then some 0 else if x.s1.state = st then some 1 else none

/-- Whether the route has a valid sending key towards the peer. -/
def State.keyed (s : State) (e r : Nat) : Bool := ((s.sa (saNumber 0 e r)).inState .txCurrent).isSome

/-! ### Usable routes (R175, R207) -/

/-- Usable ports of route `r` towards peer `e`. -/
def State.usablePorts (s : State) (e r : Nat) : List Nat :=
  (s.portsTo e).filter (fun p => decide (s.portRoute p = r) && s.portUsable p)

def State.routeUsable (s : State) (e r : Nat) : Bool := !(s.usablePorts e r).isEmpty && s.keyed e r

/-- Routes usable towards a peer, as ROUTE_PEER_STATE.USABLE shows them. -/
def State.usableRoutes (s : State) (e : Nat) : List Nat := (List.range 8).filter (s.routeUsable e)

/-! ### Delays and windows (R185-R187, 06_gallery.md R120) -/

def State.delay (s : State) (node r : Nat) : RouteDelay := s.rte.delays.get (fun _ => {}) (node * 8 + r)
def State.setDelay (s : State) (node r : Nat) (d : RouteDelay) : State :=
  { s with rte := { s.rte with delays := s.rte.delays.put (fun _ => {}) (node * 8 + r) d } }

/-- Aggregate payload rate of the line ports in bytes a second (R120). -/
def State.lineRate (s : State) : Nat := if s.licensed 0 then 1600000000000 else 800000000000

/-- W in force, in us (SKEW_EFF_US). -/
def State.skewUs (s : State) : Nat :=
  min (s.f A.routeRseqCtrl 0 18) (s.f A.galRegion 8 8 * 0x40000000 * 1000000 / s.lineRate)

/-- The limit of the retention hold in ns (R120). -/
def State.holdLimit (s : State) : Nat :=
  (s.f A.galRegion 0 8 - s.f A.galRegion 8 8) * 0x40000000 * 1000000000 / s.lineRate

/-- Guard G in ns. -/
def State.guardNs (s : State) : Nat := s.f A.routeRseqCtrl 18 10 * 1000

/-- Reference delays of a source, by route. -/
def State.drefs (s : State) (node : Nat) : List (Nat × Int) :=
  (List.range 8).filterMap (fun r => (s.delay node r).dref.map (fun d => (r, d)))

/-- Routes of a source that are in window, with their delays (R186). -/
def State.inWindow (s : State) (node : Nat) : List (Nat × Int) :=
  let ds := s.drefs node
  let dmin : Int := (ds.map (·.2)).foldl min ((ds.map (·.2)).headD 0)
  ds.filter (fun d => d.2 ≤ dmin + (s.skewUs * 1000 : Nat))

/-- D_late - D_min in ns. -/
def State.spread (s : State) (node : Nat) : Nat :=
  let ds : List Int := (s.inWindow node).map (·.2)
  (ds.foldl max (ds.headD 0) - ds.foldl min (ds.headD 0)).toNat

/-- The round-trip estimate of a peer in ns (R187). -/
def State.rttNs (s : State) (node : Nat) : Nat :=
  let win := s.inWindow node
  let fwds := win.filterMap (fun d => (s.delay node d.1).fwd)
  if win.isEmpty ∨ fwds.isEmpty then s.f A.routeTimerCtrl 24 8 * 1000000
  else fwds.foldl max 0 + ((win.map (fun d => d.2)).foldl max (0 : Int)).toNat

/-- The retention hold for a peer, and whether it is cut (R96, R120). -/
def State.lineHold (s : State) (node : Nat) : Nat × Bool :=
  let h := s.rttNs node + 2000000
  if s.holdLimit < h then (s.holdLimit, true) else (h, false)

/-! ### Control messages (R178, R179) -/

/-- A message of the route layer or the CLE with its HCRC written over the last four bytes. -/
def withHcrc (body : List Byte) : List Byte := body ++ beBytes 4 (crc32c body)

/-- Whether a message's HCRC is good. -/
def hcrcOk (msg : List Byte) : Bool :=
  decide (4 ≤ msg.length) && decide (beAt msg (msg.length - 4) 4 = crc32c (msg.take (msg.length - 4)))

def State.ctrlQueue (s : State) (p : Nat) : List CtrlCell := s.sched.ctrl.get (fun _ => []) p

/-- Puts a CONTROL cell into a port's control queue (R194). -/
def State.queueCtrl (s : State) (p : Nat) (c : CtrlCell) : State :=
  { s with sched := { s.sched with ctrl := s.sched.ctrl.put (fun _ => []) p (s.ctrlQueue p ++ [c]) } }

/-- The port on which "other messages" to a peer go: that of the smallest forward delay reported, else the lowest. -/
def State.msgPort (s : State) (e : Nat) : Option Nat :=
  let ports := (s.portsTo e).filter (fun p => s.portUsable p && s.keyed e (s.portRoute p))
  let known := ports.filterMap (fun p => (s.delay (s.peerNode e) (s.portRoute p)).fwd.map (fun d => (p, d)))
  match known with
  | [] => ports.head?
  | k :: ks => some (ks.foldl (fun b x => if x.2 < b.2 then x else b) k).1

/-- Sends a message to a peer on one usable port; with none it is not sent (log 23). -/
def State.sendMsg (s : State) (e : Nat) (msg : List Byte) : State :=
  match s.msgPort e with
  | some p => s.queueCtrl p { peer := e, node := s.peerNode e, msg := msg }
  | none => s

/-- Sends a message to the peer with a NODE_ID. -/
def State.sendMsgTo (s : State) (node : Nat) (msg : List Byte) : State :=
  match s.peerOf node with
  | some e => s.sendMsg e msg
  | none => s

/-- Sends a message on every usable port of every route to a peer (ABORT, GOING_DOWN). -/
def State.sendMsgAll (s : State) (e : Nat) (msg : List Byte) : State :=
  ((s.portsTo e).filter (fun p => s.portUsable p && s.keyed e (s.portRoute p))).foldl
    (fun s p => s.queueCtrl p { peer := e, node := s.peerNode e, msg := msg }) s

/-! ### Weighted queues (10_line_scheduler.md R194-R200) -/

/-- The queue of peer `e` on VC `v` (SCHED_QMAP). -/
def State.qmap (s : State) (e v : Nat) : Nat :=
  if v < 6 then s.f (A.schedQmapLo e) (6 * (v - 1)) 6 else s.f (A.schedQmapHi e) (6 * (v - 6)) 6

abbrev noWfq : Nat → Wfq ShardCell := fun _ => {}

def State.wfq (s : State) (r q : Nat) : Wfq ShardCell := s.sched.queues.get noWfq (r * 64 + q)
def State.setWfq (s : State) (r q : Nat) (w : Wfq ShardCell) : State :=
  { s with sched := { s.sched with queues := s.sched.queues.put noWfq (r * 64 + q) w } }

/-- The virtual time of a route. -/
def State.vtime (s : State) (r : Nat) : Nat := s.sched.vtime.get (fun _ => 0) r

/-- Bytes of a SHARD cell. -/
abbrev shardCellBytes : Nat := 8268

/-- Cost of a cell of `len` bytes in queue `q` of route `r` (R197; a WEIGHT of 0 stores 1, R199). -/
def State.cellCost (s : State) (r q len : Nat) : Nat :=
  cdiv ((len + s.f (A.schedQCfg r q) 16 8) * 65536) (max 1 (s.f (A.schedQCfg r q) 0 16))

/-- Enqueues a new shard cell at the tail (R197). -/
def State.enqueueShard (s : State) (x : ShardCell) : State :=
  let q := s.qmap x.peer x.vc
  let w := s.wfq x.route q
  let base := if w.items.isEmpty then s.vtime x.route else w.flast
  let f := (base + s.cellCost x.route q shardCellBytes) % 0x10000000000000000
  s.setWfq x.route q { items := w.items ++ [(x, f, s.mono)], flast := f }

/-- Places a re-sent shard at the head of its queue (R198). -/
def State.enqueueResent (s : State) (x : ShardCell) : State :=
  let q := s.qmap x.peer x.vc
  let w := s.wfq x.route q
  let cost := s.cellCost x.route q shardCellBytes
  match w.items with
  | [] =>
    let f := (s.vtime x.route + cost) % 0x10000000000000000
    s.setWfq x.route q { items := [(x, f, s.mono)], flast := f }
  | (y, f, t) :: rest =>
    s.setWfq x.route q { items := (x, f, s.mono) :: (y, f, t) :: rest, flast := (w.flast + cost) % 0x10000000000000000 }

/-- Whether a queue of the peer's routes for a VC is full (R200). -/
def State.queueFull (s : State) (e v : Nat) : Bool :=
  (List.range (s.peerK e + s.peerM e)).any (fun i => decide (4096 ≤ (s.wfq (s.peerRoute e i) (s.qmap e v)).items.length))

/-! ### Stripes (R175, R180-R183, R193) -/

/-- Key of a stripe stream. -/
def streamKey (node vc : Nat) : Nat := node * 8 + vc

def State.tx (s : State) (k : Nat) : TxStream := s.rte.txs.get (fun _ => {}) k
def State.setTx (s : State) (k : Nat) (x : TxStream) : State := { s with rte := { s.rte with txs := s.rte.txs.put (fun _ => {}) k x } }

/-- Data shards of a data area. -/
def dataShards (k : Nat) (area : List Byte) : List (List Byte) :=
  (List.range k).map (fun i => (area.drop (i * 8192)).take 8192)

/-- Shard `i` of a stripe. -/
def Stripe.shard (t : Stripe) (i : Nat) : List Byte :=
  if i < t.k then (t.data.drop (i * 8192)).take 8192 else rsParity (i - t.k) (dataShards t.k t.data)

/-- The cell of shard `i` of a stripe on route `r`. -/
def Stripe.cell (t : Stripe) (i r : Nat) (resent : Bool) : ShardCell :=
  { peer := t.peer, node := t.node, vc := t.vc, route := r, slot := t.slot, gen := t.gen, k := t.k, m := t.m, index := i,
    resent := resent, seq := t.seq, firstPkt := t.firstPkt, bytes := t.shard i }

/-- Which shards go on which routes (R175): usable routes of the list, then further shards until K in all; when no route
is usable, every shard on its own. -/
def State.shardPlan (s : State) (e k m : Nat) (routes : List Nat) : List (Nat × Nat) :=
  let all := routes.zipIdx.map (fun x => (x.2, x.1))
  let use := all.filter (fun x => s.routeUsable e x.2)
  if use.isEmpty then all
  else
    let extra := ((List.range (k + m)).filter (fun i => !use.any (fun x => x.1 = i))).take (k - use.length)
    use ++ extra.zipIdx.map (fun x => (x.1, (use.getD (x.2 % use.length) (0, 0)).2))

/-- The bytes of an open area from place `at0` on, cut where packets begin, with the mark of those that begin there. -/
def splitAtHeads (at0 : Nat) (bs : List Byte) (heads : List Nat) : List (List Byte × Bool) :=
  match heads with
  | [] => if bs.isEmpty then [] else [(bs, false)]
  | h :: r =>
    let n := h - at0
    let rest := match splitAtHeads h (bs.drop n) r with
      | [] => []
      | (b, _) :: t => (b, true) :: t
    if n = 0 then rest else (bs.take n, false) :: rest

/-- Closes the stripe of a stream under the slot in force (R193), pads it, numbers it, retains it and queues its shards. Bytes beyond the
slot's data area wait for the next one. -/
def State.closeStripe (s : State) (e node vc : Nat) : State :=
  let key := streamKey node vc
  let x := s.tx key
  let k := s.peerK e
  let m := s.peerM e
  let size := k * 8192
  let routes := (List.range (k + m)).map (s.peerRoute e)
  let plan := s.shardPlan e k m routes
  let t : Stripe :=
    { peer := e, node := node, vc := vc, seq := x.seq, slot := s.curSlot, gen := s.f (A.routeSlot s.curSlot) 0 8, k := k,
      m := m, routes := routes, firstPkt := ((x.heads.find? (fun h => decide (h < size))).getD 0xFFFF),
      data := x.area.take size ++ List.replicate (size - x.area.length) 0, out := plan, holdEnd := s.mono + (s.lineHold node).1 }
  let more := splitAtHeads size (x.area.drop size) (x.heads.filter (fun h => decide (size ≤ h)))
  let s := s.setTx key { x with seq := (x.seq + 1) % 0x100000000, area := [], heads := [], waiting := more ++ x.waiting }
  let s := { s with rte := { s.rte with retained := s.rte.retained ++ [t] } }
  let s := if s.routeUsable e (routes.headD 0) ∨ plan.any (fun i => s.keyed e i.2) then s
           else s.bumpBy (A.secCnt 8) plan.length
  plan.foldl (fun s i => s.enqueueShard (t.cell i.1 i.2 false)) s

/-- Moves waiting bytes of a stream into stripes, closing those that fill; a full queue holds the stream (R200). -/
def State.feed (s : State) (e node vc fuel : Nat) : State :=
  match fuel with
  | 0 => s
  | n + 1 =>
    let key := streamKey node vc
    let x := s.tx key
    let size := s.peerK e * 8192
    if size ≤ x.area.length then
      if s.queueFull e vc then (s.setTx key { x with held := true }).bumpIf (!x.held) (A.schedCnt 2)
      else ((s.setTx key { x with held := false }).closeStripe e node vc).feed e node vc n
    else
      match x.waiting with
      | [] => s
      | (bs, starts) :: rest =>
        let room := size - x.area.length
        let heads := if starts then x.heads ++ [x.area.length] else x.heads
        let left := bs.drop room
        let y : TxStream :=
          { x with area := x.area ++ bs.take room, heads := heads,
                   openedAt := if x.area.isEmpty then s.mono else x.openedAt,
                   waiting := if left.isEmpty then rest else (left, false) :: rest }
        (s.setTx key y).feed e node vc n

/-- Fuel for `feed`: every waiting packet, and every 8,192 bytes of them. -/
def State.feedFuel (s : State) (key : Nat) : Nat :=
  2 * ((s.tx key).waiting.length + ((s.tx key).waiting.map (fun w => w.1.length / 8192 + 1)).sum +
       (s.tx key).heads.length + (s.tx key).area.length / 8192) + 4

/-- A packet's 8-byte header and bytes (R181). -/
def linePacket (ptype : Nat) (bytes : List Byte) : List Byte :=
  beBytes 1 ptype ++ [0, 0, 0] ++ beBytes 4 bytes.length ++ bytes

/-- Sends a packet to the gateway `node` on a line VC; without a valid peer entry nothing is sent. -/
def State.sendLine (s : State) (node vc ptype : Nat) (bytes : List Byte) : State :=
  match s.peerOf node with
  | none => s
  | some e =>
    let key := streamKey node vc
    let x := s.tx key
    let s := s.setTx key { x with waiting := x.waiting ++ [(linePacket ptype bytes, true)] }
    s.feed e node vc (s.feedFuel key)

/-! ### Withdrawal (10_line_scheduler.md R201) -/

/-- Updates a retained stripe. -/
def State.setStripe (s : State) (t : Stripe) : State :=
  { s with rte := { s.rte with retained := updFirst (fun x => x.node = t.node ∧ x.vc = t.vc ∧ x.seq = t.seq)
                                             (fun _ => t) s.rte.retained } }

def State.findStripe (s : State) (node vc seq : Nat) : Option Stripe :=
  s.rte.retained.find? (fun x => x.node = node ∧ x.vc = vc ∧ x.seq = seq)

/-- Deals with one withdrawn shard: queued again when its stripe needs it, else discarded. -/
def State.placeWithdrawn (s : State) (x : ShardCell) : State :=
  match s.findStripe x.node x.vc x.seq with
  | none => s
  | some t =>
    let out := t.out.filter (fun o => !(o.1 = x.index && o.2 = x.route))
    let good := out.filter (fun o => s.routeUsable x.peer o.2)
    let use := s.usableRoutes x.peer
    if good.length < t.k ∧ use ≠ [] then
      let r := use.getD (good.length % use.length) 0
      ((s.setStripe { t with out := out ++ [(x.index, r)] }).enqueueShard { x with route := r }).bump (A.schedCnt 1)
    else s.setStripe { t with out := out }

/-- Withdraws from a queue of a route the cells of peers towards which the route has become unusable. -/
def State.withdrawQueue (s : State) (r q : Nat) : State :=
  let w := s.wfq r q
  let gone := fun (x : ShardCell) => !s.routeUsable x.peer r && !(s.usableRoutes x.peer).isEmpty
  let out := (w.items.map (·.1)).filter gone
  if out.isEmpty then s
  else
    let kept := w.items.filter (fun i => !gone i.1)
    let flast := (kept.getLast?.map (fun i => i.2.1)).getD 0
    let unkeyed := (out.filter (fun x => !s.keyed x.peer r)).length
    let s := s.setWfq r q { items := kept, flast := flast }
    let s := (s.bumpBy (A.schedCnt 0) out.length).bumpBy (A.secCnt 8) unkeyed
    out.foldl (fun s x => s.placeWithdrawn x) s

/-- Applies R201 to every queue, after a change of any port's or key's state. -/
def State.withdraw (s : State) : State :=
  s.sched.queues.foldl (fun s e => s.withdrawQueue (e.1 / 64) (e.1 % 64)) s

/-- Sends on what held streams wait with, after a queue has gained room or a stripe may be closed again (R200). -/
def State.feedAll (s : State) : State :=
  s.rte.txs.foldl (fun s x =>
    match s.peerOf (x.1 / 8) with
    | some e => if x.2.waiting.isEmpty && !x.2.held then s else s.feed e (x.1 / 8) (x.1 % 8) (s.feedFuel x.1)
    | none => s) s

end Sys2Proof.Machine
end

