-- ==== Sys2Proof/Machine/Groups.lean ====
section
/-! DEFINITION. Group tables: reading, the refusal reasons of COMMIT, and what a gateway knows from its group
(04_collectives_and_flights.md R81-R84, R384). -/
namespace Sys2Proof.Machine

/-! ### Reading a table -/

/-- Header `g` of the table at an offset of the working region. -/
def State.groupHeader (s : State) (table g : Nat) : List Byte := s.galRead (s.workBase + table + g * 64) 64

/-- Bytes of entry `i` of the member array. -/
def State.memberBytes (s : State) (table i : Nat) : List Byte := s.galRead (s.workBase + table + 0x40000 + i * 16) 16

/-- A member entry. -/
def memberOf (bs : List Byte) : Member :=
  { node := leAt bs 0 4, contributor := nfld (leAt bs 4 1) 0 1 = 1, site := leAt bs 5 1, link := nfld (leAt bs 6 2) 0 10 }

def headerValid (h : List Byte) : Bool := nfld (leAt h 0 1) 0 1 = 1
def headerCount (h : List Byte) : Nat := nfld (leAt h 2 2) 0 11
def headerFirst (h : List Byte) : Nat := leAt h 4 4

/-- The group that a header and a table give. -/
def State.groupOf (s : State) (table : Nat) (h : List Byte) : Group :=
  { partition := nfld (leAt h 0 1) 1 1 = 1, localLeaf := nfld (leAt h 0 1) 2 1 = 1, vc := nfld (leAt h 1 1) 0 3,
    resendMax := nfld (leAt h 8 1) 0 4, progressUs := leAt h 12 4,
    members := (List.range (headerCount h)).map (fun i => memberOf (s.memberBytes table (headerFirst h + i))) }

/-- Group `g` of the effective table, when it is present. -/
def State.effectiveGroup (s : State) (g : Nat) : Option Group :=
  let h := s.groupHeader areaEffective g
  if headerValid h then some (s.groupOf areaEffective h) else none

/-- The first unreadable codeword of group `g` in a table (06_gallery.md R125, code 0x6). -/
def State.groupPoison (s : State) (table g : Nat) : Option Nat :=
  match s.firstPoison (s.workBase + table + g * 64) 64 with
  | some cw => some cw
  | none =>
    let h := s.groupHeader table g
    if headerValid h then s.firstPoison (s.workBase + table + 0x40000 + headerFirst h * 16) (headerCount h * 16) else none

/-! ### What the member list says -/

/-- Slots with their members. -/
def Group.slots (g : Group) : List (Nat × Member) := g.members.zipIdx.map (fun m => (m.2, m.1))

/-- Slots of the gateway members, ascending. -/
def Group.gateways (g : Group) : List Nat := (g.slots.filter (fun m => !m.2.contributor)).map (·.1)

def Group.member (g : Group) (x : Nat) : Member := g.members.getD x { node := 0, contributor := true, site := 256, link := 0 }

def Group.isGateway (g : Group) (x : Nat) : Bool := decide (x < g.members.length) && !(g.member x).contributor

def Group.site (g : Group) (x : Nat) : Nat := (g.member x).site
/-- Flight 1 rank of a gateway. -/
def Group.rank (g : Group) (x : Nat) : Nat := (g.member x).link % 16

/-- Slots of the contributors that supply gateway `x`. -/
def Group.contributors (g : Group) (x : Nat) : List Nat :=
  (g.slots.filter (fun m => m.2.contributor && decide (m.2.link = x))).map (·.1)

/-- Gateways at a site. -/
def Group.atSite (g : Group) (t : Nat) : List Nat := g.gateways.filter (fun x => g.site x = t)

/-- Sites with gateways. -/
def Group.sites (g : Group) : List Nat := (g.gateways.map g.site).eraseDups

/-- N1 of gateway `x`. -/
def Group.n1 (g : Group) (x : Nat) : Nat := (g.atSite (g.site x)).length

def Group.peers (g : Group) (x : Nat) : List Nat := (g.atSite (g.site x)).filter (fun y => y ≠ x)

/-- Counterparts: gateways at other sites with the same rank. -/
def Group.counterparts (g : Group) (x : Nat) : List Nat := g.gateways.filter (fun y => g.site y ≠ g.site x ∧ g.rank y = g.rank x)

/-- The owner of chunk `c` at a site: the gateway of rank `c` mod N1. -/
def Group.owner (g : Group) (t c : Nat) : Option Nat :=
  let gs := g.atSite t
  gs.find? (fun x => g.rank x = c % gs.length)

/-- The slot of the gateway with a NODE_ID. -/
def Group.slotOf (g : Group) (node : Nat) : Option Nat := g.gateways.find? (fun x => (g.member x).node = node)

/-- Flight 0 members that supply chunk `c` at gateway `x` (R85). -/
def Group.suppliers (g : Group) (x c : Nat) : List Nat :=
  let cs := g.contributors x
  if g.partition then (if cs.isEmpty then [] else [cs.getD (c % cs.length) 0]) else cs

/-- The `a` of R84 for gateway `x`. -/
def Group.flight0Leaves (g : Group) (x : Nat) : Nat :=
  let n := (g.contributors x).length
  if g.partition then min 1 n else n

/-- Leaves that gateway `x` contributes per chunk. -/
def Group.leavesOf (g : Group) (x : Nat) : Nat := g.flight0Leaves x + b2n g.localLeaf

/-- The expected leaf count (R84). -/
def Group.expected (g : Group) : Nat := (g.gateways.map g.leavesOf).sum

/-- Whether any gateway of a site gives leaves (R384). -/
def Group.siteGives (g : Group) (t : Nat) : Bool := (g.atSite t).any (fun x => decide (0 < g.leavesOf x))

/-! ### Refusal reasons (R83) -/

/-- Whether a reserved bit is set in a header or a member entry, or LINE_VC is 0 (reason 0x11). -/
def headerReservedBad (h : List Byte) : Bool :=
  decide (nfld (leAt h 0 1) 3 5 ≠ 0) || decide (nfld (leAt h 1 1) 3 5 ≠ 0) || decide (nfld (leAt h 2 2) 11 5 ≠ 0) ||
  decide (nfld (leAt h 8 1) 4 4 ≠ 0) || decide (leAt h 9 3 ≠ 0) || decide (leAt h 16 48 ≠ 0) || decide (nfld (leAt h 1 1) 0 3 = 0)

def memberReservedBad (bs : List Byte) : Bool :=
  decide (nfld (leAt bs 4 1) 1 7 ≠ 0) || decide (nfld (leAt bs 6 2) 10 6 ≠ 0) || decide (leAt bs 8 8 ≠ 0) ||
  (decide (nfld (leAt bs 4 1) 0 1 = 0) && decide (nfld (leAt bs 6 2) 4 6 ≠ 0))

/-- Whether a list holds a value twice. -/
def hasDup (l : List Nat) : Bool :=
  match l with
  | [] => false
  | x :: r => r.contains x || hasDup r

/-- The lowest refusal reason of a VALID header, 0 for none. -/
def State.headerReason (s : State) (table : Nat) (h : List Byte) : Nat :=
  let n := headerCount h
  if n = 0 ∨ 1024 < n ∨ 262144 < headerFirst h + n then 0x10
  else
    let raws := (List.range n).map (fun i => s.memberBytes table (headerFirst h + i))
    let g := s.groupOf table h
    let gs := g.gateways
    let sites := g.sites
    let n1 := (g.atSite (sites.headD 0)).length
    if headerReservedBad h || raws.any memberReservedBad then 0x11
    else if hasDup (g.members.map (·.node)) then 0x12
    else if 16 < sites.length ∨ sites.any (fun t => decide (16 < (g.atSite t).length)) then 0x13
    else if sites.any (fun t => decide ((g.atSite t).length ≠ n1) ||
        !(List.range n1).all (fun r => (g.atSite t).any (fun x => decide (g.rank x = r)))) then 0x14
    else if g.slots.any (fun m => m.2.contributor && !(g.isGateway m.2.link && decide (g.site m.2.link = m.2.site))) then 0x15
    else if gs.any (fun x => decide (32 < (g.contributors x).length)) then 0x16
    else if g.partition && !g.localLeaf && gs.any (fun x => (g.contributors x).isEmpty) then 0x17
    else if (1 ≤ g.progressUs ∧ g.progressUs < 1000) ∨ 60000000 < g.progressUs then 0x18
    else 0

/-- The refused groups of the staged table: reason and group. -/
def State.groupRefusals (s : State) : List (Nat × Nat) :=
  (List.range 4096).filterMap (fun g =>
    let h := s.groupHeader areaStaged g
    if headerValid h then (let r := s.headerReason areaStaged h; if r = 0 then none else some (r, g)) else none)

/-- Makes a table the effective one (R81): the bytes listed, by their offset in it. -/
def State.installGroups (s : State) (table : Sparse Byte) : State :=
  let a := s.workBase + areaEffective
  { s with gallery := table.foldl (fun m e => m.put zeroByte (a + e.1) e.2) (eraseRange s.gallery a tableBytes),
           gal := { s.gal with poison := s.gal.poison.filter (fun e => !(decide (a ≤ e.1 * 64) && decide (e.1 * 64 < a + tableBytes))) } }

/-! ### This gateway's place -/

/-- This gateway's member slot in a group. -/
def State.mySlot (s : State) (g : Group) : Option Nat := g.slotOf s.nodeId

/-- T_abort in us of a group at this gateway (R100). -/
def State.tabortUs (s : State) (g : Nat) : Nat :=
  match s.effectiveGroup g with
  | none => 2000
  | some gr =>
    match s.mySlot gr with
    | none => 2000
    | some me =>
      let far := gr.gateways.filter (fun x => gr.site x ≠ gr.site me)
      let delays := far.flatMap (fun x =>
        let ds := (s.drefs (gr.member x).node).map (·.2.toNat)
        if ds.isEmpty then [s.f A.routeTimerCtrl 24 8 * 500000] else ds)
      2000 + openDiv (delays.foldl max 0) 1000

end Sys2Proof.Machine
end

