-- ==== Sys2Proof/Machine/Flights.lean ====
section
/-! DEFINITION. The data path of every opcode for one chunk at one gateway, the input streams of an instance and its
reservation (04_collectives_and_flights.md R85-R88, R91, R384; 05_landing.md R111, R115). -/
namespace Sys2Proof.Machine

/-! ### An open instance's descriptor -/

def Inst.desc (x : Inst) : Desc := x.entry.desc
def Inst.op (x : Inst) : Nat := x.desc.opcode
/-- The instance number; for a VSTEP its queue entry index (02_reduction_arithmetic.md R40). -/
def Inst.number (x : Inst) : Nat := if x.op = 0x20 then x.entry.index else x.desc.inst
def Inst.wide (x : Inst) : Bool := x.desc.wide
def Inst.mySite (x : Inst) : Nat := x.group.site x.self
def Inst.nodeOf (x : Inst) (slot : Nat) : Nat := (x.group.member slot).node

/-- Whether a member is reached over the line: a gateway at another site. -/
def Inst.overLine (x : Inst) (slot : Nat) : Bool := x.group.isGateway slot && decide (x.group.site slot ≠ x.mySite)

/-- Opcodes that carry chunks without arithmetic: ALLGATHER, BROADCAST, SEND, RECV. -/
def opCarries (op : Nat) : Bool := [0x03, 0x04, 0x08, 0x09].contains op

/-- Chunks of one operand. -/
def Inst.segChunks (x : Inst) : Nat := if x.op = 0x0A then 0 else chunkCount x.desc.inFmt x.desc.elements

/-- Chunk indices of the instance (R86). -/
def Inst.chunkTotal (x : Inst) : Nat :=
  if x.op = 0x03 then x.group.gateways.length * x.segChunks else x.segChunks

/-- Elements of chunk `c`. -/
def Inst.elems (x : Inst) (c : Nat) : Nat := chunkElems x.desc.inFmt x.desc.elements (c % max 1 x.segChunks)

def Inst.chunk (x : Inst) (c : Nat) : Chunk := x.chunks.get (fun _ => {}) c
def Inst.setChunk (x : Inst) (c : Nat) (k : Chunk) : Inst := { x with chunks := x.chunks.put (fun _ => {}) c k }
def Inst.isDone (x : Inst) (c : Nat) : Bool := x.done.contains c

/-! ### The data path of a chunk (R85) -/

/-- What happens to a chunk at this gateway. -/
structure Plan where
  /-- Slots whose inputs are reduced into this gateway's partial; its own slot for the local leaf, or for data that it
  reads at LOCAL_ADDR. -/
  ins1 : List Nat := []
  /-- Slots to which its partial goes. -/
  out1 : List Nat := []
  /-- Slots of the counterparts whose partials are reduced with it. -/
  ins2 : List Nat := []
  /-- Slots to which the final result goes. -/
  out2 : List Nat := []
  /-- This gateway makes the final result. -/
  final : Bool := false
  deliver : Bool := false
  /-- The gateway that produces the awaited result, and the one that sends it here. -/
  wait : Option Nat := none
  via : Option Nat := none
  /-- Slots to which an awaited result is passed on. -/
  forward : List Nat := []
  deriving DecidableEq, Repr

/-- Leaves of chunk `c` at this gateway: suppliers and its own slot for the local leaf. -/
def Inst.leafSlots (x : Inst) (c : Nat) : List Nat :=
  x.group.suppliers x.self c ++ (if x.group.localLeaf then [x.self] else [])

/-- Whether a counterpart sends a partial of the chunk (R384). -/
def Inst.counterpartGives (x : Inst) (y : Nat) : Bool :=
  if x.op = 0x06 ∨ x.op = 0x07 then decide (0 < x.group.leavesOf y) else x.group.siteGives (x.group.site y)

/-- The plan of a reducing opcode, STEP or NORM. -/
def Inst.planReduce (x : Inst) (c : Nat) : Plan :=
  let g := x.group
  let me := x.self
  let own := decide (x.op = 0x06) || decide (x.op = 0x07)
  let o := if own then me else (g.owner x.mySite c).getD me
  let leaves := x.leafSlots c
  if me ≠ o then
    let back := decide (x.op = 0x01) || (decide (x.op = 0x05) && decide (x.desc.aux = me))
    { ins1 := leaves, out1 := if leaves.isEmpty then [] else [o], deliver := back,
      wait := if back then some o else none, via := if back then some o else none }
  else
    let ins1 := leaves ++ (if own then [] else (g.peers me).filter (fun y => decide (0 < g.leavesOf y)))
    let cps := g.counterparts me
    let ins2 := cps.filter x.counterpartGives
    if x.op = 0x05 ∧ g.site x.desc.aux ≠ x.mySite then
      { ins1 := ins1, out1 := if ins1.isEmpty then [] else ((g.owner (g.site x.desc.aux) c).map (fun y => [y])).getD [] }
    else if x.op = 0x05 then
      { ins1 := ins1, ins2 := ins2, final := true, deliver := decide (x.desc.aux = me),
        out2 := if x.desc.aux = me then [] else [x.desc.aux] }
    else
      { ins1 := ins1, out1 := if ins1.isEmpty then [] else cps, ins2 := ins2, final := true,
        out2 := if x.op = 0x01 then g.peers me else [], deliver := decide (x.op ≠ 0x07) }

/-- The plan of BROADCAST. -/
def Inst.planBroadcast (x : Inst) (c : Nat) : Plan :=
  let g := x.group
  let me := x.self
  let root := x.desc.aux
  let o := (g.owner x.mySite c).getD me
  if me = root then
    let src := if g.partition && !(g.contributors me).isEmpty then g.suppliers me c else [me]
    let far := (g.sites.filter (fun t => t ≠ x.mySite)).filterMap (fun t => g.owner t c)
    { ins1 := src, final := true, deliver := true, out2 := far ++ (if o = me then g.peers me else [o]) }
  else if o = me then
    { wait := some root, via := some root, deliver := true, forward := (g.peers me).filter (fun y => y ≠ root) }
  else
    { wait := some root, via := some o, deliver := true }

/-- The plan of ALLGATHER: chunk `c` belongs to the segment of gateway number `c` / chunks in ascending slot order. -/
def Inst.planAllgather (x : Inst) (c : Nat) : Plan :=
  let g := x.group
  let me := x.self
  let p := g.gateways.getD (c / max 1 x.segChunks) me
  if p = me then { ins1 := [me], final := true, deliver := true, out2 := g.peers me ++ g.counterparts me }
  else if g.site p = x.mySite then { wait := some p, via := some p, deliver := true }
  else if g.rank p = g.rank me then { wait := some p, via := some p, deliver := true, forward := g.peers me }
  else { wait := some p, via := (g.peers me).find? (fun y => g.rank y = g.rank p), deliver := true }

/-- The plan of chunk `c` (R85). -/
def Inst.plan (x : Inst) (c : Nat) : Plan :=
  if x.op = 0x04 then x.planBroadcast c
  else if x.op = 0x03 then x.planAllgather c
  else if x.op = 0x08 then { ins1 := [x.self], final := true, out2 := [x.desc.aux] }
  else if x.op = 0x09 then { wait := some x.desc.aux, via := some x.desc.aux, deliver := true }
  else if x.op = 0x0A then {}
  else x.planReduce c

/-- A chunk for which nothing is to be received, read or sent here. -/
def Plan.empty (p : Plan) : Bool := p.ins1.isEmpty && p.ins2.isEmpty && p.wait.isNone

/-- Slots to which this gateway sends something of the chunk. -/
def Plan.outs (p : Plan) : List Nat := p.out1 ++ p.out2 ++ p.forward

/-- Whether this gateway reads its own memory for the chunk. -/
def Inst.readsLocal (x : Inst) (c : Nat) : Bool := (x.plan c).ins1.contains x.self

/-- Slots from which chunk `c` comes to this gateway over the fabric (R115). -/
def Inst.fabricInputs (x : Inst) (c : Nat) : List Nat :=
  let p := x.plan c
  (p.ins1.filter (fun y => y ≠ x.self)) ++
    (match p.via with
     | some v => if x.overLine v then [] else [v]
     | none => [])

/-- Every fabric source of the instance. -/
def Inst.fabricSources (x : Inst) : List Nat :=
  ((List.range x.chunkTotal).flatMap x.fabricInputs).eraseDups

/-- Site peers and counterparts to which the instance sends something, or from which it takes something, over the line. -/
def Inst.lineTargets (x : Inst) : List Nat :=
  (((List.range x.chunkTotal).flatMap (fun c => (x.plan c).outs)).filter x.overLine ++
    (if x.op = 0x0A then x.group.counterparts x.self else [])).eraseDups

/-- The expected leaf count of a final result: of the group, and for a NORM of this gateway and its counterparts. -/
def Inst.finalLeaves (x : Inst) : Nat :=
  if x.op = 0x07 then ((x.self :: x.group.counterparts x.self).map x.group.leavesOf).sum else x.group.expected

/-! ### Streams, reservation and spill window (R111, R115) -/

/-- Input streams of an instance for its reservation. -/
def Inst.streams (x : Inst) : Nat :=
  if x.op = 0x08 ∨ x.op = 0x09 then 1
  else if x.op = 0x0A then 0
  else
    let g := x.group
    let n0 := (g.contributors x.self).length
    (if g.partition then min 1 n0 else n0) + b2n g.localLeaf + (g.n1 x.self - 1) + (g.counterparts x.self).length

/-- 64 KiB requests of one vector register. -/
def segmentsOf (inFmt : Nat) (wide : Bool) : Nat :=
  cdiv ((layoutOf inFmt).full * (if wide then 8 else 4)) 65536

/-- Requests of a reservation (R111). -/
def reservationSize (streams foot inFmt : Nat) (wide : Bool) : Nat := 4 * streams + 4 * foot * segmentsOf inFmt wide

/-- Footprint of an instance. -/
def Inst.foot (x : Inst) : Nat :=
  if x.op = 0x06 then footprint (x.prog.code x.desc)
  else if opReduces x.op then 1 else 0

/-- The largest number of fabric inputs that any chunk has at this gateway, at least 1 (R115). -/
def Inst.maxFabric (x : Inst) : Nat :=
  ((List.range x.chunkTotal).map (fun c => (x.fabricInputs c).length)).foldl max 1

/-- The lowest chunk that is not complete. -/
def Inst.lowest (x : Inst) : Nat := ((List.range x.chunkTotal).find? (fun c => !x.isDone c)).getD x.chunkTotal

/-- Whether the chunk of a fabric source has been received with a good check. -/
def Inst.received (x : Inst) (c slot : Nat) : Bool :=
  let k := x.chunk c
  k.got.contains slot || k.finished || (k.carried.isSome && (decide ((x.plan c).via = some slot) || opCarries x.op))

/-- The chunks that a fabric source has still to send, ascending. -/
def Inst.outstanding (x : Inst) (slot : Nat) : List Nat :=
  (List.range x.chunkTotal).filter (fun c => (x.fabricInputs c).contains slot && !x.received c slot && !x.isDone c)

/-- LIMIT for a fabric source (13_fabric_links_and_concourse.md R251). -/
def Inst.limitFor (x : Inst) (slot : Nat) : Nat :=
  if x.spilled then min x.chunkTotal (x.lowest + 64 / x.maxFabric)
  else
    match (x.outstanding slot).take 4 with
    | [] => (x.granted.get (fun _ => 0) slot)
    | o :: os => os.getLastD o + 1

end Sys2Proof.Machine
end

