-- ==== Sys2Proof/Machine/ChunkMath.lean ====
section
/-! DEFINITION. The arithmetic on one chunk of an instance: accumulation, the intermediate partial, the final result with
its step program and casts (02_reduction_arithmetic.md R33-R37, R39-R45; 03_command_lists_and_step_programs.md R76-R80;
04_collectives_and_flights.md R91). -/
namespace Sys2Proof.Machine

/-! ### Accumulation (R24, R33-R35) -/

/-- One contribution's element into one accumulator that holds another. A partial of SUM_SQ is added. -/
def combineOne (w : Bool) (op : Nat) (leaf : Bool) (a x : Nat) : Nat × Nat :=
  if op = 2 then (fMax w a x, 0)
  else if op = 3 then (fMin w a x, 0)
  else if op = 1 ∧ leaf = true then fFma w x x a
  else fAdd w a x

/-- The first contribution of a chunk: written into the accumulator after decoding, squared for a leaf of SUM_SQ. -/
def firstOne (w : Bool) (op : Nat) (leaf : Bool) (x : Nat) : Nat × Nat :=
  if op = 1 ∧ leaf = true then fFma w x x 0 else (x, 0)

/-- A contribution into an accumulator; an empty accumulator takes it as its first. -/
def combine (w : Bool) (op : Nat) (leaf : Bool) (acc xs : List Nat) : List Nat × Nat :=
  if acc.isEmpty then gather (xs.map (firstOne w op leaf))
  else gather (List.zipWith (combineOne w op leaf) acc xs)

/-- Whether a slot's contribution is a leaf: a fabric contributor's, or the local leaf. -/
def Inst.isLeaf (x : Inst) (slot : Nat) : Bool := !x.group.isGateway slot || decide (slot = x.self)

/-- Format of the contribution of a slot: the input format for a leaf, else the partial format (R36). -/
def Inst.inputFmt (x : Inst) (slot : Nat) : Nat := if x.isLeaf slot then x.desc.inFmt else x.desc.partFmt

/-- Format of the results of the instance. -/
def Inst.resultFmt (x : Inst) : Nat := if opUsesOut x.op then x.desc.outFmt else x.desc.inFmt

/-- Takes a winning contribution into the accumulator of chunk `c`. -/
def Inst.accumulate (x : Inst) (c slot leaves : Nat) (data : List Byte) : Inst :=
  let k := x.chunk c
  let (xs, f) := decodeElems x.wide (x.inputFmt slot) (x.elems c) data
  let (acc, g) := combine x.wide x.desc.redOp (x.isLeaf slot) k.acc xs
  { x.setChunk c { k with acc := acc, leaves := k.leaves + leaves, got := k.got ++ [slot] } with
    flags := orF x.flags (orF f g) }

/-! ### The intermediate partial (R37) -/

/-- The intermediate partial of chunk `c` from an accumulator, and its flags. -/
def Inst.partialOut (x : Inst) (c leaves : Nat) (acc : List Nat) : OutSet × Nat :=
  let d := x.desc
  let q := castElems x.wide d.partFmt d.partSat (castRnd (d.partEn && d.partSr) x.key x.number c 69) acc
  ({ isPartial := true, leaves := leaves, fmt := d.partFmt, data := q.elems }, q.flags)

/-! ### The final result -/

/-- A list in the order that a number picks. -/
def permute {α : Type} (k fuel : Nat) (l : List α) : List α :=
  match fuel with
  | 0 => l
  | n + 1 =>
    match l[k % l.length]? with
    | none => []
    | some x => x :: permute (k / l.length) n (l.take (k % l.length) ++ l.drop (k % l.length + 1))

/-- Combines partials one after another. -/
def combineAll (w : Bool) (op : Nat) (acc : List Nat) (ps : List (List Nat)) : List Nat × Nat :=
  ps.foldl (fun a p => let r := combine w op false a.1 p; (r.1, orF a.2 r.2)) (acc, 0)

/-- The partials that meet in the final computation of chunk `c`: this gateway's own, as it was sent or still in its
accumulator, and those of the counterparts; leaves, elements and flags. -/
def Inst.finalInputs (x : Inst) (c : Nat) : List (Nat × List Nat × Nat) :=
  let k := x.chunk c
  let dec (d : List Byte) : List Nat × Nat := decodeElems x.wide x.desc.partFmt (x.elems c) d
  let own : List (Nat × List Nat × Nat) :=
    match k.own with
    | some (l, d) => [(l, dec d)]
    | none => if k.acc.isEmpty then [] else [(k.leaves, k.acc, 0)]
  own ++ k.waiting.map (fun p => (p.2.1, dec p.2.2))

/-- The reduced operand of chunk `c`, combined in the order that draw `k` picks: leaves, accumulator, flags (R33, R35). -/
def Inst.reduced (x : Inst) (c k : Nat) : Nat × List Nat × Nat :=
  let ps := x.finalInputs c
  let leaves := (ps.map (·.1)).sum
  let f := ps.foldl (fun f p => orF f p.2.2) 0
  let (acc, g) := combineAll x.wide x.desc.redOp [] (permute (Config.combineOrder k) ps.length (ps.map (·.2.1)))
  if x.desc.redOp = 4 then
    let (avg, h) := gather (acc.map (fun a => fAvg x.wide a leaves))
    (leaves, avg, orF f (orF g h))
  else (leaves, acc, orF f g)

/-- Gallery address of the state of chunk `c` in array `k`. -/
def Inst.stateAt (x : Inst) (c k : Nat) : Nat :=
  x.desc.stateAddr + k * stateStride x.desc + c * (layoutOf x.desc.inFmt).full * fmtBytes x.desc.stateFmt

/-- Bytes of the state of chunk `c` in one array. -/
def Inst.stateLen (x : Inst) (c : Nat) : Nat := x.elems c * fmtBytes x.desc.stateFmt

/-- What a program runs in for chunk `c`. -/
def Inst.env (x : Inst) (c : Nat) : PEnv :=
  { wide := x.wide, scalars := x.prog.scalarList, key := x.key, inst := x.number, chunk := c, n := x.elems c }

/-- What a step program leaves of a chunk: the update, the state arrays written, the sums of squares, the flags. -/
structure StepOut where
  update : Cast
  state : List (Nat × Cast)
  sum : Option Nat
  flags : Nat
  deriving DecidableEq, Repr

/-- Runs the step program of chunk `c` on its operand (R78-R80), with the casts of update and state (R29, R41). -/
def State.runProgram (s : State) (x : Inst) (c : Nat) (acc : List Nat) : StepOut :=
  let d := x.desc
  let is := x.prog.code d
  let loads := (stateRead is).map (fun k => (k + 1, decodeElems x.wide d.stateFmt (x.elems c) (s.galRead (x.stateAt c k) (x.stateLen c))))
  let regs : Sparse (List Nat) := loads.foldl (fun m l => m.insert l.1 l.2.1) [(0, acc)]
  let p := PState.run { regs := regs, flags := loads.foldl (fun f l => orF f l.2.2) 0 } (x.env c) 0 is
  let u := castElems x.wide d.outFmt d.outSat (castRnd d.outSr x.key x.number c 64) (p.regs.get (fun _ => []) 8)
  let st := (stateWritten is).map (fun k =>
    (x.stateAt c k, castElems x.wide d.stateFmt d.stateSat (castRnd d.stateSr x.key x.number c (65 + k)) (p.regs.get (fun _ => []) (k + 1))))
  { update := u, state := st, sum := if p.sums.isEmpty then none else some (p.sums.foldl (fun a y => (fAdd x.wide a y).1) 0),
    flags := st.foldl (fun f w => orF f w.2.flags) (orF p.flags u.flags) }

/-- The final result of chunk `c` from its reduced operand. -/
def State.finalOut (s : State) (x : Inst) (c leaves : Nat) (acc : List Nat) : OutSet × Nat :=
  let d := x.desc
  if opSteps x.op then
    let r := s.runProgram x c acc
    ({ isPartial := false, leaves := leaves, fmt := d.outFmt, data := r.update.chunk d.outFmt (x.elems c),
       writes := r.state.map (fun w => (w.1, w.2.elems)), norm := r.sum }, r.flags)
  else if x.op = 0x07 then
    let r := fNorm2 x.wide acc
    ({ isPartial := false, leaves := leaves, fmt := d.inFmt, data := [], norm := some r.1 }, r.2)
  else
    let q := castElems x.wide d.outFmt d.outSat (castRnd d.outSr x.key x.number c 64) acc
    ({ isPartial := false, leaves := leaves, fmt := d.outFmt, data := q.chunk d.outFmt (x.elems c) }, q.flags)

/-- The faults that a run of the lanes makes: elements and the bits of their accumulators that come out wrong. -/
def withFaults (faults : List (Nat × Nat)) (acc : List Nat) : List Nat :=
  acc.zipIdx.map (fun a => (faults.filter (fun f => f.1 = a.2)).foldl (fun v f => Nat.xor v f.2) a.1)

end Sys2Proof.Machine
end

