-- ==== Sys2Proof/Machine/LandingOps.lean ====
section
/-! DEFINITION. The Landing's banks, pools, allocation and reservations (05_landing.md R104-R113). -/
namespace Sys2Proof.Machine

/-! ### Geometry -/

/-- Size of a buffer of pool `p` in units of 4 KiB (R104). -/
def pool4K (p : Nat) : Nat := 4 ^ p

/-- Buffers of pool `p` in one bank. -/
def poolPerBank (p : Nat) : Nat := 64 / pool4K p

/-- The smallest pool whose buffers hold `size` bytes; 4 when none does. -/
def smallestFit (size : Nat) : Nat :=
  if size ≤ 4096 then 0 else if size ≤ 16384 then 1 else if size ≤ 65536 then 2 else if size ≤ 262144 then 3 else 4

/-- The owner classes (R109). -/
abbrev clsRes : Nat := 0
abbrev clsMsg : Nat := 1
abbrev clsVstep : Nat := 2
abbrev clsXfe : Nat := 3
abbrev clsArq : Nat := 7
abbrev clsCmp : Nat := 10
abbrev clsMc : Nat := 14

/-- Reserved minimum of class `c` in pool `p`, from LND_MIN_A and LND_MIN_B as read by `rd`. -/
def minOf (rd : Nat → Word) (c p : Nat) : Nat :=
  fld (if p < 2 then rd (A.lndMinA c) else rd (A.lndMinB c)) (16 * (p % 2)) 14

/-- Effective minimum of class `c` in pool `p`. -/
def State.lndMin (s : State) (c p : Nat) : Nat := minOf s.reg c p

/-- Bank count of pool `p` in LND_POOL_BANKS. -/
def poolBanks (w : Word) (p : Nat) : Nat := fld w (8 * p) 8

/-! ### What is in use -/

/-- Free buffers of a bank that can be allocated from pool `p`: by number bank * 64 + index (R107). -/
def Bank.freeOf (b : Bank) (n p : Nat) : List Nat :=
  if b.pool = some p ∧ b.moving = false then
    ((List.range (poolPerBank p)).filter (fun i => !b.used.any (fun u => u.1 = i))).map (fun i => n * 64 + i)
  else []

/-- Free buffers of pool `p` that can be allocated. -/
def State.lndFree (s : State) (p : Nat) : List Nat :=
  ((s.lnd.banks.zipIdx).map (fun b => b.1.freeOf b.2 p)).flatten

/-- Buffers of pool `p` in the effective geometry (LND_POOL_STATUS.TOTAL). -/
def State.lndTotal (s : State) (p : Nat) : Nat :=
  (s.lnd.banks.filter (fun b => b.pool = some p)).length * poolPerBank p

/-- Buffers of pool `p` that class `c` holds. -/
def State.lndUsed (s : State) (c p : Nat) : Nat :=
  ((s.lnd.banks.filter (fun b => b.cut = p)).map (fun b => (b.used.filter (fun u => u.2 = c)).length)).sum

/-- What class `c` holds, in units of 4 KiB (LND_CLASS_USED). -/
def State.lndUsed4K (s : State) (c : Nat) : Nat :=
  ((List.range 4).map (fun p => s.lndUsed c p * pool4K p)).sum

/-- The unmet minima of the classes other than `c` in pool `p`. -/
def State.lndOwed (s : State) (c p : Nat) : Nat :=
  ((List.range 16).map (fun d => if d = c then 0 else s.lndMin d p - s.lndUsed d p)).sum

/-! ### Allocation and free -/

/-- The pool that serves a request of class `c`: the first from `p` on that passes R107's test. -/
def State.servingPool (s : State) (c p fuel : Nat) : Option Nat :=
  match fuel with
  | 0 => none
  | n + 1 =>
    if 3 < p then none
    else if s.f (A.lndClassMax c) 0 14 < s.lndUsed4K c + pool4K p then none
    else if s.lndOwed c p < (s.lndFree p).length then some p
    else s.servingPool c (p + 1) n

/-- Marks buffer `b` in use by class `c`, or free. -/
def State.setBuffer (s : State) (b : Nat) (c : Option Nat) : State :=
  let bank := s.lnd.banks.getD (b / 64) {}
  let rest := bank.used.filter (fun u => u.1 ≠ b % 64)
  let used := match c with
    | some c => rest ++ [(b % 64, c)]
    | none => rest
  { s with lnd := { s.lnd with banks := setAt s.lnd.banks (b / 64) { bank with used := used } } }

/-- Takes one buffer for class `c`, uncounted: the buffer and whether it fell back to a larger pool (R107). Which free
buffer is taken is a free value (log 7). -/
def State.takeBuffer (s : State) (c size : Nat) : Option (Nat × Bool × State) :=
  match s.servingPool c (smallestFit size) 4 with
  | none => none
  | some p =>
    let free := s.lndFree p
    let (k, s) := s.draw
    let b := free.getD (Config.freeBuffer k % free.length) 0
    some (b, decide (p ≠ smallestFit size), s.setBuffer b (some c))

/-- One allocation, counted (R107): FALLBACK when it falls back, LND_FULL when it fails. -/
def State.alloc (s : State) (c size : Nat) : Option Nat × State :=
  match s.takeBuffer c size with
  | some (b, fell, s) => (some b, s.bumpIf fell (A.lndCnt 0))
  | none => (none, s.bump (A.lndFull c))

/-- Owner class of a buffer in use. -/
def State.bufferOwner (s : State) (b : Nat) : Option Nat :=
  ((s.lnd.banks.getD (b / 64) {}).used.find? (fun u => u.1 = b % 64)).map (·.2)

/-- Ends the move of banks that R106 moves, once their buffers are free. -/
def State.settleMoved (s : State) : State :=
  let banks := s.lnd.banks.map (fun b =>
    match b.pool with
    | some p => if b.moving && b.used.isEmpty && decide (b.cut ≠ p) then { b with cut := p, moving := false } else b
    | none => b)
  { s with lnd := { s.lnd with banks := banks } }

/-- A free that names class and buffer; a double free or one of another class is ignored, counted and logged (R108). -/
def State.freeBuffer (s : State) (c b : Nat) : State :=
  let pool := (s.lnd.banks.getD (b / 64) {}).cut
  match s.bufferOwner b with
  | none =>
    ((s.bump (A.lndCnt 1)).logEvent
      { code := 0x0202, cls := .contained, reason := 1, arg0 := b, arg1 := pool, arg2 := c, kind := 4, index := b / 64 })
  | some o =>
    if o = c then (s.setBuffer b none).settleMoved
    else
      ((s.bump (A.lndCnt 2)).logEvent
        { code := 0x0202, cls := .contained, reason := 2, arg0 := b, arg1 := pool, arg2 := o * 256 + c, kind := 4,
          index := b / 64 })

/-- Frees a list of buffers of one class. -/
def State.freeAll (s : State) (c : Nat) (bs : List Nat) : State := bs.foldl (fun s b => s.freeBuffer c b) s

/-- `n` requests of 64 KiB in one pass: the buffers taken and how many fell back, or how many could be had (R112). -/
def State.takeMany (s : State) (c n : Nat) : List Nat × Nat × State × Bool :=
  match n with
  | 0 => ([], 0, s, true)
  | k + 1 =>
    match s.takeBuffer c 65536 with
    | none => ([], 0, s, false)
    | some (b, fell, s) =>
      let (bs, f, s, ok) := s.takeMany c k
      (b :: bs, f + b2n fell, s, ok)

/-- The reservation of an instance (R112): granted with its buffers, or refused with everything returned, counted
and logged. -/
def State.reserve (s : State) (c n group inst : Nat) : Option (List Nat) × State :=
  match s.takeMany c n with
  | (bs, f, t, true) => (some bs, (t.bumpBy (A.lndCnt 0) f).bump (A.lndCnt 3))
  | (bs, _, t, false) =>
    let s := { s with freeCtr := t.freeCtr }
    (none, ((s.bump (A.lndFull c)).bump (A.lndCnt 4)).logEvent
      { code := 0x0201, cls := .info, reason := c, arg0 := group, arg1 := inst, arg2 := n * 0x100000000 + bs.length })

/-! ### Banks -/

/-- Sets the count of pool `p` in a LND_POOL_BANKS value. -/
def setPoolBanks (w : Word) (p n : Nat) : Word := setFld w (8 * p) 8 n

/-- Assigns the good banks in ascending number to the pools by a LND_POOL_BANKS value (R105). -/
def assignPools (w : Word) (good : List Nat) : List (Nat × Nat) :=
  let n0 := poolBanks w 0
  let n1 := n0 + poolBanks w 1
  let n2 := n1 + poolBanks w 2
  good.zipIdx.map (fun g => (g.1, if g.2 < n0 then 0 else if g.2 < n1 then 1 else if g.2 < n2 then 2 else 3))

/-- Numbers of the banks that are not retired. -/
def State.goodBanks (s : State) : List Nat :=
  ((s.lnd.banks.zipIdx).filter (fun b => b.1.pool.isSome)).map (·.2)

/-- Gives every good bank its pool under an accepted LND_POOL_BANKS value; moving ends. -/
def State.placeBanks (s : State) (w : Word) : State :=
  let banks := (assignPools w s.goodBanks).foldl (fun l e =>
    setAt l e.1 { l.getD e.1 {} with pool := some e.2, cut := e.2, moving := false }) s.lnd.banks
  { s with lnd := { s.lnd with banks := banks } }

/-- Marks the banks that change pool under `w` as moving, from the COMMIT write onwards (R105). -/
def State.markMoving (s : State) (w : Word) : State :=
  let banks := (assignPools w s.goodBanks).foldl (fun l e =>
    let b := l.getD e.1 {}
    if b.pool = some e.2 then l else setAt l e.1 { b with moving := true }) s.lnd.banks
  { s with lnd := { s.lnd with banks := banks } }

/-- Whether every buffer of every moving bank is free. -/
def State.bankDrained (s : State) : Bool := s.lnd.banks.all (fun b => !b.moving || b.used.isEmpty)

/-- The floor of each class in the pool of its minimum (R109): pool and buffers. -/
def classFloor (c : Nat) : Nat × Nat :=
  [(2, 0), (0, 16), (2, 0), (3, 0), (1, 128), (1, 128), (1, 256), (1, 0),
   (0, 256), (0, 256), (0, 64), (0, 64), (1, 0), (0, 16), (0, 8), (0, 0)].getD c (0, 0)

/-- Floor of class `c` in pool `p`. -/
def floorIn (c p : Nat) : Nat := if (classFloor c).1 = p then (classFloor c).2 else 0

/-- Sets a class minimum, effective and staged. -/
def State.setMin (s : State) (c p v : Nat) : State :=
  let a := if p < 2 then A.lndMinA c else A.lndMinB c
  (s.setF a (16 * (p % 2)) 14 v).setSreg a (setFld (s.sreg a) (16 * (p % 2)) 14 v)

/-- Lowers the minima of pool `p` towards `room` buffers, from class `0xF` downwards, none below its floor and SPILL
never (R106). -/
def State.shrinkMinima (s : State) (p room fuel : Nat) : State :=
  match fuel with
  | 0 => s
  | n + 1 =>
    if ((List.range 16).map (fun c => s.lndMin c p)).sum ≤ room then s
    else
      match (List.range 16).reverse.find? (fun c => c ≠ 11 && decide (floorIn c p < s.lndMin c p)) with
      | none => s
      | some c => (s.setMin c p (s.lndMin c p - 1)).shrinkMinima p room n

/-- Changes a staged set's value of a register. -/
def StagedSet.edit (x : StagedSet) (a : Nat) (g : Word → Word) : StagedSet :=
  { x with regs := x.regs.put regReset a (g (x.regs.get regReset a)) }

/-- Changes a register of the LND block's staged fields, and of a set of them under check or pending. -/
def State.editStaged (s : State) (a : Nat) (g : Word → Word) : State :=
  let c := s.commits.get (fun _ => {}) 1
  let c := { checking := c.checking.map (fun x => (x.1.edit a g, x.2)), accepted := c.accepted.map (fun x => x.edit a g) }
  { s with staged := s.staged.put regReset a (g (s.sreg a)), commits := s.commits.put (fun _ => {}) 1 c }

/-- A staged LND_POOL_BANKS with one bank less in pool `p`, or in P1 where that of `p` is 0. -/
def lowerStaged (p : Nat) (t : Word) : Word :=
  let q := if poolBanks t p = 0 then 1 else p
  setPoolBanks t q (poolBanks t q - 1)

/-- Lowers by one the bank count of pool `p`, effective and staged (R106). -/
def State.lowerPool (s : State) (p : Nat) : State :=
  let e := s.reg A.lndPoolBanks
  (s.setReg A.lndPoolBanks (setPoolBanks e p (poolBanks e p - 1))).editStaged A.lndPoolBanks (lowerStaged p)

/-- Raises by one the bank count of pool `p`, effective and staged. -/
def State.raisePool (s : State) (p : Nat) : State :=
  let e := s.reg A.lndPoolBanks
  (s.setReg A.lndPoolBanks (setPoolBanks e p (poolBanks e p + 1))).editStaged A.lndPoolBanks
    (fun t => setPoolBanks t p (poolBanks t p + 1))

/-- Buffers that pool `p` has by its effective bank count. -/
def State.poolRoom (s : State) (p : Nat) : Nat := poolBanks (s.reg A.lndPoolBanks) p * poolPerBank p

/-- The floors of all classes in pool `p`. -/
def floorsOf (p : Nat) : Nat := ((List.range 16).map (fun c => floorIn c p)).sum

/-- The lowest bank of P2 that does not move yet. -/
def State.lowestP2 (s : State) : Option Nat :=
  ((s.lnd.banks.zipIdx).find? (fun b => b.1.pool = some 2 && !b.1.moving)).map (·.2)

/-- Moves banks of P2 into pool `p` until the floors of `p` fit (R106). -/
def State.moveForFloors (s : State) (p fuel : Nat) : State :=
  match fuel with
  | 0 => s
  | n + 1 =>
    if floorsOf p ≤ s.poolRoom p then s
    else
      match s.lowestP2 with
      | none => s
      | some b =>
        let s := s.shrinkMinima 2 (s.poolRoom 2 - poolPerBank 2) 4096
        let bank := s.lnd.banks.getD b {}
        let free := bank.used.isEmpty
        let bank := { bank with pool := some p, cut := if free then p else bank.cut, moving := !free }
        let s := { s with lnd := { s.lnd with banks := setAt s.lnd.banks b bank } }
        let s := (s.lowerPool 2).raisePool p
        (s.logEvent { code := 0x0203, cls := .degraded, reason := p, arg0 := s.poolRoom p, kind := 4, index := b }).moveForFloors p n

/-- After a pool has lost a bank: minima reduced, then banks moved for its floors, and the change logged (R106). -/
def State.refitPool (s : State) (p bank : Nat) : State :=
  let s := (s.shrinkMinima p (s.poolRoom p) 4096).moveForFloors p 192
  s.logEvent { code := 0x0203, cls := .degraded, reason := p,
               arg0 := ((List.range 16).map (fun c => s.lndMin c p)).sum, kind := 4, index := bank }

/-- GOOD_BANKS as shown. -/
def State.setGood (s : State) : State :=
  let s := s.setF A.lndBankStatus 0 8 s.goodBanks.length
  if s.goodBanks.length < 160 then s.replaceCriterion 1 else s

/-- LND_POOL_BANKS of a set that passes its check or waits to take effect. -/
def State.pendingPools (s : State) : Option Word :=
  let c := s.commits.get (fun _ => {}) 1
  match c.accepted, c.checking with
  | some x, _ => some (x.regs.get regReset A.lndPoolBanks)
  | none, some (x, 0, _) => some (x.regs.get regReset A.lndPoolBanks)
  | none, _ => none

/-- Marks anew the banks that move under a pending set, whose counts a retirement has changed (R105, R106). -/
def State.remarkMoving (s : State) : State :=
  match s.pendingPools with
  | none => s
  | some w =>
    let banks := s.lnd.banks.map (fun b => if b.pool = some b.cut then { b with moving := false } else b)
    { s with lnd := { s.lnd with banks := banks } }.markMoving w

/-- A bank leaves the pool it belongs to in service (R106): free buffers at once, others as they are freed. -/
def State.retireBank (s : State) (n : Nat) : State :=
  let bank := s.lnd.banks.getD n {}
  match bank.pool with
  | none => s
  | some p =>
    let s := { s with lnd := { s.lnd with banks := setAt s.lnd.banks n { bank with pool := none, moving := false } } }
    (((s.lowerPool p).setGood).refitPool p n).remarkMoving

end Sys2Proof.Machine
end

