-- ==== Sys2Proof/Machine/Compress.lean ====
section
/-! DEFINITION. The ZP codec: block records, planes, symbols, canonical codes, exact length, and the encoder
(07_compression.md R132-R143). -/
namespace Sys2Proof.Machine

/-! ### Table sets (R140, R144) -/

/-- Code length of symbol `y` in code table `t` of slot `n`, as the words read by `rd` give it. -/
def codeLen (rd : Nat → Word) (n t y : Nat) : Nat :=
  let byte := y / 2
  fld (rd (A.cmpTablesLen n (t * 64 + byte / 4))) (byte % 4 * 8 + y % 2 * 4) 4

/-- The 270 lengths of a code table. -/
def codeLens (rd : Nat → Word) (n t : Nat) : List Nat := (List.range 270).map (codeLen rd n t)

/-- The code table that the plane map of slot `n` names for entry `e`. -/
def planeMapEntry (rd : Nat → Word) (n e : Nat) : Nat := fld (rd (A.cmpTablesMap n (e / 8))) (e % 8 * 4) 4

/-- The plane map's entry for width `w` and plane `p`. -/
def planeEntry (w p : Nat) : Nat := if w = 1 then 0 else if w = 2 then 1 + p else if w = 4 then 3 + p else 7 + p

/-- Canonical codes of one length, from a first code: symbols in ascending order (R140). -/
def codesOfLen (lens : List Nat) (len first : Nat) : List (Nat × Nat × Nat) :=
  let ys := (lens.zipIdx.filter (fun e => e.1 = len)).map (·.2)
  ys.zipIdx.map (fun e => (e.1, len, first + e.2))

/-- Canonical codes for lengths from `len` upwards: symbol, length, code. -/
def codesFrom (lens : List Nat) (len first fuel : Nat) : List (Nat × Nat × Nat) :=
  match fuel with
  | 0 => []
  | n + 1 =>
    let here := codesOfLen lens len first
    here ++ codesFrom lens (len + 1) ((first + here.length) * 2) n

/-- The canonical codes of a table (R140). -/
def canonCodes (lens : List Nat) : List (Nat × Nat × Nat) := codesFrom lens 1 0 15

/-! ### Bits -/

/-- `n` bits of a number, most significant first. -/
def natBits (n v : Nat) : List Bool := (List.range n).map (fun i => v / 2 ^ (n - 1 - i) % 2 = 1)

/-- The number that bits give, most significant first. -/
def bitsNat (bs : List Bool) : Nat := bs.foldl (fun a b => a * 2 + b2n b) 0

/-- The code that the bits begin with: its symbol and the bits after it. -/
def matchCode (codes : List (Nat × Nat × Nat)) (bits : List Bool) : Option (Nat × List Bool) :=
  match codes.find? (fun c => decide (c.2.1 ≤ bits.length) && decide (bitsNat (bits.take c.2.1) = c.2.2)) with
  | some c => some (c.1, bits.drop c.2.1)
  | none => none

/-! ### Symbols (R139) -/

/-- Extra bits of a symbol. -/
def extraBits (y : Nat) : Nat := if y < 259 then 0 else y - 258

/-- Run length that a run symbol and its extra bits stand for. -/
def runLength (y extra : Nat) : Nat := if y < 259 then y - 254 else 2 ^ (y - 258) + 3 + extra

/-- The run symbol for a run of `n` zero bytes, 2 to 4,098, and its extra bits. -/
def runSymbol (n : Nat) : Nat × Nat :=
  if n < 5 then (n + 254, 0)
  else
    match (List.range 11).find? (fun i => decide (n ≤ 2 ^ (i + 2) + 2)) with
    | some i => (259 + i, n - (2 ^ (i + 1) + 3))
    | none => (269, n - 2051)

/-- Decodes one plane of `n` bytes: its bytes and the bits after them. -/
def decodePlane (codes : List (Nat × Nat × Nat)) (n fuel : Nat) (bits : List Bool) (acc : List Byte) :
    Option (List Byte × List Bool) :=
  match fuel with
  | 0 => none
  | f + 1 =>
    if n ≤ acc.length then (if acc.length = n then some (acc, bits) else none)
    else
      match matchCode codes bits with
      | none => none
      | some (y, rest) =>
        if y < 256 then decodePlane codes n f rest (acc ++ [BitVec.ofNat 8 y])
        else
          let e := extraBits y
          if rest.length < e then none
          else decodePlane codes n f (rest.drop e) (acc ++ List.replicate (runLength y (bitsNat (rest.take e))) 0)

/-- Decodes the planes `p` to `w` - 1, those that `zp` does not mark, from the bits. -/
def decodePlanes (rd : Nat → Word) (slot w zp len p fuel : Nat) (bits : List Bool) : Option (List (List Byte) × List Bool) :=
  match fuel with
  | 0 => some ([], bits)
  | f + 1 =>
    if w ≤ p then some ([], bits)
    else if nfld zp p 1 = 1 then
      match decodePlanes rd slot w zp len (p + 1) f bits with
      | some (ps, r) => some (List.replicate len 0 :: ps, r)
      | none => none
    else
      match decodePlane (canonCodes (codeLens rd slot (planeMapEntry rd slot (planeEntry w p)))) len (len + 1) bits [] with
      | none => none
      | some (pl, r) =>
        match decodePlanes rd slot w zp len (p + 1) f r with
        | some (ps, r) => some (pl :: ps, r)
        | none => none

/-- The logical bytes that planes give (R138): byte `j` of plane `p` is logical byte `j * w + p`. -/
def interleave (planes : List (List Byte)) (n : Nat) : List Byte :=
  (List.range n).flatMap (fun j => planes.map (fun p => p.getD j 0))

/-- The planes of a block (R138). -/
def planesOf (w : Nat) (bs : List Byte) : List (List Byte) :=
  (List.range w).map (fun p => (List.range (bs.length / w)).map (fun j => bs.getD (j * w + p) 0))

/-! ### Decoding (R135-R141) -/

/-- Why a coded chunk fails: DECOMP_LEN, and whether GEN matched no valid slot. -/
inductive DecompFail where
  | len | gen
  deriving DecidableEq, Repr

/-- The valid slot that carries generation `g`. -/
def slotOfGen (rd : Nat → Word) (g : Nat) : Option Nat :=
  (List.range 2).find? (fun n => bit (rd (A.cmpSlot n)) 8 && decide (fld (rd (A.cmpSlot n)) 0 8 = g))

/-- One block record of logical length `l` at the front of the payload: its logical bytes and what follows (R136,
R137, R141). -/
def decodeBlock (rd : Nat → Word) (l : Nat) (pay : List Byte) : Except DecompFail (List Byte × List Byte) :=
  if pay.length < 8 then .error .len
  else
    let h := pay.take 8
    let b0 := beAt h 0 1
    let mode := nfld b0 6 2
    let wcode := nfld b0 4 2
    let gen := beAt h 1 1
    let log := nfld (beAt h 2 2) 0 13
    let coded := nfld (beAt h 4 2) 0 13
    let zp := beAt h 6 1
    let w := 2 ^ wcode
    let body := (pay.drop 8).take coded
    let rest := pay.drop (8 + coded)
    let reserved := nfld b0 0 4 ≠ 0 ∨ nfld (beAt h 2 2) 13 3 ≠ 0 ∨ nfld (beAt h 4 2) 13 3 ≠ 0 ∨ beAt h 7 1 ≠ 0
    if mode = 3 ∨ reserved ∨ log ≠ l ∨ body.length < coded then .error .len
    else if mode = 0 then
      if wcode ≠ 0 ∨ gen ≠ 0 ∨ zp ≠ 0 ∨ coded ≠ log then .error .len else .ok (body, rest)
    else if mode = 2 then
      if wcode ≠ 0 ∨ gen ≠ 0 ∨ zp ≠ 0 ∨ coded ≠ 0 then .error .len else .ok (List.replicate log 0, rest)
    else if log % w ≠ 0 ∨ coded = 0 ∨ log ≤ coded ∨ zp / 2 ^ w ≠ 0 then .error .len
    else
      match slotOfGen rd gen with
      | none => .error .gen
      | some slot =>
        match decodePlanes rd slot w zp (log / w) 0 w (bitsOf body) with
        | none => .error .len
        | some (planes, left) =>
          if 8 ≤ left.length ∨ left.any (· = true) then .error .len
          else .ok (interleave planes (log / w), rest)

/-- Decodes the records of a coded chunk of `len` logical bytes; nothing may remain (R135, R141). -/
def decodeRecords (rd : Nat → Word) (len fuel : Nat) (pay : List Byte) : Except DecompFail (List Byte) :=
  match fuel with
  | 0 => if pay.isEmpty then .ok [] else .error .len
  | f + 1 =>
    if len = 0 then (if pay.isEmpty then .ok [] else .error .len)
    else
      match decodeBlock rd (min 4096 len) pay with
      | .error e => .error e
      | .ok (bs, rest) =>
        match decodeRecords rd (len - 4096) f rest with
        | .error e => .error e
        | .ok more => .ok (bs ++ more)

/-- Decodes a coded chunk. -/
def decodeChunk (rd : Nat → Word) (len : Nat) (pay : List Byte) : Except DecompFail (List Byte) :=
  decodeRecords rd len (cdiv len 4096) pay

/-! ### Encoding (R142) -/

/-- Splits a plane into symbols: a run of two or more zero bytes by one run symbol, every other byte as a literal.
Each item is a symbol with its extra bits' value. -/
def symbolsOf (bs : List Byte) (zeros : Nat) : List (Nat × Nat) :=
  let flush : List (Nat × Nat) := if zeros = 0 then [] else if zeros = 1 then [(0, 0)] else [runSymbol zeros]
  match bs with
  | [] => flush
  | b :: r => if b = 0 then symbolsOf r (zeros + 1) else flush ++ (b.toNat, 0) :: symbolsOf r 0

/-- The bits of a list of symbols, when every symbol has a code. -/
def encodeSymbols (codes : List (Nat × Nat × Nat)) (ys : List (Nat × Nat)) : Option (List Bool) :=
  match ys with
  | [] => some []
  | (y, x) :: r =>
    match codes.find? (fun c => c.1 = y), encodeSymbols codes r with
    | some c, some more => some (natBits c.2.1 c.2.2 ++ natBits (extraBits y) x ++ more)
    | _, _ => none

/-- The bits of the planes that are not all zero. -/
def encodePlanes (rd : Nat → Word) (slot w p : Nat) (planes : List (List Byte)) : Option (List Bool) :=
  match planes with
  | [] => some []
  | pl :: r =>
    match encodePlanes rd slot w (p + 1) r with
    | none => none
    | some more =>
      if pl.all (· = 0) then some more
      else
        match encodeSymbols (canonCodes (codeLens rd slot (planeMapEntry rd slot (planeEntry w p)))) (symbolsOf pl 0) with
        | some bits => some (bits ++ more)
        | none => none

/-- The bits that mark all-zero planes. -/
def zplanesOf (planes : List (List Byte)) : Nat :=
  ((planes.zipIdx).map (fun e => if e.1.all (· = 0) then 2 ^ e.2 else 0)).sum

/-- How a block was coded. -/
inductive BlockMode where
  | raw | zp | zero
  deriving DecidableEq, Repr

/-- A block header (R136). -/
def blockHeader (mode wcode gen log coded zp : Nat) : List Byte :=
  beBytes 1 (mode * 64 + wcode * 16) ++ beBytes 1 gen ++ beBytes 2 log ++ beBytes 2 coded ++ beBytes 1 zp ++ [0]

/-- The encoder's record for one block (R142): ZERO, else ZP, else RAW; RAW when no CMP buffer can be had (R110). -/
def encodeBlock (rd : Nat → Word) (slot width : Nat) (buffer : Bool) (bs : List Byte) : BlockMode × List Byte :=
  let l := bs.length
  let raw := (BlockMode.raw, blockHeader 0 0 0 l l 0 ++ bs)
  if bs.all (· = 0) then (.zero, blockHeader 2 0 0 l 0 0)
  else if !buffer then raw
  else
    let w := if l % width = 0 then width else 1
    let planes := planesOf w bs
    match encodePlanes rd slot w 0 planes with
    | none => raw
    | some bits =>
      let coded := bytesOfBits bits
      let wcode := if w = 1 then 0 else if w = 2 then 1 else if w = 4 then 2 else 3
      if coded.length < l then
        (.zp, blockHeader 1 wcode (fld (rd (A.cmpSlot slot)) 0 8) l coded.length (zplanesOf planes) ++ coded)
      else raw

/-- Counts the requests of `n` blocks for an encoder's buffer, each given back before the next (R107, R110): `buffer` says whether one
can be had, and whether it falls back to a larger pool. -/
def State.countEncoding (s : State) (buffer : Option Bool) (n : Nat) : State :=
  match buffer with
  | some fell => if fell then s.bumpBy (A.lndCnt 0) n else s
  | none => (s.bumpBy (A.lndFull clsCmp) n).bumpBy (A.lndCnt 6) n

/-- Codes a chunk's logical bytes: the payload, or nothing when it would not be shorter; what was counted is in the
state (R142). `width` is the element width of the chunk's format (R138). -/
def State.encodeChunk (s : State) (width : Nat) (bs : List Byte) : Option (List Byte × Nat) × State :=
  let slot := s.f A.cmpCtrl 1 1
  let parts := chunksOf 4096 (cdiv bs.length 4096) bs
  let buffer := (s.takeBuffer clsCmp 4096).map (fun r => r.2.1)
  let blocks := parts.map (encodeBlock s.reg slot width buffer.isSome)
  let s := s.countEncoding buffer (parts.filter (fun b => !b.all (· = 0))).length
  let out := (blocks.map (·.2)).flatten
  if bs.length ≤ out.length then (none, s.bump (A.cmpCnt 4))
  else
    let s := blocks.foldl (fun s b => match b.1 with
      | .zp => s.bump (A.cmpCnt 0)
      | .raw => s.bump (A.cmpCnt 1)
      | .zero => s.bump (A.cmpCnt 2)) s
    let s := s.bump (A.cmpCnt 3)
    let s := s.setReg64 A.cmpLogicalLo A.cmpLogicalHi (s.reg64 A.cmpLogicalLo A.cmpLogicalHi + bs.length)
    let s := s.setReg64 A.cmpCodedLo A.cmpCodedHi (s.reg64 A.cmpCodedLo A.cmpCodedHi + out.length)
    (some (out, slot), s)

/-- The slots whose generation a coded payload is stamped with (R144). -/
def State.stampedSlot (s : State) (len : Nat) (pay : List Byte) (fuel : Nat) : Option Nat :=
  match fuel with
  | 0 => none
  | f + 1 =>
    if pay.length < 8 ∨ len = 0 then none
    else if nfld (beAt pay 0 1) 6 2 = 1 then slotOfGen s.reg (beAt pay 1 1)
    else s.stampedSlot (len - 4096) (pay.drop (8 + nfld (beAt pay 4 2) 0 13)) f

end Sys2Proof.Machine
end

