-- ==== Sys2Proof/Machine/FabricOps.lean ====
section
/-! DEFINITION. The fabric side's shared operations: fibres, packets, flits and the transmit queues
(13_fabric_links_and_concourse.md R240, R246-R254). -/
namespace Sys2Proof.Machine

def State.fib (s : State) (f : Nat) : Fibre := s.dfl.fibres.get (fun _ => {}) f
def State.setFib (s : State) (f : Nat) (x : Fibre) : State :=
  { s with dfl := { s.dfl with fibres := s.dfl.fibres.put (fun _ => {}) f x } }

/-- Whether a fibre's link is UP. -/
def State.linkUp (s : State) (f : Nat) : Bool := decide (s.f (A.dflLinkStatus f) 0 2 = 2)

/-- The fibre on which a packet to a node goes (R249): the mapped one, or the next whose link is UP; with none UP it
waits on the mapped one (log 24). -/
def State.fibreTo (s : State) (dst : Nat) : Nat :=
  let e := dst % 256
  let f := s.f (A.dflDstMap (e / 4)) (8 * (e % 4)) 5
  (((List.range 32).map (fun i => (f + i) % 32)).find? s.linkUp).getD f

/-- MODE of a DFL VC: SCHEDULED. -/
def State.scheduledVc (s : State) (v : Nat) : Bool := decide (v ≠ 0) && s.b (A.dflVcCfg v) 0

abbrev noFlits : Nat → Wfq FlitReq := fun _ => {}

/-- Depth of a VC queue in flits. -/
def Fibre.depth (x : Fibre) (v : Nat) : Nat := (x.queues.get noFlits v).items.length

/-- Whether the producers of a VC may inject: never above 4,096 flits, and in THROTTLE mode not at or above HIGH
(R253, R254). -/
def State.mayInject (s : State) (x : Fibre) (v n : Nat) : Bool :=
  decide (x.depth v + n ≤ 4096) && (decide (v = 0) || s.scheduledVc v || decide (x.depth v < s.f (A.dflVcThr v) 16 12))

/-- Whether a VC is below full rate (R254). -/
def State.throttled (s : State) (x : Fibre) (v : Nat) : Bool :=
  decide (v ≠ 0) && !s.scheduledVc v && decide (s.f (A.dflVcThr v) 0 12 < x.depth v)

/-- Enqueues one flit by R197 with OVERHEAD 0 and 256 bytes. -/
def State.enqueueFlit (s : State) (x : Fibre) (v : Nat) (y : FlitReq) : Fibre :=
  let w := x.queues.get noFlits v
  let base := if w.items.isEmpty then x.vtime else w.flast
  let f := (base + cdiv (256 * 65536) (max 1 (s.f (A.dflVcCfg v) 16 16))) % 0x10000000000000000
  { x with queues := x.queues.put noFlits v { items := w.items ++ [(y, f, s.mono)], flast := f } }

/-- Moves the packets that producers hold into a VC queue while they may be injected. -/
def State.inject (s : State) (v fuel : Nat) (x : Fibre) : Fibre :=
  match fuel with
  | 0 => x
  | n + 1 =>
    match x.waiting.get (fun _ => []) v with
    | [] => x
    | p :: rest =>
      if s.mayInject x v p.length then
        let x := { x with waiting := x.waiting.put (fun _ => []) v rest }
        s.inject v n (p.foldl (fun x y => s.enqueueFlit x v y) x)
      else x

/-- Admits what waits on every VC of a fibre. -/
def State.admitAll (s : State) (f : Nat) : State :=
  let x := s.fib f
  s.setFib f ((List.range 8).foldl (fun x v => s.inject v ((x.waiting.get (fun _ => []) v).length) x) x)

/-- The 24-byte header of a fabric packet (R247). -/
def fabHeader (ptype dst src farGw farDst len : Nat) : List Byte :=
  beBytes 1 ptype ++ [0, 0, 0] ++ beBytes 4 dst ++ beBytes 4 src ++ beBytes 4 farGw ++ beBytes 4 farDst ++ beBytes 4 len

/-- The flits of a packet's header and bytes (R247). -/
def packetFlits (vc dst : Nat) (bytes : List Byte) : List FlitReq :=
  let parts := chunksOf 240 (bytes.length / 240 + 1) bytes
  parts.zipIdx.map (fun p =>
    { ftype := 1, sop := decide (p.2 = 0), eop := decide (p.2 + 1 = parts.length), vc := vc, circ := 0, dst := dst, payload := p.1 })

/-- Sends a whole packet (header and data) on a VC. -/
def State.sendFabricBytes (s : State) (vc dst : Nat) (bytes : List Byte) : State :=
  let f := s.fibreTo dst
  let x := s.fib f
  (s.setFib f { x with waiting := x.waiting.put (fun _ => []) vc (x.waiting.get (fun _ => []) vc ++ [packetFlits vc dst bytes]) }).admitAll f

/-- Sends a packet of a type to a node. -/
def State.sendFabric (s : State) (vc ptype dst : Nat) (body : List Byte) : State :=
  s.sendFabricBytes vc dst (fabHeader ptype dst (s.reg A.dflNodeId).toNat 0 0 body.length ++ body)

/-- Sends a message on VC0 (R248). -/
def State.sendFabricMsg (s : State) (dst : Nat) (msg : List Byte) : State := s.sendFabric 0 2 dst msg

/-- Sends a message on one given fibre. -/
def State.sendOnFibre (s : State) (f dst : Nat) (msg : List Byte) : State :=
  let bytes := fabHeader 2 dst (s.reg A.dflNodeId).toNat 0 0 msg.length ++ msg
  let x := s.fib f
  (s.setFib f { x with waiting := x.waiting.put (fun _ => []) 0 (x.waiting.get (fun _ => []) 0 ++ [packetFlits 0 dst bytes]) }).admitAll f

end Sys2Proof.Machine
end

