-- ==== Sys2Proof/Machine/ChunkOps.lean ====
section
/-! DEFINITION. Chunk headers and messages of the collective engine, kept copies, sending and delivery of chunks, stream
credit, completion and abort of an instance (04_collectives_and_flights.md R85, R90-R103; 05_landing.md R113-R116;
07_compression.md R132-R134, R144; 13_fabric_links_and_concourse.md R251). -/
namespace Sys2Proof.Machine

/-! ### Chunk headers -/

/-- A chunk header of 32 bytes. -/
def chunkHeader (ctype fmt group inst chunk slot leaves : Nat) (data : List Byte) : List Byte :=
  withHcrc (beBytes 1 ctype ++ beBytes 1 fmt ++ beBytes 2 group ++ beBytes 4 inst ++ beBytes 4 chunk ++ beBytes 2 slot ++
    beBytes 2 leaves ++ beBytes 4 data.length ++ beBytes 8 (crc64 data))

def hType (h : List Byte) : Nat := beAt h 0 1
def hFmt (h : List Byte) : Nat := nfld (beAt h 1 1) 0 4
def hCoded (h : List Byte) : Bool := nfld (beAt h 1 1) 4 1 = 1
def hGroup (h : List Byte) : Nat := nfld (beAt h 2 2) 0 12
def hInst (h : List Byte) : Nat := beAt h 4 4
def hChunk (h : List Byte) : Nat := beAt h 8 4
def hSlot (h : List Byte) : Nat := nfld (beAt h 12 2) 0 10
def hLeaves (h : List Byte) : Nat := beAt h 14 2
def hLen (h : List Byte) : Nat := beAt h 16 4
def hCrc (h : List Byte) : Nat := beAt h 20 8

/-- A header with another TYPE or COMPRESSED bit, its HCRC written again. -/
def reHeader (h : List Byte) (ctype : Nat) (coded : Bool) : List Byte :=
  withHcrc (patch (patch (h.take 28) 0 (beBytes 1 ctype)) 1 (beBytes 1 (hFmt h + 16 * b2n coded)))

/-- Element width by which the encoder forms planes (07 R138). -/
def codeWidth (fmt : Nat) : Nat := if (layoutOf fmt).scale = 0 then (layoutOf fmt).bits / 8 else 1

/-! ### Messages of the collective engine -/

/-- A message of 24 bytes. -/
def cleMsg (mtype reason group inst chunk slot origin value : Nat) : List Byte :=
  withHcrc (beBytes 1 mtype ++ beBytes 1 reason ++ beBytes 2 group ++ beBytes 4 inst ++ beBytes 4 chunk ++ beBytes 2 slot ++
    beBytes 2 origin ++ beBytes 4 value)

def mReason (m : List Byte) : Nat := beAt m 1 1
def mGroup (m : List Byte) : Nat := nfld (beAt m 2 2) 0 12
def mInst (m : List Byte) : Nat := beAt m 4 4
def mChunk (m : List Byte) : Nat := beAt m 8 4
def mSlot (m : List Byte) : Nat := beAt m 12 2
def mOrigin (m : List Byte) : Nat := beAt m 14 2
def mValue (m : List Byte) : Nat := beAt m 16 4

/-! ### Open instances -/

/-- The open instance of a group. -/
def State.inst (s : State) (g : Nat) : Option Inst := (s.cle.insts.find? (fun i => i.1 = g)).map (·.2)

def State.setInst (s : State) (g : Nat) (x : Inst) : State := { s with cle := { s.cle with insts := s.cle.insts.insert g x } }

/-- The last instance started on a group. -/
def State.lastInst (s : State) (g : Nat) : Option Nat := (s.cle.last.find? (fun i => i.1 = g)).map (·.2)

/-- Whether an instance number is greater than the last one started on the group, by signed difference (R89). -/
def State.isNewer (s : State) (g n : Nat) : Bool :=
  match s.lastInst g with
  | none => true
  | some l => decide (0 < sgn 32 (n + 0x100000000 - l))

/-! ### Kept copies (R91, R96) -/

/-- Bytes of the retention part of the line region. -/
def State.retainBytes (s : State) : Nat := (s.f A.galRegion 0 8 - s.f A.galRegion 8 8) * gib

/-- Bytes of the keep ring. -/
abbrev keepBytes : Nat := 8 * gib

/-- Bytes that the kept copies of one kind hold. -/
def State.keptBytes (s : State) (line : Bool) : Nat := ((s.cle.kept.filter (fun k => k.line = line)).map (fun k => k.data.length)).sum

def State.keepCap (s : State) (line : Bool) : Nat := if line then s.retainBytes else keepBytes

/-- Whether the pinned copies leave no room for `n` more bytes in the retention part (R91). -/
def State.pinnedFull (s : State) (n : Nat) : Bool :=
  decide (s.retainBytes < ((s.cle.kept.filter (fun k => k.line && k.pinned)).map (fun k => k.data.length)).sum + n)

/-- Releases the oldest copies that are not pinned until `n` bytes fit, each counted (R96, 06_gallery.md R120). -/
def State.makeRoom (s : State) (line : Bool) (n fuel : Nat) : State :=
  match fuel with
  | 0 => s
  | k + 1 =>
    if s.keptBytes line + n ≤ s.keepCap line then s
    else
      match s.cle.kept.find? (fun c => c.line = line && !c.pinned) with
      | none => s
      | some c =>
        let s := { s with cle := { s.cle with kept := s.cle.kept.erase c } }
        (s.bump (if line then A.galCnt 5 else A.cleCnt 10)).makeRoom line n k

/-- Keep time of fabric chunks in ns. -/
def State.keepNs (s : State) : Nat := s.f A.cleKeepCtrl 0 14 * 1000

/-- End of a copy's keeping time, counted from now. -/
def State.keepEnd (s : State) (line : Bool) (node : Nat) : Nat :=
  s.mono + (if line then (s.lineHold node).1 else s.keepNs)

/-- Keeps a copy when it fits; one that does not is released at once. -/
def State.keepCopy (s : State) (k : Kept) : State :=
  if s.keptBytes k.line + k.data.length ≤ s.keepCap k.line then { s with cle := { s.cle with kept := s.cle.kept ++ [k] } }
  else s.bump (if k.line then A.galCnt 5 else A.cleCnt 10)

/-- Sends one chunk for the first time to a node over the line or the fabric: coded where R132 allows it, and kept. -/
def State.transmit (s : State) (line : Bool) (node vc : Nat) (compress pinned : Bool) (hdr data : List Byte) : State :=
  let s := s.makeRoom line data.length s.cle.kept.length
  let r := if compress && s.b A.cmpCtrl 0 then s.encodeChunk (codeWidth (hFmt hdr)) data else (none, s)
  let wire := match r.1 with
    | some p => reHeader hdr (hType hdr) true ++ p.1
    | none => hdr ++ data
  let s := r.2
  let s := s.keepCopy { line := line, node := node, vc := vc, hdr := hdr, data := data, cmpSlot := r.1.map (·.2),
                        expiry := s.keepEnd line node, pinned := pinned }
  if line then s.sendLine node vc 1 wire else s.sendFabric 1 1 node wire

/-- Whether a kept copy belongs to an instance. -/
def Kept.isOf (k : Kept) (g n : Nat) : Bool := decide (hGroup k.hdr = g) && decide (hInst k.hdr = n)

/-- Unpins the copies of an instance, or that of one chunk of it, which then lives to the end of its hold. -/
def State.unpin (s : State) (g n : Nat) (c : Option Nat) : State :=
  let this (k : Kept) : Bool := k.isOf g n && (match c with
    | some c => decide (hChunk k.hdr = c)
    | none => true)
  { s with cle := { s.cle with kept := s.cle.kept.map (fun k => if this k then { k with pinned := false } else k) } }

/-! ### Stream credit (R251, R115) -/

/-- A CREDIT body of 16 bytes. -/
def creditBody (group slot inst limit : Nat) : List Byte :=
  beBytes 2 group ++ beBytes 2 slot ++ beBytes 4 inst ++ beBytes 4 limit ++ beBytes 4 0

/-- Sends CREDIT to a source and notes when. -/
def State.sendCredit (s : State) (g : Nat) (x : Inst) (slot limit : Nat) : State :=
  let x := { x with granted := x.granted.insert slot limit, creditAt := x.creditAt.insert slot s.mono }
  (s.setInst g x).sendFabric 0 5 (x.nodeOf slot) (creditBody g slot x.number limit)

/-- Grants a fabric source what it may send now, when that is more than before; a source of a spilled instance that
the spill window holds back is counted once each time. -/
def State.creditSource (s : State) (g slot : Nat) : State :=
  match s.inst g with
  | none => s
  | some x =>
    let lim := x.limitFor slot
    let back := x.spilled && (match (x.outstanding slot).head? with
      | some c => decide (lim ≤ c)
      | none => false)
    let was := x.stalled.contains slot
    let x := { x with stalled := if back then (if was then x.stalled else x.stalled ++ [slot]) else x.stalled.filter (· ≠ slot) }
    let s := (s.setInst g x).bumpIf (back && !was) (A.lndCnt 5)
    if x.granted.get (fun _ => 0) slot < lim then s.sendCredit g x slot lim else s

/-- Grants every fabric source of a group's instance. -/
def State.creditAll (s : State) (g : Nat) : State :=
  match s.inst g with
  | none => s
  | some x => x.fabricSources.foldl (fun s y => s.creditSource g y) s

/-! ### Sending to members -/

/-- Sends the chunks to a site peer that wait and may go: in ascending index, below the granted LIMIT (R251). -/
def State.flushPeer (s : State) (g slot fuel : Nat) : State :=
  match fuel with
  | 0 => s
  | n + 1 =>
    match s.inst g with
    | none => s
    | some x =>
      let from' := x.outNext.get (fun _ => 0) slot
      match (List.range x.chunkTotal).find? (fun c => decide (from' ≤ c) && (x.plan c).outs.contains slot) with
      | none => s
      | some c =>
        if !x.opened.contains slot || decide (x.limits.get (fun _ => 0) slot ≤ c) then s
        else
          match (x.out.get (fun _ => []) slot).find? (fun o => o.1 = c) with
          | none => s
          | some o =>
            let rest := (x.out.get (fun _ => []) slot).erase o
            let x := { x with out := x.out.put (fun _ => []) slot rest, outNext := x.outNext.insert slot (c + 1) }
            ((s.setInst g x).transmit false (x.nodeOf slot) x.group.vc x.desc.compress false (o.2.take 32) (o.2.drop 32)).flushPeer g slot n

/-- Sends what waits for any site peer. -/
def State.flushOut (s : State) (g : Nat) : State :=
  match s.inst g with
  | none => s
  | some x => x.out.foldl (fun s o => s.flushPeer g o.1 o.2.length) s

/-- Sends a chunk to a member gateway: over the line at once, to a site peer in its stream's turn. -/
def State.sendChunkTo (s : State) (g slot : Nat) (pinned : Bool) (hdr data : List Byte) : State :=
  match s.inst g with
  | none => s
  | some x =>
    if x.overLine slot then s.transmit true (x.nodeOf slot) x.group.vc x.desc.compress pinned hdr data
    else s.setInst g { x with out := x.out.put (fun _ => []) slot (x.out.get (fun _ => []) slot ++ [(hChunk hdr, hdr ++ data)]) }

/-! ### Delivery (R85) -/

/-- Whether LOCAL_ADDR can be reached now: it names no host memory, or requests may go to the host
(18_host_interface.md R331). -/
def State.localReady (s : State) (x : Inst) : Bool := decide (x.desc.localAddr = 0) || addrGallery x.desc.localAddr || s.busMaster

/-- Writes bytes of chunk `c` at LOCAL_ADDR. -/
def State.writeLocal (s : State) (x : Inst) (c : Nat) (data : List Byte) : State :=
  let a := x.desc.localAddr
  if a = 0 then s
  else if addrGallery a then s.galStore (addrOffset a + c * 65536) data
  else s.hostWrite (nfld a 0 63 + c * 65536) data

/-- Delivers a chunk: to the Flight 0 members, and at LOCAL_ADDR; a RECV writes only at LOCAL_ADDR. -/
def State.deliver (s : State) (g : Nat) (x : Inst) (c : Nat) (k : Carried) : State :=
  let hdr := chunkHeader 2 k.fmt g x.number c k.slot k.leaves k.data
  let s := if x.op = 0x09 then s
    else (x.group.suppliers x.self c).foldl (fun s y => s.transmit false (x.nodeOf y) x.group.vc x.desc.compress false hdr k.data) s
  s.writeLocal x c k.data

/-! ### Completion of an instance (R101, R102, R113, R116) -/

/-- The number that DETAIL of an abort holds. -/
def Inst.doneCount (x : Inst) : Nat := if x.op = 0x06 then x.applied else x.released

/-- Ends the hold of the map slot: freed after a success, held after any other completion. -/
def State.endMap (s : State) (x : Inst) (ok : Bool) : State :=
  match x.mapSlot with
  | none => s
  | some n => if ok then s.setReg (A.cleMapCtrl n) 0 else s.setF (A.cleMapCtrl n) 28 2 2

/-- Completes the open instance of a group: its buffers return, then its record is written. -/
def State.endInst (s : State) (g status detail : Nat) : State :=
  match s.inst g with
  | none => s
  | some x =>
    let s := { s with cle := { s.cle with insts := s.cle.insts.erase g, ended := s.cle.ended.insert g s.mono } }
    let s := s.freeAll clsRes x.bufs
    let s := (s.unpin g x.number none).endMap x (statusOk status)
    s.completeStarted x.q x.entry status x.flags x.late detail

/-- Writes the entry of a command that ends with INTERNAL; DETAIL is its sequence number (R75; 19 code 0x0402). -/
def State.logInternal (s : State) (q index cause : Nat) : Nat × State :=
  (s.log.seq, s.logEvent { code := 0x0402, cls := .contained, reason := q, arg0 := index, arg1 := Config.internalCause cause })

/-- Completes an instance all of whose chunks are complete. -/
def State.finishInst (s : State) (g : Nat) (x : Inst) (detail : Nat) : State :=
  match x.lostFirst with
  | some c => s.endInst g stStateLost (c + (x.lostLast + 1 - c) * 0x100000000)
  | none => s.endInst g (if x.spilled then stOkSpilled else stOk) detail

/-! ### Abort (R99, R103) -/

/-- Sends a message to every other gateway member, by every route and over the fabric, and to the own Flight 0
members. -/
def State.sendAbort (s : State) (gr : Group) (me : Nat) (msg : List Byte) : State :=
  let far := (gr.gateways.filter (fun y => gr.site y ≠ gr.site me)).filterMap (fun y => s.peerOf (gr.member y).node)
  let near := (gr.peers me ++ gr.contributors me).map (fun y => (gr.member y).node)
  near.foldl (fun s n => s.sendFabricMsg n msg) (far.foldl (fun s e => s.sendMsgAll e msg) s)

/-- Counts and sends a decision to abort. -/
def State.decideAbort (s : State) (g : Nat) (gr : Group) (me n reason : Nat) : State :=
  (s.bump (A.cleCnt (if reason = 7 then 14 else 12))).sendAbort gr me (cleMsg 0x13 reason g n 0 0 me 0)

/-- Decides an abort of the open instance for a reason and completes it with a status (R101). -/
def State.failInst (s : State) (g reason status detail : Nat) : State :=
  match s.inst g with
  | none => s
  | some x => (s.decideAbort g x.group x.self x.number reason).endInst g status detail

/-- An abort without a failure of this gateway's own: ABORTED, with the chunks done. -/
def State.abortInst (s : State) (g reason : Nat) : State :=
  match s.inst g with
  | none => s
  | some x => s.failInst g reason stAborted x.doneCount

/-- An abort in which this gateway completes with INTERNAL. -/
def State.internalInst (s : State) (g cause : Nat) : State :=
  match s.inst g with
  | none => s
  | some x =>
    let r := s.logInternal x.q x.entry.index cause
    r.2.failInst g 4 stInternal r.1

/-! ### NORM and BARRIER (R76, R87) -/

/-- The sum of squares of the instance's chunks, in ascending chunk order. -/
def Inst.ownScalar (x : Inst) : Nat × Nat :=
  x.parts.foldl (fun a p => let r := fAdd x.wide a.1 p.2; (r.1, orF a.2 r.2)) (0, 0)

/-- The sum of the scalars of all gateways of the site, in ascending rank order. -/
def Inst.totalScalar (x : Inst) : Nat × Nat :=
  let gs := (x.group.atSite x.mySite)
  let byRank := (List.range gs.length).filterMap (fun r => gs.find? (fun y => x.group.rank y = r))
  match byRank.map (fun y => x.scalars.get (fun _ => 0) y) with
  | [] => (0, 0)
  | v :: vs => vs.foldl (fun a w => let r := fAdd x.wide a.1 w; (r.1, orF a.2 r.2)) (v, 0)

/-- When every scalar is held: writes the scalar register and completes the NORM. -/
def State.checkNorm (s : State) (g : Nat) : State :=
  match s.inst g with
  | none => s
  | some x =>
    if (x.group.atSite x.mySite).all (fun y => x.scalars.any (fun e => e.1 = y)) then
      let t := x.totalScalar
      let s := (s.setScalar x.desc.aux t.1).setInst g { x with flags := orF x.flags t.2 }
      s.finishInst g x t.1
    else s

/-- When every chunk of a NORM is complete: sends its scalar to the site peers. -/
def State.shareNorm (s : State) (g : Nat) (x : Inst) : State :=
  if x.scalars.any (fun e => e.1 = x.self) then s
  else
    let v := x.ownScalar
    let s := s.setInst g { x with scalars := x.scalars.insert x.self v.1, flags := orF x.flags v.2 }
    let msg := cleMsg 0x15 0 g x.number (v.1 / 0x100000000) 0 x.self (v.1 % 0x100000000)
    ((x.group.peers x.self).foldl (fun s y => s.sendFabricMsg (x.nodeOf y) msg) s).checkNorm g

/-- Whether ARRIVE is held from every gateway member. -/
def Inst.allArrived (x : Inst) : Bool := x.group.gateways.all (fun y => x.arrived.contains y)

/-! ### Completion of chunks -/

/-- Whether something of chunk `c` still waits to be sent to a site peer. -/
def Inst.outPending (x : Inst) (c : Nat) : Bool := x.out.any (fun o => o.2.any (fun e => e.1 = c))

/-- Marks finished chunks whose sends have gone as complete, and counts those that are owed as released (R101). -/
def Inst.closeChunks (x : Inst) : Inst :=
  x.chunks.foldl (fun x e =>
    if e.2.finished && !x.isDone e.1 && !x.outPending e.1 then
      { x with done := x.done ++ [e.1], released := x.released + b2n e.2.owed }
    else x) x

/-- Moves an instance on after any event: sends what may go, completes chunks, grants credit, and completes the
instance when all its chunks are complete. -/
def State.settle (s : State) (g : Nat) : State :=
  let s := s.flushOut g
  match s.inst g with
  | none => s
  | some x =>
    let x := x.closeChunks
    let s := (s.setInst g x).creditAll g
    match s.inst g with
    | none => s
    | some x =>
      if x.op = 0x0A then (if x.allArrived then s.finishInst g x 0 else s)
      else if x.done.length < x.chunkTotal then s
      else if x.op = 0x07 then s.shareNorm g x
      else s.finishInst g x 0

/-! ### Release of outputs (R50, R85, R102) -/

/-- Sets the bit of chunk `c` in an applied map. -/
def State.setMapBit (s : State) (n c : Nat) : State :=
  let a := s.workBase + areaMaps + n * 0x100000 + c / 8
  let b := s.gallery.get zeroByte a
  s.galWrite a [b ||| BitVec.ofNat 8 (2 ^ (c % 8))]

/-- Puts out an intermediate partial; without room in the retention part it is held back (R91). -/
def State.releasePartial (s : State) (g : Nat) (x : Inst) (c : Nat) (o : OutSet) : State :=
  let p := x.plan c
  let k := x.chunk c
  let line := p.out1.any x.overLine
  if line && s.pinnedFull (o.data.length * (p.out1.filter x.overLine).length) then s.setInst g (x.setChunk c { k with blocked := some o, held := none })
  else
    let k := { k with sent := true, held := none, blocked := none, acc := [], owed := k.owed,
                      own := if p.final then some (o.leaves, o.data) else none,
                      finished := k.finished || (!p.final && p.wait.isNone) }
    let s := s.setInst g (x.setChunk c k)
    let hdr := chunkHeader 1 o.fmt g x.number c x.self o.leaves o.data
    p.out1.foldl (fun s y => s.sendChunkTo g y true hdr o.data) s

/-- Puts out a final result: state and update, the result to its receivers, the delivery, or the sum of a NORM. -/
def State.releaseFinal (s : State) (g : Nat) (x : Inst) (c : Nat) (o : OutSet) : State :=
  let p := x.plan c
  let k := x.chunk c
  let step := decide (x.op = 0x06)
  let x := match o.norm with
    | some v => { x with parts := x.parts.insert c v }
    | none => x
  let x := { x.setChunk c { k with finished := true, held := none, acc := [], waiting := [], own := none, owed := decide (x.op ≠ 0x07) } with
             applied := x.applied + b2n step }
  let s := (s.setInst g x).unpin g x.number (some c)
  let s := o.writes.foldl (fun s w => s.galStore w.1 w.2) s
  let s := match (if step then x.mapSlot else none) with
    | some n => s.setMapBit n c
    | none => s
  let s := if p.deliver then s.deliver g x c { fmt := o.fmt, slot := x.self, leaves := o.leaves, data := o.data } else s
  let hdr := chunkHeader 2 o.fmt g x.number c x.self o.leaves o.data
  p.out2.foldl (fun s y => s.sendChunkTo g y false hdr o.data) s

/-- Releases the outputs of chunk `c`. -/
def State.release (s : State) (g c : Nat) (o : OutSet) : State :=
  match s.inst g with
  | none => s
  | some x => if o.isPartial then s.releasePartial g x c o else s.releaseFinal g x c o

end Sys2Proof.Machine
end

