-- ==== Sys2Proof/Machine/CollectiveOps.lean ====
section
/-! DEFINITION. What the commands of the collective engine share: the start of an instance, results, received chunks and
their tests, re-sends (04_collectives_and_flights.md R86-R98, R384, R385; 05_landing.md R111-R115). -/
namespace Sys2Proof.Machine

/-! ### Waiting packets -/

/-- Takes the first waiting packet that satisfies a test out of those handed over. -/
def State.takePacket (s : State) (p : Packet → Bool) : State := { s with delivered := s.delivered.eraseP p }

/-- Takes a waiting message of the line or of the fabric. -/
def State.takeMsg (s : State) (line : Bool) (msg : List Byte) : State :=
  s.takePacket (fun p => p.line = line && decide (p.ptype = 2) && decide (p.bytes = msg))

/-! ### Lanes in service (02_reduction_arithmetic.md R25, R26; 16_bring_up_and_image.md R316) -/

/-- Whether RUE `n` has come into service. -/
def State.rueIn (s : State) (n : Nat) : Bool := nfld s.rue.inService n 1 = 1

/-- Active fp32 sets of RUE `n`. -/
def State.activeSets (s : State) (n : Nat) : Nat :=
  if s.rueIn n then ((List.range 16).filter (fun i => !s.b (A.rueLaneStatus n) (16 + i))).length else 0

/-- Active fp64 groups of RUE `n`. -/
def State.activeGroups (s : State) (n : Nat) : Nat :=
  if s.rueIn n && s.licensed 1 then ((List.range 4).filter (fun i => !s.b (A.rueLane64Status n) (4 + i))).length else 0

/-- Whether some RUE has a set or group for the accumulation format. -/
def State.lanesFor (s : State) (wide : Bool) : Bool :=
  (List.range 4).any (fun n => decide (0 < (if wide then s.activeGroups n else s.activeSets n)))

/-! ### Check 5 of R73 -/

/-- Offsets of the conditions of R86, R89 and R384 that fail. -/
def State.badGroup (s : State) (d : Desc) (g : Group) (me : Nat) : List Nat :=
  let op := d.opcode
  let no := decide (d.localAddr = 0)
  let chunks := chunkCount d.inFmt d.elements
  let all := if chunks = 0 then 0 else (g.gateways.length - 1) * chunks * 65536 + spanOf d.inFmt d.inFmt d.elements
  (if op = 0x06 ∧ 1 < g.n1 me then [24] else []) ++
  (if [0x04, 0x05, 0x08, 0x09].contains op && !g.isGateway d.aux then [57] else []) ++
  (if opReduces op && g.localLeaf && no then [48] else []) ++
  (if op = 0x04 ∧ d.aux = me ∧ no = true ∧ (g.partition = false ∨ (g.contributors me).isEmpty = true) then [48] else []) ++
  (if op = 0x03 ∧ (no = true ∨ s.addrBad d.localAddr all = true) then [48] else []) ++
  (if s.isNewer d.group d.inst then [] else [60]) ++
  (if opReduces op && decide (g.expected = 0) then [24] else [])

/-! ### Start (R89, R90, R99, R102, R112, R114) -/

/-- The SR instance key (02_reduction_arithmetic.md R40). -/
def State.drawKey (s : State) (n : Nat) : Nat × State :=
  if s.b A.rueSrCtrl 0 then (Config.seedKey (s.reg64 A.rueSrSeedLo A.rueSrSeedHi) n, s)
  else
    let r := s.draw
    (Config.entropy r.1, r.2)

/-- Takes an applied map for a STEP: its slot is shown as running, and its bits are clear (R102). -/
def State.takeMap (s : State) (n g inst count : Nat) : State :=
  let a := s.workBase + areaMaps + n * 0x100000
  let s := { s with gallery := eraseRange s.gallery a 0x100000,
                    gal := { s.gal with poison := s.gal.poison.filter (fun e => !rangesMeet (e.1 * 64) 64 a 0x100000) } }
  let s := s.setReg (A.cleMapCtrl n) (BitVec.ofNat 32 (g + 0x10000000))
  (s.setReg (A.cleMapInst n) (BitVec.ofNat 32 inst)).setReg (A.cleMapCount n) (BitVec.ofNat 32 count)

/-- The reservation of an instance or its entry into spill mode: its buffers, and whether it is spilled. -/
def State.reserveFor (s : State) (cls g : Nat) (x : Inst) : Inst × State :=
  if x.op = 0x0A then (x, s)
  else if !s.lanesFor ((opReduces x.op || decide (x.op = 0x20)) && x.wide) then ({ x with spilled := true }, s)
  else
    let n := reservationSize (if x.op = 0x20 then 1 else x.streams)
      (if x.op = 0x20 then footprint (x.prog.code x.desc) else x.foot) x.desc.inFmt x.wide
    match s.reserve cls n g x.number with
    | (some bs, t) => ({ x with bufs := bs }, t)
    | (none, t) => ({ x with spilled := true }, t)

/-- Marks the chunks for which nothing happens at this gateway. -/
def Inst.closeEmpty (x : Inst) : Inst :=
  (List.range x.chunkTotal).foldl (fun x c => if (x.plan c).empty then x.setChunk c { x.chunk c with finished := true } else x) x

/-- Messages held for an instance of a group. -/
def State.heldFor (s : State) (g n : Nat) : List HeldMsg := s.cle.heldMsgs.filter (fun m => mGroup m.msg = g ∧ mInst m.msg = n)

/-- Discards the messages held for instances of a group up to `n`, with their buffers (R90). -/
def State.dropHeld (s : State) (g n : Nat) : State :=
  let old (m : HeldMsg) : Bool := decide (mGroup m.msg = g) && decide (sgn 32 (mInst m.msg + 0x100000000 - n) ≤ 0)
  let gone : List HeldMsg := s.cle.heldMsgs.filter old
  let s := { s with cle := { s.cle with heldMsgs := s.cle.heldMsgs.filter (fun m => !old m) } }
  s.freeAll clsMsg (gone.map (fun m => m.buf))

/-- Passes an ABORT to the own Flight 0 members and completes the open instance by it (R99, R101). -/
def State.abortedBy (s : State) (g : Nat) (msg : List Byte) : State :=
  match s.inst g with
  | none => s
  | some x =>
    let s := (x.group.contributors x.self).foldl (fun s y => s.sendFabricMsg (x.nodeOf y) msg) s
    s.endInst g (if mReason msg = 7 then stStepInvalid else stAborted) x.doneCount

/-- Takes a peer's scalar into an open NORM. -/
def State.takeScalar (s : State) (g : Nat) (msg : List Byte) : State :=
  match s.inst g with
  | none => s
  | some x =>
    let o := mOrigin msg
    if x.op = 0x07 ∧ o ∈ x.group.peers x.self ∧ x.scalars.any (fun e => e.1 = o) = false then
      let x := { x with scalars := x.scalars.insert o (mChunk msg * 0x100000000 + mValue msg), heard := x.heard.insert o s.mono }
      (s.setInst g x).checkNorm g
    else s

/-- Sends OPEN and, for a BARRIER, ARRIVE when an instance opens. -/
def State.openMsgs (s : State) (g : Nat) (x : Inst) : State :=
  let near := x.group.peers x.self
  let s := (x.group.contributors x.self ++ near).foldl
    (fun s y => s.sendFabricMsg (x.nodeOf y) (cleMsg 0x10 0 g x.number 0 0 x.self 0)) s
  if x.op = 0x0A then
    let m := cleMsg 0x14 0 g x.number 0 0 x.self 0
    let s := near.foldl (fun s y => s.sendFabricMsg (x.nodeOf y) m) s
    (x.group.counterparts x.self).foldl (fun s y => s.sendMsgTo (x.nodeOf y) m) s
  else s

/-- Opens an instance whose checks have passed. -/
def State.openInst (s : State) (q : Nat) (e : QEntry) (gr : Group) (me : Nat) : State :=
  let d : Desc := e.desc
  let g := d.group
  let late := s.lateStart d
  let s := s.beginEntry q e
  let r := s.drawKey d.inst
  let x : Inst :=
    { q := q, entry := e, late := late, group := gr, self := me, prog := if d.opcode = 0x06 then s.progCopy d else {},
      key := r.1, startedAt := s.mono, arrived := [me] }
  let r := r.2.reserveFor clsRes g x
  let map := if d.opcode = 0x06 then r.2.freeMap else none
  let x := { r.1 with mapSlot := map }.closeEmpty
  let s := match map with
    | some n => r.2.takeMap n g d.inst x.chunkTotal
    | none => r.2
  let s := { s with cle := { s.cle with last := s.cle.last.insert g d.inst, passed := s.cle.passed.filter (fun p => p.1 ≠ g ∨ p.2.1 = d.inst) } }
  let held := s.heldFor g d.inst
  let s := (s.setInst g x).dropHeld g d.inst
  let s := s.openMsgs g x
  match held.find? (fun m => beAt m.msg 0 1 = 0x13) with
  | some m => s.abortedBy g m.msg
  | none =>
    if x.lineTargets.any (fun y => (s.peerOf (x.nodeOf y)).isNone) then s.abortInst g 2
    else (held.foldl (fun s m => s.takeScalar g m.msg) s).settle g

/-- The start of a CLE command after check 1: checks 2 to 6, state lost, and the start itself (R73, R127). -/
def State.startCle (s : State) (q : Nat) (e : QEntry) : State :=
  let d : Desc := e.desc
  if s.check2 d then s.completeAtStart q e stLicenceAbsent d.group
  else
    match s.check3 d with
    | some off => s.completeAtStart q e stDescInvalid off
    | none =>
      match s.groupPoison areaEffective d.group with
      | some cw =>
        let r := (s.noteUncorrectable cw 6).logInternal q e.index 1
        r.2.completeAtStart q e stInternal r.1
      | none =>
        match s.effectiveGroup d.group with
        | none => s.completeAtStart q e stGroupInvalid d.group
        | some gr =>
          match s.mySlot gr with
          | none => s.completeAtStart q e stGroupInvalid d.group
          | some me =>
            match (s.badGroup d gr me).min? with
            | some off => s.completeAtStart q e stDescInvalid off
            | none =>
              if d.elements = 0 ∧ d.opcode ≠ 0x0A then s.completeAtStart q e stOkEmpty 0
              else
                match (if d.opcode = 0x06 then s.lostChunks d ((s.programOf d.prog).getD []) else none) with
                | some (first, n) => s.completeAtStart q e stStateLost (first + n * 0x100000000)
                | none => s.openInst q e gr me

/-- A RETRACT for an instance that has completed here: logged, and the error vector raised (R103). -/
def State.lateRetract (s : State) (g n origin : Nat) : State :=
  (s.bump (A.cleCnt 15)).logEvent { code := 0x0401, cls := .contained, reason := g, arg0 := n, arg1 := origin }

/-! ### Results and carried chunks (R85, R88, R115) -/

/-- Handles a result or a carried chunk whose turn has come: delivers it, sends it on, and finishes the chunk. -/
def State.useResult (s : State) (g c : Nat) (k : Carried) : State :=
  match s.inst g with
  | none => s
  | some x =>
    let p := x.plan c
    let ch := { x.chunk c with finished := true, carried := none, owed := true }
    let s := s.setInst g (x.setChunk c ch)
    let s := if p.deliver then s.deliver g x c k else s
    let hdr := chunkHeader 2 k.fmt g x.number c k.slot k.leaves k.data
    (p.out2 ++ p.forward).foldl (fun s y => s.sendChunkTo g y false hdr k.data) s

/-- Whether an instance takes its results in ascending order. -/
def Inst.inOrder (x : Inst) : Bool := x.spilled || decide (x.op = 0x09)

/-- Handles the results that wait for their turn. -/
def State.useWaiting (s : State) (g fuel : Nat) : State :=
  match fuel with
  | 0 => s
  | n + 1 =>
    match s.inst g with
    | none => s
    | some x =>
      match (x.chunk x.lowest).carried with
      | none => s
      | some k => ((s.useResult g x.lowest k).settle g).useWaiting g n

/-- Takes a result or a carried chunk: at once, or in its turn. -/
def State.takeResult (s : State) (g c : Nat) (k : Carried) : State :=
  match s.inst g with
  | none => s
  | some x =>
    if x.inOrder then
      let s := s.setInst g (x.setChunk c { x.chunk c with carried := some k })
      (s.settle g).useWaiting g x.chunkTotal
    else (s.useResult g c k).settle g

/-! ### Re-sends (R97, R98) -/

/-- The NODE_ID that sends chunk `c` of a slot to this gateway. -/
def Inst.senderOf (x : Inst) (c slot : Nat) : Nat :=
  let p := x.plan c
  if p.wait = some slot then x.nodeOf (p.via.getD slot) else x.nodeOf slot

/-- Ends the instance for a chunk whose check has failed for good. -/
def State.checkFailed (s : State) (g c : Nat) (decomp : Bool) : State :=
  s.failInst g 4 (if decomp then stDecompLen else stCheckFail) c

/-- Asks for a chunk again: `free` for the one request that does not count. -/
def State.askResend (s : State) (g c slot : Nat) (line decomp free : Bool) : State :=
  match s.inst g with
  | none => s
  | some x =>
    let old := x.resends.find? (fun r => r.chunk = c ∧ r.slot = slot)
    let count := (old.map (·.count)).getD 0
    if !free && decide (x.group.resendMax ≤ count) then s.checkFailed g c decomp
    else
      let node := x.senderOf c slot
      let wait := if line then s.rttNs node + 2000000 else 100000
      let r : Resend := { chunk := c, slot := slot, line := line, count := count + b2n (!free), decomp := decomp, due := s.mono + wait }
      let x := { x with resends := x.resends.filter (fun r => !(decide (r.chunk = c) && decide (r.slot = slot))) ++ [r] }
      let m := cleMsg 0x11 0 g x.number c slot x.self 0
      let s := (s.setInst g x).bump (A.cleCnt 7)
      if line then s.sendMsgTo node m else s.sendFabricMsg node m

/-! ### Received chunks (R385) -/

/-- Whether the data path of the instance brings a chunk of a slot here by the line or by the fabric (R95). -/
def Inst.expects (x : Inst) (line : Bool) (ctype c slot : Nat) : Bool :=
  let p := x.plan c
  let contribution := decide (ctype = 1) || decide (ctype = 3)
  let result := decide (ctype = 2) || decide (ctype = 4)
  let either := opCarries x.op && (contribution || result)
  decide (c < x.chunkTotal) && decide (slot < x.group.members.length) &&
    ((p.ins1.contains slot && decide (slot ≠ x.self) && !line && (contribution || either)) ||
     (p.ins2.contains slot && line && contribution) ||
     (decide (p.wait = some slot) && decide (((p.via.map x.overLine).getD false) = line) && (result || either)))

/-- FORMAT and logical length that an expected chunk must have (R36, R32). -/
def Inst.expectFmt (x : Inst) (c slot : Nat) : Nat × Nat :=
  let p := x.plan c
  let n := x.elems c
  if p.wait = some slot then (x.resultFmt, chunkBytes x.resultFmt n)
  else if x.isLeaf slot then (x.desc.inFmt, chunkBytes x.desc.inFmt n)
  else (x.desc.partFmt, partBytes x.desc.partFmt n)

/-- What the payload of a chunk decodes to (R92, R141). -/
def State.logicalOf (s : State) (h pay : List Byte) : Except DecompFail (List Byte) :=
  if hCoded h then decodeChunk s.reg (hLen h) pay else .ok pay

/-- A chunk that has passed all tests enters the instance. -/
def State.acceptChunk (s : State) (g : Nat) (x : Inst) (c slot : Nat) (h data : List Byte) : State :=
  let p := x.plan c
  let x := { x with winners := x.winners.insert (c * 1024 + slot) (hCrc h),
                    resends := x.resends.filter (fun r => !(decide (r.chunk = c) && decide (r.slot = slot))) }
  if p.wait = some slot ∨ opCarries x.op = true then
    (s.setInst g x).takeResult g c { fmt := hFmt h, slot := slot, leaves := hLeaves h, data := data }
  else if p.ins2.contains slot then
    let k := x.chunk c
    (s.setInst g (x.setChunk c { k with waiting := k.waiting ++ [(slot, hLeaves h, data)] })).settle g
  else (s.setInst g (x.accumulate c slot (hLeaves h) data)).settle g

/-- Test 7: decoding and CRC-64. -/
def State.checkChunk (s : State) (line : Bool) (g : Nat) (x : Inst) (c slot : Nat) (h pay : List Byte) : State :=
  let first := hCoded h && (decide (hType h = 1) || decide (hType h = 2))
  match s.logicalOf h pay with
  | .error e =>
    let s := ((s.bump (A.cleCnt 6)).bump (A.cmpCnt 5)).bumpIf (decide (e = .gen)) (A.cmpCnt 6)
    s.askResend g c slot line true first
  | .ok data =>
    if data.length ≠ hLen h ∨ crc64 data ≠ hCrc h then (s.bump (A.cleCnt 6)).askResend g c slot line false false
    else if hLen h ≠ (x.expectFmt c slot).2 then
      (if x.op = 0x09 then (s.bump (A.cleCnt 4)).abortInst g 5 else (s.bump (A.cleCnt 6)).askResend g c slot line false false)
    else s.acceptChunk g x c slot h data

/-- A chunk for an open instance: tests 3 to 7. -/
def State.testChunk (s : State) (line : Bool) (fibre g : Nat) (x : Inst) (h pay : List Byte) : State :=
  let c := hChunk h
  let slot := hSlot h
  let via := if (x.plan c).wait = some slot then (x.plan c).via.getD slot else slot
  let x := { x with heard := x.heard.insert via s.mono }
  let s := s.setInst g x
  if !x.expects line (hType h) c slot then
    let s := s.bump (A.cleCnt 4)
    if x.op = 0x09 ∧ slot = x.desc.aux ∧ x.chunkTotal ≤ c then s.abortInst g 5 else s
  else if !line && decide (x.granted.get (fun _ => 0) via ≤ c) then s.bump (A.dflFCnt fibre 9)
  else if hFmt h ≠ (x.expectFmt c slot).1 then (s.bump (A.cleCnt 11)).abortInst g 5
  else
    match x.winners.find? (fun w => w.1 = c * 1024 + slot) with
    | some w => (s.bump (A.cleCnt 0)).bumpIf (decide (w.2 ≠ hCrc h)) (A.cleCnt 1)
    | none => s.checkChunk line g x c slot h pay

/-- Keeps a chunk among the packets that wait. -/
def State.holdChunk (s : State) (line : Bool) (bytes : List Byte) : State :=
  { s with delivered := s.delivered ++ [{ line := line, node := 0, vc := 0, ptype := 1, bytes := bytes }] }

/-- A chunk as it arrives: tests 1 and 2, then the others (R385). A line chunk of an instance not yet open waits. -/
def State.receiveChunk (s : State) (line : Bool) (fibre : Nat) (bytes : List Byte) : State :=
  let h := bytes.take 32
  let g := hGroup h
  if bytes.length < 32 ∨ hcrcOk h = false then s.bump (A.cleCnt 5)
  else
    match s.inst g with
    | some x =>
      if x.number = hInst h then
        (if s.localReady x then s.testChunk line fibre g x h (bytes.drop 32) else s.holdChunk line bytes)
      else if s.isNewer g (hInst h) then (if line then s.holdChunk line bytes else s.bump (A.cleCnt 3))
      else s.bump (A.cleCnt 2)
    | none =>
      if s.isNewer g (hInst h) then (if line then s.holdChunk line bytes else s.bump (A.cleCnt 3))
      else s.bump (A.cleCnt 2)
/-- This gateway's own data of chunk `c`, read at LOCAL_ADDR (R85, R91). -/
def State.readOwn (s : State) (g c : Nat) : State :=
  match s.inst g with
  | none => s
  | some x =>
    let k := x.chunk c
    let d := x.desc
    let n := chunkBytes d.inFmt (x.elems c)
    if !(decide (c < x.chunkTotal) && x.readsLocal c && !k.got.contains x.self && k.carried.isNone && !k.finished && s.localReady x) then s
    else
      let a := addrOffset d.localAddr + c * 65536
      match (if addrGallery d.localAddr then s.firstPoison a n else none) with
      | some cw =>
        let s := s.noteUncorrectable cw 8
        let s := if s.locate (cw * 64) = Loc.state then s.invalidate (cw * 64) 64 else s
        s.checkFailed g c false
      | none =>
        let data := if addrGallery d.localAddr then s.galRead a n else s.hostRead (nfld d.localAddr 0 63 + c * 65536) n
        if opCarries x.op then
          s.takeResult g c { fmt := d.inFmt, slot := x.self, leaves := if x.op = 0x08 then 0 else 1, data := data }
        else (s.setInst g (x.accumulate c x.self 1 data)).settle g

end Sys2Proof.Machine
end

