-- ==== Sys2Proof/Machine/RueOps.lean ====
section
/-! DEFINITION. Shadow sampling, attribution of mismatches, suspicion, and the retirement of lanes
(02_reduction_arithmetic.md R25, R49-R52; 19_faults_and_spares.md R348, R349, R351, R352, R354). -/
namespace Sys2Proof.Machine

/-! ### Sampling in force (R49, R352) -/

/-- The band of 5 degrees that a temperature lies in (R351). -/
def bandOf (tj : Nat) : Nat := min 20 (tj / 5)

/-- Whether the override of R352 acts for a phase. -/
def State.guardActs (s : State) (phase : Nat) : Bool :=
  s.b A.errCtrl 8 &&
    ((s.b A.errHealth 0 && decide (bandOf s.tj = s.f A.errHealth 8 5)) || (s.b A.errHealth 1 && s.faults.patPhases.contains phase))

/-- A chunk boundary: the shadow control written takes effect, and the override is shown (R49, R352). -/
def State.chunkBoundary (s : State) (phase : Nat) : State :=
  ({ s with rue := { s.rue with shadow := s.reg A.rueShadowCtrl } }).setB A.errHealth 2 (s.guardActs phase)

/-- Whether samples are taken, and whether outputs are held for them. -/
def State.sampling (s : State) (phase : Nat) : Bool := bit s.rue.shadow 16 || s.guardActs phase
def State.checkedMode (s : State) (phase : Nat) : Bool := bit s.rue.shadow 8 || s.guardActs phase

/-! ### Suspicion (R351) -/

/-- Seven days and 24 hours in ns. -/
abbrev weekNs : Nat := 604800000000000
abbrev dayNs : Nat := 86400000000000
abbrev hourNs : Nat := 3600000000000

/-- Time in ns within the last seven days that Tj has lain in band `b`. -/
def State.bandTime (s : State) (b : Nat) : Nat :=
  let start := s.mono - weekNs
  let go := s.faults.bandLog.foldl (fun (a : Nat × Nat) e =>
    let t0 := max start e.2
    (if e.1 = b then a.1 + (a.2 - t0) else a.1, min a.2 t0)) (0, s.mono)
  go.1

/-- Mismatches of working lanes within the last seven days. -/
def State.recentMismatches (s : State) : List Mismatch := s.faults.history.filter (fun m => !s.elapsed m.time weekNs)

/-- Whether a list of mismatches involves two distinct lanes. -/
def twoLanes (ms : List Mismatch) : Bool :=
  match ms with
  | [] => false
  | m :: r => r.any (fun x => decide (x.f64 ≠ m.f64) || decide (x.lane ≠ m.lane))

/-- Whether band `b` makes the chip suspect. -/
def State.bandSuspect (s : State) (b : Nat) : Bool :=
  let ms := s.recentMismatches
  let here := ms.filter (fun m => m.band = b)
  let other := ((List.range 21).map (fun k => if k = b then 0 else s.bandTime k)).sum
  decide (3 ≤ here.length) && twoLanes here &&
    decide (10 * (ms.length - here.length) * max (s.bandTime b) hourNs ≤ here.length * max other hourNs)

/-- Notes a mismatch of a working lane and declares suspicion where R351 says so. -/
def State.noteMismatch (s : State) (m : LaneMismatch) (phase : Nat) : State :=
  let e : Mismatch := { band := bandOf s.tj, f64 := m.f64, lane := m.lane, hash := m.hash, phase := phase, time := s.mono }
  let s := { s with faults := { s.faults with history := s.recentMismatches ++ [e] } }
  let here : List Mismatch := s.faults.history.filter (fun x => x.band = e.band)
  let s :=
    if !s.b A.errHealth 0 && s.bandSuspect e.band then
      ((s.setB A.errHealth 0 true).setF A.errHealth 8 5 e.band).logEvent
        { code := 0x0105, cls := .suspect, reason := 1, arg0 := e.band, arg1 := here.length }
    else s
  let same : List Mismatch := s.faults.history.filter (fun x => x.hash = m.hash)
  if decide (3 ≤ same.length) && twoLanes same then
    let known := s.b A.errHealth 1 && decide (s.reg A.errPattern = BitVec.ofNat 32 m.hash)
    let phases := (same.map (fun x => x.phase)).eraseDups
    if known then { s with faults := { s.faults with patPhases := phases } }
    else if s.b A.errHealth 1 then s
    else
      let s := { s with faults := { s.faults with patPhases := phases } }
      ((s.setB A.errHealth 1 true).setReg A.errPattern (BitVec.ofNat 32 m.hash)).logEvent
        { code := 0x0105, cls := .suspect, reason := 2, arg0 := e.band, arg1 := same.length, arg2 := m.hash }
  else s

/-! ### Attribution (R349) -/

/-- The lane that sampled a lane: the shadow lane of its own set, or of the set that its fp64 lane lies in, or the spare that serves
in that shadow lane's place. -/
def State.shadowOf (s : State) (m : LaneMismatch) : Nat :=
  let set := if m.f64 then m.lane / 1024 * 4096 + (m.lane / 128 % 8 * 4 + m.lane % 64 / 16) * 128 else m.lane / 128 * 128
  if s.rue.lanesOut.contains (false, set + 65) then set + 64 else set + 65

/-- Mismatches of a lane within 24 h. -/
def State.laneCount (s : State) (f64 : Bool) (lane : Nat) : Nat :=
  (s.rue.mismatches.filter (fun e => decide (e.1 = f64) && decide (e.2.1 = lane) && !s.elapsed e.2.2 dayNs)).length

/-- Attributes a mismatch to a lane; the third within 24 h lets it be retired. -/
def State.attribute (s : State) (f64 : Bool) (lane : Nat) : State :=
  let kept := s.rue.mismatches.filter (fun e => !s.elapsed e.2.2 dayNs)
  let s := { s with rue := { s.rue with mismatches := kept ++ [(f64, lane, s.mono)] } }
  if decide (3 ≤ s.laneCount f64 lane) && !s.rue.lanesOut.contains (f64, lane) && !s.rue.retiring.any (fun r => decide (r.f64 = f64) && decide (r.index = lane)) then
    { s with rue := { s.rue with retiring := s.rue.retiring ++ [{ f64 := f64, index := lane, reason := 2 }] } }
  else s

/-- Attributes a mismatch by the outcome of its recompute. -/
def State.attributeAll (s : State) (m : LaneMismatch) (agree : Agreement) (phase : Nat) : State :=
  match agree with
  | .shadow => (s.attribute m.f64 m.lane).noteMismatch m phase
  | .lane => s.attribute false (s.shadowOf m)
  | .neither => ((s.attribute m.f64 m.lane).attribute false (s.shadowOf m)).noteMismatch m phase

/-! ### Retirement of lanes (R25, R349) -/

/-- Sets that are not retired. -/
def State.goodSets (s : State) : Nat :=
  ((List.range 64).filter (fun i => !s.b (A.rueLaneStatus (i / 16)) (16 + i % 16))).length

/-- Retires an fp32 set for lane `lane`: logged, recorded, and the criterion ARITH tested. -/
def State.retireSet (s : State) (r set lane reason : Nat) : State :=
  let s := s.setB (A.rueLaneStatus r) (16 + set) true
  let s := s.recordUnit 0x02 (r * 16 + set) (leBytes 4 reason)
  let s := s.logEvent { code := 0x0103, cls := .degraded, reason := reason, arg0 := s.laneCount false lane, arg1 := s.goodSets,
                        kind := 2, index := r * 16 + set }
  if s.goodSets < 32 then s.replaceCriterion 2 else s

/-- Retires a lane of an fp32 set: its spare takes its place, or the set is retired; a spare not in use is only lost. -/
def State.retireLane32 (s : State) (lane reason : Nat) : State :=
  let r := lane / 4096
  let set := lane / 128 % 32
  let s := s.recordUnit 0x01 lane (leBytes 4 reason)
  if s.b (A.rueLaneStatus r) (16 + set) then s
  else if lane % 128 = 64 ∧ s.b (A.rueLaneStatus r) set = false then s
  else if s.b (A.rueLaneStatus r) set || s.rue.lanesOut.contains (false, lane / 128 * 128 + 64) then s.retireSet r set lane reason
  else
    (s.setB (A.rueLaneStatus r) set true).logEvent
      { code := 0x0102, cls := .spared, reason := reason, arg0 := s.laneCount false lane, kind := 1, index := lane }

/-- Retires a lane of an fp64 group: its spare takes its place, or the group is retired; a spare not in use is only lost. -/
def State.retireLane64 (s : State) (lane reason : Nat) : State :=
  let r := lane / 1024
  let g := lane / 128 % 8
  let s := s.recordUnit 0x03 lane (leBytes 4 reason)
  if s.b (A.rueLane64Status r) (4 + g) then s
  else if lane % 128 = 64 ∧ s.b (A.rueLane64Status r) g = false then s
  else if s.b (A.rueLane64Status r) g || s.rue.lanesOut.contains (true, lane / 128 * 128 + 64) then
    let s := s.setB (A.rueLane64Status r) (4 + g) true
    s.logEvent { code := 0x0103, cls := .degraded, reason := reason, arg0 := s.laneCount true lane,
                 arg1 := ((List.range 16).filter (fun i => !s.b (A.rueLane64Status (i / 4)) (4 + i % 4))).length, kind := 3, index := lane }
  else
    (s.setB (A.rueLane64Status r) g true).logEvent
      { code := 0x0102, cls := .spared, reason := reason, arg0 := s.laneCount true lane, kind := 3, index := lane }

/-- Retires a lane for a reason. -/
def State.retireLane (s : State) (l : LaneOut) : State :=
  let s := { s with rue := { s.rue with lanesOut := s.rue.lanesOut ++ [(l.f64, l.index)] } }
  if l.f64 then s.retireLane64 l.index l.reason else s.retireLane32 l.index l.reason

/-! ### Landing errors (R348) -/

/-- A corrected error of a bank: the sixteenth within one hour retires it. -/
def State.bankCorrected (s : State) (n : Nat) : State :=
  let b := s.lnd.banks.getD n {}
  let times := b.corrected.filter (fun t => !s.elapsed t hourNs) ++ [s.mono]
  let s := { s with lnd := { s.lnd with banks := setAt s.lnd.banks n { b with corrected := times } } }
  if 16 ≤ times.length ∧ b.pool.isSome = true then (s.recordUnit 0x04 n (leBytes 4 2)).retireBank n else s

/-- An uncorrectable error of a bank retires it. -/
def State.bankFailed (s : State) (n : Nat) : State :=
  if (s.lnd.banks.getD n {}).pool.isSome then (s.recordUnit 0x04 n (leBytes 4 2)).retireBank n else s

end Sys2Proof.Machine
end

