-- ==== Sys2Proof/Machine/Chunks.lean ====
section
/-! DEFINITION. Commands of the chunks' arithmetic: receipt, the lanes' work, compares and recomputes, VSTEP, and the lanes
(02_reduction_arithmetic.md R24, R33-R52; 03_command_lists_and_step_programs.md R382; 04_collectives_and_flights.md R385;
06_gallery.md R125, R128; 19_faults_and_spares.md R348, R349). -/
namespace Sys2Proof.Machine

/-! ### Receipt -/

/-- Takes the chunk packet that waits with these bytes. -/
def State.takeChunk (s : State) (line : Bool) (bytes : List Byte) : State :=
  (s.takePacket (fun p => p.line = line && decide (p.ptype = 1) && decide (p.bytes = bytes))).wakeEvent

/-- A chunk from the fabric, from the line, or from this gateway's own memory. -/
def State.takeSource (s : State) (src : ChunkSource) : State :=
  match src with
  | .fabric f bytes => (s.takeChunk false bytes).receiveChunk false f bytes
  | .line bytes => (s.takeChunk true bytes).receiveChunk true 0 bytes
  | .own g c => s.readOwn g c

/-- CHUNK_RECEIVE (R385). -/
def execChunkReceive (src : ChunkSource) (s : State) : Host.Outcome State Fault Refusal := .next (s.takeSource src)

/-! ### The lanes' work on a chunk -/

/-- What the lanes can finish of a chunk. -/
inductive Stage where
  | none | part | final
  deriving DecidableEq, Repr

/-- The stage that chunk `c` has reached: its partial, or its final result (R33, R91, R115). -/
def Inst.stage (x : Inst) (c : Nat) : Stage :=
  let p := x.plan c
  let k := x.chunk c
  let all1 := p.ins1.all (fun y => k.got.contains y)
  if opCarries x.op ∨ x.op = 0x0A ∨ x.chunkTotal ≤ c ∨ k.finished = true ∨ k.held.isSome = true ∨ k.blocked.isSome = true then .none
  else if !p.out1.isEmpty && !k.sent then (if all1 then .part else .none)
  else if p.final && all1 && !(p.ins1.isEmpty && p.ins2.isEmpty) && p.ins2.all (fun y => k.waiting.any (fun w => w.1 = y)) &&
      (!x.spilled || decide (c = x.lowest)) then .final
  else .none

/-- The state of chunk `c` that a program reads and that cannot be read (06 R125 code 0x3, R128). -/
def State.statePoison (s : State) (x : Inst) (c : Nat) : Option Nat :=
  (stateRead (x.prog.code x.desc)).findSome? (fun k => s.firstPoison (x.stateAt c k) (x.stateLen c))

/-- A chunk whose state has been found lost: its units become invalid, and it writes and releases nothing (R128). -/
def State.loseState (s : State) (x : Inst) (c cw : Nat) : Inst × State :=
  let s := s.noteUncorrectable cw 3
  let s := (stateNamed (x.prog.code x.desc)).foldl (fun s k => s.invalidate (x.stateAt c k) (x.stateLen c)) s
  let first := match x.lostFirst with
    | some f => min f c
    | none => c
  ({ x.setChunk c { x.chunk c with finished := true, acc := [], waiting := [], own := none } with
     lostFirst := some first, lostLast := max x.lostLast c }, s)

/-- Puts out the outputs of a chunk, or holds them for their compares (R50): `o` as computed, `clean` as a recompute
gives them. -/
def State.putOut (s : State) (g c samples : Nat) (o clean : OutSet) : State :=
  match s.inst g with
  | none => s
  | some x =>
    let phase := Desc.phaseId x.entry.desc
    if 0 < samples ∧ s.sampling phase = true ∧ x.spilled = false then
      let held := s.checkedMode phase
      let m : Compare := { vstep := false, q := x.q, index := x.entry.index, group := g, inst := x.number, chunk := c,
                           isPartial := o.isPartial, left := samples, held := held }
      let s := { s with rue := { s.rue with compares := s.rue.compares ++ [m] } }
      if held then s.setInst g (x.setChunk c { x.chunk c with held := some (o, clean) })
      else (s.release g c o).settle g
    else (s.release g c o).settle g

/-- The lanes finish the partial of chunk `c`. -/
def State.partDone (s : State) (g c samples : Nat) (faults : List (Nat × Nat)) (x : Inst) : State :=
  let k := x.chunk c
  let o := x.partialOut c k.leaves (withFaults faults k.acc)
  let clean := x.partialOut c k.leaves k.acc
  (s.setInst g { x with flags := orF x.flags o.2 }).putOut g c samples o.1 clean.1

/-- The lanes finish the final result of chunk `c`. -/
def State.finalDone (s : State) (g c samples : Nat) (faults : List (Nat × Nat)) (x : Inst) : State :=
  if (x.chunk c).ownLost then s.checkFailed g c false
  else
    match (if x.op = 0x06 then s.statePoison x c else none) with
    | some cw =>
      let r := s.loseState x c cw
      (r.2.setInst g r.1).settle g
    | none =>
      match (x.mapSlot.bind (fun n => s.firstPoison (s.workBase + areaMaps + n * 0x100000 + c / 8) 1)) with
      | some cw => (s.noteUncorrectable cw 6).internalInst g 1
      | none =>
        let d := s.draw
        let s := d.2
        let r := x.reduced c d.1
        if r.1 ≠ x.finalLeaves then s.abortInst g 5
        else
          let o := s.finalOut x c r.1 (withFaults faults r.2.1)
          let clean := s.finalOut x c r.1 r.2.1
          (s.setInst g { x with flags := orF x.flags (orF r.2.2 o.2) }).putOut g c samples o.1 clean.1

/-- The lanes finish what they can of chunk `c` of the open instance of a group (R19, R33-R51). -/
def State.chunkDone (s : State) (g c samples : Nat) (faults : List (Nat × Nat)) (ecc : LandingEcc) : State :=
  match s.inst g with
  | none => s
  | some x =>
    if x.stage c = .none ∨ s.localReady x = false ∨ s.computeRuns = false then s
    else
      let s := s.chunkBoundary (Desc.phaseId x.entry.desc)
      match ecc with
      | .uncorrectable b => (s.bankFailed b).internalInst g 2
      | .corrected b => if x.stage c = .part then (s.bankCorrected b).partDone g c samples faults x else (s.bankCorrected b).finalDone g c samples faults x
      | .clean => if x.stage c = .part then s.partDone g c samples faults x else s.finalDone g c samples faults x

/-- CHUNK_ARITHMETIC_DONE. -/
def execChunkArithmeticDone (group : Fin 4096) (chunk samples : Nat) (faults : List (Nat × Nat)) (ecc : LandingEcc) (s : State) :
    Host.Outcome State Fault Refusal := .next (s.chunkDone group chunk samples faults ecc)

/-! ### VSTEP (03 R73, R382; 06 R125, R128) -/

/-- Writes of a part of an operand in its own chunk layout: elements `e0` to `e0 + n - 1` of `total` elements in format
`code`, chunk by chunk from chunk `k` on (R30, R32, R382). -/
def operandWrites (base code total e0 n k fuel : Nat) (elems scales : List Byte) : List (Nat × List Byte) :=
  match fuel with
  | 0 => []
  | m + 1 =>
    let l := layoutOf code
    let lo := max e0 (k * l.full)
    let hi := min (e0 + n) ((k + 1) * l.full)
    if hi ≤ lo then []
    else
      let a := base + k * 65536
      let nk := chunkElems code total k
      let blocks := cdiv (hi - lo) l.block
      let size := l.block * l.bits / 8
      let eb := (elems.drop ((lo - e0) / l.block * size)).take (blocks * size)
      let sb := (scales.drop ((lo - e0) / l.block * l.scale)).take (blocks * l.scale)
      let used := cdiv nk l.block * (size + l.scale)
      let pad := if hi = (k + 1) * l.full ∧ used < 65536 then [(a + used, List.replicate (65536 - used) 0)] else []
      [(a + (lo - k * l.full) / l.block * size, eb)] ++
        (if l.scale = 0 then [] else [(a + cdiv nk l.block * size + (lo - k * l.full) / l.block * l.scale, sb)]) ++ pad ++
        operandWrites base code total e0 n (k + 1) m elems scales

/-- A VSTEP in flight, by its queue and entry. -/
def State.vstep (s : State) (q i : Nat) : Option Inst := s.cle.vsteps.find? (fun x => x.q = q ∧ x.entry.index = i)

def State.setVstep (s : State) (x : Inst) : State :=
  { s with cle := { s.cle with vsteps := updFirst (fun y => y.q = x.q ∧ y.entry.index = x.entry.index) (fun _ => x) s.cle.vsteps } }

/-- Completes a VSTEP: its buffers return, then its record is written. -/
def State.endVstep (s : State) (x : Inst) (status detail : Nat) : State :=
  let s := { s with cle := { s.cle with vsteps := s.cle.vsteps.filter (fun y => !(decide (y.q = x.q) && decide (y.entry.index = x.entry.index))) } }
  (s.freeAll clsVstep x.bufs).completeStarted x.q x.entry status x.flags x.late detail

/-- Completes a VSTEP whose chunks are all complete. -/
def State.settleVstep (s : State) (x : Inst) : State :=
  if x.done.length < x.chunkTotal then s.setVstep x
  else
    match x.internal, x.lostFirst with
    | some cause, _ =>
      let r := s.logInternal x.q x.entry.index cause
      r.2.endVstep x stInternal r.1
    | none, some c => s.endVstep x stStateLost (c + (x.lostLast + 1 - c) * 0x100000000)
    | none, none => s.endVstep x (if x.spilled then stOkSpilled else stOk) 0

/-- Writes the outputs of a VSTEP's chunk. -/
def State.releaseVstep (s : State) (x : Inst) (c : Nat) (o : OutSet) : State :=
  let s := o.writes.foldl (fun s w => s.galStore w.1 w.2) s
  let x := match o.norm with
    | some v => { x with parts := x.parts.insert c v }
    | none => x
  s.settleVstep { x.setChunk c { x.chunk c with finished := true, held := none } with done := x.done ++ [c], applied := x.applied + 1 }

/-- The outputs of a VSTEP's chunk from its operand. -/
def State.vstepOut (s : State) (x : Inst) (c : Nat) (acc : List Nat) : OutSet × Nat :=
  let d := x.desc
  let r := s.runProgram x c acc
  let e0 := c * (layoutOf d.inFmt).full
  let n := x.elems c
  let u := operandWrites d.uAddr d.outFmt d.elements e0 n (e0 / (layoutOf d.outFmt).full) (n / (layoutOf d.outFmt).full + 2) r.update.elems r.update.scales
  ({ isPartial := false, leaves := 0, fmt := d.outFmt, data := [], writes := r.state.map (fun w => (w.1, w.2.elems)) ++ u, norm := r.sum }, r.flags)

/-- The lanes finish chunk `c` of a VSTEP. -/
def State.vstepChunk (s : State) (q i c samples : Nat) (faults : List (Nat × Nat)) : State :=
  match s.vstep q i with
  | none => s
  | some x =>
    let d := x.desc
    let k := x.chunk c
    if x.chunkTotal ≤ c ∨ x.isDone c = true ∨ k.held.isSome = true ∨ (x.spilled = true ∧ c ≠ x.lowest) ∨ s.computeRuns = false then s
    else
      let phase := Desc.phaseId x.entry.desc
      let s := s.chunkBoundary phase
      let a := addrOffset d.localAddr + c * 65536
      let n := chunkBytes d.inFmt (x.elems c)
      let xp := s.firstPoison a n
      let sp := s.statePoison x c
      if xp.isSome ∨ sp.isSome then
        let r := match sp with
          | some cw => s.loseState x c cw
          | none => (x, s)
        let s := match xp with
          | some cw =>
            let t := r.2.noteUncorrectable cw 8
            if t.locate (cw * 64) = Loc.state then t.invalidate (cw * 64) 64 else t
          | none => r.2
        let x := { r.1 with done := r.1.done ++ [c], internal := if xp.isSome then some 3 else r.1.internal }
        s.settleVstep x
      else
        let op := decodeElems x.wide d.inFmt (x.elems c) (s.galRead a n)
        let o := s.vstepOut x c (withFaults faults op.1)
        let clean := s.vstepOut x c op.1
        let x := { x with flags := orF x.flags (orF op.2 o.2) }
        if 0 < samples ∧ s.sampling phase = true ∧ x.spilled = false then
          let held := s.checkedMode phase
          let m : Compare := { vstep := true, q := q, index := i, group := 0, inst := i, chunk := c, isPartial := false,
                               left := samples, held := held }
          let s := { s with rue := { s.rue with compares := s.rue.compares ++ [m] } }
          if held then s.setVstep (x.setChunk c { k with held := some (o.1, clean.1) }) else (s.setVstep x).releaseVstep x c o.1
        else (s.setVstep x).releaseVstep x c o.1

/-- VSTEP_CHUNK_DONE. -/
def execVstepChunkDone (q : Fin 64) (index : Word) (chunk samples : Nat) (faults : List (Nat × Nat)) (s : State) :
    Host.Outcome State Fault Refusal := .next (s.vstepChunk q index.toNat chunk samples faults)

/-- Opens a VSTEP whose checks have passed (R69, R111, R112). -/
def State.openVstep (s : State) (q : Nat) (e : QEntry) : State :=
  let late := s.lateStart e.desc
  let s := s.beginEntry q e
  let r := s.drawKey e.index
  let x : Inst :=
    { q := q, entry := e, late := late, group := { partition := false, localLeaf := false, vc := 0, resendMax := 0, progressUs := 0, members := [] },
      self := 0, prog := s.progCopy e.desc, key := r.1, startedAt := s.mono }
  let r := r.2.reserveFor clsVstep 0 x
  { r.2 with cle := { r.2.cle with vsteps := r.2.cle.vsteps ++ [r.1] } }

/-- The start of a VSTEP after check 1. -/
def State.startVstep (s : State) (q : Nat) (e : QEntry) : State :=
  let d : Desc := e.desc
  if s.check2 d then s.completeAtStart q e stLicenceAbsent 0
  else
    match s.check3 d with
    | some off => s.completeAtStart q e stDescInvalid off
    | none =>
      if d.elements = 0 then s.completeAtStart q e stOkEmpty 0
      else
        match s.lostChunks d ((s.programOf d.prog).getD []) with
        | some (first, n) => s.completeAtStart q e stStateLost (first + n * 0x100000000)
        | none => s.openVstep q e

/-- VSTEP: the oldest entry of a queue starts, when it may and is one. -/
def execVstep (q : Fin 64) (s : State) : Host.Outcome State Fault Refusal :=
  .next (s.startRow q 0x20 (fun e => s.startVstep q e))

/-! ### Compares and recomputes (R49-R52) -/

/-- Removes compare `n`. -/
def State.dropCompare (s : State) (n : Nat) : State :=
  { s with rue := { s.rue with compares := s.rue.compares.eraseIdx n } }

/-- Releases outputs that were held: as computed, or as recomputed. -/
def State.releaseHeld (s : State) (m : Compare) (clean : Bool) : State :=
  let pick (h : OutSet × OutSet) : OutSet := if clean then h.2 else h.1
  if m.vstep then
    match s.vstep m.q m.index with
    | some x =>
      match (x.chunk m.chunk).held with
      | some h => s.releaseVstep x m.chunk (pick h)
      | none => s
    | none => s
  else
    match s.inst m.group with
    | some x =>
      if x.number = m.inst then
        match (x.chunk m.chunk).held with
        | some h => (s.release m.group m.chunk (pick h)).settle m.group
        | none => s
      else s
    | none => s

/-- One compare ends; when the last is equal and nothing differed, held outputs are released. -/
def State.compareDone (s : State) (n : Nat) (result : Option LaneMismatch) : State :=
  match s.rue.compares[n]? with
  | none => s
  | some m =>
    if m.left = 0 then s
    else
      let m := { m with left := m.left - 1, bad := m.bad ++ result.toList }
      if m.left = 0 ∧ m.bad.isEmpty = true then (s.dropCompare n).releaseHeld m false
      else { s with rue := { s.rue with compares := setAt s.rue.compares n m } }

/-- SHADOW_COMPARE_DONE. -/
def execShadowCompareDone (n : Nat) (result : Option LaneMismatch) (s : State) : Host.Outcome State Fault Refusal :=
  .next (s.compareDone n result)

/-- Whether the command of a compare is in flight. -/
def State.compareOpen (s : State) (m : Compare) : Bool :=
  if m.vstep then (s.vstep m.q m.index).isSome
  else
    match s.inst m.group with
    | some x => decide (x.number = m.inst)
    | none => false

/-- Whether the outputs of a compare are still held. -/
def State.stillHeld (s : State) (m : Compare) : Bool :=
  m.held && (if m.vstep then ((s.vstep m.q m.index).map (fun x => (x.chunk m.chunk).held.isSome)).getD false
             else s.compareOpen m && ((s.inst m.group).map (fun x => (x.chunk m.chunk).held.isSome)).getD false)

/-- Whether a RETRACT may still be issued for a released result: in flight, or completed at most 2 us ago (R52). -/
def State.mayRetract (s : State) (m : Compare) : Bool :=
  !m.held && (s.compareOpen m || (!m.vstep && decide (s.lastInst m.group = some m.inst) && !s.elapsed (s.cle.ended.get (fun _ => 0) m.group) 2001))

/-- Issues a RETRACT (R51, R103). -/
def State.retract (s : State) (m : Compare) : State :=
  if m.vstep then
    match s.vstep m.q m.index with
    | some x => s.endVstep x stStepInvalid x.applied
    | none => s
  else
    match (if s.compareOpen m then s.inst m.group else none) with
    | some x => s.failInst m.group 7 stStepInvalid x.doneCount
    | none =>
      match s.effectiveGroup m.group with
      | none => s
      | some gr =>
        match s.mySlot gr with
        | none => s
        | some me => (s.decideAbort m.group gr me m.inst 7).lateRetract m.group m.inst me

/-- The REASON of a mismatch's entry: its outcome. -/
def mismatchOutcome (held : Bool) (agree : Agreement) : Nat :=
  match agree with
  | .shadow => if held then 0 else 1
  | .lane => 2
  | .neither => 3

/-- Logs and attributes one mismatch (R51, R349, R351). -/
def State.logMismatch (s : State) (m : Compare) (agree : Agreement) (held retracted : Bool) (phase : Nat) (b : LaneMismatch) : State :=
  let s := s.logEvent
    { code := 0x0101, cls := if retracted then .contained else .corrected, reason := mismatchOutcome held agree, arg0 := m.group,
      arg1 := m.inst, arg2 := m.chunk * 0x100000000 + b.element, arg3 := b.hash, kind := if b.f64 then 3 else 1, index := b.lane, phase := phase }
  s.attributeAll b agree phase

/-- The phase of the command of a compare. -/
def State.comparePhase (s : State) (m : Compare) : Nat :=
  if m.vstep then ((s.vstep m.q m.index).map (fun x => Desc.phaseId x.entry.desc)).getD 0
  else ((s.inst m.group).map (fun x => Desc.phaseId x.entry.desc)).getD 0

/-- The recompute after mismatches ends: the chunk is replaced, retracted, or stands. -/
def State.recomputeDone (s : State) (n : Nat) (agree : Agreement) : State :=
  match s.rue.compares[n]? with
  | none => s
  | some m =>
    if m.left ≠ 0 ∨ m.bad.isEmpty = true then s
    else
      let held := s.stillHeld m
      let wrong := decide (agree ≠ .lane)
      let retracted := wrong && s.mayRetract m
      let phase := s.comparePhase m
      let s := m.bad.foldl (fun s b => s.logMismatch m agree held retracted phase b) (s.dropCompare n)
      if held then s.releaseHeld m wrong
      else if retracted then s.retract m
      else s

/-- CHUNK_RECOMPUTE_DONE. -/
def execChunkRecomputeDone (n : Nat) (agree : Agreement) (s : State) : Host.Outcome State Fault Refusal :=
  .next (s.recomputeDone n agree)

/-! ### Lanes -/

/-- The oldest retirement that waits takes place. -/
def State.retireNext (s : State) : State :=
  match s.rue.retiring with
  | [] => s
  | l :: r => ({ s with rue := { s.rue with retiring := r } }).retireLane l

/-- LANE_RETIRE (R25, R349). -/
def execLaneRetire (s : State) : Host.Outcome State Fault Refusal := .next s.retireNext

/-- A write of RUE_SHADOW_CTRL: stored with the nearer limit; ENABLE = 0 is logged (R49). -/
def State.writeShadowCtrl (s : State) (value : Word) : State :=
  let v := setFld (value &&& 0x0001011F#32) 0 5 (clamp 6 16 (fld value 0 5))
  let s := (s.setReg A.rueShadowCtrl v).wakeEvent
  if bit value 16 then s else s.logEvent { code := 0x0104, cls := .info }

/-- RUE_SHADOW_CTRL_WRITE. -/
def execRueShadowCtrlWrite (value : Word) (s : State) : Host.Outcome State Fault Refusal := .next (s.onAccess A.rueShadowCtrl (fun s => s.writeShadowCtrl value))

end Sys2Proof.Machine
end

