-- ==== Sys2Proof/Machine/Transfers.lean ====
section
/-! DEFINITION. Commands of the transfer engine: COPY, FILL and the end of a transfer
(03_command_lists_and_step_programs.md R74; 05_landing.md R110; 06_gallery.md R125-R127; 18_host_interface.md R331, R333). -/
namespace Sys2Proof.Machine

/-! ### Bytes -/

/-- `dst` with the `n` bytes from `b` replaced by those of `src` from `a`. -/
def moveSparse (src dst : Sparse Byte) (a b n : Nat) : Sparse Byte :=
  (src.filter (fun e => decide (a ≤ e.1) && decide (e.1 < a + n))).foldl (fun m e => m.insert (e.1 - a + b) e.2) (eraseRange dst b n)

/-- The poisoned codewords that a write of a range leaves poisoned (R121). -/
def State.poisonAfter (s : State) (a n : Nat) : Sparse Bool :=
  s.gal.poison.filter (fun e => !(decide (a ≤ e.1 * 64) && decide (e.1 * 64 + 64 ≤ a + n)))

/-- The memory that an address of R71 names. -/
def State.memOf (s : State) (addr : Nat) : Sparse Byte := if addrGallery addr then s.gallery else s.hostMem

/-- The offset or bus address that an address of R71 names. -/
def placeOf (addr : Nat) : Nat := if addrGallery addr then addrOffset addr else nfld addr 0 63

/-- Replaces the memory that an address names, `n` bytes of it having been written there. -/
def State.setMem (s : State) (addr n : Nat) (m : Sparse Byte) : State :=
  if addrGallery addr then { s with gallery := m, gal := { s.gal with poison := s.poisonAfter (addrOffset addr) n } }
  else { s with hostMem := m }

/-- Copies `n` bytes between addresses of R71. -/
def State.copyBytes (s : State) (src dst n : Nat) : State :=
  s.setMem dst n (moveSparse (s.memOf src) (s.memOf dst) (placeOf src) (placeOf dst) n)

/-- Fills `n` bytes with a 32-bit pattern, low byte first. -/
def State.fillBytes (s : State) (dst n pattern : Nat) : State :=
  let m := eraseRange (s.memOf dst) (placeOf dst) n
  let m := if pattern % 0x100000000 = 0 then m
    else Sparse.putList zeroByte m (placeOf dst) ((List.replicate (n / 4) (leBytes 4 pattern)).flatten)
  s.setMem dst n m

/-! ### Start -/

/-- The transfer buffers: their number, or how many could be had. -/
def State.takeXfer (s : State) (n : Nat) : List Nat × State × Bool :=
  match n with
  | 0 => ([], s, true)
  | k + 1 =>
    match s.alloc clsXfe 262144 with
    | (none, s) => ([], s, false)
    | (some b, s) =>
      let (bs, s, ok) := s.takeXfer k
      (b :: bs, s, ok)

/-- Starts a transfer with its buffers, or completes it with LANDING_FULL (R110). -/
def State.openXfer (s : State) (q : Nat) (e : QEntry) (need : Nat) : State :=
  let late := s.lateStart e.desc
  match s.takeXfer need with
  | (bs, s, true) =>
    let s := s.beginEntry q e
    { s with cle := { s.cle with xfers := s.cle.xfers ++ [{ q := q, entry := e, late := late, bufs := bs }] } }
  | (bs, s, false) =>
    let s := s.freeAll clsXfe bs
    let s := s.logEvent { code := 0x0201, cls := .info, reason := clsXfe, arg0 := 0, arg1 := e.index, arg2 := need * 0x100000000 + bs.length }
    s.completeAtStart q e stLandingFull 0

/-- The first invalid state unit that a COPY's source touches, and the count to the last (R127). -/
def State.lostSource (s : State) (d : Desc) : Option (Nat × Nat) :=
  if d.opcode = 0x40 ∧ addrGallery d.src = true then
    (s.invalidIn (addrOffset d.src) d.bytes).map (fun u => (u.1, u.2 + 1 - u.1))
  else none

/-- The start of a COPY or FILL after check 1. -/
def State.startXfe (s : State) (q : Nat) (e : QEntry) (need : Nat) : State :=
  let d : Desc := e.desc
  match s.check3x d with
  | some off => s.completeAtStart q e stDescInvalid off
  | none =>
    if d.bytes = 0 then s.completeAtStart q e stOkEmpty 0
    else
      match s.lostSource d with
      | some (first, n) => s.completeAtStart q e stStateLost (first + n * 0x100000000)
      | none => s.openXfer q e need

/-- COPY: the oldest entry of a queue starts, when it may and is one. -/
def execCopy (q : Fin 64) (s : State) : Host.Outcome State Fault Refusal :=
  .next (s.startRow q 0x40 (fun e => s.startXfe q e 2))

/-- FILL: the oldest entry of a queue starts, when it may and is one. -/
def execFill (q : Fin 64) (s : State) : Host.Outcome State Fault Refusal :=
  .next (s.startRow q 0x41 (fun e => s.startXfe q e 1))

/-! ### End -/

/-- Completes a transfer: its buffers return, then its record is written. -/
def State.endXfer (s : State) (x : Xfer) (status detail : Nat) : State :=
  let s := { s with cle := { s.cle with xfers := s.cle.xfers.filter (fun y => !(decide (y.q = x.q) && decide (y.entry.index = x.entry.index))) } }
  (s.freeAll clsXfe x.bufs).completeStarted x.q x.entry status 0 x.late detail

/-- State units that a Gallery range covers whole. -/
def State.unitsCovered (s : State) (a n : Nat) : List Nat :=
  (s.unitsIn a n).filter (fun u => decide (a ≤ s.stateBase + u * 0x10000) && decide (s.stateBase + u * 0x10000 + 0x10000 ≤ a + n))

/-- A COPY that has written `n` bytes and then failed (R125, R126, R333). -/
def State.copyFailed (s : State) (x : Xfer) (n : Nat) (host : Bool) : State :=
  let d : Desc := x.entry.desc
  let s := s.copyBytes d.src d.dst n
  let s := if addrGallery d.dst then s.invalidate (addrOffset d.dst) n else s
  let s := if host then s.emit (.aer 2) else s
  let r := s.logInternal x.q x.entry.index (if host then 4 else 5)
  r.2.endXfer x stInternal r.1

/-- A COPY that has moved all its bytes: the state units it covers become valid (R126). -/
def State.copyDone (s : State) (x : Xfer) : State :=
  let d : Desc := x.entry.desc
  let s := s.copyBytes d.src d.dst d.bytes
  let s := if addrGallery d.dst then (s.unitsCovered (addrOffset d.dst) d.bytes).foldl (fun s u => s.setUnit u true) s else s
  s.endXfer x stOk 0

/-- The end of a transfer. A host read that fails does so after `hostFail` bytes. -/
def State.transferDone (s : State) (q i : Nat) (hostFail : Option Nat) : State :=
  match s.cle.xfers.find? (fun x => x.q = q ∧ x.entry.index = i) with
  | none => s
  | some x =>
    let d : Desc := x.entry.desc
    let copy := decide (d.opcode = 0x40)
    let needsHost := (copy && !addrGallery d.src) || !addrGallery d.dst
    if (needsHost && !s.busMaster) || !s.computeRuns then s
    else if !copy then (s.fillBytes d.dst d.bytes d.pattern).endXfer x stOk 0
    else if addrGallery d.src then
      match s.firstPoison (addrOffset d.src) d.bytes with
      | none => s.copyDone x
      | some cw =>
        let s := s.noteUncorrectable cw 8
        let s := if s.locate (cw * 64) = Loc.state then s.invalidate (cw * 64) 64 else s
        s.copyFailed x (cw * 64 - addrOffset d.src) false
    else
      match hostFail with
      | some n => if n < d.bytes then s.copyFailed x n true else s.copyDone x
      | none => s.copyDone x

/-- XFE_TRANSFER_DONE. -/
def execXfeTransferDone (q : Fin 64) (index : Word) (hostFail : Option Nat) (s : State) : Host.Outcome State Fault Refusal :=
  .next (s.transferDone q index.toNat hostFail)

end Sys2Proof.Machine
end

