-- ==== Sys2Proof/Machine/Modes.lean ====
section
/-! DEFINITION. What the lifecycle state, the debug level and the power state allow together, erasure of the line keys,
alarms, and entry to SAFE (11_line_cipher.md R217-R219; 15_power_and_thermal.md R295;
17_lifecycle_debug_power_states.md R317, R325-R327; 20_pins_package_electrical.md R371). -/
namespace Sys2Proof.Machine

/-! ### Lifecycle, debug and power (R317, R325-R327) -/

/-- The lifecycle state: the last one either of whose fuse bits is blown. 0 MANUFACTURE, 1 PROVISION, 2 FIELD, 3 RETURN. -/
def Fuses.lifeState (f : Fuses) : Nat :=
  (List.range 4).foldl (fun a i => if f.lifecycle.getD (2 * i) false || f.lifecycle.getD (2 * i + 1) false then i else a) 0

def State.lcState (s : State) : Nat := s.boot.fuses.lifeState

/-- TOP_DBG_STATUS.LEVEL: 0 CLOSED, 1 CUSTOMER, 2 VENDOR. -/
def State.dbgLevel (s : State) : Nat := s.f A.topDbgStatus 0 2

/-- Whether reduced service has begun (R298). -/
def State.inService (s : State) : Bool := decide (s.f A.bootStatus 8 2 ≠ 0)

/-- Whether line keys may be present (R325-R327). -/
def State.keysAllowed (s : State) : Bool :=
  decide (s.lcState = 2) && decide (s.dbgLevel ≠ 2) &&
    (match s.power.state with
     | .service => true
     | .bringup => s.inService
     | .off => false
     | .ao => false
     | .reset => false
     | .safe => false)

/-- Alarm sources that the lifecycle state and the debug level arm (R325), as a bit mask. -/
def armedLife (lc dbg : Nat) : Nat :=
  match lc with
  | 0 => 0x008
  | 1 => 0x02E
  | 2 => if dbg = 2 then 0x0EF else 0x1FF
  | _ => 0x00E

/-- Alarm sources that the power state lets be armed (R326). -/
def State.armedPower (s : State) : Nat :=
  match s.power.state with
  | .off => 0
  | .ao => 0x00B
  | .reset => 0x00F
  | .safe => 0x00F
  | .bringup => if s.inService then 0x1FF else 0x02F
  | .service => 0x1FF

/-- The armed set in force (SEC_ALARM_ARMED). -/
def State.alarmArmed (s : State) : Nat := Nat.land (armedLife s.lcState s.dbgLevel) s.armedPower

/-! ### Alarms and erasure (R217-R219, R371) -/

/-- Drives the alarm outputs. -/
def State.showAlarm (s : State) : State :=
  let latch := s.f A.secAlarmLatch 0 9
  { s with pins := { s.pins with alarmN := decide (latch ≠ 0) || decide (s.power.state = .safe),
                                 alarmAoN := decide (latch % 16 ≠ 0) && decide (s.power.state ≠ .off) } }

/-- Whether any route towards a peer entry has a sending key. -/
def State.anyKey (s : State) (e : Nat) : Bool := (List.range 8).any (s.keyed e)

/-- Notes the peer entries that have lost their last sending key since `before`. -/
def State.noteKeyLoss (s before : State) : State :=
  (List.range 64).foldl (fun s e =>
    if before.anyKey e && !s.anyKey e then
      { s with sec := { s.sec with keyLost := s.sec.keyLost.insert e s.mono } } else s) s

/-- Withdraws cells and lets held streams go on after any port's or key's state has changed (R201, R200). -/
def State.routesChanged (s : State) : State := s.withdraw.feedAll

/-- Clears the staging registers of keys. -/
def State.clearStaging (s : State) : State :=
  (List.range 8).foldl (fun s k => s.setReg (A.secKey k) 0) (s.setReg A.secSalt 0)

/-- Erases every key, salt and epoch of every slot and the staging registers; the verification follows (R217, R218). -/
def State.eraseKeys (s : State) : State :=
  let t := ({ s with sec := { s.sec with sas := [], erasing := true, retried := false } }).clearStaging
  (t.noteKeyLoss s).routesChanged

/-- Latches the given alarm sources that are armed, and erases the keys for them (R217). -/
def State.latchAlarms (s : State) (asserted : Nat) : State :=
  let hit := Nat.land asserted s.alarmArmed
  if hit = 0 then s
  else (s.setF A.secAlarmLatch 0 9 (Nat.lor (s.f A.secAlarmLatch 0 9) hit)).eraseKeys.showAlarm

/-- A source that asserts for a moment: 4 CORE, 6 DEBUG, 7 LIFECYCLE, 8 HOST. -/
def State.pulseAlarm (s : State) (src : Nat) : State := s.latchAlarms (2 ^ src)

/-- Applies the sources that stay asserted, as after any change of the armed set. -/
def State.checkAlarms (s : State) : State := s.latchAlarms (s.f A.secAlarmStatus 0 9)

/-! ### Entries that end with INTERNAL together (R295, R318, R350) -/

/-- Completes with INTERNAL every started entry of the queues that `p` names. -/
def State.stopStarted (s : State) (p : Nat → Bool) : State :=
  let s := (s.cle.insts.filter (fun i => p i.2.q)).foldl (fun s i =>
    let (d, s) := s.logInternal i.2.q i.2.entry.index 6
    s.endInst i.1 stInternal d) s
  let s := (s.cle.vsteps.filter (fun x => p x.q)).foldl (fun s x =>
    let (d, s) := s.logInternal x.q x.entry.index 6
    s.endVstep x stInternal d) s
  let s := (s.cle.xfers.filter (fun x => p x.q)).foldl (fun s x =>
    let (d, s) := s.logInternal x.q x.entry.index 6
    s.endXfer x stInternal d) s
  { s with rue := { s.rue with compares := s.rue.compares.filter (fun c => !p c.q) } }

/-! ### SAFE (R295) -/

/-- Drives the LASER_EN of every source low (12 R237). -/
def State.darkenAll (s : State) : State :=
  (List.range 10).foldl (fun s n =>
    let x := s.opt.sources.get (fun _ => {}) n
    { s with opt := { s.opt with sources := s.opt.sources.put (fun _ => {}) n { x with en := false, stable := false } },
             power := { s.power with trim := s.power.trim.erase n } }) s

/-- Enters SAFE for a cause (code 0x0D01): entries end, fetching and the compute domain stop, lasers go dark, the line is
squelched and the keys are erased. Only RESET leaves it. -/
def State.enterSafe (s : State) (cause : Nat) : State :=
  if s.power.state = .safe ∨ s.power.state = .off ∨ s.power.state = .ao ∨ s.power.state = .reset then s
  else
    let s := s.stopStarted (fun _ => true)
    let s := { s with power := { s.power with state := .safe, idle := false, wake := false } }
    let s := s.darkenAll.eraseKeys.showPower.showAlarm
    s.logEvent { code := 0x0D01, cls := .fatal, reason := cause }

end Sys2Proof.Machine
end

