-- ==== Sys2Proof/Machine/RegWrite.lean ====
section
/-! DEFINITION. What a register keeps of a word written to it, by its access types and stored ranges (00_scope.md R8, R9). -/
namespace Sys2Proof.Machine

/-- `w` with every clamped field held to its range. -/
def RegRow.clampAll (r : RegRow) (w : Word) : Word :=
  r.clamps.foldl (fun w c => setFld w c.lo c.width (clamp c.min c.max (fld w c.lo c.width))) w

/-- The effective value after a write: RW and WO bits take the value, W1C bits written 1 clear, all others stay. -/
def RegRow.effective (r : RegRow) (old value : Word) : Word :=
  let take := BitVec.ofNat 32 (Nat.lor r.rw r.wo)
  let clear := BitVec.ofNat 32 r.w1c &&& value
  (old &&& ~~~ take &&& ~~~ clear) ||| (r.clampAll value &&& take)

/-- The staged value after a write: ST bits take the value. -/
def RegRow.staging (r : RegRow) (old value : Word) : Word :=
  let take := BitVec.ofNat 32 r.st
  (old &&& ~~~ take) ||| (r.clampAll value &&& take)

/-- Stores a word by the access types of its register; where none lies nothing changes. -/
def State.writeFields (s : State) (a : Nat) (value : Word) : State :=
  match regAt a with
  | none => s
  | some (r, _, _) =>
    let s := s.setReg a (r.effective (s.reg a) value)
    if r.st = 0 then s else s.setSreg a (r.staging (s.sreg a) value)

end Sys2Proof.Machine
end

