-- ==== Sys2Proof/Machine/Gallery.lean ====
section
/-! DEFINITION. The Gallery's commands: patrol, repair of rows and channels, refill between gateways, and host access
through BAR2 (06_gallery.md R121-R131; 18_host_interface.md R336, R337). -/
namespace Sys2Proof.Machine

/-! ### Reads that find an error (R121, R123, R125) -/

/-- Whether a Gallery offset lies in the region of an ACTIVE queue, and which (R125, code 0x5). -/
def State.queueAt (s : State) (a : Nat) : Option Nat :=
  (List.range 64).find? (fun q => s.qActive q && decide (s.qLoc q = 1) && rangesMeet a 64 (s.qBase q) (s.qBytes q))

/-- The location code of R125 for a codeword that no command reads. -/
def State.locCodeAt (s : State) (a : Nat) : Nat := if (s.queueAt a).isSome then 5 else locCode (s.locate a)

/-- The item of a part of the Gallery that lies at an offset: the specification gives no layout of the part, so which of the
items held it is, or none, is a free value (log 7). -/
def itemAt {α : Type} (l : List α) (a : Nat) : Option α := l[Config.placeAt a % (l.length + 1)]?

/-- Shards held in the resequencing part: stream, stripe and index. -/
def State.heldShards (s : State) : List (Nat × Nat × Nat) :=
  s.rte.rxs.flatMap (fun x => x.2.stripes.flatMap (fun t => t.shards.map (fun h => (x.1, t.seq, h.1))))

/-- A shard of the resequencing part counts as erased (code 0x1). -/
def State.loseShard (s : State) (a : Nat) : State :=
  match itemAt s.heldShards a with
  | none => s
  | some (k, seq, i) =>
    let x := s.rte.rxs.get (fun _ => {}) k
    let x := { x with stripes := x.stripes.map (fun t => if t.seq = seq then { t with shards := t.shards.erase i } else t) }
    { s with rte := { s.rte with rxs := s.rte.rxs.put (fun _ => {}) k x } }

/-- A kept copy counts as not kept; a pinned own partial is lost as R91 says (code 0x2). -/
def State.loseKept (s : State) (k : Kept) : State :=
  let s := { s with cle := { s.cle with kept := s.cle.kept.erase k } }
  if k.pinned then
    match s.inst (hGroup k.hdr) with
    | none => s
    | some x =>
      if x.number = hInst k.hdr then
        s.setInst (hGroup k.hdr) (x.setChunk (hChunk k.hdr) { x.chunk (hChunk k.hdr) with ownLost := true })
      else s
  else s

/-- The copy or stripe that lies in the retention part, or the copy in the keep ring, is lost. -/
def State.loseCopy (s : State) (line : Bool) (a : Nat) : State :=
  let ks := s.cle.kept.filter (fun k => k.line = line)
  let ts := if line then s.rte.retained else []
  match itemAt ((ks.map Sum.inl ++ ts.map Sum.inr : List (Kept ⊕ Stripe))) a with
  | none => s
  | some (.inl k) => s.loseKept k
  | some (.inr t) => { s with rte := { s.rte with retained := s.rte.retained.erase t } }

/-- A place of a spill slot that waits for its turn counts as a failed check, and is asked for again (code 0x4). -/
def State.loseSpill (s : State) (a : Nat) : State :=
  let g := (a - s.workBase - areaSpill) / 0x400000
  match s.inst g with
  | none => s
  | some x =>
    let waiting := x.chunks.filterMap (fun c => match c.2.carried with
      | some k => if !x.overLine (((x.plan c.1).via).getD k.slot) && decide (k.slot ≠ x.self) then some (c.1, k.slot) else none
      | none => none)
    match itemAt waiting a with
    | none => s
    | some (c, slot) =>
      let x := { x.setChunk c { x.chunk c with carried := none } with
                 winners := x.winners.filter (fun w => w.1 ≠ c * 1024 + slot) }
      ((s.setInst g x).bump (A.cleCnt 6)).askResend g c slot false false false

/-- The open instance whose applied map holds the codeword at `a` ends with INTERNAL (code 0x6). -/
def State.loseMap (s : State) (a : Nat) : State :=
  let w := a - s.workBase - areaMaps
  match s.cle.insts.find? (fun e => e.2.mapSlot = some (w / 0x100000) ∧ w % 0x100000 / 64 * 64 < (e.2.chunkTotal + 7) / 8) with
  | none => s
  | some e => s.internalInst e.1 1

/-- The outcome of an uncorrectable read by its location, for a read that no command makes (R125). -/
def State.lostAt (s : State) (a : Nat) : State :=
  match s.queueAt a with
  | some q => s.qHalt q 3
  | none =>
    match s.locate a with
    | .reseq => s.loseShard a
    | .retention => s.loseCopy true a
    | .keep => s.loseCopy false a
    | .state => s.invalidate a 64
    | .spill => s.loseSpill a
    | .staged => s
    | .tableRest => s
    | .effective => s
    | .maps => s.loseMap a
    | .work => s
    | .reserve => s
    | .beyond => s

/-- Counts a corrected error of a channel by seconds, and retires the channel that has had 1,000 in each of ten (R123). -/
def State.rateError (s : State) (c : Nat) : State :=
  let sec := s.mono / 1000000000
  let r : ErrRate := s.gal.rates.get (fun _ => {}) c
  let r : ErrRate := if r.second = sec then { r with count := r.count + 1 }
    else { second := sec, count := 1, run := if 1000 ≤ r.count ∧ r.second + 1 = sec then r.run + 1 else 0 }
  let s := { s with gal := { s.gal with rates := s.gal.rates.put (fun _ => {}) c r } }
  if r.count = 1000 ∧ 9 ≤ r.run then s.retireChannel c else s

/-- A corrected read (R121, R123). -/
def State.readCorrected (s : State) (r : Row) (a symbols : Nat) : State :=
  let s := (s.bump (A.galCnt 0)).logEvent
    { code := 0x0301, cls := .corrected, reason := s.locCodeAt a, arg0 := a, arg1 := a / 0x100000000 }
  let recent := s.gal.corrected.filter (fun e => !s.elapsed e.2 dayNs)
  let again := recent.any (fun e => e.1 = r)
  let s := { s with gal := { s.gal with corrected := recent ++ [(r, s.mono)] } }
  let s := s.rateError r.chan
  if again ∨ symbols = 2 then s.repairRow r else s

/-- The channel that serves an offset: its own, or for a granule moved to the reserve one that the specification does not
name (log 7). -/
def State.servingChannel (s : State) (a : Nat) : Nat :=
  if s.chanRetired (channelOf a) then Config.placeAt a % 192 else channelOf a

/-- The patrol's read of the codeword at `a`, which finds `symbols` symbols in error in a row of a bank (R121-R123). -/
def State.patrolRead (s : State) (a symbols bank row : Nat) : State :=
  let a := a / 64 * 64
  if !s.b A.galScrubCtrl 8 || decide (galBytes ≤ a) then s
  else
    let r : Row := { chan := s.servingChannel a, bank := bank, row := row }
    if s.poisoned (a / 64) then (s.noteUncorrectable (a / 64) (s.locCodeAt a)).lostAt a
    else if symbols = 0 then s
    else if symbols ≤ 2 then s.readCorrected r a symbols
    else ((s.noteUncorrectable (a / 64) (s.locCodeAt a)).lostAt a).repairRow r

/-- SCRUB_PATROL_READ. -/
def execScrubPatrolRead (addr symbols bank row : Nat) (s : State) : Host.Outcome State Fault Refusal :=
  .next (s.patrolRead addr symbols bank row)

/-- The oldest row copy ends (R124): the row is redirected, counted, logged and recorded; the 64th row of a channel retires
the channel (R123). -/
def State.rowRepaired (s : State) : State :=
  match s.gal.rowCopies with
  | [] => s
  | (r, _) :: rest =>
    let rows := s.gal.rows.get (fun _ => 0) r.chan + 1
    let key := r.chan * 65536 + r.bank
    let used := s.gal.spares.get (fun _ => 0) key
    let s := { s with gal := { s.gal with rowCopies := rest, rows := s.gal.rows.put (fun _ => 0) r.chan rows,
                                          spares := s.gal.spares.put (fun _ => 0) key (used + 1),
                                          corrected := s.gal.corrected.filter (fun e => e.1 ≠ r) } }
    let index := r.chan / 32 * 0x1000000 + r.chan % 32 * 0x80000 + r.row % 0x80000
    let s := ((s.bump (A.galCnt 2)).logEvent
      { code := 0x0302, cls := .spared, reason := 1, arg0 := s.reserveFree, kind := 5, index := index }).recordUnit 5 index (leBytes 4 used)
    if rows = 64 then s.retireChannel r.chan else s

/-- ROW_REPAIR_DONE. -/
def execRowRepairDone (s : State) : Host.Outcome State Fault Refusal := .next s.rowRepaired

/-- A channel has been copied into the reserve whole, and is retired (R124). -/
def State.channelRetired (s : State) (c : Nat) : State :=
  if s.gal.chanCopies.any (fun x => x.chan = c) then
    let s := { s with gal := { s.gal with chanCopies := s.gal.chanCopies.filter (fun x => x.chan ≠ c) } }
    let s := s.setB (A.galChanRetired (c / 32)) (c % 32) true
    let s := s.setF A.galRegionStatus 8 8 (s.f A.galRegionStatus 8 8 + 1)
    ((s.bump (A.galCnt 3)).logEvent
      { code := 0x0302, cls := .spared, reason := 2, arg0 := s.reserveFree, kind := 6, index := c }).recordUnit 6 c (leBytes 4 2)
  else s

/-- CHANNEL_RETIRE_DONE. -/
def execChannelRetireDone (chan : Fin 192) (s : State) : Host.Outcome State Fault Refusal := .next (s.channelRetired chan)

/-! ### Refill (R129-R131) -/

/-- A refill message of 28 bytes. -/
def refillMsg (mtype status id unit units crc : Nat) : List Byte :=
  withHcrc (beBytes 1 mtype ++ beBytes 1 status ++ [0, 0] ++ beBytes 4 id ++ beBytes 4 unit ++ beBytes 4 units ++ beBytes 8 crc)

/-- Sends a packet of a refill to its peer on VC3. -/
def State.sendRefill (s : State) (r : Refill) (bytes : List Byte) : State := s.sendLine r.peer 3 2 bytes

def State.refill (s : State) (n : Nat) : Option Refill := (s.gal.refills.find? (fun e => e.1 = n)).map (·.2)

def State.setRefill (s : State) (n : Nat) (r : Refill) : State :=
  { s with gal := { s.gal with refills := s.gal.refills.insert n r } }

/-- First state unit of a refill's extent. -/
def State.refillUnit (s : State) (r : Refill) : Nat := (r.base - s.stateBase) / 0x10000

/-- What remains lost when a refill ends: at a sink that lacks its source the units from the lowest one not yet valid, at
the end of a whole pass the units the source has lost (R130). -/
def Refill.remaining (r : Refill) (whole : Bool) : Option (Nat × Nat) :=
  if r.source || whole then r.lost
  else if r.next < r.units then
    some (match r.lost with
      | some l => min l.1 r.next
      | none => r.next, r.units - 1)
  else r.lost

/-- Writes the outcome of a set and raises its vector. -/
def State.refillOutcome (s : State) (n code : Nat) (lost : Option (Nat × Nat)) : State :=
  let s := s.setReg (A.galRefillStatus n) (BitVec.ofNat 32 code)
  let s := match lost with
    | some (a, b) => (s.setReg (A.galRefillLostFirst n) (BitVec.ofNat 32 a)).setReg (A.galRefillLostCount n) (BitVec.ofNat 32 (b + 1 - a))
    | none => (s.setReg (A.galRefillLostFirst n) 0).setReg (A.galRefillLostCount n) 0
  s.raiseVector (s.f (A.galRefillCtrl n) 16 9)

/-- Ends a running refill with a completion code; `tell` sends END to the other end. -/
def State.endRefill (s : State) (n code : Nat) (whole tell : Bool) : State :=
  match s.refill n with
  | none => s
  | some r =>
    let s := if tell then s.sendRefill r (refillMsg 0x23 code r.id r.next r.units 0) else s
    ({ s with gal := { s.gal with refills := Sparse.erase s.gal.refills n } }).refillOutcome n code (r.remaining whole)

/-- Adds a lost unit to those of a refill. -/
def Refill.loses (r : Refill) (u : Nat) : Refill :=
  { r with lost := some (match r.lost with
      | some (a, b) => (min a u, max b u)
      | none => (u, u)) }

/-- Marks every unit of an extent invalid (R126). -/
def State.invalidateExtent (s : State) (u n : Nat) : State :=
  { s with gal := { s.gal with valid := s.gal.valid.filter (fun e => !(decide (u ≤ e.1) && decide (e.1 < u + n))) } }

/-- The set's registers name an extent. -/
def State.refillOf (s : State) (n : Nat) (source : Bool) : Refill :=
  { source := source, id := (s.reg (A.galRefillId n)).toNat, peer := (s.reg (A.galRefillPeer n)).toNat,
    base := s.reg64 (A.galRefillLocalLo n) (A.galRefillLocalHi n), units := s.f (A.galRefillUnits n) 0 23,
    lastHeard := s.mono, lastSent := s.mono }

/-- Sends REQUEST for the next unit. -/
def State.sendRequest (s : State) (n : Nat) (r : Refill) : State :=
  (s.setRefill n { r with lastSent := s.mono }).sendRefill r (refillMsg 0x21 0 r.id r.next r.units 0)

/-- START (R129, R131). -/
def State.startRefill (s : State) (n : Nat) : State :=
  let r := s.refillOf n (s.b (A.galRefillCtrl n) 0)
  let s := s.setReg (A.galRefillDone n) 0
  let bytes := r.units * 0x10000
  if r.units = 0 then s.refillOutcome n stOkEmpty none
  else if r.base < s.stateBase ∨ s.workBase < r.base + bytes ∨ s.refillBusy r.base bytes = true ∨ s.meetsState r.base bytes = true then
    s.refillOutcome n stDescInvalid none
  else
    let s := s.setReg (A.galRefillStatus n) 0x100
    let s := (s.setReg (A.galRefillLostFirst n) 0).setReg (A.galRefillLostCount n) 0
    if r.source then s.setRefill n r
    else (s.invalidateExtent (s.refillUnit r) r.units).sendRequest n r

/-- A write of GAL_REFILL_CTRL_n: while the set runs only STOP acts. -/
def State.writeRefillCtrl (s : State) (n : Nat) (value : Word) : State :=
  let s := s.wakeEvent
  if (s.refill n).isSome then (if bit value 2 then s.endRefill n stAborted false true else s)
  else
    let s := s.writeFields (A.galRefillCtrl n) value
    if bit value 1 then s.startRefill n else s

/-- REFILL_START. -/
def execRefillStart (n : Fin 4) (value : Word) (s : State) : Host.Outcome State Fault Refusal := .next (s.onAccess (A.galRefillCtrl n) (fun s => s.writeRefillCtrl n value))

/-- REFILL_STOP. -/
def execRefillStop (n : Fin 4) (value : Word) (s : State) : Host.Outcome State Fault Refusal := .next (s.onAccess (A.galRefillCtrl n) (fun s => s.writeRefillCtrl n value))

/-- Fields of a received refill message. -/
def rfStatus (m : List Byte) : Nat := beAt m 1 1
def rfId (m : List Byte) : Nat := beAt m 4 4
def rfUnit (m : List Byte) : Nat := beAt m 8 4
def rfUnits (m : List Byte) : Nat := beAt m 12 4
def rfCrc (m : List Byte) : Nat := beAt m 16 8

/-- Whether a message's 28 bytes are good and of a type. -/
def refillOk (mtype : Nat) (msg : List Byte) : Bool :=
  decide (28 ≤ msg.length) && hcrcOk (msg.take 28) && decide (beAt msg 0 1 = mtype)

/-- The running set of a role for a peer, and the identifier if one has it. -/
def State.refillFor (s : State) (source : Bool) (node id : Nat) : Option (Nat × Refill) :=
  s.gal.refills.find? (fun e => decide (e.2.source = source) && decide (e.2.peer = node) && decide (e.2.id = id))

/-- Sends units in ascending order while the sink's last ACK leaves room (R129); a unit that cannot be read, or is invalid,
goes as lost (R130). -/
def State.sendUnits (s : State) (n fuel : Nat) : State :=
  match fuel with
  | 0 => s
  | k + 1 =>
    match s.refill n with
    | none => s
    | some r =>
      if r.units ≤ r.next ∨ r.ack + 524288 ≤ r.next then s
      else
        let a := r.base + r.next * 0x10000
        let u := s.refillUnit r + r.next
        let bad := s.firstPoison a 0x10000
        let t := { r with next := r.next + 1, lastSent := s.mono }
        if bad.isSome || !s.unitValid u then
          let s := match bad with
            | some cw => (s.noteUncorrectable cw 3).setUnit u false
            | none => s
          (((s.setRefill n (t.loses r.next)).sendRefill r (refillMsg 0x20 0x50 r.id r.next r.units 0)).sendUnits n k)
        else
          let data := s.galRead a 0x10000
          (((s.setRefill n t).sendRefill r (refillMsg 0x20 0 r.id r.next r.units (crc64 data) ++ data)).sendUnits n k)

/-- Takes the waiting packet of a refill and carries out what it asks. -/
def State.withRefill (s : State) (node : Nat) (msg : List Byte) (f : State → State) : State :=
  f (s.takePacket (fun p => p.line && decide (p.ptype = 2) && decide (p.node = node) && decide (p.bytes = msg)))

/-- A REQUEST: served by the source it names, else both sides end with DESC_INVALID (R129). -/
def State.refillRequested (s : State) (node : Nat) (msg : List Byte) : State :=
  if !refillOk 0x21 msg then s
  else
    let invalid := s.sendLine node 3 2 (refillMsg 0x23 stDescInvalid (rfId msg) (rfUnit msg) (rfUnits msg) 0)
    match s.refillFor true node (rfId msg) with
    | some (n, r) =>
      if r.units = rfUnits msg then
        let r := { r with next := rfUnit msg, ack := rfUnit msg, seen := true, lastHeard := s.mono }
        (s.setRefill n r).sendUnits n (min 524288 (r.units - r.next))
      else invalid.endRefill n stDescInvalid false false
    | none =>
      match s.gal.refills.find? (fun e => e.2.source && decide (e.2.peer = node)) with
      | some (n, _) => invalid.endRefill n stDescInvalid false false
      | none => invalid

/-- REFILL_REQUEST_RECEIVE. -/
def execRefillRequestReceive (node : Nat) (msg : List Byte) (s : State) : Host.Outcome State Fault Refusal :=
  .next (s.withRefill node msg (fun s => s.refillRequested node msg))

/-- The lowest unit from `u` on that is still to come. -/
def State.nextWanted (s : State) (r : Refill) (u fuel : Nat) : Nat :=
  match fuel with
  | 0 => u
  | k + 1 => if u < r.units ∧ s.unitValid (s.refillUnit r + u) = true then s.nextWanted r (u + 1) k else u

/-- Ends a sink whose last unit has come, or goes on with its next one. -/
def State.sinkGoesOn (s : State) (n : Nat) (r : Refill) : State :=
  let r := { r with next := s.nextWanted r r.next (r.units - r.next) }
  let s := s.setRefill n r
  if r.units ≤ r.next then
    (s.sendRefill r (refillMsg 0x22 0 r.id r.next r.units 0)).endRefill n (if r.lost.isSome then stStateLost else stOk) true true
  else s

/-- Whether the next unit has been asked for again within 10 ms. -/
def State.askedLately (s : State) (r : Refill) : Bool :=
  match r.asked with
  | some (u, t) => decide (u = r.next) && !s.elapsed t 10000000
  | none => false

/-- Asks again from the next unit, which is missing or has failed its check (R129; 09 R191). -/
def State.askAgain (s : State) (n : Nat) (r : Refill) : State :=
  (s.bump (A.galCnt 6)).sendRequest n { r with asked := some (r.next, s.mono) }

/-- A UNIT at the sink (R129, R130): written and made valid, lost at the source, or asked for again. -/
def State.refillUnitCame (s : State) (node : Nat) (msg : List Byte) : State :=
  if !refillOk 0x20 msg then s
  else
    match s.refillFor false node (rfId msg) with
    | none => s
    | some (n, r) =>
      let r := { r with seen := true, lastHeard := s.mono }
      let u := rfUnit msg
      let s := s.setRefill n r
      if r.units ≤ u ∨ u < r.next then s
      else if r.next < u then (if s.askedLately r then s else s.askAgain n r)
      else if rfStatus msg = 0x50 then s.sinkGoesOn n { r.loses u with next := u + 1, fails := 0 }
      else
        let data := msg.drop 28
        if data.length = 0x10000 ∧ crc64 data = rfCrc msg then
          let s := (s.galStore (r.base + u * 0x10000) data).setUnit (s.refillUnit r + u) true
          let s := s.setReg (A.galRefillDone n) (BitVec.ofNat 32 (r.done + 1))
          s.sinkGoesOn n { r with next := u + 1, fails := 0, done := r.done + 1 }
        else if 6 ≤ r.fails then s.endRefill n stCheckFail false true
        else s.askAgain n { r with fails := r.fails + 1 }

/-- REFILL_UNIT_RECEIVE. -/
def execRefillUnitReceive (node : Nat) (msg : List Byte) (s : State) : Host.Outcome State Fault Refusal :=
  .next (s.withRefill node msg (fun s => s.refillUnitCame node msg))

/-- An ACK at the source: its window opens; with every unit acknowledged the refill ends (R129, R130). -/
def State.refillAcked (s : State) (node : Nat) (msg : List Byte) : State :=
  if !refillOk 0x22 msg then s
  else
    match s.refillFor true node (rfId msg) with
    | none => s
    | some (n, r) =>
      let r := { r with ack := max r.ack (rfUnit msg), seen := true, lastHeard := s.mono }
      let s := s.setRefill n r
      if r.units ≤ r.ack then s.endRefill n (if r.lost.isSome then stStateLost else stOk) true false
      else s.sendUnits n (r.ack + 524288 - r.next)

/-- REFILL_ACK_RECEIVE. -/
def execRefillAckReceive (node : Nat) (msg : List Byte) (s : State) : Host.Outcome State Fault Refusal :=
  .next (s.withRefill node msg (fun s => s.refillAcked node msg))

/-- An END: the refill that it names ends with its code (R130). -/
def State.refillEnded (s : State) (node : Nat) (msg : List Byte) : State :=
  if !refillOk 0x23 msg then s
  else
    match s.gal.refills.find? (fun e => decide (e.2.peer = node) && decide (e.2.id = rfId msg)) with
    | none => s
    | some (n, _) => s.endRefill n (rfStatus msg) false false

/-- REFILL_END_RECEIVE. -/
def execRefillEndReceive (node : Nat) (msg : List Byte) (s : State) : Host.Outcome State Fault Refusal :=
  .next (s.withRefill node msg (fun s => s.refillEnded node msg))

/-- REFILL_REQUEST_TIMER: a sink to which no UNIT has come asks again after 10 ms. -/
def State.refillAsks (s : State) (n : Nat) : State :=
  match s.refill n with
  | none => s
  | some r => if !r.source && !r.seen && s.elapsed r.lastSent 10000000 then s.sendRequest n r else s

def execRefillRequestTimer (n : Fin 4) (s : State) : Host.Outcome State Fault Refusal := .next (s.refillAsks n)

/-- REFILL_ACK_TIMER: a sink that receives units acknowledges them every millisecond. -/
def State.refillAcks (s : State) (n : Nat) : State :=
  match s.refill n with
  | none => s
  | some r =>
    if !r.source && r.seen && s.elapsed r.lastSent 1000000 then
      (s.setRefill n { r with lastSent := s.mono }).sendRefill r (refillMsg 0x22 0 r.id r.next r.units 0)
    else s

def execRefillAckTimer (n : Fin 4) (s : State) : Host.Outcome State Fault Refusal := .next (s.refillAcks n)

/-- The peer of a refill is lost: the source ends with ABORTED, the sink with STATE_LOST (R130). -/
def State.refillPeerGone (s : State) (n : Nat) : State :=
  match s.refill n with
  | none => s
  | some r => s.endRefill n (if r.source then stAborted else stStateLost) false false

/-- Whether a refill's peer counts as lost: every route to it in loss of frame or path fail for 1 ms, or silent for 1 s. -/
def State.refillSilent (s : State) (r : Refill) : Bool :=
  let ports := ((s.peerOf r.peer).map s.portsTo).getD []
  (!ports.isEmpty && ports.all (fun p => s.elapsedSince (s.port p).lossSince 1000000)) || s.elapsed r.lastHeard 1000000000

/-- REFILL_PEER_LOST. -/
def execRefillPeerLost (n : Fin 4) (s : State) : Host.Outcome State Fault Refusal :=
  .next (match s.refill n with
    | some r => if s.refillSilent r then s.refillPeerGone n else s
    | none => s)

/-- Whether no route to a refill's peer has had a valid sending key for 1 ms. -/
def State.refillUnkeyed (s : State) (r : Refill) : Bool :=
  match s.peerOf r.peer with
  | some e => !s.anyKey e && s.elapsed (s.sec.keyLost.get (fun _ => 0) e) 1000000
  | none => s.elapsed r.lastHeard 1000000

/-- REFILL_KEY_TIMEOUT. -/
def execRefillKeyTimeout (n : Fin 4) (s : State) : Host.Outcome State Fault Refusal :=
  .next (match s.refill n with
    | some r => if s.refillUnkeyed r then s.endRefill n stKeyAbsent false false else s
    | none => s)

/-! ### BAR2 (R127; 18 R336, R337) -/

/-- What a BAR2 access finds at a byte. -/
inductive BarPart where
  | data | zero | invalid | poison
  deriving DecidableEq, Repr

/-- The outcome of a read at a Gallery offset. -/
def State.barRead (s : State) (a : Nat) : BarPart :=
  match s.locate a with
  | .state => if !s.unitValid (s.unitOf a) then .invalid else if s.poisoned (a / 64) then .poison else .data
  | .work => if s.poisoned (a / 64) then .poison else .data
  | .staged => if s.poisoned (a / 64) then .poison else .data
  | .maps => if s.poisoned (a / 64) then .poison else .data
  | .reseq => .zero
  | .retention => .zero
  | .tableRest => .zero
  | .effective => .zero
  | .keep => .zero
  | .spill => .zero
  | .reserve => .zero
  | .beyond => .zero

/-- Whether a write at a Gallery offset is carried out. -/
def State.barWritable (s : State) (a : Nat) : Bool :=
  match s.locate a with
  | .state => s.unitValid (s.unitOf a)
  | .work => true
  | .staged => true
  | .maps => false
  | .reseq => false
  | .retention => false
  | .tableRest => false
  | .effective => false
  | .keep => false
  | .spill => false
  | .reserve => false
  | .beyond => false

/-- The Gallery offset of BAR2 offset `x` (R336). -/
def State.barBase (s : State) (x : Nat) : Nat := s.f A.topBar2Base 0 10 * gib + x

/-- A read through BAR2 (R337): data, zeros or poisoned data part by part. The bytes of a poisoned part are free values. -/
def State.bar2Read (s : State) (offset len : Nat) : State :=
  let a := s.barBase offset
  let parts := (List.range len).map (fun i => s.barRead (a + i))
  let r := s.draw
  let bytes := parts.zipIdx.map (fun p => match p.1 with
    | .data => s.gallery.get zeroByte (a + p.2)
    | .zero => 0
    | .invalid => BitVec.ofNat 8 (Config.outside r.1 / 256 ^ p.2)
    | .poison => BitVec.ofNat 8 (Config.outside r.1 / 256 ^ p.2))
  let bad := ((parts.zipIdx.filter (fun p => p.1 = BarPart.poison)).map (fun p => (a + p.2) / 64)).eraseDups
  let invalid := parts.contains BarPart.invalid
  let s := if bad.isEmpty && !invalid then s else r.2
  let s := bad.foldl (fun s cw =>
    let s := s.noteUncorrectable cw 7
    if s.locate (cw * 64) = Loc.state then s.invalidate (cw * 64) 64 else s) s
  let s := s.bumpIf invalid (A.galCnt 7)
  let s := if bad.isEmpty && !invalid then s else s.emit (.aer 1)
  s.emit (.bar2Data offset bytes (!bad.isEmpty || invalid))

/-- BAR2_READ. -/
def execBar2Read (offset len : Nat) (s : State) : Host.Outcome State Fault Refusal := .next (s.bar2Read offset len)

/-- Maximal runs of a list of positions that satisfy a test: start and bytes. -/
def runsOf (ok : Nat → Bool) (a : Nat) (bs : List Byte) : List (Nat × List Byte) :=
  match bs with
  | [] => []
  | b :: r =>
    if ok a then
      match runsOf ok (a + 1) r with
      | (k, l) :: rest => if k = a + 1 then (a, b :: l) :: rest else (a, [b]) :: (k, l) :: rest
      | [] => [(a, [b])]
    else runsOf ok (a + 1) r

/-- A write through BAR2 (R337): the permitted parts are written, and one error is recorded for the others. -/
def State.bar2Write (s : State) (offset : Nat) (bytes : List Byte) (poisoned : Bool) : State :=
  if poisoned then s.accessError 6 offset
  else
    let a := s.barBase offset
    let part := (List.range bytes.length).any (fun i => !s.barWritable (a + i))
    let s := (runsOf s.barWritable a bytes).foldl (fun s w => s.galStore w.1 w.2) s
    if part then s.accessError 4 offset else s

/-- BAR2_WRITE. -/
def execBar2Write (offset : Nat) (bytes : List Byte) (poisoned : Bool) (s : State) : Host.Outcome State Fault Refusal :=
  .next (s.bar2Write offset bytes poisoned)

/-- BAR2_BASE_WRITE (R336). -/
def execBar2BaseWrite (value : Word) (s : State) : Host.Outcome State Fault Refusal := .next (s.onAccess A.topBar2Base (fun s => s.writeFields A.topBar2Base value))

end Sys2Proof.Machine
end

