-- ==== Sys2Proof/Machine/Collectives.lean ====
section
/-! DEFINITION. Commands of the collective engine: the start of an instance by each opcode, messages, timers, credit and
aborts (04_collectives_and_flights.md R85-R103; 13_fabric_links_and_concourse.md R251). -/
namespace Sys2Proof.Machine

/-! ### Starts (R60, R73, R85-R90) -/

/-- ALLREDUCE: the oldest entry of a queue starts, when it may and is one. -/
def execAllreduce (q : Fin 64) (s : State) : Host.Outcome State Fault Refusal :=
  .next (s.startRow q 0x01 (fun e => s.startCle q e))

/-- REDUCE_SCATTER. -/
def execReduceScatter (q : Fin 64) (s : State) : Host.Outcome State Fault Refusal :=
  .next (s.startRow q 0x02 (fun e => s.startCle q e))

/-- ALLGATHER. -/
def execAllgather (q : Fin 64) (s : State) : Host.Outcome State Fault Refusal :=
  .next (s.startRow q 0x03 (fun e => s.startCle q e))

/-- BROADCAST. -/
def execBroadcast (q : Fin 64) (s : State) : Host.Outcome State Fault Refusal :=
  .next (s.startRow q 0x04 (fun e => s.startCle q e))

/-- REDUCE. -/
def execReduce (q : Fin 64) (s : State) : Host.Outcome State Fault Refusal :=
  .next (s.startRow q 0x05 (fun e => s.startCle q e))

/-- STEP, which takes an applied-map slot (R102). -/
def execStep (q : Fin 64) (s : State) : Host.Outcome State Fault Refusal :=
  .next (s.startRow q 0x06 (fun e => s.startCle q e))

/-- NORM. -/
def execNorm (q : Fin 64) (s : State) : Host.Outcome State Fault Refusal :=
  .next (s.startRow q 0x07 (fun e => s.startCle q e))

/-- SEND. -/
def execSend (q : Fin 64) (s : State) : Host.Outcome State Fault Refusal :=
  .next (s.startRow q 0x08 (fun e => s.startCle q e))

/-- RECV. -/
def execRecv (q : Fin 64) (s : State) : Host.Outcome State Fault Refusal :=
  .next (s.startRow q 0x09 (fun e => s.startCle q e))

/-- BARRIER. -/
def execBarrier (q : Fin 64) (s : State) : Host.Outcome State Fault Refusal :=
  .next (s.startRow q 0x0A (fun e => s.startCle q e))

/-! ### Messages -/

/-- A message as it arrives: taken from those that wait, and discarded when its HCRC fails; the compute domain wakes
(15_power_and_thermal.md R288). -/
def State.withMsg (s : State) (line : Bool) (msg : List Byte) (run : State → State) : State :=
  let s := (s.takeMsg line msg).wakeEvent
  if msg.length = 24 ∧ hcrcOk msg = true then run s else s.bump (A.cleCnt 5)

/-- The open instance that a message names. -/
def State.msgInst (s : State) (msg : List Byte) : Option Inst :=
  match s.inst (mGroup msg) with
  | none => none
  | some x => if x.number = mInst msg then some x else none

/-- Notes a sign of a member. -/
def State.hear (s : State) (g : Nat) (x : Inst) (slot : Nat) : State := s.setInst g { x with heard := x.heard.insert slot s.mono }

/-- An OPEN: the peer's instance is open (R90). -/
def State.takeOpen (s : State) (msg : List Byte) : State :=
  match s.msgInst msg with
  | none => s
  | some x =>
    let o := mOrigin msg
    let x := { x with opened := if x.opened.contains o then x.opened else x.opened ++ [o] }
    (s.hear (mGroup msg) x o).settle (mGroup msg)

/-- OPEN_RECEIVE. -/
def execOpenReceive (line : Bool) (msg : List Byte) (s : State) : Host.Outcome State Fault Refusal :=
  .next (s.withMsg line msg (fun s => s.takeOpen msg))

/-- The group as this gateway knows it for a message: of the open instance, else of the effective table. -/
def State.msgGroup (s : State) (msg : List Byte) : Option Group :=
  match s.msgInst msg with
  | some x => some x.group
  | none => s.effectiveGroup (mGroup msg)

/-- Whether a kept copy is the chunk that a RESEND names. -/
def Kept.named (k : Kept) (line : Bool) (node : Nat) (msg : List Byte) : Bool :=
  decide (k.line = line) && decide (k.node = node) && k.isOf (mGroup msg) (mInst msg) &&
    decide (hChunk k.hdr = mChunk msg) && decide (hSlot k.hdr = mSlot msg)

/-- A RESEND: the kept copy goes again, uncoded and with its keeping time renewed, or NOT_RETAINED is the answer (R97;
07_compression.md R134). -/
def State.takeResend (s : State) (line : Bool) (msg : List Byte) : State :=
  let g := mGroup msg
  let s := match s.msgInst msg with
    | some x => s.hear g x (mOrigin msg)
    | none => s
  if (s.inst g).isNone && s.isNewer g (mInst msg) then s
  else
    match s.msgGroup msg with
    | none => s
    | some gr =>
      let node := (gr.member (mOrigin msg)).node
      match s.cle.kept.find? (fun k => k.named line node msg) with
      | some k =>
        let t := hType k.hdr
        let wire := reHeader k.hdr (if t = 1 then 3 else if t = 2 then 4 else t) false ++ k.data
        let k' := { k with expiry := s.keepEnd line node }
        let s := { s with cle := { s.cle with kept := s.cle.kept.erase k ++ [k'] } }
        let s := s.bump (A.cleCnt 8)
        if line then s.sendLine node k.vc 1 wire else s.sendFabric 1 1 node wire
      | none =>
        let m := cleMsg 0x12 0 g (mInst msg) (mChunk msg) (mSlot msg) ((s.mySlot gr).getD 0) 0
        let s := s.bump (A.cleCnt 9)
        if line then s.sendMsgTo node m else s.sendFabricMsg node m

/-- RESEND_RECEIVE. -/
def execResendReceive (line : Bool) (msg : List Byte) (s : State) : Host.Outcome State Fault Refusal :=
  .next (s.withMsg line msg (fun s => s.takeResend line msg))

/-- A NOT_RETAINED: the awaited chunk has failed for good (R98). -/
def State.takeNotRetained (s : State) (msg : List Byte) : State :=
  match s.msgInst msg with
  | none => s
  | some x =>
    let s := s.hear (mGroup msg) x (mOrigin msg)
    match x.resends.find? (fun r => r.chunk = mChunk msg ∧ r.slot = mSlot msg) with
    | none => s
    | some r => s.checkFailed (mGroup msg) r.chunk r.decomp

/-- NOT_RETAINED_RECEIVE. -/
def execNotRetainedReceive (line : Bool) (msg : List Byte) (s : State) : Host.Outcome State Fault Refusal :=
  .next (s.withMsg line msg (fun s => s.takeNotRetained msg))

/-- Holds a message for an instance not yet open in a CLE_MSG buffer; without one it waits for one (R90; 05 R110). -/
def State.holdMsg (s : State) (msg : List Byte) : State :=
  match s.alloc clsMsg msg.length with
  | (some b, s) => { s with cle := { s.cle with heldMsgs := s.cle.heldMsgs ++ [{ msg := msg, buf := b }] } }
  | (none, s) => { s with lnd := { s.lnd with waiting := s.lnd.waiting ++ [{ cls := clsMsg, size := msg.length, due := s.mono + 1000, msg := msg }] } }

/-- An ABORT or RETRACT (R99-R101, R103). The same decision that arrives by several routes counts once. -/
def State.takeAbort (s : State) (msg : List Byte) : State :=
  let g := mGroup msg
  let n := mInst msg
  let key := (g, n, mReason msg, mOrigin msg)
  if s.cle.passed.contains key then s
  else
    let s := { s with cle := { s.cle with passed := s.cle.passed ++ [key] } }
    let s := s.bump (A.cleCnt 13)
    match s.msgInst msg with
    | some _ => s.abortedBy g msg
    | none =>
      if s.isNewer g n then s.holdMsg msg
      else if mReason msg = 7 then s.lateRetract g n (mOrigin msg)
      else s

/-- ABORT_RECEIVE. -/
def execAbortReceive (line : Bool) (msg : List Byte) (s : State) : Host.Outcome State Fault Refusal :=
  .next (s.withMsg line msg (fun s => s.takeAbort msg))

/-- An ARRIVE: one that came over the line goes on to the site peers (R85). -/
def State.takeArrive (s : State) (line : Bool) (msg : List Byte) : State :=
  let g := mGroup msg
  match s.msgInst msg with
  | none => s
  | some x =>
    let o := mOrigin msg
    if x.op = 0x0A ∧ x.arrived.contains o = false then
      let s := s.hear g { x with arrived := x.arrived ++ [o] } o
      let s := if line then (x.group.peers x.self).foldl (fun s y => s.sendFabricMsg (x.nodeOf y) msg) s else s
      s.settle g
    else s

/-- ARRIVE_RECEIVE. -/
def execArriveReceive (line : Bool) (msg : List Byte) (s : State) : Host.Outcome State Fault Refusal :=
  .next (s.withMsg line msg (fun s => s.takeArrive line msg))

/-- A NORM_SUM: taken by the open NORM, or held for one not yet open (R87, R90). -/
def State.takeNormSum (s : State) (msg : List Byte) : State :=
  let g := mGroup msg
  match s.msgInst msg with
  | some _ => s.takeScalar g msg
  | none => if s.isNewer g (mInst msg) then s.holdMsg msg else s

/-- NORM_SUM_RECEIVE. -/
def execNormSumReceive (line : Bool) (msg : List Byte) (s : State) : Host.Outcome State Fault Refusal :=
  .next (s.withMsg line msg (fun s => s.takeNormSum msg))

/-! ### Stream credit (13 R251) -/

/-- A CREDIT packet from a site peer: its LIMIT for the stream from this gateway. -/
def State.takeCredit (s : State) (node : Nat) (body : List Byte) : State :=
  let g := nfld (beAt body 0 2) 0 12
  match s.inst g with
  | none => s
  | some x =>
    if x.number = beAt body 4 4 ∧ nfld (beAt body 2 2) 0 10 = x.self then
      match (x.group.peers x.self).find? (fun y => x.nodeOf y = node) with
      | none => s
      | some y =>
        let old := x.limits.get (fun _ => 0) y
        let x := { x with limits := x.limits.insert y (max old (beAt body 8 4)),
                          opened := if x.opened.contains y then x.opened else x.opened ++ [y] }
        (s.hear g x y).settle g
    else s

/-- CREDIT_RECEIVE. -/
def execCreditReceive (node : Nat) (body : List Byte) (s : State) : Host.Outcome State Fault Refusal :=
  let s := (s.takePacket (fun p => !p.line && decide (p.ptype = 5) && decide (p.node = node) && decide (p.bytes = body))).wakeEvent
  .next (s.takeCredit node body)

/-- Sends CREDIT again to every source of an open instance that still owes a chunk, 20 us after the last (R251). -/
def State.refreshCredit (s : State) (g : Nat) : State :=
  match s.inst g with
  | none => s
  | some x =>
    x.fabricSources.foldl (fun s y =>
      match s.inst g with
      | none => s
      | some x =>
        if !(x.outstanding y).isEmpty && s.elapsed (x.creditAt.get (fun _ => 0) y) 20000 then
          s.sendCredit g x y (max (x.limitFor y) (x.granted.get (fun _ => 0) y))
        else s) s

/-- CREDIT_REFRESH. -/
def execCreditRefresh (group : Fin 4096) (s : State) : Host.Outcome State Fault Refusal := .next (s.refreshCredit group)

/-! ### Timers (R98, R99) -/

/-- A re-sent chunk has not come in time: it is asked for again, or has failed. -/
def State.resendTimeout (s : State) (g c slot : Nat) : State :=
  match s.inst g with
  | none => s
  | some x =>
    match x.resends.find? (fun r => decide (r.chunk = c) && decide (r.slot = slot) && decide (r.due ≤ s.mono)) with
    | none => s
    | some r => s.askResend g c slot r.line r.decomp false

/-- RESEND_TIMEOUT. -/
def execResendTimeout (group : Fin 4096) (chunk slot : Nat) (s : State) : Host.Outcome State Fault Refusal :=
  .next (s.resendTimeout group chunk slot)

/-- Members from which the instance still expects something. -/
def Inst.expected (x : Inst) : List Nat :=
  if x.op = 0x0A then x.group.gateways.filter (fun y => !x.arrived.contains y)
  else
    let missing (c : Nat) : List Nat :=
      let k := x.chunk c
      let p := x.plan c
      if x.isDone c ∨ k.finished = true then []
      else p.ins1.filter (fun y => y ≠ x.self ∧ k.got.contains y = false) ++
        p.ins2.filter (fun y => !k.waiting.any (fun w => w.1 = y)) ++
        (if k.carried.isSome then [] else p.via.toList)
    let scalars := if x.op = 0x07 then (x.group.peers x.self).filter (fun y => !x.scalars.any (fun e => e.1 = y)) else []
    ((List.range x.chunkTotal).flatMap missing ++ scalars).eraseDups

/-- Whether an expected member has been silent for PROGRESS_US. -/
def State.noProgress (s : State) (x : Inst) : Bool :=
  decide (0 < x.group.progressUs) &&
    x.expected.any (fun y => s.elapsed (x.heard.get (fun _ => x.startedAt) y) (x.group.progressUs * 1000))

/-- PROGRESS_TIMEOUT: an abort with reason PROGRESS. -/
def execProgressTimeout (group : Fin 4096) (s : State) : Host.Outcome State Fault Refusal :=
  .next (match s.inst group with
    | some x => if s.noProgress x then s.abortInst group 3 else s
    | none => s)

/-- Peer entries of the gateways of a group at a site. -/
def State.siteEntries (s : State) (gr : Group) (site : Nat) : List Nat :=
  (gr.atSite site).filterMap (fun y => s.peerOf (gr.member y).node)

/-- Sites other than this gateway's. -/
def Inst.farSites (x : Inst) : List Nat := x.group.sites.filter (fun t => t ≠ x.mySite)

/-- Whether every route to a site has been in loss of frame or path fail for 1 ms. -/
def State.siteLost (s : State) (x : Inst) (site : Nat) : Bool :=
  let ports := (s.siteEntries x.group site).flatMap s.portsTo
  !ports.isEmpty && ports.all (fun p => s.elapsedSince (s.port p).lossSince 1000000)

/-- ROUTE_LOSS_HOLD_EXPIRE: an abort with reason LOST. -/
def execRouteLossHoldExpire (group : Fin 4096) (s : State) : Host.Outcome State Fault Refusal :=
  .next (match s.inst group with
    | some x => if x.farSites.any (s.siteLost x) then s.abortInst group 2 else s
    | none => s)

/-- Whether no route to a site has had a valid sending key for 1 ms. -/
def State.siteUnkeyed (s : State) (x : Inst) (site : Nat) : Bool :=
  let es := s.siteEntries x.group site
  !es.isEmpty && es.all (fun e => (List.range 8).all (fun r => !s.keyed e r) && s.elapsed (s.sec.keyLost.get (fun _ => 0) e) 1000000)

/-- KEY_LOSS_HOLD_EXPIRE: an abort with reason KEY, and KEY_ABSENT here. -/
def execKeyLossHoldExpire (group : Fin 4096) (s : State) : Host.Outcome State Fault Refusal :=
  .next (match s.inst group with
    | some x =>
      if ((x.group.counterparts x.self).map x.group.site).any (s.siteUnkeyed x) then s.failInst group 6 stKeyAbsent group else s
    | none => s)

/-! ### Host commands -/

/-- A write of CLE_ABORT_CTRL (R99, reason HOST). -/
def State.writeAbortCtrl (s : State) (value : Word) : State :=
  let g := fld value 0 12
  let s := (s.setReg A.cleAbortCtrl (BitVec.ofNat 32 g)).wakeEvent
  match s.inst g with
  | some x => if bit value 31 && decide (x.number = (s.reg A.cleAbortInst).toNat) then s.abortInst g 1 else s
  | none => s

/-- CLE_ABORT_GO. -/
def execCleAbortGo (value : Word) (s : State) : Host.Outcome State Fault Refusal := .next (s.onAccess A.cleAbortCtrl (fun s => s.writeAbortCtrl value))

/-- Frees an applied-map slot that is HELD (R102). -/
def State.releaseMap (s : State) (n : Nat) : State :=
  let s := s.wakeEvent
  if s.f (A.cleMapCtrl n) 28 2 = 2 then s.setReg (A.cleMapCtrl n) 0 else s

/-- MAP_RELEASE. -/
def execMapRelease (n : Fin 16) (s : State) : Host.Outcome State Fault Refusal := .next (s.onAccess (A.cleMapCtrl n) (fun s => s.releaseMap n))

/-! ### Keeping (R91, R96; 06_gallery.md R120; 09 R193) -/

/-- KEEP_EXPIRE: copies sent over the fabric whose keeping time has passed are dropped. -/
def execKeepExpire (s : State) : Host.Outcome State Fault Refusal :=
  .next { s with cle := { s.cle with kept := s.cle.kept.filter (fun k => k.line || decide (s.mono < k.expiry)) } }

/-- Line copies and stripes whose hold has passed are dropped; a copy whose hold was cut counts RETAIN_SHORT. -/
def State.expireRetention (s : State) : State :=
  let gone (k : Kept) : Bool := k.line && !k.pinned && decide (k.expiry ≤ s.mono)
  let cut := (s.cle.kept.filter (fun k => gone k && (s.lineHold k.node).2)).length
  let s := s.bumpBy (A.galCnt 5) cut
  { s with cle := { s.cle with kept := s.cle.kept.filter (fun k => !gone k) },
           rte := { s.rte with retained := s.rte.retained.filter (fun t => decide (s.mono < t.holdEnd)) } }

/-- RETENTION_EXPIRE. -/
def execRetentionExpire (s : State) : Host.Outcome State Fault Refusal := .next s.expireRetention

/-- Puts out the partials of an instance that were held back and now find room (R91). -/
def State.unblock (s : State) (g : Nat) : State :=
  match s.inst g with
  | none => s
  | some x =>
    (x.chunks.foldl (fun s e =>
      match e.2.blocked, s.inst g with
      | some o, some x => s.releasePartial g x e.1 o
      | _, _ => s) s).settle g

/-- RETENTION_ROOM_FREED. -/
def execRetentionRoomFreed (s : State) : Host.Outcome State Fault Refusal :=
  .next ((s.cle.insts.map (fun i => i.1)).foldl (fun s g => s.unblock g) s)

end Sys2Proof.Machine
end

