-- ==== Sys2Proof/Machine/Cipher.lean ====
section
/-! DEFINITION. The line cipher's commands: loading, scheduling and clearing of keys, epochs, alarms and erasure; and what
protects and checks one cell (11_line_cipher.md R204-R219). -/
namespace Sys2Proof.Machine

/-! ### Protecting and checking a cell (R205, R208) -/

/-- Peer entry and route of an association. -/
def saPeer (n : Nat) : Nat := n % 512 / 8
def saRoute (n : Nat) : Nat := n % 8

/-- The initialisation vector of a counter under a salt. -/
def cellIv (salt ctr : Nat) : List Byte := leBytes 4 salt ++ beBytes 8 ctr

/-- A cell of `plain` (bytes 0-27 with SEC written, then BODY) under a slot: ciphertext and tag. -/
def sealCell (k : KeySlot) (ctr : Nat) (plain : List Byte) : List Byte :=
  let iv := cellIv k.salt ctr
  let aad := (plain.take 28).drop 4
  let ct := gcmText k.key iv (plain.drop 28)
  plain.take 28 ++ ct ++ gcmTag k.key iv aad ct

/-- The plaintext BODY of a received cell under a slot, if its tag verifies. -/
def unsealCell (k : KeySlot) (cell : List Byte) : Option (List Byte) :=
  let iv := cellIv k.salt (beAt cell 20 8)
  let ct := (cell.drop 28).take (cell.length - 44)
  if gcmTag k.key iv ((cell.take 28).drop 4) ct = cell.drop (cell.length - 16) then some (gcmText k.key iv ct) else none

/-- Counts a mismatch of two cores; sixteen within 1 ms raise the CORE alarm (R215). -/
def State.coreMismatch (s : State) (cnt : Nat) : State :=
  let s := s.bump (A.secCnt cnt)
  let recent := (s.sec.mismatches.filter (fun t => !s.elapsed t 1000000)) ++ [s.mono]
  if 16 ≤ recent.length then ({ s with sec := { s.sec with mismatches := [] } }).pulseAlarm 4
  else { s with sec := { s.sec with mismatches := recent } }

/-- Consumes the next transmit counter of the current slot of an association (R206): the slot as it encrypts, its counter,
and the state after. -/
def State.nextCounter (s : State) (n : Nat) : Option (KeySlot × Nat × State) :=
  let x := s.sa n
  match x.inState .txCurrent with
  | none => none
  | some i =>
    let k := x.slot i
    let c := k.ctr
    let k' := { k with ctr := c + 1, state := if c = 2 ^ 48 - 1 then .txExhausted else k.state }
    let t := s.setSa n (x.setSlot i k')
    let t := if c = 2 ^ 47 then (t.bump (A.secCnt 6)).logEvent { code := 0x0801, cls := .info, arg0 := n } else t
    let t := if k'.state = .txExhausted then (t.noteKeyLoss s).routesChanged else t
    some (k, c, t)

/-- What the checks of R208 find. -/
inductive CellCheck where
  | keyMiss | replay | tagFail
  | good (slot : Nat) (body : List Byte)
  deriving DecidableEq, Repr

/-- The checks on receipt, in order; `fails`: the two cores could not agree (R215). -/
def State.checkCell (s : State) (n : Nat) (cell : List Byte) (fails : Bool) : CellCheck :=
  let epoch := beAt cell 16 4
  let ctr := beAt cell 20 8
  let k := (s.sa n).slot (epoch % 2)
  if !(k.state = .rxValid || k.state = .rxHold) || k.epoch ≠ epoch then .keyMiss
  else if ctr = 0 ∨ ctr + 8192 ≤ k.highest ∨ k.seen.contains ctr then .replay
  else if fails then .tagFail
  else match unsealCell k cell with
    | none => .tagFail
    | some b => .good (epoch % 2) b

/-- The hold-down in ns: the larger of RTT_MAX_MS and the peer's round trip, plus twice the skew window (R213). -/
def State.holdDown (s : State) (e : Nat) : Nat :=
  max (s.f A.secHoldCtrl 0 8 * 1000000) (s.rttNs (s.peerNode e)) + 2 * s.skewUs * 1000

/-- Whether slot `i` holds the higher of the two valid epochs of a receive association. -/
def SecAssoc.higher (x : SecAssoc) (i : Nat) : Bool :=
  decide (x.s0.state = .rxValid) && decide (x.s1.state = .rxValid) &&
    decide (0 < sgn 32 ((x.slot i).epoch + 0x100000000 - (x.slot (1 - i)).epoch))

/-- Accepts a cell: marks its counter, and puts the lower of two valid epochs on hold-down at the first cell of the
higher (R208, R213). -/
def State.acceptCell (s : State) (n slot ctr : Nat) : State :=
  let x := s.sa n
  let k := x.slot slot
  let top := max k.highest ctr
  let x1 := x.setSlot slot { k with highest := top, seen := (ctr :: k.seen).filter (fun c => decide (top < c + 8192)) }
  if x.higher slot then
    let o := x1.slot (1 - slot)
    s.setSa n (x1.setSlot (1 - slot) { o with state := .rxHold, holdEnd := s.mono + s.holdDown (saPeer n) })
  else s.setSa n x1

/-! ### Commands of SEC_SA_CMD (R209-R212) -/

/-- The association that SEC_SA_SEL selects, and its slot. -/
def State.saSel (s : State) : Nat := saNumber (s.f A.secSaSel 12 1) (s.f A.secSaSel 0 6) (s.f A.secSaSel 8 3)
def State.slotSel (s : State) : Nat := s.f A.secSaSel 16 1

/-- The 256-bit key in the staging registers. -/
def State.stagedKey (s : State) : List Byte := (List.range 8).flatMap (fun k => leBytes 4 (s.reg (A.secKey k)).toNat)

/-- The key check value (R210). -/
def kcvOf (key : List Byte) : Nat := beNat ((aes256 key (List.replicate 16 0xFF#8)).take 3)

/-- Whether LOAD finds the slot busy (outcome 0x1). -/
def SecAssoc.busy (x : SecAssoc) (i : Nat) : Bool :=
  match (x.slot i).state with
  | .txCurrent => true
  | .rxHold => true
  | .rxValid => x.higher i
  | .empty => false
  | .txArmed => false
  | .txExhausted => false

/-- Checks that LOAD and SCHEDULE share (outcomes 0x4, 0x5). -/
def State.saBlocked (s : State) : Option Nat :=
  if s.f A.secAlarmLatch 0 9 ≠ 0 ∨ s.sec.erasing then some 4
  else if !s.keysAllowed then some 5 else none

/-- The outcome of LOAD: the first failure of the table of R209. -/
def State.loadCheck (s : State) : Nat :=
  let tx := decide (s.f A.secSaSel 12 1 = 0)
  if (s.sa s.saSel).busy s.slotSel then 1
  else if (s.reg A.secEpoch).toNat % 2 ≠ s.slotSel then 2
  else match s.saBlocked with
    | some c => c
    | none =>
      if tx && s.sec.recent.contains (kcvOf s.stagedKey) then 7
      else if !s.peerValid (s.f A.secSaSel 0 6) then 8 else 0

/-- A successful LOAD. -/
def State.loadSlot (s : State) : State :=
  let tx := decide (s.f A.secSaSel 12 1 = 0)
  let kcv := kcvOf s.stagedKey
  let k : KeySlot := { state := if tx then .txArmed else .rxValid, key := s.stagedKey, salt := (s.reg A.secSalt).toNat,
                       epoch := (s.reg A.secEpoch).toNat, kcv := kcv, ctr := if tx then 1 else 0 }
  let s := s.setSa s.saSel ((s.sa s.saSel).setSlot s.slotSel k)
  if tx then { s with sec := { s.sec with recent := (kcv :: s.sec.recent).take 64 } } else s

def State.setCmdStatus (s : State) (c : Nat) : State := s.setF A.secSaCmd 8 4 c

/-- LOAD (R209). -/
def State.saLoad (s : State) : State :=
  let c := s.loadCheck
  ((if c = 0 then s.loadSlot else s).clearStaging).setCmdStatus c

/-- Makes the switch of a transmit association: the armed slot becomes current, the old current one is erased (R212). -/
def State.switchEpoch (s : State) (n : Nat) : State :=
  let x := s.sa n
  match x.inState .txArmed with
  | none => s.setSa n { x with switchAt := none }
  | some i =>
    let old := x.slot (1 - i)
    let x := x.setSlot i { x.slot i with state := .txCurrent }
    let x := if old.state = .txCurrent then x.setSlot (1 - i) {} else x
    ((s.setSa n { x with switchAt := none }).bump (A.secCnt 5)).routesChanged

/-- Makes the switch of an association when its time has come. -/
def State.switchIfDue (s : State) (n : Nat) : State :=
  match (s.sa n).switchAt with
  | some t => if s.hasReached t then s.switchEpoch n else s
  | none => s

/-- The outcome of SCHEDULE. -/
def State.scheduleCheck (s : State) : Nat :=
  let x := s.sa s.saSel
  match x.inState .txArmed with
  | some i =>
    let order := match x.inState .txCurrent with
      | some c => decide ((x.slot i).epoch ≠ ((x.slot c).epoch + 1) % 0x100000000)
      | none => false
    if order then 3
    else match s.saBlocked with
      | some c => c
      | none => if !s.peerValid (s.f A.secSaSel 0 6) then 8 else 0
  | none =>
    match s.saBlocked with
    | some c => c
    | none => 6

/-- SCHEDULE: sets the switch time; with no current slot, or for a time that has passed, the switch is made at once. -/
def State.saSchedule (s : State) : State :=
  let c := s.scheduleCheck
  let n := s.saSel
  let s := s.setCmdStatus c
  if c ≠ 0 then s
  else
    let x := s.sa n
    let t := s.setSa n { x with switchAt := some (s.reg64 A.secSwitchTimeLo A.secSwitchTimeHi) }
    if (x.inState .txCurrent).isNone then t.switchEpoch n else t.switchIfDue n

/-- CLEAR: erases the selected slot whatever its state, and cancels a pending switch. -/
def State.saClear (s : State) : State :=
  let n := s.saSel
  let t := (s.setSa n { (s.sa n).setSlot s.slotSel {} with switchAt := none }).setCmdStatus 0
  (t.noteKeyLoss s).routesChanged

/-- A write of SEC_SA_CMD: the commands whose bits are 1, in ascending order. -/
def State.writeSaCmd (s : State) (value : Word) : State :=
  let s := if bit value 0 then s.saLoad else s
  let s := if bit value 1 then s.saSchedule else s
  if bit value 2 then s.saClear else s

/-- SA_LOAD. -/
def execSaLoad (value : Word) (s : State) : Host.Outcome State Fault Refusal := .next (s.onAccess A.secSaCmd (fun s => s.writeSaCmd value))

/-- SA_SCHEDULE. -/
def execSaSchedule (value : Word) (s : State) : Host.Outcome State Fault Refusal := .next (s.onAccess A.secSaCmd (fun s => s.writeSaCmd value))

/-- SA_CLEAR. -/
def execSaClear (value : Word) (s : State) : Host.Outcome State Fault Refusal := .next (s.onAccess A.secSaCmd (fun s => s.writeSaCmd value))

/-- EPOCH_SWITCH: the switch time of a transmit association has come. -/
def execEpochSwitch (sa : Fin 512) (s : State) : Host.Outcome State Fault Refusal := .next (s.switchIfDue sa)

/-- Erases the slots of a receive association whose hold-down has ended (R213). -/
def State.holdDownEnd (s : State) (n : Nat) : State :=
  let x := s.sa n
  let ended := fun (k : KeySlot) => decide (k.state = .rxHold) && decide (k.holdEnd ≤ s.mono)
  s.setSa n { x with s0 := if ended x.s0 then {} else x.s0, s1 := if ended x.s1 then {} else x.s1 }

/-- RX_HOLDDOWN_EXPIRE. -/
def execRxHolddownExpire (sa : Fin 512) (s : State) : Host.Outcome State Fault Refusal := .next (s.holdDownEnd (512 + sa))

/-! ### Alarms (R217-R219) -/

/-- ALARM_ASSERT: the sources that are asserted from now on. Each that is armed latches, and the keys are erased. -/
def execAlarmAssert (asserted : Fin 512) (s : State) : Host.Outcome State Fault Refusal :=
  .next (s.setF A.secAlarmStatus 0 9 asserted).checkAlarms

/-- The read-back of an erasure ends (R218): a failure is overwritten and verified once more, then sets VERIFY_FAIL. -/
def State.eraseVerified (s : State) (ok : Bool) : State :=
  if !s.sec.erasing then s
  else if ok then
    let s := ({ s with sec := { s.sec with erasing := false, retried := false } }).setB A.secEraseCtrl 8 true
    (s.bump (A.secCnt 7)).logEvent { code := 0x0802, cls := .info, arg0 := s.f A.secAlarmLatch 0 9, arg1 := 1 }
  else if !s.sec.retried then ({ s with sec := { s.sec with retried := true } }).setB A.secEraseCtrl 8 false
  else
    let s := { s with sec := { s.sec with erasing := false, retried := false } }
    let s := (s.setB A.secEraseCtrl 8 false).setB A.secEraseCtrl 9 true
    let s := s.logEvent { code := 0x0802, cls := .info, arg0 := s.f A.secAlarmLatch 0 9, arg1 := 0 }
    (s.enterSafe 1).replaceCriterion 5

/-- KEY_ERASE_COMPLETE. -/
def execKeyEraseComplete (ok : Bool) (s : State) : Host.Outcome State Fault Refusal := .next (s.eraseVerified ok)

/-- A write of SEC_ERASE_CTRL: GO asserts source HOST. -/
def State.writeErase (s : State) (value : Word) : State := if bit value 0 then s.pulseAlarm 8 else s

/-- ERASE_GO. -/
def execEraseGo (value : Word) (s : State) : Host.Outcome State Fault Refusal :=
  .next (s.onAccess A.secEraseCtrl (fun s => s.writeErase value))

/-- Clears latched bits written 1; a bit whose source is still asserted sets again at once (R219). -/
def State.clearLatch (s : State) (value : Word) : State :=
  (s.writeFields A.secAlarmLatch value).checkAlarms.showAlarm

/-- ALARM_LATCH_CLEAR. -/
def execAlarmLatchClear (value : Word) (s : State) : Host.Outcome State Fault Refusal := .next (s.onAccess A.secAlarmLatch (fun s => s.clearLatch value))

end Sys2Proof.Machine
end

