-- ==== Sys2Proof/Machine/BootOps.lean ====
section
/-! DEFINITION. How far bring-up has come: links that are proven, reduced service and ready
(16_bring_up_and_image.md R296-R299, R311, R314, R315). -/
namespace Sys2Proof.Machine

/-! ### Steps and links -/

/-- Whether bring-up step `n` is complete. -/
def State.stepDone (s : State) (n : Nat) : Bool := s.b A.bootStatus (3 + n)
/-- The highest step entered, and the failure code. -/
def State.bootStep (s : State) : Nat := s.f A.bootStatus 0 3
def State.bootFail (s : State) : Nat := s.f A.bootStatus 12 4
/-- Completes step `n`. -/
def State.endStep (s : State) (n : Nat) : State := s.setB A.bootStatus (3 + n) true

/-- Qualification of a wavelength in transmit or in receive (R314). -/
def State.waveQualOf (s : State) (f : Nat) (tx : Bool) (w : Nat) : Qual :=
  s.boot.waveQual.get (fun _ => {}) (f * 32 + (if tx then 0 else 16) + w)
def State.setWaveQual (s : State) (f : Nat) (tx : Bool) (w : Nat) (x : Qual) : State :=
  { s with boot := { s.boot with waveQual := s.boot.waveQual.put (fun _ => {}) (f * 32 + (if tx then 0 else 16) + w) x } }
def State.setPortQual (s : State) (p : Nat) (x : Qual) : State :=
  { s with boot := { s.boot with portQual := s.boot.portQual.put (fun _ => {}) p x } }

/-- OPT_CTRL.FIBRE_EN of a fibre. -/
def State.fibreEnabled (s : State) (f : Nat) : Bool := s.b (A.optCtrl (f / 4)) (f % 4)
/-- Whether a wavelength has been left out in a direction, and is not to be qualified anew. -/
def State.waveOut (s : State) (f : Nat) (tx : Bool) (w : Nat) : Bool :=
  s.b (A.optWlOut (f / 4) (f % 4)) ((if tx then 0 else 16) + w) && !(s.waveQualOf f tx w).retry
/-- Whether every wavelength of a fibre has qualified or been left out in both directions. -/
def State.fibreProven (s : State) (f : Nat) : Bool :=
  (List.range 16).all (fun w => [true, false].all (fun tx => (s.waveQualOf f tx w).passed || s.waveOut f tx w))
/-- Whether a line port or a fibre no longer waits for its qualification. -/
def State.portSettled (s : State) (p : Nat) : Bool := !s.portEnabled p || (s.portQualOf p).passed || (s.portQualOf p).leftOut
def State.fibreSettled (s : State) (f : Nat) : Bool := !s.fibreEnabled f || s.fibreProven f
def State.linksSettled (s : State) : Bool := (List.range 16).all s.portSettled && (List.range 32).all s.fibreSettled

/-! ### Service (R298, R299) -/

/-- Shows the fibres that have qualified. -/
def State.showFibres (s : State) : State :=
  (List.range 32).foldl (fun s f => 
    if s.fibreEnabled f && s.fibreProven f && decide (s.reg (A.optWlOut (f / 4) (f % 4)) ≠ 0xFFFFFFFF#32) then s.setB A.bootFibQual f true
    else s) s

/-- Service begins: tail writes made so far are acted on, and the alarms that service arms are looked at. -/
def State.serve (s : State) (code : Nat) : State :=
  let first := decide (s.f A.bootStatus 8 2 = 0)
  let s := s.setF A.bootStatus 8 2 code
  if first then ((List.range 64).foldl State.notice s).checkAlarms else s

/-- Reduced service, when its conditions hold. -/
def State.reducedIfDue (s : State) : State :=
  if s.stepDone 1 && s.stepDone 2 && decide (s.f A.bootStatus 8 2 = 0) && (List.range 16).any (fun p => (s.portQualOf p).passed)
  then s.serve 1 else s

/-- Ready, when its conditions hold: the vector is raised and the power state leaves BRINGUP. -/
def State.readyIfDue (s : State) : State :=
  if (List.range 5).all s.stepDone && s.linksSettled then
    let s := s.serve 2
    ({ s with power := { s.power with state := .service } }.showReasons.raiseVector (s.f A.bootCtrl 0 9)).checkAlarms
  else s

/-- Looks at what has been proven: links, step 3, reduced service and ready. -/
def State.progress (s : State) : State :=
  let s := s.showFibres
  if s.power.state = .bringup ∧ s.bootFail = 0 then
    let s := if 3 ≤ s.bootStep ∧ s.linksSettled = true then s.endStep 3 else s
    s.reducedIfDue.readyIfDue
  else s

/-! ### Bad units and retired controllers (R309, R311) -/

/-- Whether a unit is treated as bad by the fuses or the field-repair record. -/
def State.unitBad (s : State) (kind index : Nat) : Bool :=
  s.boot.fuses.badUnits.contains (kind, index) || s.boot.record.any (fun e => decide (e.kind = kind) && decide (e.index = index))

/-- Counts, shows and logs a unit that fails a test of this start (R311). -/
def State.noteNewBad (s : State) (kind index : Nat) : State :=
  ((s.bump (A.bootCnt 3)).setB A.bootStatus 17 true).logEvent { code := 0x0A02, cls := .info, kind := kind, index := index }

/-- Records a unit that fails a test of this start. -/
def State.newBad (s : State) (kind index reason : Nat) : State :=
  (s.recordUnit kind index (leBytes 4 reason)).noteNewBad kind index

/-- Whether a controller is retired: class and number. -/
def State.ctrlRetired (s : State) (cls n : Nat) : Bool := s.boot.retired.contains (cls * 65536 + n)

end Sys2Proof.Machine
end

