-- ==== Sys2Proof/Machine/PortOps.lean ====
section
/-! DEFINITION. A line port's defects, alignment and module, its being turned on and off and left out
(08_span_framer.md R153, R158, R171, R386; 16_bring_up_and_image.md R299, R305, R315; 20_pins_package_electrical.md R360). -/
namespace Sys2Proof.Machine

/-! ### Working counts (R167) -/

/-- Adds to working counter `k` of a port; none is taken while ENABLE = 0. -/
def State.pmAdd (s : State) (p k n : Nat) : State :=
  let x := s.port p
  if s.portEnabled p then s.setPort p { x with pm := setAt x.pm k (min 0xFFFFFFFF (x.pm.getD k 0 + n)) } else s

/-- DEFECT_SEEN: LINE_STATUS bits 2 to 12 as they are now are seen in this second. -/
def State.noteDefects (s : State) (p : Nat) : State :=
  let x := s.port p
  if s.portEnabled p then
    s.setPort p { x with pm := setAt x.pm 15 (Nat.lor (x.pm.getD 15 0) (Nat.land (s.reg (A.lineStatus p)).toNat 0x1FFC)) }
  else s

/-! ### Defects (R158) -/

/-- Declares or clears a defect (bit of LINE_STATUS): a new one is latched. -/
def State.setDefect (s : State) (p d : Nat) (v : Bool) : State :=
  if s.defect p d = v then s
  else
    let s := s.setB (A.lineStatus p) d v
    if v then (s.setB (A.lineDefectLatch p) d true).noteDefects p else s

/-- LINE_STATUS.ALIGN: 0 OOF, 1 PRE, 2 IF. -/
def State.align (s : State) (p : Nat) : Nat := s.f (A.lineStatus p) 0 2

/-- Moves the alignment state; leaving for OOF counts OOF_ENTRIES. -/
def State.setAlign (s : State) (p a : Nat) : State :=
  let old := s.align p
  if old = a then s
  else
    let x := s.port p
    let x := if a = 2 then { x with inSince := some s.mono, outSince := none }
             else if old = 2 then { x with inSince := none, outSince := some s.mono, mfasExp := none, mfasBad := 0, rxBips := [],
                                           comms := [], trace := [] }
             else x
    let s := (s.setPort p { x with preCount := if a = 1 then 1 else 0, fasRun := 0 }).setF (A.lineStatus p) 0 2 a
    if a = 0 then s.pmAdd p 8 1 else s

/-- What follows from a change of a port's defects since `before`: how long it has been in loss, delineation, and the
routes (R99, R176, R192, R201). -/
def State.settlePort (s : State) (p : Nat) (before : State) : State :=
  let x := s.port p
  let fail := s.pathFail p
  let x := { x with lossSince := if fail then some (x.lossSince.getD s.mono) else none,
                    clearSince := if fail then none else if before.pathFail p then some s.mono else x.clearSince }
  let x := if s.align p ≠ 2 ∨ fail then { x with delin := .hunt, rx := [] } else x
  let s := s.setPort p x
  if s.portUsable p = before.portUsable p then s else s.routesChanged

/-- dLOS: loss of signal or CDR lock, the module's Rx LOS flag, or no module. It puts the port into OOF. -/
def State.refreshLos (s : State) (p : Nat) : State :=
  let los := s.portEnabled p && ((s.port p).sigLost || s.b (A.lineModStatus p) 6 || !s.b (A.lineModStatus p) 0)
  let t := s.setDefect p dLOS los
  (if los then t.setAlign p 0 else t).settlePort p s

/-- dSID and dPTIM: the accepted neighbour and path trace against those expected. -/
def State.refreshIds (s : State) (p : Nat) : State :=
  let sid := s.portEnabled p && s.b (A.lineCtrl p) 13 && s.b (A.lineNbrRxPort p) 8 &&
    !(decide (s.reg (A.lineNbrRxId p) = s.reg (A.lineNbrExpId p)) && decide (s.f (A.lineNbrRxPort p) 0 4 = s.f (A.lineNbrExpPort p) 0 4))
  let tim := s.portEnabled p && s.b (A.lineCtrl p) 12 && (s.port p).traceAccepted &&
    (List.range 4).any (fun k => decide (s.reg (A.linePttiAcc p k) ≠ s.reg (A.linePttiExp p k)))
  ((s.setDefect p dSID sid).setDefect p dPTIM tim).settlePort p s

/-! ### The module (R171; 20 R360) -/

def State.modPresent (s : State) (p : Nat) : Bool := s.b (A.lineModStatus p) 0
def State.modAuto (s : State) (p : Nat) : Bool := s.b (A.lineModCtrl p) 4
def State.appSel (s : State) (p : Nat) : Nat := s.f (A.lineModCtrl p) 0 4

/-- Whether the management core brings the module up: present, ENABLE, AUTO and an application selected. -/
def State.bringsUp (s : State) (p : Nat) : Bool :=
  s.modPresent p && s.portEnabled p && s.modAuto p && decide (s.appSel p ≠ 0)

/-- Drives MOD_LPMODE_n: low while the module is brought up. -/
def State.driveLp (s : State) (p : Nat) : State :=
  let m := s.pins.modLpLow
  let low := s.bringsUp p
  { s with pins := { s.pins with modLpLow := if low then Nat.lor m (2 ^ p) else m - (m / 2 ^ p % 2) * 2 ^ p } }

/-- Deactivates the module's data path (CMIS page 10h; its byte addresses are PRESUMED from CMIS 5.0, log 28). -/
def State.deactivate (s : State) (p : Nat) : State :=
  let s := if s.modPresent p then s.emit (.cmisWrite p 0x10 128 0x0F) else s
  (s.setB (A.lineModStatus p) 4 false).setPort p { s.port p with framerOn := false }

/-- Selects APPSEL on lanes 1-4 in staged control set 0 and applies it (addresses PRESUMED, log 28). -/
def State.applyApp (s : State) (p : Nat) : State :=
  let s := (List.range 4).foldl (fun s l => s.emit (.cmisWrite p 0x10 (145 + l) (s.appSel p * 16))) s
  s.emit (.cmisWrite p 0x10 143 0x0F)

/-- Whether the framers run: by the management core's sequence, or as ENABLE says when AUTO = 0. -/
def State.framersOn (s : State) (p : Nat) : Bool := s.portEnabled p && (!s.modAuto p || (s.port p).framerOn)

/-- Whether the link domain is in service: not OFF, AO, RESET or SAFE. -/
def State.linkRuns (s : State) : Bool := decide (s.power.state = .bringup) || decide (s.power.state = .service)

/-! ### Turning a port on and off (R171, R305, R386) -/

/-- ENABLE goes to 1: the port starts in OOF and is to be qualified. -/
def State.portOn (s : State) (p : Nat) : State :=
  let x := s.port p
  let s := s.setPort p { lastLatch := x.lastLatch, history := x.history, unavailable := x.unavailable, pm := x.pm,
                         sigLost := x.sigLost, refLost := x.refLost, framerOn := s.b (A.lineModStatus p) 4, resetPulse := x.resetPulse, outSince := some s.mono }
  let s := (s.setPortQual p { since := s.mono })
  let s := { s with boot := { s.boot with hostLanes := s.boot.hostLanes.erase p } }
  let s := ((s.setB A.bootLinkQual p false).setB A.bootLinkQual (16 + p) false).setB (A.lineNbrRxPort p) 8 false
  ((s.driveLp p).refreshLos p).setDefect p 12 x.refLost

/-- ENABLE goes to 0: the transmit host lanes are squelched, the data path is deactivated, and STATUS and the latch read 0. -/
def State.portOff (s : State) (p : Nat) : State :=
  let t := ((((s.deactivate p).setReg (A.lineStatus p) 0).setReg (A.lineDefectLatch p) 0).driveLp p)
  let x := t.port p
  let t := t.setPort p { x with tx := [], rx := [], delin := .hunt, rxBips := [], txBips := [], lossSince := none, inSince := none,
                                outSince := none, downMark := false, clearSince := none }
  t.routesChanged

/-- Leaves a port out: ENABLE is written to 0 and the port counts as left out (16 R299, R315; 19 R350). -/
def State.leavePortOut (s : State) (p : Nat) : State :=
  if (s.portQualOf p).leftOut then s
  else
    let s := { s with boot := { s.boot with portQual := s.boot.portQual.put (fun _ => {}) p { s.portQualOf p with leftOut := true, passed := false } } }
    let s := ((s.setB A.bootLinkQual p false).setB A.bootLinkQual (16 + p) true)
    let s := if s.portEnabled p then (s.setB (A.lineCtrl p) 0 false).portOff p else s
    (s.logEvent { code := 0x0602, cls := .degraded, reason := p }).progress

/-- Whether a SerDes sequencer of a port's host lanes is retired (16 R309). -/
def State.serdesRetired (s : State) (p : Nat) : Bool := (List.range 4).any (fun l => s.ctrlRetired 4 (4 * p + l))

/-- A write of LINE_CTRL. A port whose host lane has lost its sequencer is left out. -/
def State.writeLineCtrl (s : State) (p : Nat) (value : Word) : State :=
  if 8 ≤ p ∧ bit value 0 ∧ !s.licensed 0 then s.accessError 7 (A.lineCtrl p)
  else
    let was := s.portEnabled p
    let s := s.writeFields (A.lineCtrl p) value
    if !was && bit value 0 then (if s.serdesRetired p then (s.portOn p).leavePortOut p else s.portOn p)
    else if was && !bit value 0 then s.portOff p
    else s.refreshIds p

end Sys2Proof.Machine
end

