-- ==== Sys2Proof/Machine/Time.lean ====
section
/-! DEFINITION. The time base: discipline, steps, timing messages and the passage of time (14_time.md R263-R272). -/
namespace Sys2Proof.Machine

/-! ### Discipline (R265, R266) -/

/-- TIME_STATUS.STATE: 0 FREE, 1 ACQUIRE, 2 LOCKED, 3 HOLDOVER. -/
def State.timeState (s : State) : Nat := s.f A.timeStatus 0 2
def State.setTimeState (s : State) (v : Nat) : State := s.setF A.timeStatus 0 2 v

/-- One second, in ns and in units of 2^-16 ns. -/
abbrev secNs : Nat := 1000000000
abbrev secUnits : Nat := 1000000000 * 0x10000

/-- The signed 32-bit word of a value, saturating. -/
def satWord (i : Int) : Word :=
  BitVec.ofInt 32 (if i < -0x80000000 then -0x80000000 else if 0x7FFFFFFF < i then 0x7FFFFFFF else i)

/-- Steps device time, counts and logs the step (R266, R267). Events whose time it passes take place by their own
commands, which device time now lets through. -/
def State.stepTime (s : State) (dev : Nat) : State :=
  let s := ({ s with time := { s.time with dev := dev, slew := 0 } }).bump (A.timeCnt 2)
  s.logEvent { code := 0x0901, cls := .info, reason := 1, arg0 := (s.reg A.timePhaseErr).toNat }

/-- Half the width of the window of a valid edge in ns: 1 us once locked, 20 us before. -/
def State.ppsWindow (s : State) : Nat := if 2 ≤ s.timeState then 1000 else 20000

/-- Whole seconds nearest to an interval. -/
def nearSeconds (d : Nat) : Nat := (d + secNs / 2) / secNs

/-- Whether an edge now is valid: within the window of a whole number of seconds after the previous valid edge. -/
def State.ppsValid (s : State) : Bool :=
  match s.time.lastEdge with
  | none => true
  | some t =>
    let d := s.mono - t
    let n := nearSeconds d
    decide (1 ≤ n) && decide (d ≤ n * secNs + s.ppsWindow) && decide (n * secNs ≤ d + s.ppsWindow)

/-- The step that ACQUIRE makes at a valid edge: to the time named for an earlier edge and the seconds since. -/
def State.stepAtEdge (s : State) : State :=
  match s.time.stepNext, s.time.named with
  | true, some (sec, at_) =>
    ({ s with time := { s.time with stepNext := false } }).stepTime ((sec + nearSeconds (s.mono - at_)) * secUnits)
  | _, _ => s

/-- A 1PPS edge (R265, R266). -/
def State.ppsEdge (s : State) : State :=
  if s.ppsValid then
    let run := if s.time.edgeReading.isSome then 0 else s.time.goodRun
    let s := ({ s with time := { s.time with lastEdge := some s.mono, goodRun := run } }).stepAtEdge
    { s with time := { s.time with edgeReading := some s.time.dev } }
  else s.bump (A.timeCnt 0)

/-- PPS_EDGE. -/
def execPpsEdge (s : State) : Host.Outcome State Fault Refusal := .next s.ppsEdge

/-! ### Time-of-day messages (R265) -/

/-- The value of an ASCII decimal digit. -/
def digitOf (b : Byte) : Option Nat := if 48 ≤ b.toNat ∧ b.toNat ≤ 57 then some (b.toNat - 48) else none

/-- The number that ASCII digits spell; none for an empty list or another character. -/
def decimal (bs : List Byte) : Option Nat :=
  if bs.isEmpty then none
  else bs.foldl (fun a b => match a, digitOf b with | some a, some d => some (a * 10 + d) | _, _ => none) (some 0)

/-- The value of an ASCII hexadecimal digit. -/
def hexOf (b : Byte) : Option Nat :=
  if 48 ≤ b.toNat ∧ b.toNat ≤ 57 then some (b.toNat - 48)
  else if 65 ≤ b.toNat ∧ b.toNat ≤ 70 then some (b.toNat - 55)
  else if 97 ≤ b.toNat ∧ b.toNat ≤ 102 then some (b.toNat - 87) else none

/-- Fields of a sentence, separated by commas. -/
def commaFields (bs cur : List Byte) : List (List Byte) :=
  match bs with
  | [] => [cur]
  | b :: r => if b = 44 then cur :: commaFields r [] else commaFields r (cur ++ [b])

/-- Days from 1970-01-01 to a date of the Gregorian calendar. -/
def daysOf (y m d : Nat) : Nat :=
  let y := if m ≤ 2 then y - 1 else y
  let yoe := y % 400
  let doy := (153 * ((m + 9) % 12) + 2) / 5 + d - 1
  y / 400 * 146097 + yoe * 365 + yoe / 4 - yoe / 100 + doy - 719468

/-- UTC seconds that the fields of a ZDA sentence name: time of day, day, month, year. -/
def zdaFields (time day month year : List Byte) : Option Nat :=
  match decimal (time.take 2), decimal ((time.drop 2).take 2), decimal ((time.drop 4).take 2), decimal day, decimal month,
        decimal year with
  | some h, some mi, some sec, some d, some m, some y =>
    if 6 ≤ time.length ∧ h < 24 ∧ mi < 60 ∧ sec ≤ 60 ∧ 1 ≤ d ∧ d ≤ 31 ∧ 1 ≤ m ∧ m ≤ 12 ∧ 1970 ≤ y then
      some (daysOf y m d * 86400 + h * 3600 + mi * 60 + sec)
    else none
  | _, _, _, _, _, _ => none

/-- UTC seconds of an NMEA 0183 ZDA sentence with a good checksum (PRESUMED: the sentence is NMEA 0183's). -/
def zdaSeconds (msg : List Byte) : Option Nat :=
  match msg with
  | [] => none
  | b :: rest =>
    let body := rest.takeWhile (fun c => c ≠ 42)
    let tail := (rest.drop body.length).drop 1
    let sum := body.foldl (fun a c => Nat.xor a c.toNat) 0
    match (tail.head?).bind hexOf, (tail.drop 1).head?.bind hexOf, commaFields body [] with
    | some hi, some lo, f0 :: t :: d :: m :: y :: _ =>
      if b = 36 ∧ hi * 16 + lo = sum ∧ (tail.drop 2).all (fun c => c = 13 ∨ c = 10) ∧ f0.length = 5 ∧ f0.drop 2 = [90, 68, 65]
      then zdaFields t d m y else none
    | _, _, _ => none

/-- What a time-of-day message gives. -/
inductive Tod where
  | bad | absent
  | time (seconds : Nat)
  deriving DecidableEq, Repr

/-- Reads a message in the format that TOD_FMT selects: TAI seconds. -/
def State.readTod (s : State) (msg : List Byte) : Tod :=
  if s.b A.timeCtrl 0 then
    if msg.length = 16 ∧ beAt msg 0 2 = 0x4B57 ∧ beAt msg 2 1 = 1 ∧ beAt msg 14 2 = crc16 (msg.take 14) then
      if nfld (beAt msg 3 1) 0 1 = 0 then .absent else .time (beAt msg 4 6)
    else .bad
  else
    match zdaSeconds msg with
    | some u => .time ((u : Int) + sgn 16 (s.f A.timeUtcOffset 0 16)).toNat
    | none => .bad

/-- Enters ACQUIRE: device time is stepped at the next valid edge. -/
def State.acquire (s : State) : State :=
  ({ s with time := { s.time with stepNext := true, goodRun := 0, badRun := 0, slew := 0 } }).setTimeState 1

/-- The discipline states' answer to a phase error of `err` units of 2^-16 ns (R266). -/
def State.discipline (s : State) (err : Int) : State :=
  let tb := s.time
  let big := decide (secUnits / 1000000 < err.natAbs)
  match s.timeState with
  | 0 => s.acquire
  | 1 =>
    if tb.stepNext then s
    else if err.natAbs ≤ 100 * 0x10000 then
      let s := { s with time := { tb with goodRun := tb.goodRun + 1, badRun := 0 } }
      if 16 ≤ tb.goodRun + 1 then s.setTimeState 2 else s
    else { s with time := { tb with goodRun := 0 } }
  | 2 =>
    if big then
      let s := { s with time := { tb with badRun := tb.badRun + 1 } }
      if 3 ≤ tb.badRun + 1 then
        if s.b A.timeCtrl 5 then s.acquire
        else if tb.slew = 0 then { s with time := { s.time with slew := err } } else s
      else s
    else { s with time := { tb with badRun := 0 } }
  | _ => if big then s.acquire else ({ s with time := { tb with badRun := 0 } }).setTimeState 2

/-- An accepted message: names the time of the edge before it. -/
def State.acceptTod (s : State) (edge sec : Nat) : State :=
  let s := { s with time := { s.time with named := some (sec, edge), lastGood := some edge, lastTod := some s.mono } }
  match s.time.edgeReading with
  | none => s
  | some r =>
    let err : Int := (r : Int) - ((sec * secUnits : Nat) : Int)
    let s := ({ s with time := { s.time with edgeReading := none } }).setReg A.timePhaseErr (satWord err)
    s.discipline err

/-- A whole time-of-day message has come in (R265). -/
def State.takeTod (s : State) (msg : List Byte) : State :=
  match s.time.lastEdge, s.readTod msg with
  | some e, .time sec =>
    if s.elapsed e 100000000 && decide (s.mono ≤ e + 900000000) then s.acceptTod e sec else s.bump (A.timeCnt 1)
  | _, .absent => s
  | _, _ => s.bump (A.timeCnt 1)

/-- TOD_MESSAGE_RECEIVE. -/
def execTodMessageReceive (msg : List Byte) (s : State) : Host.Outcome State Fault Refusal := .next (s.takeTod msg)

/-- HOLDOVER_TIMEOUT: in LOCKED, no valid edge with an accepted message for 2 s. -/
def State.enterHoldover (s : State) : State :=
  if s.timeState = 2 ∧ s.elapsedSince s.time.lastGood (2 * secNs) then
    let s := (s.setTimeState 3).bump (A.timeCnt 3)
    s.logEvent { code := 0x0901, cls := .info, reason := 2, arg0 := (s.reg A.timePhaseErr).toNat }
  else s

/-- HOLDOVER_TIMEOUT. -/
def execHoldoverTimeout (s : State) : Host.Outcome State Fault Refusal := .next s.enterHoldover

/-- A write of TIME_CTRL: SET loads TIME_SET in FREE. -/
def State.writeTimeCtrl (s : State) (value : Word) : State :=
  let s := s.writeFields A.timeCtrl value
  if bit value 16 ∧ s.timeState = 0 then
    let sec := (s.reg A.timeSetSecLo).toNat + 0x100000000 * s.f A.timeSetSecHi 0 16
    s.stepTime (sec * secUnits + (s.reg A.timeSetNs).toNat * 0x10000)
  else s

/-- TIME_SET. -/
def execTimeSet (value : Word) (s : State) : Host.Outcome State Fault Refusal := .next (s.onAccess A.timeCtrl (fun s => s.writeTimeCtrl value))

/-- REF10M_CHANGE: the 10 MHz input appears or goes. -/
def execRef10mChange (present : Bool) (s : State) : Host.Outcome State Fault Refusal :=
  .next { s with time := { s.time with tenMHz := present } }

/-! ### Timing messages (R268-R272) -/

/-- A timing message (R269). -/
def timingMsg (mtype state seq origin t1 t2 corr : Nat) : List Byte :=
  withHcrc (beBytes 1 mtype ++ beBytes 1 state ++ beBytes 2 seq ++ beBytes 4 origin ++ beBytes 12 t1 ++ beBytes 12 t2 ++
    beBytes 8 corr ++ [0, 0, 0, 0])

/-- Whether a message is a timing message. -/
def isTiming (msg : List Byte) : Bool := decide (0x40 ≤ beAt msg 0 1) && decide (beAt msg 0 1 ≤ 0x42) && decide (msg.length = 48)

/-- A message as it leaves at transmit timestamp `t` (units of 2^-16 ns): T1 of SYNC and PROBE and CORR of ECHO are fixed
then, and the HCRC with them (R270). -/
def fixTiming (t : Nat) (msg : List Byte) : List Byte :=
  if isTiming msg then
    let body := msg.take 44
    if beAt msg 0 1 = 0x42 then
      let t2 := untime96 (beAt msg 20 12)
      withHcrc (patch body 32 (beBytes 8 (unsgn 64 (sgn 64 (beAt msg 32 8) + ((t : Int) - (t2 : Int))))))
    else withHcrc (patch body 8 (beBytes 12 (time96 t)))
  else msg

/-- Device time with a signed adjustment register added or subtracted, never below 0. -/
def State.adjusted (s : State) (a : Nat) (add : Bool) : Nat :=
  let d := sgn 32 (s.reg a).toNat
  (if add then (s.time.dev : Int) + d else (s.time.dev : Int) - d).toNat

/-- Transmit and receive timestamps of line ports and fibres (R268), in units of 2^-16 ns. -/
def State.txStamp (s : State) (line : Bool) (p : Nat) : Nat := s.adjusted (if line then A.timeLineAdjTx p else A.timeFibAdjTx p) true
def State.rxStamp (s : State) (line : Bool) (p : Nat) : Nat := s.adjusted (if line then A.timeLineAdjRx p else A.timeFibAdjRx p) false

/-- SYNC_SEND: a SYNC on every fibre whose link is UP, to the far end's node (R272). -/
def State.sendSyncs (s : State) : State :=
  ((List.range 32).filter s.linkUp).foldl (fun s f =>
    s.sendOnFibre f (s.fib f).farNode (timingMsg 0x40 s.timeState 0 s.nodeId 0 0 0)) s

/-- SYNC_SEND. -/
def execSyncSend (s : State) : Host.Outcome State Fault Refusal := .next s.sendSyncs

/-- Takes a timing message: one with a bad HCRC or an unknown type is dropped and counted (R269); `run` deals with one
of the type expected. -/
def State.withTiming (s : State) (line : Bool) (mtype : Nat) (msg : List Byte) (run : State → State) : State :=
  let s := s.takeMsg line msg
  if !hcrcOk msg || !isTiming msg then s.bump (A.timeCnt 5)
  else if beAt msg 0 1 = mtype then run s else s

/-- SYNC_RECEIVE: no action; counted as dropped (R272). -/
def execSyncReceive (line : Bool) (msg : List Byte) (s : State) : Host.Outcome State Fault Refusal :=
  .next (s.withTiming line 0x40 msg (fun s => s.bump (A.timeCnt 5)))

def State.peerTime (s : State) (e : Nat) : PeerTime := s.time.peers.get (fun _ => {}) e
def State.setPeerTime (s : State) (e : Nat) (x : PeerTime) : State :=
  { s with time := { s.time with peers := s.time.peers.put (fun _ => {}) e x } }

/-- Sends a PROBE to a peer with the next SEQ (R270). -/
def State.sendProbe (s : State) (e : Nat) : State :=
  let x := s.peerTime e
  let seq := if x.sent then (x.seq + 1) % 0x10000 else x.seq
  (s.setPeerTime e { x with seq := seq, sent := true }).sendMsg e (timingMsg 0x41 s.timeState seq s.nodeId 0 0 0)

/-- PROBE_TIMER: a PROBE to every valid peer. -/
def execProbeTimer (s : State) : Host.Outcome State Fault Refusal :=
  .next (((List.range 64).filter s.peerValid).foldl (fun s e => s.sendProbe e) s)

/-- A PROBE: answered by an ECHO to its ORIGIN on the same port type (R270). -/
def State.answerProbe (s : State) (line : Bool) (port : Nat) (msg : List Byte) : State :=
  let origin := beAt msg 4 4
  let echo := timingMsg 0x42 s.timeState (beAt msg 2 2) origin (beAt msg 8 12) (time96 (s.rxStamp line port)) (beAt msg 32 8)
  if line then
    if ((s.peerOf origin).bind s.msgPort).isSome then (s.sendMsgTo origin echo).bump (A.timeCnt 6) else s
  else (s.sendFabricMsg origin echo).bump (A.timeCnt 6)

/-- PROBE_RECEIVE. -/
def execProbeReceive (line : Bool) (port : Fin 32) (msg : List Byte) (s : State) : Host.Outcome State Fault Refusal :=
  .next (s.withTiming line 0x41 msg (fun s => s.answerProbe line port msg))

/-- Twice a time in 2^-16 ns as whole ns (log 7: the rounding is open). -/
def halfNs (i : Int) : Int := i / 0x20000 + (if i % 0x20000 = 0 then 0 else (Config.roundUp i.natAbs 0x20000 % 2 : Nat))

/-- The alarm of R271. -/
def State.offsetAlarm (s : State) (e : Nat) (x : PeerTime) : State :=
  let off := halfNs x.offset
  if s.f A.timeProbeCtrl 12 20 < off.natAbs ∧ s.timeState = 2 ∧ x.farState = 2 then
    (s.bump (A.timeCnt 4)).logEvent { code := 0x0902, cls := .info, arg0 := e, arg1 := (satWord off).toNat }
  else s

/-- An ECHO of the latest PROBE gives the peer's offset and delay (R270). -/
def State.takeEcho (s : State) (port e : Nat) (msg : List Byte) : State :=
  let x := s.peerTime e
  if x.sent ∧ beAt msg 2 2 = x.seq then
    let t1 : Int := untime96 (beAt msg 8 12)
    let t2 : Int := untime96 (beAt msg 20 12)
    let t4 : Int := s.rxStamp true port
    let delay := t4 - t1 - sgn 64 (beAt msg 32 8)
    let x := { x with delay := delay, offset := 2 * (t2 - t1) - delay, farState := nfld (beAt msg 1 1) 0 2 }
    (s.setPeerTime e x).offsetAlarm e x
  else s

/-- ECHO_RECEIVE. -/
def execEchoReceive (port : Fin 16) (node : Nat) (msg : List Byte) (s : State) : Host.Outcome State Fault Refusal :=
  .next (s.withTiming true 0x42 msg (fun s =>
    match s.peerOf node with
    | some e => s.takeEcho port e msg
    | none => s))

/-! ### The passage of time (log 2) -/

/-- Units of 2^-16 ns that slewing at 100 ppm takes in the nanosecond from `t`. -/
def slewUnits (t : Nat) : Nat := (t + 1) * 0x10000 / 10000 - t * 0x10000 / 10000

/-- The change of device time over one nanosecond: nominal in FREE; within 100 ppm of it while steered, by a free value;
at 100 ppm while it slews (R266). -/
def State.steered (s : State) : State :=
  let tb := s.time
  if tb.slew ≠ 0 then
    let u := slewUnits tb.mono
    let left := if 0 < tb.slew then tb.slew - u else tb.slew + u
    let left := if left.natAbs < 1000 * 0x10000 then 0 else left
    { s with time := { tb with dev := if 0 < tb.slew then tb.dev + 0x10000 - u else tb.dev + 0x10000 + u, slew := left } }
  else if s.timeState = 0 then { s with time := { tb with dev := tb.dev + 0x10000 } }
  else
    let (n, s) := s.draw
    { s with time := { s.time with dev := tb.dev + 0x10000 - 6 + Config.steer n % 13 } }

/-- At each microsecond, the fibres on which a VC is below full rate count it (13 R254). -/
def State.countThrottle (s : State) : State :=
  (List.range 32).foldl (fun s f =>
    s.bumpIf ((List.range 8).any (fun v => s.throttled (s.fib f) v)) (A.dflFCnt f 7)) s

/-- One nanosecond passes. -/
def State.tick (s : State) : State :=
  let s := s.steered
  let s := { s with time := { s.time with mono := s.time.mono + 1 } }
  if s.time.mono % 1000 = 0 then s.countThrottle else s

end Sys2Proof.Machine
end

