-- ==== Sys2Proof/Machine/Sched.lean ====
section
/-! DEFINITION. The line scheduler: choice of the next cell of a port, its completion and encryption, sampling and
statistics (10_line_scheduler.md R194-R203; 09_routes_striping_resequencing.md R176, R177, R182; 11_line_cipher.md R206,
R215). -/
namespace Sys2Proof.Machine

/-! ### Cells (R176, R177, R182) -/

/-- A core header for `pli` bytes, as sent. -/
def coreHeader (pli : Nat) : List Byte :=
  let h := beBytes 2 pli
  xorBytes (h ++ beBytes 2 (crc16 h)) [0xB6, 0xAB, 0x31, 0xE0]

/-- A cell before encryption: SEC filled, BODY in clear, TAG to follow. -/
def plainCell (ctype vc src dst epoch ctr : Nat) (body : List Byte) : List Byte :=
  coreHeader (40 + body.length) ++ beBytes 1 ctype ++ beBytes 1 vc ++ [0, 0] ++ beBytes 4 src ++ beBytes 4 dst ++
    beBytes 4 epoch ++ beBytes 8 ctr ++ body

/-- BODY of a SHARD cell: header with TX_TIME, then the shard bytes (R182). -/
def shardBody (x : ShardCell) (inc txTime : Nat) : List Byte :=
  let h := beBytes 1 (b2n x.resent) ++ beBytes 1 (x.k + 16 * x.m) ++ beBytes 1 x.index ++ beBytes 1 x.route ++ beBytes 1 x.gen ++ [0] ++
    beBytes 2 inc ++ beBytes 4 x.seq ++ beBytes 4 txTime ++ beBytes 2 x.firstPkt ++ List.replicate 10 0
  h ++ beBytes 4 (crc32c (h ++ x.bytes)) ++ x.bytes

/-! ### Selection (R195-R197) -/

/-- Whether a port may start a cell at all: on, qualified and in a power state that runs the link domain. -/
def State.portSends (s : State) (p : Nat) : Bool := s.linkRuns && s.framersOn p && s.portOpen p

/-- Whether the head of a queue may go on a port (R196). -/
def State.eligible (s : State) (p : Nat) (x : ShardCell) : Bool :=
  decide (s.portRole p = 1) && s.portUsable p && decide (s.portPeer p = x.peer) && s.keyed x.peer (s.portRoute p)

/-- Whether tag `a` comes before tag `b`, by signed 64-bit difference. -/
def tagBefore (a b : Nat) : Bool := decide (sgn 64 (a + 0x10000000000000000 - b) < 0)

/-- The queue whose eligible head has the smallest tag; ties go to the lower number. -/
def State.bestQueue (s : State) (p : Nat) : Option (Nat × ShardCell × Nat × Nat) :=
  (List.range 64).foldl (fun best q =>
    match (s.wfq (s.portRoute p) q).items with
    | [] => best
    | (x, f, t) :: _ =>
      if s.eligible p x then
        match best with
        | none => some (q, x, f, t)
        | some b => if tagBefore f b.2.2.1 then some (q, x, f, t) else best
      else best) none

/-- Takes a queue's head: V follows its tag. -/
def State.popQueue (s : State) (r q f : Nat) : State :=
  let w := s.wfq r q
  let s := s.setWfq r q { w with items := w.items.drop 1 }
  if tagBefore (s.vtime r) f then { s with sched := { s.sched with vtime := s.sched.vtime.put (fun _ => 0) r f } } else s

/-! ### Encryption with two cores (R206, R215) -/

/-- Notes a cell that a port dropped after three mismatches: three distinct seconds within a minute leave the port out
(19 R350). -/
def State.noteDrop (s : State) (p : Nat) : State :=
  let now := s.mono / 1000000000
  let recent := s.sec.dropSeconds.filter (fun d => decide (now < d.2 + 60))
  let recent := if recent.contains (p, now) then recent else recent ++ [(p, now)]
  let s := { s with sec := { s.sec with dropSeconds := recent } }
  if 3 ≤ (recent.filter (fun d => d.1 = p)).length then s.leavePortOut p else s

/-- Encrypts a cell under the current slot of an association; `mism` attempts mismatch first, and a third drops the cell. -/
def State.encrypt (s : State) (p n : Nat) (mism : Nat) (cell : Nat → Nat → List Byte) : State :=
  match s.nextCounter n with
  | none => s
  | some (k, c, s) =>
    match mism with
    | 0 => s.setPort p { s.port p with tx := (s.port p).tx ++ sealCell k c (cell k.epoch c) }
    | m + 1 =>
      (s.coreMismatch 3).encrypt p n m cell

/-- Encrypts with at most three attempts. -/
def State.protect (s : State) (p n mism : Nat) (cell : Nat → Nat → List Byte) : State :=
  if mism < 3 then s.encrypt p n mism cell
  else
    let drop := fun (s : State) => match s.nextCounter n with
      | none => s
      | some (_, _, s) => s.coreMismatch 3
    (drop (drop (drop s))).noteDrop p

/-! ### One cell of a port -/

/-- Delay statistics of a cell sent from a queue (R202). -/
def QStat.delayed (x : QStat) (d : Nat) : QStat :=
  let d := min d 0xFFFFFFFE
  { x with delayMin := min x.delayMin d, delayMax := max x.delayMax d, delaySum := x.delaySum + d, cells := x.cells + 1 }

def State.qstat (s : State) (k : Nat) : QStat := s.sched.stat.get (fun _ => {}) k
def State.setQstat (s : State) (k : Nat) (x : QStat) : State :=
  { s with sched := { s.sched with stat := s.sched.stat.put (fun _ => {}) k x } }

/-- Sends the oldest CONTROL cell of a port; its timestamps are fixed now. A relay's own notice has no key: its SEC and TAG
are free values (log 7). -/
def State.sendCtrl (s : State) (p : Nat) (c : CtrlCell) (mism : Nat) : State :=
  let msg := fixTiming (s.txStamp true p) c.msg
  let s := ({ s with sched := { s.sched with ctrl := s.sched.ctrl.put (fun _ => []) p ((s.ctrlQueue p).drop 1) } }).bump (A.schedCnt 3)
  if c.peer = 64 then
    let (n, s) := s.draw
    let v := Config.outside n
    let cell := plainCell 2 0 s.nodeId c.node (v % 2 ^ 32) (v / 2 ^ 32 % 2 ^ 64) msg ++ beBytes 16 (v / 2 ^ 96)
    s.setPort p { s.port p with tx := (s.port p).tx ++ cell }
  else s.protect p (saNumber 0 c.peer (s.portRoute p)) mism (fun e k => plainCell 2 0 s.nodeId c.node e k msg)

/-- Whether the head CONTROL cell of a port may go: a relay's own notice, or towards a keyed peer. -/
def State.ctrlReady (s : State) (p : Nat) (c : CtrlCell) : Bool := decide (c.peer = 64) || s.keyed c.peer (s.portRoute p)

/-- Sends the head of a weighted queue on a port; its stripe's hold is renewed (R96). -/
def State.sendShard (s : State) (p q : Nat) (x : ShardCell) (f t mism : Nat) : State :=
  let r := s.portRoute p
  let s := s.popQueue r q f
  let s := s.setQstat (r * 64 + q) ((s.qstat (r * 64 + q)).delayed (s.mono - t))
  let s := match s.findStripe x.node x.vc x.seq with
    | some y => s.setStripe { y with holdEnd := s.mono + (s.lineHold x.node).1 }
    | none => s
  let body := shardBody x s.rte.incarnation (s.txStamp true p / 0x10000)
  s.protect p (saNumber 0 x.peer r) mism (fun e k => plainCell 1 x.vc s.nodeId x.node e k body)

/-- A port can start a cell (R195-R197): a due epoch switch is made first. With nothing to send it sends idle cells. -/
def State.selectCell (s : State) (p mism : Nat) : State :=
  if !s.portSends p then s
  else
    let s := if s.portRole p = 1 then s.switchIfDue (saNumber 0 (s.portPeer p) (s.portRoute p)) else s
    match s.ctrlQueue p with
    | c :: _ => if s.ctrlReady p c then s.sendCtrl p c mism else s
    | [] =>
      if s.portRole p = 1 then
        match s.bestQueue p with
        | some (q, x, f, t) => s.sendShard p q x f t mism
        | none => s
      else s

/-- PORT_CELL_SELECT. -/
def execPortCellSelect (port : Fin 16) (mismatches : Fin 4) (s : State) : Host.Outcome State Fault Refusal :=
  .next (s.selectCell port mismatches)

/-! ### Sampling (R202, R203) -/

/-- One depth sample. -/
def QStat.sampled (x : QStat) (d : Nat) : QStat :=
  { x with depthMin := if x.samples = 0 then d else min x.depthMin d, depthMax := max x.depthMax d, depthSum := x.depthSum + d,
           samples := x.samples + 1 }

/-- Samples the VC queues of a fibre (13_fabric_links_and_concourse.md R256). -/
def State.sampleFibre (s : State) (f : Nat) : State :=
  let x := s.fib f
  s.setFib f { x with stat := (List.range 8).foldl (fun m v => m.put (fun _ => {}) v ((m.get (fun _ => {}) v).sampled (x.depth v))) x.stat }

/-- Samples the depth of every queue, at a device time that is a multiple of the period. -/
def State.sampleDepth (s : State) : State :=
  let p := max 1 s.sched.period
  if s.now / p = s.sched.lastSample / p then s
  else
    let s := { s with sched := { s.sched with lastSample := s.now } }
    let s := (List.range 32).foldl (fun s f => s.sampleFibre f) s
    (List.range 512).foldl (fun s k => s.setQstat k ((s.qstat k).sampled (s.wfq (k / 64) (k % 64)).items.length)) s

/-- SCHED_DEPTH_SAMPLE. -/
def execSchedDepthSample (s : State) : Host.Outcome State Fault Refusal := .next s.sampleDepth

/-- Latches the statistics of the second just ended; a new sampling period begins. -/
def State.latchSched (s : State) : State :=
  let s := s.setReg A.schedPmSeq (s.reg A.schedPmSeq + 1)
  let s := s.setReg A.schedPmLen (BitVec.ofNat 32 (openDiv (s.mono - s.sched.lastLatch) 1000))
  { s with sched := { s.sched with latched := s.sched.stat, stat := [], lastLatch := s.mono, period := s.f A.schedSampleCtrl 0 17 } }

/-- SCHED_PM_LATCH. -/
def execSchedPmLatch (s : State) : Host.Outcome State Fault Refusal := .next s.latchSched

end Sys2Proof.Machine
end

