-- ==== Sys2Proof/Machine/Route.lean ====
section
/-! DEFINITION. The receiving side of the line and the route layer's messages and timers: delineation, stripes, delivery,
retransmission, delays, going down, and requests for buffers that are tried again (09_routes_striping_resequencing.md R176-R193;
10_line_scheduler.md R200; 11_line_cipher.md R208, R215; 05_landing.md R110). -/
namespace Sys2Proof.Machine

/-! ### Delineation (R176) -/

/-- What a core header at the front of the received bytes says: none while it is not whole, else its PLI when it matches. -/
def headerAt (rx : List (Byte × Bool)) : Option (Option Nat) :=
  let h := xorBytes ((rx.take 4).map (·.1)) [0xB6, 0xAB, 0x31, 0xE0]
  if h.length < 4 then none
  else
    let pli := beAt h 0 2
    if beAt h 2 2 = crc16 (h.take 2) ∧ (pli = 0 ∨ (64 ≤ pli ∧ pli ≤ 8264)) then some (some pli) else some none

/-- What delineation leaves: its state, the bytes not yet used, a cell taken whole, and matches lost. -/
structure Delineated where
  state : Delin
  rx : List (Byte × Bool)
  cell : Option (List (Byte × Bool)) := none
  lost : Nat := 0
  deriving DecidableEq, Repr

/-- Delineates until a cell other than an idle cell has been taken or more bytes are needed. -/
def delineate (st : Delin) (rx : List (Byte × Bool)) (lost fuel : Nat) : Delineated :=
  match fuel with
  | 0 => { state := st, rx := rx, lost := lost }
  | n + 1 =>
    match headerAt rx with
    | none => { state := st, rx := rx, lost := lost }
    | some found =>
      match st, found with
      | .hunt, none => delineate .hunt (rx.drop 1) lost n
      | .hunt, some _ => delineate .presync rx lost n
      | .presync, none => delineate .hunt (rx.drop 1) lost n
      | .presync, some p =>
        match headerAt (rx.drop (4 + p)) with
        | none => { state := .presync, rx := rx, lost := lost }
        | some none => delineate .hunt (rx.drop 1) lost n
        | some (some q) =>
          match headerAt (rx.drop (8 + p + q)) with
          | none => { state := .presync, rx := rx, lost := lost }
          | some none => delineate .hunt (rx.drop 1) lost n
          | some (some _) => delineate .sync (rx.drop (8 + p + q)) lost n
      | .sync, none => delineate .hunt rx (lost + 1) n
      | .sync, some 0 => delineate .sync (rx.drop 4) lost n
      | .sync, some p =>
        if rx.length < 4 + p then { state := .sync, rx := rx, lost := lost }
        else { state := .sync, rx := rx.drop (4 + p), cell := some (rx.take (4 + p)), lost := lost }

/-- Takes the next cell of a port. -/
def State.nextCell (s : State) (p : Nat) : Option (List (Byte × Bool)) × State :=
  let x := s.port p
  let d := delineate x.delin x.rx 0 (2 * x.rx.length + 2)
  (d.cell, (s.setPort p { x with delin := d.state, rx := d.rx }).bumpBy (A.routeCnt 0) d.lost)

/-! ### Packets out of a stream (R181, R188; 13 R250) -/

/-- Whether a packet type is known and its length in its range. -/
def packetKnown (ptype plen : Nat) : Bool :=
  if ptype = 1 then decide (40 ≤ plen) && decide (plen ≤ 65568)
  else if ptype = 2 then decide (plen = 28) || decide (plen = 65564)
  else if ptype = 3 ∨ ptype = 4 then decide (1 ≤ plen) && decide (plen ≤ 65536)
  else false

/-- Hands a packet over: chunks and refill packets wait for their consumers, sealed and general packets go on into the
site (13_fabric_links_and_concourse.md R250). -/
def State.handOver (s : State) (node vc ptype : Nat) (bytes : List Byte) : State :=
  if ptype = 3 ∨ ptype = 4 then
    let far := bytesAt bytes 16 4
    s.sendFabricBytes vc (beNat far) (patch (patch bytes 4 far) 12 (beBytes 4 node))
  else { s with delivered := s.delivered ++ [{ line := true, node := node, vc := vc, ptype := ptype, bytes := bytes }] }

abbrev noRx : Nat → RxStream := fun _ => {}

def State.rx (s : State) (k : Nat) : RxStream := s.rte.rxs.get noRx k
def State.setRx (s : State) (k : Nat) (x : RxStream) : State := { s with rte := { s.rte with rxs := s.rte.rxs.put noRx k x } }

/-- Takes whole packets from the bytes of a stream; an unknown one discards them up to the next stripe's FIRST_PKT. -/
def State.parsePackets (s : State) (node vc fuel : Nat) : State :=
  match fuel with
  | 0 => s
  | n + 1 =>
    let key := streamKey node vc
    let x := s.rx key
    let b := x.part
    if x.skip || b.isEmpty then s
    else if beAt b 0 1 = 0 then (s.setRx key { x with part := b.drop 1 }).parsePackets node vc n
    else if b.length < 8 then s
    else
      let plen := beAt b 4 4
      if !packetKnown (beAt b 0 1) plen then (s.setRx key { x with part := [], skip := true }).bump (A.routeCnt 12)
      else if b.length < 8 + plen then s
      else
        let s := s.setRx key { x with part := b.drop (8 + plen) }
        (s.handOver node vc (beAt b 0 1) ((b.drop 8).take plen)).parsePackets node vc n

/-- Delivers stripes in ascending order while the next one has been decoded or lost (R186, R191). -/
def State.deliverStripes (s : State) (node vc fuel : Nat) : State :=
  match fuel with
  | 0 => s
  | n + 1 =>
    let key := streamKey node vc
    let x := s.rx key
    match x.stripes.find? (fun t => t.seq = x.next) with
    | none => s
    | some t =>
      let y := { x with next := (x.next + 1) % 0x100000000, stripes := x.stripes.filter (fun u => u.seq ≠ x.next) }
      if t.lost then (s.setRx key { y with part := [], skip := true }).deliverStripes node vc n
      else
        match t.decoded with
        | none => s
        | some d =>
          let z := if x.skip then
              (if t.firstPkt < d.length then { y with part := d.drop t.firstPkt, skip := false } else y)
            else { y with part := x.part ++ d }
          ((s.setRx key z).parsePackets node vc (z.part.length + 1)).deliverStripes node vc n

/-- Everything the stream can deliver now. -/
def State.deliverAll (s : State) (node vc : Nat) : State :=
  s.deliverStripes node vc ((s.rx (streamKey node vc)).stripes.length + 1)

/-! ### Stripes at the receiver (R184-R191) -/

/-- Whether sequence number `a` comes before `b`. -/
def seqBefore (a b : Nat) : Bool := decide (sgn 32 (a + 0x100000000 - b) < 0)

/-- t_first of stripe `seq` for a shard that arrives now: the earliest arrival of it or of a later stripe. -/
def State.firstSeen (s : State) (x : RxStream) (seq : Nat) : Nat :=
  ((x.stripes.filter (fun t => seqBefore seq t.seq)).map (·.tFirst)).foldl min s.mono

/-- Puts a stripe into a stream in place of the one with its number. -/
def RxStream.setStripe (x : RxStream) (t : RxStripe) : RxStream :=
  { x with stripes := x.stripes.filter (fun u => u.seq ≠ t.seq) ++ [t] }

/-- Bytes that the resequencing part holds. -/
def State.reseqUsed (s : State) : Nat :=
  (s.rte.rxs.map (fun x => x.2.part.length +
    (x.2.stripes.map (fun t => (t.shards.map (fun h => h.2.length)).sum + (t.decoded.map List.length).getD 0)).sum)).sum +
  ((s.delivered.filter (·.line)).map (fun p => p.bytes.length)).sum

/-- Takes a sample of a route's delay (R185). -/
def State.sampleDelay (s : State) (node r : Nat) (v : Int) : State :=
  let d := s.delay node r
  let low := match d.intMin with
    | some m => min m v
    | none => v
  s.setDelay node r { d with intMin := some low, lastSample := s.mono }

/-- A new INCARNATION of a source: its streams start afresh (R180). -/
def State.noteIncarnation (s : State) (node inc : Nat) : State :=
  if s.rte.farInc.get (fun _ => 0) node = inc then s
  else { s with rte := { s.rte with farInc := s.rte.farInc.put (fun _ => 0) node inc,
                                    rxs := s.rte.rxs.filter (fun e => e.1 / 8 ≠ node) } }

/-- Holds a good shard; a stripe with K good shards decodes (R186). -/
def State.holdShard (s : State) (node vc : Nat) (t : RxStripe) (i : Nat) (bytes : List Byte) : State :=
  let key := streamKey node vc
  let t := { t with shards := t.shards.insert i bytes }
  if t.decoded.isNone && decide (t.k ≤ t.shards.length) then
    let parity := (t.shards.take t.k).any (fun h => decide (t.k ≤ h.1))
    let t := { t with decoded := some (rsDecode t.k t.shards), nextNak := none, shards := t.shards.map (fun h => (h.1, [])) }
    ((s.setRx key ((s.rx key).setStripe t)).bumpIf parity (A.routeCnt 1)).deliverAll node vc
  else s.setRx key ((s.rx key).setStripe (if t.decoded.isSome then { t with shards := t.shards.map (fun h => (h.1, [])) } else t))

/-- A shard counts as erased (R184). -/
def State.erased (s : State) : State := s.bump (A.routeCnt 0)

/-- The body of a SHARD cell that has passed the cipher: R184, the delay sample, and R186. -/
def State.takeShard (s : State) (p node vc : Nat) (body : List Byte) (marked : Bool) : State :=
  let h := body.take 32
  let k := nfld (beAt h 1 1) 0 4
  let m := nfld (beAt h 1 1) 4 3
  let i := beAt h 2 1
  if marked || decide (body.length ≠ 8224) || decide (beAt h 28 4 ≠ crc32c (h.take 28 ++ body.drop 32)) ||
      decide (k = 0) || decide (8 < k) || decide (4 < m) || decide (8 < k + m) || decide (k + m ≤ i) then s.erased
  else
    let s := s.noteIncarnation node (beAt h 6 2)
    let stamp := s.rxStamp true p / 0x10000
    let s := s.sampleDelay node (nfld (beAt h 3 1) 0 3) (sgn 32 (stamp % 0x100000000 + 0x100000000 - beAt h 12 4))
    let x := s.rx (streamKey node vc)
    let seq := beAt h 8 4
    let old := x.stripes.find? (fun t => t.seq = seq)
    if seqBefore seq x.next || (old.map (·.lost)).getD false then s.bump (A.routeCnt 2)
    else
      let t : RxStripe := match old with
        | some t => if t.shards.isEmpty then { t with k := k, m := m, firstPkt := beAt h 16 2 } else t
        | none => { seq := seq, k := k, m := m, firstPkt := beAt h 16 2, tFirst := s.firstSeen x seq }
      if t.k ≠ k ∨ t.m ≠ m then s.erased
      else if t.shards.any (fun y => y.1 = i) then s.bump (A.routeCnt 3)
      else if seq ≠ x.next ∧ s.reseqBytes < s.reseqUsed + 8192 then s.bump (A.routeCnt 9)
      else s.holdShard node vc t i (body.drop 32)

/-! ### Messages and cells (R177, R178, R208, R215) -/

/-- Length that a message of a type has; none for an unknown type. -/
def msgLength (mtype : Nat) : Option Nat :=
  if 0x10 ≤ mtype ∧ mtype ≤ 0x15 then some 24
  else if mtype = 0x30 ∨ mtype = 0x32 ∨ mtype = 0x33 then some 24
  else if mtype = 0x31 ∨ (0x40 ≤ mtype ∧ mtype ≤ 0x42) then some 48
  else none

/-- A CONTROL cell's message: a good one waits for the command that takes it; a bad one is dropped and counted, a timing
message by its own rule (14_time.md R269). -/
def State.takeControl (s : State) (node : Nat) (msg : List Byte) : State :=
  if msgLength (beAt msg 0 1) = some msg.length ∧ hcrcOk msg = true then
    { s with delivered := s.delivered ++ [{ line := true, node := node, vc := 0, ptype := 2, bytes := msg }] }
  else if 0x40 ≤ beAt msg 0 1 ∧ beAt msg 0 1 ≤ 0x4F then s.withTiming true 0x40 msg (fun s => s)
  else s.bump (A.routeCnt 11)

/-- A cell whose tag is good: accepted, then addressed (R177). -/
def State.takeBody (s : State) (p : Nat) (cell body : List Byte) (marked : Bool) : State :=
  let node := beAt cell 8 4
  let ctype := beAt cell 4 1
  let vc := nfld (beAt cell 5 1) 0 3
  if beAt cell 12 4 ≠ s.nodeId ∨ node ≠ s.peerNode (s.portPeer p) ∨ s.peerValid (s.portPeer p) = false then s.bump (A.routeCnt 11)
  else if ctype = 1 ∧ vc ≠ 0 then s.takeShard p node vc body marked
  else if ctype = 2 ∧ vc = 0 then s.takeControl node body
  else s.bump (A.routeCnt 11)

/-- One cell at an endpoint port; `agree` and `retry`: the two cores gave one result at once, or when asked again (R215). -/
def State.takeCell (s : State) (p : Nat) (cell : List (Byte × Bool)) (agree retry : Bool) : State :=
  let bytes := cell.map (·.1)
  let fail (s : State) (c : Nat) : State := (s.bump (A.secCnt c)).bumpIf (decide (beAt bytes 4 1 = 1)) (A.routeCnt 0)
  match s.peerOf (beAt bytes 8 4) with
  | none => fail s 1
  | some e =>
    let n := saNumber 1 e (s.portRoute p)
    match s.checkCell n bytes (!agree && !retry) with
    | .keyMiss => fail s 1
    | .replay => fail s 2
    | .tagFail => fail (if agree then s else s.coreMismatch 4) 0
    | .good slot body =>
      let s := if agree then s else s.coreMismatch 4
      (s.acceptCell n slot (beAt bytes 20 8)).takeBody p bytes body (cell.any (·.2))

/-- The next cell of a port: an endpoint delineates and takes it. -/
def State.receiveCell (s : State) (p : Nat) (agree retry : Bool) : State :=
  if !s.linkRuns || decide (s.portRole p ≠ 1) then s
  else
    match s.nextCell p with
    | (none, s) => s
    | (some c, s) => s.takeCell p c agree retry

/-- CELL_RECEIVE. -/
def execCellReceive (port : Fin 16) (coresAgree retryAgrees : Bool) (s : State) : Host.Outcome State Fault Refusal :=
  .next (s.receiveCell port coresAgree retryAgrees)

/-! ### Lost stripes, NAK and GONE (R189-R191) -/

/-- A stripe of a collective VC that is lost aborts the open instances that its source takes part in (R191). -/
def State.abortForStripe (s : State) (node vc : Nat) : State :=
  s.cle.insts.foldl (fun s i =>
    match s.inst i.1 with
    | none => s
    | some x =>
      if x.group.vc = vc ∧ x.group.gateways.any (fun y => x.nodeOf y = node) then s.abortInst i.1 2 else s) s

/-- A stripe is lost (R191). -/
def State.loseStripe (s : State) (node vc seq : Nat) : State :=
  let key := streamKey node vc
  let x := s.rx key
  let old := x.stripes.find? (fun t => t.seq = seq)
  if seqBefore seq x.next || (old.map (fun t => t.lost || t.decoded.isSome)).getD false then s
  else
    let t : RxStripe := (old.getD { seq := seq, k := 1, m := 0, firstPkt := 0xFFFF, tFirst := s.firstSeen x seq })
    let s := (s.setRx key (x.setStripe { t with lost := true, shards := [], nextNak := none })).bump (A.routeCnt 7)
    (s.abortForStripe node vc).deliverAll node vc

/-- A route message of 24 bytes. -/
def routeMsg (mtype vc b2 seq count node down : Nat) : List Byte :=
  withHcrc (beBytes 1 mtype ++ beBytes 1 vc ++ beBytes 1 b2 ++ [0] ++ beBytes 4 seq ++ beBytes 4 count ++ beBytes 4 node ++ beBytes 4 down)

/-- HAVE of a stripe. -/
def RxStripe.have (t : RxStripe) : Nat := (t.shards.map (fun h => 2 ^ h.1)).sum % 256

/-- Sends NAK for one stripe, and sets when it is repeated (R189). -/
def State.sendNak (s : State) (node vc : Nat) (t : RxStripe) : State :=
  let key := streamKey node vc
  let t := { t with naks := t.naks + 1, nextNak := some (s.mono + s.rttNs node + s.guardNs) }
  let s := (s.setRx key ((s.rx key).setStripe t)).bump (A.routeCnt 4)
  s.sendMsgTo node (routeMsg 0x30 vc t.have t.seq 1 0 0)

/-- A stripe that waits: not delivered, decoded or lost; one of which nothing has come counts from later stripes. -/
def State.waitingStripe (s : State) (node vc seq : Nat) : Option RxStripe :=
  let x := s.rx (streamKey node vc)
  if seqBefore seq x.next then none
  else
    match x.stripes.find? (fun t => t.seq = seq) with
    | some t => if t.lost || t.decoded.isSome then none else some t
    | none =>
      if x.stripes.any (fun t => seqBefore seq t.seq) then
        some { seq := seq, k := 1, m := 0, firstPkt := 0xFFFF, tFirst := s.firstSeen x seq }
      else none

/-- The deadline of a stripe (R186). -/
def State.deadline (s : State) (node : Nat) (t : RxStripe) : Nat := t.tFirst + s.spread node + s.guardNs

/-- STRIPE_DEADLINE. -/
def execStripeDeadline (node vc seq : Nat) (s : State) : Host.Outcome State Fault Refusal :=
  .next (match s.waitingStripe node vc seq with
    | some t => if t.naks = 0 ∧ s.deadline node t ≤ s.mono then s.sendNak node vc t else s
    | none => s)

/-- NAK_REPEAT_TIMER: the NAK goes again, or the stripe is lost once ARQ_MAX have gone. -/
def execNakRepeatTimer (node vc seq : Nat) (s : State) : Host.Outcome State Fault Refusal :=
  .next (match s.waitingStripe node vc seq with
    | some t =>
      (match t.nextNak with
       | some d =>
         if s.mono < d then s
         else if s.f A.routeRseqCtrl 28 4 ≤ t.naks then s.loseStripe node vc seq
         else s.sendNak node vc t
       | none => s)
    | none => s)

/-- The routes on which shards of a stripe go again, in turn: usable ones of its own slot, else of the current one, the
first that of smallest reported forward delay (R190, R193). -/
def State.resendRoutes (s : State) (t : Stripe) : List Nat :=
  let own := t.routes.eraseDups.filter (s.routeUsable t.peer)
  let now := (((List.range (s.peerK t.peer + s.peerM t.peer)).map (s.peerRoute t.peer)).eraseDups).filter (s.routeUsable t.peer)
  let rs := if own.isEmpty then now else own
  let cost (r : Nat) : Nat := (s.delay t.node r).fwd.getD 0xFFFFFFFF
  match rs with
  | [] => [t.routes.headD 0]
  | r :: more =>
    let best := more.foldl (fun b x => if cost x < cost b then x else b) r
    let i := rs.idxOf best
    rs.drop i ++ rs.take i

/-- Sends again the shards of a stripe that HAVE does not name (R190). -/
def State.resendStripe (s : State) (t : Stripe) (have_ : Nat) : State :=
  let all := List.range (t.k + t.m)
  let missing := (all.filter (fun i => nfld have_ i 1 = 0)).take (t.k - (all.filter (fun i => nfld have_ i 1 = 1)).length)
  let rs := s.resendRoutes t
  let plan := missing.zipIdx.map (fun x => (x.1, rs.getD (x.2 % rs.length) 0))
  let s := s.setStripe { t with out := t.out ++ plan, holdEnd := s.mono + (s.lineHold t.node).1 }
  (plan.reverse.foldl (fun s x => s.enqueueResent (t.cell x.1 x.2 true)) s).bumpBy (A.routeCnt 6) plan.length

/-- Runs of consecutive sequence numbers: first and length. -/
def seqRuns (l : List Nat) : List (Nat × Nat) :=
  l.foldr (fun q acc => match acc with
    | (a, n) :: rest => if a = (q + 1) % 0x100000000 then (q, n + 1) :: rest else (q, 1) :: acc
    | [] => [(q, 1)]) []

/-- Answers a NAK: retained stripes are sent again, the others are gone (R190). -/
def State.answerNak (s : State) (node : Nat) (msg : List Byte) : State :=
  let vc := beAt msg 1 1
  let first := beAt msg 4 4
  let sent := (s.tx (streamKey node vc)).seq
  let named := ((List.range (min (beAt msg 8 4) 65535)).map (fun i => (first + i) % 0x100000000)).filter (fun q => seqBefore q sent)
  let kept := named.filterMap (s.findStripe node vc)
  let gone := named.filter (fun q => (s.findStripe node vc q).isNone)
  let s := kept.reverse.foldl (fun s t => s.resendStripe t (beAt msg 2 1)) s
  let s := s.bumpBy (A.routeCnt 8) gone.length
  (seqRuns gone).foldl (fun s r => s.sendMsgTo node (routeMsg 0x33 vc 0 r.1 r.2 0 0)) s

/-- Stages the re-sends of a NAK in a buffer of class ARQ; without one the NAK waits (05 R109, R110). -/
def State.stageNak (s : State) (node : Nat) (msg : List Byte) : State :=
  match s.alloc clsArq 8192 with
  | (some b, s) => (s.answerNak node msg).freeBuffer clsArq b
  | (none, s) =>
    { s with lnd := { s.lnd with waiting := s.lnd.waiting ++ [{ cls := clsArq, size := 8192, due := s.mono + 1000, msg := beBytes 4 node ++ msg }] } }

/-- Takes a waiting route message of a type; a bad one is dropped and counted (R178). -/
def State.withRoute (s : State) (node mtype : Nat) (msg : List Byte) (run : State → State) : State :=
  let s := s.takePacket (fun p => p.line && decide (p.ptype = 2) && decide (p.node = node) && decide (p.bytes = msg))
  if beAt msg 0 1 = mtype ∧ msgLength mtype = some msg.length ∧ hcrcOk msg = true then run s else s.bump (A.routeCnt 11)

/-- NAK_RECEIVE. -/
def execNakReceive (node : Nat) (msg : List Byte) (s : State) : Host.Outcome State Fault Refusal :=
  .next (s.withRoute node 0x30 msg (fun s => (s.bump (A.routeCnt 5)).stageNak node msg))

/-- GONE_RECEIVE: the stripes named are lost (R189). -/
def execGoneReceive (node : Nat) (msg : List Byte) (s : State) : Host.Outcome State Fault Refusal :=
  .next (s.withRoute node 0x33 msg (fun s =>
    (List.range (min (beAt msg 8 4) 65535)).foldl (fun s i => s.loseStripe node (beAt msg 1 1) ((beAt msg 4 4 + i) % 0x100000000)) s))

/-- Forward delays that a peer reports (R187). -/
def State.takeReport (s : State) (node : Nat) (msg : List Byte) : State :=
  (List.range 8).foldl (fun s r =>
    let v := beAt msg (4 + 4 * r) 4
    s.setDelay node r { s.delay node r with fwd := if v = 0xFFFFFFFF then none else some v }) s

/-- REPORT_RECEIVE. -/
def execReportReceive (node : Nat) (msg : List Byte) (s : State) : Host.Outcome State Fault Refusal :=
  .next (s.withRoute node 0x31 msg (fun s => s.takeReport node msg))

/-! ### Going down (R192) -/

/-- A peer is going down: instances and refills with it end at once (04 R99; 06 R130). -/
def State.peerGoesDown (s : State) (node : Nat) : State :=
  let s := s.cle.insts.foldl (fun s i =>
    match s.inst i.1 with
    | none => s
    | some x => if x.group.gateways.any (fun y => decide (y ≠ x.self) && decide (x.nodeOf y = node)) then s.abortInst i.1 2 else s) s
  (List.range 4).foldl (fun s n =>
    match s.refill n with
    | some r => if r.peer = node then s.refillPeerGone n else s
    | none => s) s

/-- A relay is going down: the port at which its notice came is marked (R175). -/
def State.markPort (s : State) (p : Nat) : State :=
  (s.setPort p { s.port p with downMark := true, clearSince := none }).settlePort p s

/-- GOING_DOWN_RECEIVE. -/
def execGoingDownReceive (node : Nat) (port : Fin 16) (msg : List Byte) (s : State) : Host.Outcome State Fault Refusal :=
  .next (s.withRoute node 0x32 msg (fun s => if beAt msg 2 1 = 1 then s.markPort port else s.peerGoesDown (beAt msg 12 4)))

/-- PORT_MARK_CLEAR: the path has been free of path fail for 1 ms after the relay's return. -/
def State.clearMark (s : State) (p : Nat) : State :=
  let x := s.port p
  if x.downMark && s.elapsedSince x.clearSince 1000000 then (s.setPort p { x with downMark := false }).settlePort p s else s

def execPortMarkClear (port : Fin 16) (s : State) : Host.Outcome State Fault Refusal := .next (s.clearMark port)

/-- Sends GOING_DOWN as an endpoint to every valid peer, and as a relay on every passed path (R179). -/
def State.sendGoingDown (s : State) (downUs : Nat) : State :=
  let s := ((List.range 64).filter s.peerValid).foldl (fun s e => s.sendMsgAll e (routeMsg 0x32 0 0 0 0 s.nodeId downUs)) s
  ((List.range 16).filter (fun p => s.portRole p = 2)).foldl
    (fun s p => s.queueCtrl p { peer := 64, node := 0, msg := routeMsg 0x32 0 1 0 0 s.nodeId downUs }) s

/-- A write of ROUTE_DOWN_CTRL: an orderly reset starts. -/
def State.startDown (s : State) (value : Word) : State :=
  if bit value 0 && s.rte.downAt.isNone then
    let ms := s.f A.routeTimerCtrl 16 8
    let s := s.sendGoingDown (ms * 1000)
    { s with rte := { s.rte with downAt := some (s.mono + ms * 1000000) } }
  else s

/-- ORDERLY_RESET_GO. -/
def execOrderlyResetGo (value : Word) (s : State) : Host.Outcome State Fault Refusal := .next (s.onAccess A.routeDownCtrl (fun s => s.startDown value))

/-! ### Streams that wait (R181; 10 R200) -/

/-- Closes the open stripe of a stream whose fill time has passed, unless a queue is full. -/
def State.fillOut (s : State) (node vc : Nat) : State :=
  let key := streamKey node vc
  let x := s.tx key
  match s.peerOf node with
  | none => s
  | some e =>
    if x.area.isEmpty || !s.elapsed x.openedAt (s.f A.routeTimerCtrl 0 16) then s
    else if s.queueFull e vc then (s.setTx key { x with held := true }).bumpIf (!x.held) (A.schedCnt 2)
    else ((s.setTx key { x with held := false }).closeStripe e node vc).feed e node vc (s.feedFuel key)

/-- STRIPE_FILL_TIMEOUT. -/
def execStripeFillTimeout (node vc : Nat) (s : State) : Host.Outcome State Fault Refusal := .next (s.fillOut node vc)

/-- STRIPE_QUEUE_ROOM: streams that a full queue held go on. -/
def State.queueRoom (s : State) (route queue : Nat) : State :=
  if 4096 ≤ (s.wfq route queue).items.length then s
  else (s.rte.txs.foldl (fun s x => if x.2.held then s.fillOut (x.1 / 8) (x.1 % 8) else s) s).feedAll

def execStripeQueueRoom (route queue : Nat) (s : State) : Host.Outcome State Fault Refusal := .next (s.queueRoom route queue)

/-! ### Delays (R179, R185, R186) -/

/-- The reference delay as REPORT and the log carry it. -/
def delayWord (d : Option Int) : Nat := match d with
  | some v => unsgn 32 v
  | none => 0xFFFFFFFF

/-- The REPORT for a peer. -/
def State.reportFor (s : State) (node : Nat) : List Byte :=
  withHcrc (beBytes 4 0x31000000 ++ (List.range 8).flatMap (fun r => beBytes 4 (delayWord (s.delay node r).dref)) ++ List.replicate 8 0)

/-- REPORT_TIMER: once a millisecond. -/
def State.sendReports (s : State) : State :=
  if !s.elapsed s.rte.lastReport 1000000 then s
  else
    let s := { s with rte := { s.rte with lastReport := s.mono } }
    ((List.range 64).filter s.peerValid).foldl (fun s e => s.sendMsg e (s.reportFor (s.peerNode e))) s

def execReportTimer (s : State) : Host.Outcome State Fault Refusal := .next s.sendReports

/-- Changes a reference delay: a route delay event, logged; routes that leave the window are logged too. -/
def State.setDref (s : State) (node r : Nat) (v : Option Int) : State :=
  let old := s.delay node r
  let was := (s.inWindow node).map (·.1)
  let s := s.setDelay node r { old with dref := v, run := [], intMin := none }
  let entry (r : Nat) (a b : Option Int) : Event :=
    { code := 0x0701, cls := .info, arg0 := node, arg1 := r, arg2 := delayWord a, arg3 := delayWord b }
  let s := (s.bump (A.routeCnt 10)).logEvent (entry r old.dref v)
  let now := (s.inWindow node).map (·.1)
  (was.filter (fun q => !now.contains q)).foldl (fun s q => s.logEvent (entry q (s.delay node q).dref (s.delay node q).dref)) s

/-- The end of an interval for one source and route (R185). -/
def State.endInterval (s : State) (node r : Nat) : State :=
  let d := s.delay node r
  match d.intMin with
  | none => s
  | some m =>
    match d.dref with
    | none => s.setDref node r (some m)
    | some ref =>
      let far (v : Int) : Int := if ref + 50000 < v then 1 else if v < ref - 50000 then -1 else 0
      let run := if far m = 0 then [] else if d.run.all (fun v => far v = far m) then d.run ++ [m] else [m]
      if 3 ≤ run.length then s.setDref node r (some m)
      else s.setDelay node r { d with run := run, intMin := none }

/-- DELAY_INTERVAL_END: once in every millisecond of device time. -/
def State.endIntervals (s : State) : State :=
  if s.now / 1000000 = s.rte.lastInterval / 1000000 then s
  else
    let s := { s with rte := { s.rte with lastInterval := s.now } }
    s.rte.delays.foldl (fun s d => s.endInterval (d.1 / 8) (d.1 % 8)) s

def execDelayIntervalEnd (s : State) : Host.Outcome State Fault Refusal := .next s.endIntervals

/-- DREF_EXPIRE: a route with no sample for 1 s loses its reference. -/
def State.expireDref (s : State) (node r : Nat) : State :=
  let d := s.delay node r
  if d.dref.isSome && s.elapsed d.lastSample 1000000000 then s.setDref node r none else s

def execDrefExpire (node route : Nat) (s : State) : Host.Outcome State Fault Refusal := .next (s.expireDref node route)

/-! ### Requests that failed (05 R110) -/

/-- Carries out what one request was for, which may fail again. -/
def State.retryOne (s : State) (w : Waiting) : State :=
  if w.cls = clsArq then s.stageNak (beAt w.msg 0 4) (w.msg.drop 4)
  else
    match s.msgInst w.msg with
    | some _ => if beAt w.msg 0 1 = 0x13 then s.abortedBy (mGroup w.msg) w.msg else s.takeScalar (mGroup w.msg) w.msg
    | none =>
      if s.isNewer (mGroup w.msg) (mInst w.msg) then s.holdMsg w.msg
      else if beAt w.msg 0 1 = 0x13 ∧ mReason w.msg = 7 then s.lateRetract (mGroup w.msg) (mInst w.msg) (mOrigin w.msg)
      else s

/-- ALLOC_RETRY: requests whose microsecond has passed are made again, in their order. -/
def State.retryAlloc (s : State) : State :=
  let due := s.lnd.waiting.filter (fun w => decide (w.due ≤ s.mono))
  let s := { s with lnd := { s.lnd with waiting := s.lnd.waiting.filter (fun w => !decide (w.due ≤ s.mono)) } }
  due.foldl (fun s w => s.retryOne w) s

def execAllocRetry (s : State) : Host.Outcome State Fault Refusal := .next s.retryAlloc

end Sys2Proof.Machine
end

