-- ==== Sys2Proof/Machine/Span.lean ====
section
/-! DEFINITION. Span frames: scrambling, parity, receipt, transmission, performance monitoring and the module's events
(08_span_framer.md R147-R172, R386). -/
namespace Sys2Proof.Machine

/-! ### Sequences and parity (R149, R156) -/

/-- One byte of the sequence of generator 1 + x^28 + x^31, most significant bit first, and the next state of 31 bits. -/
def lfsrByte (st : Nat) : Nat × Nat :=
  (List.range 8).foldl (fun a _ =>
    let out := a.2 / 2 ^ 30 % 2
    let new := (out + a.2 / 2 ^ 27 % 2) % 2
    (a.1 * 2 + out, (a.2 * 2 + new) % 2 ^ 31)) (0, st)

/-- Adds the sequence to bytes; the bytes and the state after. -/
def lfsrXor (st : Nat) (bs : List Byte) : List Byte × Nat :=
  match bs with
  | [] => ([], st)
  | b :: r =>
    let (k, st') := lfsrByte st
    let (t, e) := lfsrXor st' r
    ((b ^^^ BitVec.ofNat 8 k) :: t, e)

/-- Scrambles or descrambles a frame: every byte from byte 8 on. -/
def scramble (frame : List Byte) : List Byte := frame.take 8 ++ (lfsrXor 0x7FFFFFFF (frame.drop 8)).1

/-- `n` bytes of PRBS31 (ITU-T O.150: the sequence inverted; PRESUMED, log 29) and the state after. -/
def prbs31 (st n : Nat) : List Byte × Nat := lfsrXor st (List.replicate n 0xFF)

/-- BIP-32 over bytes: the exclusive or of their 32-bit words, the first byte in bits 31..24. -/
def bip32 (acc : Nat) (bs : List Byte) : Nat :=
  match bs with
  | a :: b :: c :: d :: r => bip32 (Nat.xor acc (a.toNat * 0x1000000 + b.toNat * 0x10000 + c.toNat * 0x100 + d.toNat)) r
  | _ => acc

/-- Number of ones in 32 bits. -/
def weight32 (v : Nat) : Nat := ((List.range 32).map (fun i => v / 2 ^ i % 2)).sum

/-- Section and path BIP-32 of an unscrambled frame. -/
def frameBips (f : List Byte) : Nat × Nat := (bip32 0 (f.drop 8), bip32 (bip32 0 ((f.drop 56).take 4)) (f.drop 64))

/-- The frame alignment signal (R148). -/
def fas : List Byte := [0xD3, 0x5A, 0x1E, 0xC7, 0x2B, 0xF0, 0x96, 0x4D]

/-- Bits of a frame's FAS that differ from the pattern. -/
def fasErrors (frame : List Byte) : Nat := weight32 (Nat.xor (beAt frame 0 4) (beNat (fas.take 4))) + weight32 (Nat.xor (beAt frame 4 4) (beNat (fas.drop 4)))

/-! ### Receipt: alignment (R153) -/

/-- Moves the alignment state by the FAS of a frame period. A frame operand begins where the search found the FAS, if it
found one (log 30). -/
def State.rxAlign (s : State) (p : Nat) (frame : List Byte) : State :=
  let x := s.port p
  let errs := fasErrors frame
  match s.align p with
  | 0 => if errs = 0 then s.setAlign p 1 else s
  | 1 =>
    if errs = 0 then
      if s.f (A.lineCtrl p) 4 4 ≤ x.preCount + 1 then s.setAlign p 2 else s.setPort p { x with preCount := x.preCount + 1 }
    else s.setAlign p 0
  | _ =>
    if 3 < errs then
      if s.f (A.lineCtrl p) 8 4 ≤ x.fasRun + 1 then s.setAlign p 0 else s.setPort p { x with fasRun := x.fasRun + 1 }
    else s.setPort p { x with fasRun := 0 }

/-! ### Receipt: parity and remote indications (R156, R157, R159) -/

/-- Checks the BIPs of the frame two earlier, and keeps this frame's. On a relay the path syndrome goes to the outgoing
port (R161). -/
def State.rxBip (s : State) (p : Nat) (f : List Byte) : State :=
  let x := s.port p
  let s1 := match x.rxBips with
    | [_, (sb, pb)] =>
      let syn := Nat.xor pb (beAt f 14 4)
      let ws := weight32 (Nat.xor sb (beAt f 9 4))
      let wp := weight32 syn
      let s := s.setPort p { x with sRei := x.sRei + ws, pRei := x.pRei + wp }
      let s := if s.sectionFail p then s else (s.pmAdd p 0 ws).pmAdd p 1 (if ws = 0 then 0 else 1)
      let s := if s.pathFail p then s else (s.pmAdd p 3 wp).pmAdd p 4 (if wp = 0 then 0 else 1)
      if s.portRole p = 2 then
        let y := s.port (s.portPass p)
        s.setPort (s.portPass p) { y with relaySyn := Nat.xor y.relaySyn syn }
      else s
    | _ => s
  let x := s1.port p
  s1.setPort p { x with rxBips := (frameBips f :: x.rxBips).take 2 }

/-- Far-end counts from SREI and PREI; a relay carries PREI, PRDI and PAIS on (R157, R162). -/
def State.rxRei (s : State) (p : Nat) (f : List Byte) : State :=
  let sr := nfld (beAt f 13 1) 2 6
  let pst := beAt f 18 1
  let pr := nfld pst 2 6
  let x := s.port p
  let sOk := !s.sectionFail p
  let pOk := !s.pathFail p
  let s := s.setPort p { x with farBlocks := (x.farBlocks.1 + b2n (sOk && decide (0 < sr)), x.farBlocks.2 + b2n (pOk && decide (0 < pr))) }
  let s := if sOk then s.pmAdd p 2 sr else s
  let s := if pOk then s.pmAdd p 5 pr else s
  if s.portRole p = 2 then
    let q := s.portPass p
    let y := s.port q
    s.setPort q { y with relayPrei := y.relayPrei + pr, relayPrdi := nfld pst 1 1 = 1, relayPais := nfld pst 0 1 = 1 }
  else s

/-- One step of a run of frames with an indication on or off. -/
def runOf (on : Bool) (v : Nat × Nat) : Nat × Nat := if on then (v.1 + 1, 0) else (0, v.2 + 1)

/-- dSRDI, dPAIS and dPRDI by runs of frames (R158). -/
def State.rxIndications (s : State) (p : Nat) (f : List Byte) : State :=
  let x := s.port p
  let srdi := nfld (beAt f 13 1) 1 1 = 1
  let prdi := nfld (beAt f 18 1) 1 1 = 1
  let ais := nfld (beAt f 18 1) 0 1 = 1
  let a := runOf srdi (x.sRdiOn, x.sRdiOff)
  let b := runOf prdi (x.pRdiOn, x.pRdiOff)
  let c := runOf ais (x.aisOn, x.aisOff)
  let s := s.setPort p { x with sRdiOn := a.1, sRdiOff := a.2, pRdiOn := b.1, pRdiOff := b.2, aisOn := c.1, aisOff := c.2 }
  let upd := fun (s : State) (d n : Nat) (v : Nat × Nat) =>
    if n ≤ v.1 then s.setDefect p d true else if n ≤ v.2 then s.setDefect p d false else s
  upd (upd (upd s dSRDI 5 a) dPRDI 5 b) dPAIS 3 c

/-! ### Receipt: multiframe, comms channel and trace (R155, R163-R165) -/

/-- MFAS and dLOM. -/
def State.rxMfas (s : State) (p v : Nat) : State :=
  let x := s.port p
  let next := (v + 1) % 256
  if s.defect p dLOM then
    let s' := s.setPort p { x with mfasExp := some next, mfasBad := 0 }
    if x.mfasExp = some v then s'.setDefect p dLOM false else s'
  else
    match x.mfasExp with
    | none => s.setPort p { x with mfasExp := some next, mfasBad := 0 }
    | some e =>
      if e = v then s.setPort p { x with mfasExp := some next, mfasBad := 0 }
      else if 5 ≤ x.mfasBad + 1 then (s.setPort p { x with mfasExp := none, mfasBad := 0, comms := [], trace := [] }).setDefect p dLOM true
      else s.setPort p { x with mfasExp := some ((e + 1) % 256), mfasBad := x.mfasBad + 1 }

/-- A whole section message: a neighbour received identically three times in a row is accepted. -/
def State.rxSection (s : State) (p : Nat) (msg : List Byte) : State :=
  if beAt msg 60 4 ≠ crc32c (msg.take 60) ∨ beAt msg 0 1 ≠ 1 then s
  else
    let n := (beAt msg 4 4, nfld (beAt msg 8 1) 0 4)
    let x := s.port p
    let run := if x.nbrCand = some n then x.nbrRun + 1 else 1
    let s := s.setPort p { x with nbrCand := some n, nbrRun := run }
    if 3 ≤ run then
      (s.setReg (A.lineNbrRxId p) (BitVec.ofNat 32 n.1)).setReg (A.lineNbrRxPort p) (BitVec.ofNat 32 (0x100 + n.2))
    else s

/-- Gathers the comms channel. -/
def State.rxComms (s : State) (p mfas : Nat) (part : List Byte) : State :=
  let x := s.port p
  let have_ := if mfas % 4 = 0 then [] else x.comms
  if have_.length ≠ mfas % 4 * 16 then s.setPort p { x with comms := [] }
  else
    let msg := have_ ++ part
    if msg.length = 64 then (s.setPort p { x with comms := [] }).rxSection p msg else s.setPort p { x with comms := msg }

/-- Gathers the path trace: 16 bytes received identically in three cycles are accepted. -/
def State.rxTrace (s : State) (p mfas : Nat) (b : Byte) : State :=
  let x := s.port p
  let have_ := if mfas % 16 = 0 then [] else x.trace
  if have_.length ≠ mfas % 16 then s.setPort p { x with trace := [] }
  else
    let t := have_ ++ [b]
    if t.length = 16 then
      let run := if x.traceCand = some t then x.traceRun + 1 else 1
      let s := s.setPort p { x with trace := [], traceCand := some t, traceRun := run, traceAccepted := x.traceAccepted || decide (3 ≤ run) }
      if 3 ≤ run then
        (List.range 4).foldl (fun s k => s.setReg (A.linePttiAcc p k) (BitVec.ofNat 32 (leAt t (4 * k) 4))) s
      else s
    else s.setPort p { x with trace := t }

/-- LINE_SECT_DELAY from the frame with MFAS 0 (R165). -/
def State.rxDelay (s : State) (p : Nat) (f : List Byte) : State :=
  let d : Int := ((s.rxStamp true p : Nat) : Int) - ((untime96 (beAt f 40 12) : Nat) : Int)
  s.setReg (A.lineSectDelay p) (BitVec.ofInt 32 (halfNs (2 * d)))

/-! ### Receipt: payload (R150, R151, R154, R159) -/

/-- The majority of three copies of a bit. -/
def maj (a b c : Nat) : Nat := if 2 ≤ a + b + c then 1 else 0

/-- The decided JC value of a frame. -/
def jcOf (f : List Byte) : Nat :=
  let j := beAt f 52 1
  maj (nfld j 7 1) (nfld j 5 1) (nfld j 3 1) * 2 + maj (nfld j 6 1) (nfld j 4 1) (nfld j 2 1)

/-- Positions of a frame that carry data, in order, for a JC value. -/
def dataBytes {α : Type} (jc : Nat) (f : List α) : List α :=
  if jc = 1 then (f.drop 56).take 4 ++ f.drop 64 else if jc = 2 then f.drop 68 else f.drop 64

/-- Delivers the data bytes: an endpoint delineates them, a relay passes them on unchanged. -/
def State.rxPayload (s : State) (p : Nat) (f : List Byte) (bad : List Nat) : State :=
  let jc := jcOf f
  let s := if jc = 3 then s.pmAdd p 14 1 else s
  let fail := if s.portRole p = 2 then s.sectionFail p else s.pathFail p
  if fail || !s.portOpen p then s
  else if s.portRole p = 1 then
    let x := s.port p
    s.setPort p { x with rx := x.rx ++ dataBytes jc (f.zipIdx.map (fun b => (b.1, bad.contains b.2))) }
  else if s.portRole p = 2 then
    let y := s.port (s.portPass p)
    s.setPort (s.portPass p) { y with tx := y.tx ++ dataBytes jc f }
  else s

/-- A frame received in IF. -/
def State.rxInFrame (s : State) (p : Nat) (frame : List Byte) (fec : FecCounts) : State :=
  let f := scramble frame
  let mfas := beAt f 8 1
  let s := (s.pmAdd p 6 1).pmAdd p 7 (if 3 < fasErrors frame then 1 else 0)
  let s := ((s.rxBip p f).rxMfas p mfas).rxIndications p f
  let s := s.rxRei p f
  let s := if s.defect p dLOM then s
           else
             let s := (s.rxComms p mfas ((f.drop 24).take 16)).rxTrace p mfas (f.getD 19 0)
             if mfas = 0 then s.rxDelay p f else s
  (s.refreshIds p).rxPayload p f fec.badBytes

/-- A Span frame arrives (R153). -/
def State.rxFrame (s : State) (p : Nat) (frame : List Byte) (fec : FecCounts) : State :=
  if !s.framersOn p || !s.linkRuns || frame.length ≠ 16384 then s
  else
    let t := ((s.pmAdd p 9 fec.corrected).pmAdd p 10 fec.codewords).pmAdd p 11 fec.uncorrectable
    let t := t.rxAlign p frame
    let t := if t.align p = 2 then t.rxInFrame p frame fec else t
    t.settlePort p s

/-- SPAN_FRAME_RECEIVE. -/
def execSpanFrameReceive (port : Fin 16) (frame : List Byte) (fec : FecCounts) (s : State) : Host.Outcome State Fault Refusal :=
  .next (s.rxFrame port frame fec)

/-! ### Transmission (R148-R151, R156, R157, R159-R165) -/

/-- An idle cell as sent (09 R176). -/
def idleCell : List Byte := [0xB6, 0xAB, 0x31, 0xE0]

/-- Fills a transmit buffer with idle cells up to `n` bytes or more. -/
def fillIdle (n : Nat) (tx : List Byte) : List Byte :=
  tx ++ (List.replicate ((n - tx.length + 3) / 4) idleCell).flatten

/-- Whether a port sends path AIS (R160). -/
def State.sendsAis (s : State) (p : Nat) : Bool :=
  s.b (A.lineCtrl p) 14 || (decide (s.portRole p = 2) && s.sectionFail (s.portPass p))

/-- Whether a port sends PRBS31 in place of cells: enabled and not yet qualified (16 R314). -/
def State.sendsPrbs (s : State) (p : Nat) : Bool := !(s.portQualOf p).passed

/-- The section message that starts at a frame: NEIGHBOUR at MFAS 0, IDLE elsewhere (R163). -/
def State.sectionMsg (s : State) (p mfas : Nat) : List Byte :=
  let body := if mfas / 4 = 0 then [1, 0, 0, 0] ++ beBytes 4 s.nodeId ++ beBytes 1 p ++ List.replicate 51 0 else List.replicate 60 0
  body ++ beBytes 4 (crc32c body)

/-- What fills a frame: JC, NJO (4 bytes), bytes 64 to 16,383, and the port after. -/
structure Fill where
  jc : Nat
  njo : List Byte
  body : List Byte
  port : LinePort
  deriving DecidableEq, Repr

/-- Chooses the justification and takes the data bytes of a frame. -/
def State.fillFrame (s : State) (p : Nat) : Fill × State :=
  let x := s.port p
  if s.sendsAis p then ({ jc := 0, njo := List.replicate 4 0xFF, body := List.replicate 16320 0xFF, port := x }, s)
  else
    let (n, s) := s.draw
    let jc := if s.b (A.lineStatus p) 12 then 0 else Config.justify n % 3
    let need := if jc = 1 then 16324 else if jc = 2 then 16316 else 16320
    let (data, x) := if s.sendsPrbs p then
        let (d, st) := prbs31 x.prbs need
        (d, { x with prbs := st })
      else
        let tx := fillIdle need x.tx
        (tx.take need, { x with tx := tx.drop need })
    if jc = 1 then ({ jc := 1, njo := data.take 4, body := data.drop 4, port := x }, s)
    else if jc = 2 then ({ jc := 2, njo := [0, 0, 0, 0], body := [0, 0, 0, 0] ++ data, port := x }, s)
    else ({ jc := 0, njo := [0, 0, 0, 0], body := data, port := x }, s)

/-- The path trace byte sent: LINE_PTTI_TX at an endpoint, the incoming side's accepted trace at a relay. -/
def State.traceByte (s : State) (p mfas : Nat) : Nat :=
  let i := mfas % 16
  let w := if s.portRole p = 2 then s.reg (A.linePttiAcc (s.portPass p) (i / 4)) else s.reg (A.linePttiTx p (i / 4))
  fld w (8 * (i % 4)) 8

/-- Bytes 8 to 16,383 of the next frame before scrambling, of a fill and the port it leaves. -/
def State.frameBody (s : State) (p : Nat) (y : Fill) : List Byte :=
  let x := y.port
  let relay := decide (s.portRole p = 2)
  let (sb, pb) := x.txBips.getD 1 (0, 0)
  let prei := min 63 (if relay then x.relayPrei else x.pRei)
  let prdi := if relay then x.relayPrdi else s.pathFail p
  let pais := s.sendsAis p || (relay && x.relayPais)
  let mfas := x.mfasTx
  beBytes 1 mfas ++ beBytes 4 sb ++ beBytes 1 (min 63 x.sRei * 4 + b2n (s.sectionFail p) * 2) ++
    beBytes 4 (if relay && !s.sendsAis p then Nat.xor pb x.relaySyn else pb) ++ beBytes 1 (prei * 4 + b2n prdi * 2 + b2n pais) ++
    beBytes 1 (s.traceByte p mfas) ++ [0, 0, 0, 0] ++ ((s.sectionMsg p mfas).drop (mfas % 4 * 16)).take 16 ++
    beBytes 12 (time96 (s.txStamp true p)) ++ beBytes 1 (y.jc * 64 + y.jc * 16 + y.jc * 4) ++ [0, 0, 0] ++ y.njo ++ [0, 0, 0, 0] ++ y.body

/-- The port after its frame has gone. -/
def LinePort.sent (x : LinePort) (relay : Bool) (bips : Nat × Nat) : LinePort :=
  { x with mfasTx := (x.mfasTx + 1) % 256, txBips := (bips :: x.txBips).take 2, sRei := x.sRei - min 63 x.sRei,
           pRei := if relay then 0 else x.pRei - min 63 x.pRei, relayPrei := x.relayPrei - min 63 x.relayPrei, relaySyn := 0 }

/-- Builds a frame and sends it. A squelched port sends none. -/
def State.txFrame (s : State) (p : Nat) : State :=
  if !s.framersOn p || !s.linkRuns then s
  else
    let (y, s) := s.fillFrame p
    let frame := fas ++ s.frameBody p y
    let s := s.setPort p (y.port.sent (s.portRole p = 2) (frameBips frame))
    let s := if y.jc = 2 then s.pmAdd p 12 1 else if y.jc = 1 then s.pmAdd p 13 1 else s
    s.emit (.frame p (scramble frame))

/-- SPAN_FRAME_TRANSMIT. -/
def execSpanFrameTransmit (port : Fin 16) (s : State) : Host.Outcome State Fault Refusal := .next (s.txFrame port)

/-! ### Signal, alignment timers and module reference (R152, R158) -/

/-- LINE_SIGNAL_LOSS. -/
def execLineSignalLoss (port : Fin 16) (s : State) : Host.Outcome State Fault Refusal :=
  .next ((s.setPort port { s.port port with sigLost := true }).refreshLos port)

/-- LINE_SIGNAL_RESTORE. -/
def execLineSignalRestore (port : Fin 16) (s : State) : Host.Outcome State Fault Refusal :=
  .next ((s.setPort port { s.port port with sigLost := false }).refreshLos port)

/-- dLOF is declared after 100 us without IF, and cleared after 1 ms in IF. -/
def State.lofTimer (s : State) (p : Nat) (clear : Bool) : State :=
  if clear then
    if s.elapsedSince (s.port p).inSince 1000000 then (s.setDefect p dLOF false).settlePort p s else s
  else if s.portEnabled p && decide (s.align p ≠ 2) && s.elapsedSince (s.port p).outSince 100000 then
    (s.setDefect p dLOF true).settlePort p s
  else s

/-- DLOF_DECLARE_TIMER. -/
def execDlofDeclareTimer (port : Fin 16) (s : State) : Host.Outcome State Fault Refusal := .next (s.lofTimer port false)

/-- DLOF_CLEAR_TIMER. -/
def execDlofClearTimer (port : Fin 16) (s : State) : Host.Outcome State Fault Refusal := .next (s.lofTimer port true)

/-- Re-centres a transmit buffer: up to 4,096 bytes are lost or repeated. -/
def State.recentre (s : State) (p : Nat) : State :=
  let x := s.port p
  let (n, s) := s.draw
  let v := Config.recentre n
  let k := v / 2 % 4097
  s.setPort p { x with tx := if v % 2 = 0 then x.tx.drop k else x.tx.take k ++ x.tx }

/-- REF_LOST is set or cleared at a change of the reference that times the port. -/
def State.refChange (s : State) (p : Nat) (lost : Bool) : State :=
  let s := s.setPort p { s.port p with refLost := lost }
  if !s.portEnabled p || s.b (A.lineStatus p) 12 = lost then s else (s.setDefect p 12 lost).recentre p

/-- MODREF_LOSS. -/
def execModrefLoss (port : Fin 16) (s : State) : Host.Outcome State Fault Refusal := .next (s.refChange port true)

/-- MODREF_RETURN. -/
def execModrefReturn (port : Fin 16) (s : State) : Host.Outcome State Fault Refusal := .next (s.refChange port false)

/-! ### Performance monitoring (R167-R169) -/

/-- Errored blocks that make a second severely errored. -/
abbrev sesBlocks : Nat := 919104

/-- The class of a second by its errored blocks and whether it is a defect second. -/
def secondClass (blocks : Nat) (d : Bool) : SecondClass := { es := decide (0 < blocks) || d, ses := decide (sesBlocks ≤ blocks) || d }

/-- The four classes of a second from its working counts: section near and far, path near and far (R168). -/
def LinePort.classify (x : LinePort) : List SecondClass :=
  let seen := fun (m : Nat) => decide (Nat.land (x.pm.getD 15 0) m ≠ 0)
  [secondClass (x.pm.getD 1 0) (seen 0x3C), secondClass x.farBlocks.1 (seen 0x80),
   secondClass (x.pm.getD 4 0) (seen 0x33C), secondClass x.farBlocks.2 (seen 0x800)]

/-- A run of seconds above or at most the degrade threshold. -/
def degRun (above : Bool) (bad ok : Nat) : Nat × Nat := if above then (bad + 1, 0) else (0, ok + 1)

/-- dSDEG and dPDEG at the end of a second. -/
def State.degrade (s : State) (p : Nat) : State :=
  let x := s.port p
  let thr := s.f (A.lineDegCtrl p) 0 20
  let m := s.f (A.lineDegCtrl p) 20 4
  let a := degRun (thr < x.pm.getD 1 0) x.degBadS x.degOkS
  let b := degRun (thr < x.pm.getD 4 0) x.degBadP x.degOkP
  let s := s.setPort p { x with degBadS := a.1, degOkS := a.2, degBadP := b.1, degOkP := b.2 }
  let s := if m ≤ a.1 then s.setDefect p dSDEG true else if m ≤ a.2 then s.setDefect p dSDEG false else s
  if m ≤ b.1 then s.setDefect p dPDEG true else if m ≤ b.2 then s.setDefect p dPDEG false else s

/-- The latch at a rollover of the seconds field (R167). -/
def State.latchPm (s : State) (p : Nat) : State :=
  let s := if s.portEnabled p then s.degrade p else s
  let x := s.port p
  let s := (List.range 16).foldl (fun s k => s.setReg (A.linePm p k) (BitVec.ofNat 32 (x.pm.getD k 0))) s
  let s := s.setReg (A.linePmSeq p) (s.reg (A.linePmSeq p) + 1)
  let s := s.setReg (A.linePmLen p) (BitVec.ofNat 32 (openDiv (s.mono - x.lastLatch) 1000))
  let cls := if s.portEnabled p then x.classify else []
  (s.setPort p { x with pm := List.replicate 16 0, farBlocks := (0, 0), lastLatch := s.mono, history := x.history ++ [cls] }).noteDefects p

/-- LINE_PM_LATCH. -/
def execLinePmLatch (port : Fin 16) (s : State) : Host.Outcome State Fault Refusal := .next (s.latchPm port)

/-- Whether class `i` is unavailable from the oldest counted second on: it begins with the first of 10 consecutive SES and
ends with the first of 10 consecutive seconds that are not. -/
def unavailableNow (was : Bool) (i : Nat) (hist : List (List SecondClass)) : Bool :=
  let run := ((hist.filter (fun c => !c.isEmpty)).take 10).map (fun c => (c.getD i { es := false, ses := false }).ses)
  if run.length < 10 then was else if was then run.any (fun b => b) else run.all (fun b => b)

/-- Adds one class of the oldest second to its three counters. -/
def State.addClass (s : State) (p i : Nat) (un : Bool) (c : SecondClass) : State :=
  if un then s.bump (A.lineCpm p (3 * i + 2))
  else (s.bumpIf c.es (A.lineCpm p (3 * i))).bumpIf c.ses (A.lineCpm p (3 * i + 1))

/-- Adds the oldest second to the LINE_CPM counters 10 s after its end (R169). -/
def State.addCpm (s : State) (p : Nat) : State :=
  let x := s.port p
  match x.history with
  | [] => s
  | c :: rest =>
    if rest.length < 10 then s
    else
      let un := (List.range 4).map (fun i => unavailableNow (x.unavailable.getD i false) i x.history)
      let s := s.setPort p { x with history := rest, unavailable := if c.isEmpty then x.unavailable else un }
      c.zipIdx.foldl (fun s e => s.addClass p e.2 (un.getD e.2 false) e.1) s

/-- LINE_CPM_ADD. -/
def execLineCpmAdd (port : Fin 16) (s : State) : Host.Outcome State Fault Refusal := .next (s.addCpm port)

/-! ### The module (R171, R172; 20 R360) -/

/-- Logs a module event: port and module state; the vendor data read at insertion is open (log 7). -/
def State.logModule (s : State) (p vendor : Nat) : State :=
  s.logEvent { code := 0x0601, cls := .info, reason := p, arg0 := s.f (A.lineModStatus p) 1 3, arg2 := vendor }

/-- MODULE_INSERT. -/
def State.insertModule (s : State) (p : Nat) : State :=
  if s.modPresent p then s
  else
    let (n, s) := s.draw
    let s := ((s.setReg (A.lineModStatus p) 1).setB A.pinInStatus p true).logModule p (Config.outside n % 0x10000000000000000)
    let s := if s.portEnabled p then
        { s.setPort p { s.port p with resetPulse := some s.mono } with pins := { s.pins with modResetLow := Nat.lor s.pins.modResetLow (2 ^ p) } }
      else s
    (s.driveLp p).refreshLos p

/-- MODULE_INSERT. -/
def execModuleInsert (port : Fin 16) (s : State) : Host.Outcome State Fault Refusal := .next (s.insertModule port)

/-- Ends the reset pulse of a module. -/
def State.endPulse (s : State) (p : Nat) : State :=
  let m := s.pins.modResetLow
  { s.setPort p { s.port p with resetPulse := none } with pins := { s.pins with modResetLow := m - (m / 2 ^ p % 2) * 2 ^ p } }

/-- MODULE_REMOVE. -/
def State.removeModule (s : State) (p : Nat) : State :=
  if !s.modPresent p then s
  else
    let s := (s.endPulse p).setPort p { s.port p with framerOn := false, resetPulse := none }
    let s := ((s.setReg (A.lineModStatus p) 0).setB A.pinInStatus p false).logModule p 0
    (s.driveLp p).refreshLos p

/-- MODULE_REMOVE. -/
def execModuleRemove (port : Fin 16) (s : State) : Host.Outcome State Fault Refusal := .next (s.removeModule port)

/-- The module's state and lane flags are read; a new fault is logged. -/
def State.readModule (s : State) (p : Nat) (m : ModuleFlags) : State :=
  if !(s.modPresent p && s.modAuto p) then s
  else
    let a := A.lineModStatus p
    let fault := (decide (m.state = 5) && decide (s.f a 1 3 ≠ 5)) || (m.txFault && !s.b a 5)
    let s := ((s.setF a 1 3 m.state).setB a 5 m.txFault).setB a 6 m.rxLos
    (if fault then s.logModule p 0 else s).refreshLos p

/-- MODULE_INTERRUPT. -/
def execModuleInterrupt (port : Fin 16) (flags : ModuleFlags) (s : State) : Host.Outcome State Fault Refusal :=
  .next (s.readModule port flags)

/-- MODULE_POLL. -/
def execModulePoll (port : Fin 16) (flags : ModuleFlags) (s : State) : Host.Outcome State Fault Refusal :=
  .next (s.readModule port flags)

/-- The module is Ready: APPSEL is checked and the data path configured. -/
def State.moduleReady (s : State) (p : Nat) (advertised : Bool) : State :=
  if !s.bringsUp p || (s.port p).resetPulse.isSome then s
  else
    let s := s.setF (A.lineModStatus p) 1 3 3
    if advertised then ((s.setB (A.lineModStatus p) 7 false).deactivate p).applyApp p else s.setB (A.lineModStatus p) 7 true

/-- MODULE_READY. -/
def execModuleReady (port : Fin 16) (advertised : Bool) (s : State) : Host.Outcome State Fault Refusal :=
  .next (s.moduleReady port advertised)

/-- DataPathActivated: the framers are enabled. -/
def State.dataPathUp (s : State) (p : Nat) : State :=
  if !s.bringsUp p || s.b (A.lineModStatus p) 7 then s
  else
    let s := s.setB (A.lineModStatus p) 4 true
    s.setPort p { s.port p with framerOn := true }

/-- MODULE_DATAPATH_ACTIVATED. -/
def execModuleDatapathActivated (port : Fin 16) (s : State) : Host.Outcome State Fault Refusal := .next (s.dataPathUp port)

/-- MODULE_RESET_PULSE_END: 10 ms after insertion. -/
def execModuleResetPulseEnd (port : Fin 16) (s : State) : Host.Outcome State Fault Refusal :=
  .next (if s.elapsedSince (s.port port).resetPulse 10000000 then s.endPulse port else s)

/-- LINE_ENABLE. -/
def execLineEnable (port : Fin 16) (value : Word) (s : State) : Host.Outcome State Fault Refusal := .next (s.onAccess (A.lineCtrl port) (fun s => s.writeLineCtrl port value))

/-- LINE_DISABLE. -/
def execLineDisable (port : Fin 16) (value : Word) (s : State) : Host.Outcome State Fault Refusal := .next (s.onAccess (A.lineCtrl port) (fun s => s.writeLineCtrl port value))

/-- A write of LINE_CMIS_CTRL: with GO, one byte access of the mailbox; `reply` is what the module answers, none a NACK. -/
def State.cmis (s : State) (p : Nat) (value : Word) (reply : Option Byte) : State :=
  let s := s.writeFields (A.lineCmisCtrl p) value
  let d := A.lineCmisData p
  let page := fld value 0 8 + 256 * fld value 8 8
  if !bit value 31 then s
  else if !s.modPresent p then s.setF d 8 2 3
  else if bit value 24 ∧ fld value 0 8 = 0x10 ∧ s.portEnabled p ∧ s.modAuto p then s.setF d 8 2 2
  else
    match reply with
    | none => s.setF d 8 2 1
    | some b =>
      if bit value 24 then (s.setF d 8 2 0).emit (.cmisWrite p page (fld value 16 8) (s.f d 0 8))
      else ((s.setF d 8 2 0).setF d 0 8 b.toNat).emit (.cmisRead p page (fld value 16 8))

/-- CMIS_GO. -/
def execCmisGo (port : Fin 16) (value : Word) (reply : Option Byte) (s : State) : Host.Outcome State Fault Refusal :=
  .next (s.onAccess (A.lineCmisCtrl port) (fun s => s.cmis port value reply))

end Sys2Proof.Machine
end

