-- ==== Sys2Proof/Machine/Fabric.lean ====
section
/-! DEFINITION. The fabric links' commands: markers and lanes, flits and replay, circuits, slot tables and statistics
(13_fabric_links_and_concourse.md R238-R256). -/
namespace Sys2Proof.Machine

/-! ### Lanes and markers (R238-R241) -/

abbrev noLane : Nat → Lane := fun _ => {}

def Fibre.lane (x : Fibre) (w : Nat) : Lane := x.lanes.get noLane w
def Fibre.setLane (x : Fibre) (w : Nat) (l : Lane) : Fibre := { x with lanes := x.lanes.put noLane w l }

/-- LINK_CTRL.ENABLE of a fibre. -/
def State.fibreOn (s : State) (f : Nat) : Bool := s.b (A.dflLinkCtrl f) 0

/-- Bits of a fibre's lanes: left out by R241, given to the Concourse, left out by R222 in transmit and in receive. -/
def State.errOut (s : State) (f w : Nat) : Bool := s.b (A.dflLaneOut f) w
def State.txOut (s : State) (f w : Nat) : Bool := s.b (A.optWlOut (f / 4) (f % 4)) w
def State.rxOut (s : State) (f w : Nat) : Bool := s.b (A.optWlOut (f / 4) (f % 4)) (16 + w)

/-- Lanes as bits. -/
def laneMask (p : Nat → Bool) : Nat := ((List.range 16).map (fun w => if p w then 2 ^ w else 0)).sum

/-- Source of wavelength `w` of output fibre `j` in configuration `c` of a quad: a fibre 0-3 of the quad, or 4 LOCAL (R257). -/
def State.concSource (s : State) (q c j w : Nat) : Nat := s.f (A.concCfg q (c * 8 + (16 * j + w) / 8)) (4 * (w % 8)) 4

def State.quad (s : State) (q : Nat) : Quad := s.opt.quads.get (fun _ => {}) q
def State.setQuad (s : State) (q : Nat) (x : Quad) : State := { s with opt := { s.opt with quads := s.opt.quads.put (fun _ => {}) q x } }

/-- Configurations that a quad's lanes obey: that in force, and that being switched to (R259). -/
def State.concConfigs (s : State) (q : Nat) : List Nat :=
  s.f (A.concStatus q) 0 4 :: ((s.quad q).concSwitch.map (·.config)).toList

/-- Whether local lane `w` of a fibre is out of transmit, or of receive, for the Concourse (R257). -/
def State.passTx (s : State) (f w : Nat) : Bool := (s.concConfigs (f / 4)).any (fun c => decide (s.concSource (f / 4) c (f % 4) w ≠ 4))
def State.passRx (s : State) (f w : Nat) : Bool :=
  (s.concConfigs (f / 4)).any (fun c => (List.range 4).any (fun j => decide (s.concSource (f / 4) c j w = f % 4)))

/-- The next TX_MASK of a fibre (R240). -/
def State.nextTxMask (s : State) (f : Nat) : Nat :=
  let x := s.fib f
  laneMask (fun w => s.fibreOn f && decide (nfld x.farRxOut w 1 = 0) && !s.txOut f w && !s.passTx f w)

/-- RX_OUT as the next markers announce it (R239, R241): a wavelength carries no flits before it has qualified (R305). -/
def State.nextRxOut (s : State) (f : Nat) : Nat :=
  let x := s.fib f
  laneMask (fun w => !(x.lane w).locked || s.errOut f w || s.rxOut f w || s.passRx f w || !(s.waveQualOf f false w).passed)

/-- PATTERN of a marker. -/
def markerPattern : List Byte := [0x6C, 0x91, 0x3A, 0xE5, 0x0F, 0xB2, 0x47, 0xD8]

/-- A marker slot. -/
def markerBytes (lane mseq txMask rxOut bip node port : Nat) : List Byte :=
  let b := markerPattern ++ beBytes 1 lane ++ beBytes 1 mseq ++ beBytes 2 txMask ++ beBytes 2 rxOut ++ beBytes 4 bip ++ beBytes 4 node ++
    beBytes 1 port ++ List.replicate 229 0
  b ++ beBytes 4 (crc32c b)

/-- All ones of the scrambler. -/
abbrev dflSeed : Nat := 0x3FFFFFFFFFFFFFF

/-- One bit of the additive scrambler 1 + x^39 + x^58, oldest bit in the highest place. -/
def dflScramblerStep (r : Nat) : Nat := (r * 2 + (r / 2 ^ 57 + r / 2 ^ 38) % 2) % 2 ^ 58

/-- A byte scrambled, and the scrambler after it. -/
def dflScrambleByte (r : Nat) (b : Byte) : Nat × Byte :=
  (List.range 8).foldl (fun a i =>
    (dflScramblerStep a.1, a.2 ^^^ BitVec.ofNat 8 (a.1 / 2 ^ 57 % 2 * 2 ^ (7 - i)))) (r, b)

/-- Bytes scrambled (or descrambled), and the scrambler after them. -/
def dflScramble (r : Nat) (bs : List Byte) : Nat × List Byte :=
  match bs with
  | [] => (r, [])
  | b :: rest =>
    let x := dflScrambleByte r b
    let y := dflScramble x.1 rest
    (y.1, x.2 :: y.2)

/-- Sends markers on all lanes of a fibre; the masks of the group that follows take effect, and its scramblers start. -/
def State.sendMarkers (s : State) (f : Nat) : State :=
  if !s.fibreOn f || !s.linkRuns then s
  else
    let mask := s.nextTxMask f
    let out := s.nextRxOut f
    let s := s.setF (A.dflLane f) 0 16 mask
    let s := (List.range 16).foldl (fun s w =>
      let l := (s.fib f).lane w
      let m := (l.mseq + 1) % 256
      let s := s.setFib f ((s.fib f).setLane w { l with mseq := m, txBip := 0, txScr := dflSeed })
      s.emit (.marker f w (markerBytes w l.mseq mask out l.txBip s.nodeId f))) s
    s.setFib f { s.fib f with slotPos := 0, nextLane := 0 }

/-- DFL_MARKER_SEND. -/
def execDflMarkerSend (fibre : Fin 32) (s : State) : Host.Outcome State Fault Refusal := .next (s.sendMarkers fibre)

/-- Leaves out a receive lane (R241). -/
def State.leaveLaneOut (s : State) (f w : Nat) : State :=
  let x := s.fib f
  let s := s.setFib f (x.setLane w { x.lane w with cleanMs := 0 })
  if s.errOut f w then s else (s.setB (A.dflLaneOut f) w true).bump (A.dflFCnt f 4)

/-- A lane loses lock: it is left out. -/
def State.loseLock (s : State) (f w : Nat) : State :=
  let x := s.fib f
  let l := x.lane w
  let s := s.setFib f (x.setLane w { l with locked := false, good := 0, missed := 0 })
  if l.locked then s.leaveLaneOut f w else s

/-- Whether 256 bytes are a good marker of a lane. -/
def markerGood (w : Nat) (m : List Byte) : Bool :=
  decide (m.length = 256) && decide (m.take 8 = markerPattern) && decide (nfld (beAt m 8 1) 0 4 = w) &&
    decide (beAt m 252 4 = crc32c (m.take 252))

/-- A wavelength moved to the transmit spare counts as qualified when the far end readmits it (16_bring_up_and_image.md R315). -/
def State.readmitted (s : State) (f : Nat) : State :=
  let back := (List.range 16).filter (fun w => (s.waveQualOf f true w).readmitSince.isSome && decide (nfld (s.fib f).farRxOut w 1 = 0))
  if back.isEmpty then s
  else (back.foldl (fun s w => s.setWaveQual f true w { s.waveQualOf f true w with passed := true, readmitSince := none }) s).progress

/-- A marker, or what stands in its place, arrives on a lane. -/
def State.takeMarker (s : State) (f w : Nat) (m : List Byte) : State :=
  if !s.fibreOn f || !s.linkRuns then s
  else
    let x := s.fib f
    let l := x.lane w
    if markerGood w m then
      let seq := beAt m 9 1
      let follows := decide (seq = (l.farMseq + 1) % 256)
      let good := if 0 < l.good ∧ follows = false then 1 else l.good + 1
      let locks := l.locked || decide (2 ≤ good)
      let errs := if l.locked then l.errs + weight32 (Nat.xor l.rxBip (beAt m 14 4)) else l.errs
      let l := { l with locked := locks, good := min good 2, missed := 0, errs := errs, rxBip := 0, rxScr := dflSeed, farMseq := seq }
      let y := x.setLane w l
      if locks then
        let y := { y with farRxOut := beAt m 12 2, farNode := beAt m 18 4, farPort := nfld (beAt m 22 1) 0 5, lastHeard := s.mono }
        let s := ((s.setFib f y).setF (A.dflLane f) 16 16 (beAt m 10 2)).readmitted f
        if s.f (A.dflLinkStatus f) 0 2 = 0 then s.setF (A.dflLinkStatus f) 0 2 1 else s
      else s.setFib f y
    else
      let l := { l with good := 0, missed := l.missed + 1, rxBip := 0, rxScr := dflSeed, farMseq := (l.farMseq + 1) % 256 }
      let s := s.setFib f (x.setLane w l)
      if 4 ≤ l.missed then s.loseLock f w else s

/-- DFL_MARKER_RECEIVE. -/
def execDflMarkerReceive (fibre : Fin 32) (lane : Fin 16) (marker : List Byte) (s : State) : Host.Outcome State Fault Refusal :=
  .next (s.takeMarker fibre lane marker)

/-- MARKER_LOCK_LOSS: four markers in a row have been missing. -/
def execMarkerLockLoss (fibre : Fin 32) (lane : Fin 16) (s : State) : Host.Outcome State Fault Refusal :=
  .next (if s.fibreOn fibre then s.loseLock fibre lane else s)

/-- The end of a millisecond of a lane: its BIP errors are compared with the threshold. -/
def State.laneWindow (s : State) (f w : Nat) : State :=
  let x := s.fib f
  let l := x.lane w
  let thr := s.f A.dflLaneThr 0 16
  let clean := l.locked && decide (l.errs * 10 < thr)
  let s := s.setFib f (x.setLane w { l with errs := 0, cleanMs := if clean then l.cleanMs + 1 else 0 })
  if thr < l.errs then s.leaveLaneOut f w else s

/-- LANE_ERROR_WINDOW. -/
def execLaneErrorWindow (fibre : Fin 32) (lane : Fin 16) (s : State) : Host.Outcome State Fault Refusal :=
  .next (s.laneWindow fibre lane)

/-- LANE_READMIT: a lane left out by R241 that has been locked and clean for a second. -/
def State.readmitLane (s : State) (f w : Nat) : State :=
  let l := (s.fib f).lane w
  if s.errOut f w && l.locked && decide (1000 ≤ l.cleanMs) then (s.setB (A.dflLaneOut f) w false).bump (A.dflFCnt f 5) else s

def execLaneReadmit (fibre : Fin 32) (lane : Fin 16) (s : State) : Host.Outcome State Fault Refusal :=
  .next (s.readmitLane fibre lane)

/-! ### The link (R244) -/

/-- Takes a link DOWN: its replay buffer and partial packets are discarded, and its lanes retrain. -/
def State.linkDown (s : State) (f : Nat) : State :=
  let x := s.fib f
  let s := s.setFib f { x with lanes := x.lanes.map (fun l => (l.1, { l.2 with locked := false, good := 0, missed := 0 })),
                               held := [], replaying := [], partials := [], freed := [], nakDue := false, probe := none, midPacket := [] }
  (s.setF (A.dflLinkStatus f) 0 2 0).setReg (A.dflLane f) 0

/-- LINK_HOLD_EXPIRE: no flit accepted and no marker locked for HOLD_US. -/
def State.linkHold (s : State) (f : Nat) : State :=
  if decide (s.f (A.dflLinkStatus f) 0 2 = 2) && s.elapsed (s.fib f).lastHeard (s.f (A.dflLinkCtrl f) 1 10 * 1000) then
    (s.linkDown f).bump (A.dflFCnt f 3)
  else s

def execLinkHoldExpire (fibre : Fin 32) (s : State) : Host.Outcome State Fault Refusal := .next (s.linkHold fibre)

/-- Link credits that a VC is allotted, in flits (R246). -/
def State.allotment (s : State) (v : Nat) : Nat := s.f (A.dflVcCfg v) 8 8 * 8

/-- LINK_TRAINING_DONE: at least one lane is locked and in the mask in each direction. -/
def State.linkUpNow (s : State) (f : Nat) : State :=
  let x := s.fib f
  let rx := (List.range 16).any (fun w => (x.lane w).locked && s.b (A.dflLane f) (16 + w))
  if s.fibreOn f && s.linkRuns && !s.linkUp f && rx && decide (s.f (A.dflLane f) 0 16 ≠ 0) then
    let s := s.setFib f { x with seq := 1, ackIn := 0, ackOut := 0, ackAt := s.mono, lastHeard := s.mono, nakSent := false, nakDue := false,
                                 held := [], replaying := [], probe := none,
                                 credits := (List.range 8).map (fun v => (v, s.allotment v)) }
    (s.setF (A.dflLinkStatus f) 0 2 2).admitAll f
  else s

def execLinkTrainingDone (fibre : Fin 32) (s : State) : Host.Outcome State Fault Refusal := .next (s.linkUpNow fibre)

/-! ### Circuits (R252) -/

/-- Word `w` of circuit entry `c` of fibre `f`, and its fields. -/
def State.circWord (s : State) (f c w : Nat) : Word := s.reg (A.dflCirc f (c * 4 + w))
def State.circValid (s : State) (f c : Nat) : Bool := bit (s.circWord f c 0) 0
def State.circTx (s : State) (f c : Nat) : Bool := bit (s.circWord f c 0) 1
def State.circVc (s : State) (f c : Nat) : Nat := fld (s.circWord f c 0) 2 3
def State.circSize (s : State) (f c : Nat) : Nat := 65536 * 2 ^ fld (s.circWord f c 0) 8 4
def State.circRemote (s : State) (f c : Nat) : Nat := (s.circWord f c 1).toNat
/-- Gallery offset of a ring. -/
def State.circBase (s : State) (f c : Nat) : Nat :=
  addrOffset ((s.circWord f c 2).toNat + 0x100000000 * (s.circWord f c 3).toNat)

def State.devPtr (s : State) (f c : Nat) : Nat := (s.reg (A.dflCircDevPtr f c)).toNat
def State.hostPtr (s : State) (f c : Nat) : Nat := (s.reg (A.dflCircHostPtr f c)).toNat
def State.setDevPtr (s : State) (f c v : Nat) : State := s.setReg (A.dflCircDevPtr f c) (BitVec.ofNat 32 v)

/-- Bytes of a ring from a count on. -/
def State.ringRead (s : State) (f c p n : Nat) : List Byte :=
  (List.range n).map (fun i => s.gallery.get zeroByte (s.circBase f c + (p + i) % s.circSize f c))

/-- Writes bytes into a ring from a count on. -/
def State.ringWrite (s : State) (f c p : Nat) (bs : List Byte) : State :=
  let size := s.circSize f c
  let k := size - p % size
  let s := s.galStore (s.circBase f c + p % size) (bs.take k)
  if bs.length ≤ k then s else s.galStore (s.circBase f c) (bs.drop k)

/-- Room of an RX circuit in bytes. -/
def State.ringRoom (s : State) (f c : Nat) : Nat :=
  s.circSize f c - (s.devPtr f c + 0x100000000 - s.hostPtr f c) % 0x100000000

/-- Counts a freed receive buffer of a VC, to be returned as credit. -/
def Fibre.free (x : Fibre) (v : Nat) : Fibre := { x with freed := x.freed.put (fun _ => 0) v (x.freed.get (fun _ => 0) v + 1) }

/-- Writes the held flits of a circuit while they find room. -/
def State.drainCircuit (s : State) (f c fuel : Nat) : State :=
  match fuel with
  | 0 => s
  | n + 1 =>
    match (s.fib f).circHeld.find? (fun h => h.2.1 = c) with
    | none => s
    | some h =>
      if s.ringRoom f c < h.2.2.length then s
      else
        let x := s.fib f
        let s := s.setFib f ({ x with circHeld := x.circHeld.eraseP (fun h => h.2.1 = c) }.free h.1)
        let p := s.devPtr f c
        ((s.ringWrite f c p h.2.2).setDevPtr f c (p + h.2.2.length)).drainCircuit f c n

/-- Puts flits of a TX circuit into its VC queue while it has data and may inject. -/
def State.feedCircuit (s : State) (f c fuel : Nat) : State :=
  match fuel with
  | 0 => s
  | n + 1 =>
    let p := s.devPtr f c
    let left := (s.hostPtr f c + 0x100000000 - p) % 0x100000000
    let v := s.circVc f c
    if left = 0 ∨ s.mayInject (s.fib f) v 1 = false then s
    else
      let k := min 240 left
      let y : FlitReq := { ftype := 2, sop := false, eop := false, vc := v, circ := c, dst := s.circRemote f c, payload := s.ringRead f c p k }
      ((s.setFib f (s.enqueueFlit (s.fib f) v y)).setDevPtr f c (p + k)).feedCircuit f c n

/-- Lets every TX circuit of a fibre send on. -/
def State.feedCircuits (s : State) (f : Nat) : State :=
  (List.range 32).foldl (fun s c => if s.circValid f c && s.circTx f c then s.feedCircuit f c 4096 else s) s

/-- CIRCUIT_HOST_PTR_WRITE: an RX circuit gains room, a TX circuit data. -/
def State.writeHostPtr (s : State) (f c : Nat) (value : Word) : State :=
  let s := s.setReg (A.dflCircHostPtr f c) value
  if !s.circValid f c then s
  else if s.circTx f c then s.feedCircuit f c 4096
  else s.drainCircuit f c (s.fib f).circHeld.length

def execCircuitHostPtrWrite (fibre : Fin 32) (circ : Fin 32) (value : Word) (s : State) : Host.Outcome State Fault Refusal :=
  .next (s.onAccess (A.dflCircHostPtr fibre circ) (fun s => s.writeHostPtr fibre circ value))

/-! ### Slot tables (R255) -/

/-- The entry in force at present. -/
def State.slotNow (s : State) : Option Nat :=
  let count := s.f A.dflSlotCtrl 0 9
  let start := s.reg64 A.dflSlotStartLo A.dflSlotStartHi
  if count = 0 ∨ s.hasReached start = false then none
  else some ((s.now + 0x10000000000000000 - start) % 0x10000000000000000 / max 1 (s.f A.dflSlotCtrl 16 16) % count)

/-- SLOT_ENTRY_BOUNDARY: the entry of the present time comes into force on a fibre. -/
def execSlotEntryBoundary (fibre : Fin 32) (s : State) : Host.Outcome State Fault Refusal :=
  .next (s.setFib fibre { s.fib fibre with slotEntry := s.slotNow })

/-- TX_NODE and RX_NODE in force; none before START or with no entry. -/
def State.slotNode (s : State) (f w : Nat) : Option Nat := (s.fib f).slotEntry.map (fun e => (s.reg (A.dflSlot f (e * 2 + w))).toNat)

/-- Whether a node value allows a node. -/
def nodeAllows (v node : Nat) : Bool := decide (v = 0) || (decide (v ≠ 0xFFFFFFFF) && decide (v = node))

/-! ### Sending (R243, R246, R253-R256) -/

/-- The bytes of a flit. -/
def flitBytes (y : FlitReq) (seq ack : Nat) (nak : Bool) (cvc credit : Nat) : List Byte :=
  let head := beBytes 1 (y.ftype + 16 * b2n y.sop + 32 * b2n y.eop + 64 * b2n nak) ++ beBytes 1 (y.vc + 8 * y.circ) ++
    beBytes 1 y.payload.length ++ beBytes 3 (seq % 4096 * 4096 + ack % 4096) ++ beBytes 2 (cvc * 8192 + credit)
  let pay := y.payload ++ List.replicate (240 - y.payload.length) 0
  head ++ beBytes 8 (crc64 (head ++ pay)) ++ pay

/-- An IDLE flit. -/
def idleFlit : FlitReq := { ftype := 0, sop := false, eop := false, vc := 0, circ := 0, dst := 0, payload := [] }

/-- The first VC with credits to return, and how many fit into a flit. -/
def Fibre.creditDue (x : Fibre) : Nat × Nat :=
  match x.freed with
  | [] => (0, 0)
  | (v, n) :: _ => (v, min n 8191)

/-- Whether the head flit of a VC may go (R246, R253, R255). -/
def State.flitEligible (s : State) (f : Nat) (x : Fibre) (v : Nat) (y : FlitReq) : Bool :=
  decide (0 < x.credits.get (fun _ => 0) v) &&
    (!s.scheduledVc v || x.midPacket.contains v || ((s.slotNode f 0).map (fun t => nodeAllows t y.dst)).getD false)

/-- The VC to serve: VC0 first, then the eligible head with the smallest tag. -/
def State.bestVc (s : State) (f : Nat) : Option (Nat × FlitReq × Nat × Nat) :=
  let x := s.fib f
  let head (v : Nat) : Option (Nat × FlitReq × Nat × Nat) :=
    match (x.queues.get noFlits v).items with
    | [] => none
    | (y, t, at_) :: _ => if s.flitEligible f x v y then some (v, y, t, at_) else none
  match head 0 with
  | some h => some h
  | none => (List.range 8).foldl (fun best v =>
      if v = 0 then best
      else
        match head v, best with
        | some h, some b => if tagBefore h.2.2.1 b.2.2.1 then some h else best
        | some h, none => some h
        | none, _ => best) none

/-- Puts a flit on the next lane of the group. -/
def State.putFlit (s : State) (f : Nat) (bytes : List Byte) : State :=
  let x := s.fib f
  let mask := s.f (A.dflLane f) 0 16
  let lanes := (List.range 16).filter (fun w => decide (nfld mask w 1 = 1))
  let w := lanes.getD x.nextLane 0
  let l := x.lane w
  let out := dflScramble l.txScr bytes
  let x := x.setLane w { l with txScr := out.1, txBip := bip32 l.txBip out.2 }
  let wrap := decide (lanes.length ≤ x.nextLane + 1)
  (s.setFib f { x with nextLane := if wrap then 0 else x.nextLane + 1, slotPos := if wrap then x.slotPos + 1 else x.slotPos }).emit
    (.flit f w out.2)

/-- A flit's payload as it leaves: the timestamp of a timing message is fixed now (14_time.md R268). -/
def State.stampFlit (s : State) (f : Nat) (y : FlitReq) : FlitReq :=
  if y.sop && y.eop && decide (beAt y.payload 0 1 = 2) then
    { y with payload := y.payload.take 24 ++ fixTiming (s.txStamp false f) (y.payload.drop 24) }
  else y

/-- Takes the head of a VC queue for sending: its credit, statistics, virtual time and packet in progress. -/
def State.popFlit (s : State) (f v : Nat) (y : FlitReq) (tag at_ : Nat) : State :=
  let x := s.fib f
  let w := x.queues.get noFlits v
  let st := (x.stat.get (fun _ => {}) v).delayed (s.mono - at_)
  let mid := if y.ftype ≠ 1 then x.midPacket else if y.eop then x.midPacket.filter (fun u => u ≠ v)
    else if x.midPacket.contains v then x.midPacket else x.midPacket ++ [v]
  s.setFib f { x with queues := x.queues.put noFlits v { w with items := w.items.drop 1 },
                      credits := x.credits.put (fun _ => 0) v (x.credits.get (fun _ => 0) v - 1),
                      stat := x.stat.put (fun _ => {}) v st, midPacket := mid,
                      vtime := if v ≠ 0 ∧ tagBefore x.vtime tag = true then tag else x.vtime }

/-- Sends one flit: of a replay, a new one, or IDLE (R243). -/
def State.sendFlit (s : State) (f : Nat) : State :=
  let x := s.fib f
  if !s.linkUp f || !s.linkRuns || decide (15 ≤ x.slotPos) || decide (s.f (A.dflLane f) 0 16 = 0) then s
  else
    let due := x.creditDue
    let quiet (x : Fibre) : Fibre := { x with nakDue := false, freed := x.freed.put (fun _ => 0) due.1 (x.freed.get (fun _ => 0) due.1 - due.2) }
    match x.replaying, x.held.find? (fun h => some h.seq = x.replaying.head?) with
    | _ :: rest, some h =>
      let held := x.held.map (fun k => if k.seq = h.seq then { k with cvc := due.1, credit := due.2 } else k)
      (s.setFib f (quiet { x with replaying := rest, held := held })).putFlit f (flitBytes h.req h.seq x.ackOut x.nakDue due.1 due.2)
    | _, _ =>
      let idle := (s.setFib f (quiet x)).putFlit f (flitBytes idleFlit x.seq x.ackOut x.nakDue due.1 due.2)
      if 256 ≤ x.held.length then idle
      else
        match s.bestVc f with
        | none => idle
        | some (v, y, tag, at_) =>
          let y := s.stampFlit f y
          let s := s.popFlit f v y tag at_
          let z := quiet (s.fib f)
          let z := { z with held := z.held ++ [{ seq := z.seq, req := y, cvc := due.1, credit := due.2 }], seq := (z.seq + 1) % 4096,
                            ackAt := if z.held.isEmpty then s.mono else z.ackAt,
                            probe := if z.probe.isNone then some (z.seq, s.mono) else z.probe }
          (((s.setFib f z).putFlit f (flitBytes y x.seq x.ackOut x.nakDue due.1 due.2)).admitAll f).feedCircuits f

/-- FLIT_SEND. -/
def execFlitSend (fibre : Fin 32) (s : State) : Host.Outcome State Fault Refusal := .next (s.sendFlit fibre)

/-- Starts a replay of every held flit; the credits they carried are to be returned again. -/
def State.startReplay (s : State) (f : Nat) : State :=
  let x := s.fib f
  let back := x.held.foldl (fun m h => m.put (fun _ => 0) h.cvc (m.get (fun _ => 0) h.cvc + h.credit)) x.freed
  (s.setFib f { x with replaying := x.held.map (·.seq), freed := back, ackAt := s.mono,
                       held := x.held.map (fun h => { h with credit := 0 }) }).bump (A.dflFCnt f 2)

/-- REPLAY_TIMEOUT: ACK has not advanced for REPLAY_TO_NS while flits are held. -/
def State.replayTimeout (s : State) (f : Nat) : State :=
  let x := s.fib f
  if s.linkUp f && !x.held.isEmpty && s.elapsed x.ackAt (s.f (A.dflLinkCtrl f) 11 16) then s.startReplay f else s

def execReplayTimeout (fibre : Fin 32) (s : State) : Host.Outcome State Fault Refusal := .next (s.replayTimeout fibre)

/-! ### Receiving (R243, R246-R252, R255) -/

/-- Fields of a received flit. -/
def flType (b : List Byte) : Nat := nfld (beAt b 0 1) 0 4
def flSop (b : List Byte) : Bool := nfld (beAt b 0 1) 4 1 = 1
def flEop (b : List Byte) : Bool := nfld (beAt b 0 1) 5 1 = 1
def flNak (b : List Byte) : Bool := nfld (beAt b 0 1) 6 1 = 1
def flVc (b : List Byte) : Nat := nfld (beAt b 1 1) 0 3
def flCirc (b : List Byte) : Nat := nfld (beAt b 1 1) 3 5
def flLen (b : List Byte) : Nat := beAt b 2 1
def flSeq (b : List Byte) : Nat := beAt b 3 3 / 4096
def flAck (b : List Byte) : Nat := beAt b 3 3 % 4096
def flCvc (b : List Byte) : Nat := nfld (beAt b 6 2) 13 3
def flCredit (b : List Byte) : Nat := nfld (beAt b 6 2) 0 13

/-- Takes the ACK, CREDIT and NAK of an accepted flit. -/
def State.takeAck (s : State) (f : Nat) (b : List Byte) : State :=
  let x := s.fib f
  let covered (q : Nat) : Bool := decide (0 ≤ sgn 12 (flAck b + 4096 - q))
  let held := x.held.filter (fun h => !covered h.seq)
  let rtt := match x.probe with
    | some (q, t) => if covered q then some (s.mono - t) else none
    | none => none
  let v := flCvc b
  let y := { x with held := held, replaying := x.replaying.filter (fun q => !covered q), ackIn := flAck b,
                    ackAt := if held.length < x.held.length then s.mono else x.ackAt,
                    probe := if rtt.isSome then none else x.probe,
                    credits := x.credits.put (fun _ => 0) v (x.credits.get (fun _ => 0) v + flCredit b), lastHeard := s.mono }
  let s := s.setFib f y
  let s := match rtt with
    | some t => s.setReg (A.dflLinkRtt f) (BitVec.ofNat 32 (min t 0xFFFF))
    | none => s
  if flNak b then s.startReplay f else s

/-- Whether a fabric packet's header agrees with R248. -/
def packetGood (vc : Nat) (p : List Byte) : Bool :=
  let len := beAt p 20 4
  let mtype := beAt p 24 1
  decide (p.length = 24 + len) &&
    (match beAt p 0 1 with
     | 1 => decide (vc = 1) && decide (40 ≤ len) && decide (len ≤ 65568)
     | 2 => decide (vc = 0) && (decide (msgLength mtype = some len) && !(decide (0x30 ≤ mtype) && decide (mtype ≤ 0x33)))
     | 3 => decide (vc = 4) && decide (1 ≤ len) && decide (len ≤ 65512)
     | 4 => [2, 3, 5, 6, 7].contains vc && decide (1 ≤ len) && decide (len ≤ 65512)
     | 5 => decide (vc = 0) && decide (len = 16)
     | _ => false)

/-- A whole packet from the fabric: chunks, messages and credits wait for their consumers, line-bound traffic goes on
(R250). -/
def State.takeFabricPacket (s : State) (f vc : Nat) (p : List Byte) : State :=
  if !packetGood vc p || decide (beAt p 4 4 ≠ s.nodeId) then s.bump (A.dflFCnt f 8)
  else
    let ptype := beAt p 0 1
    let far := beAt p 12 4
    if (ptype = 3 ∨ ptype = 4) ∧ far ≠ 0 then
      if (s.peerOf far).isNone then s.bump A.dflCntNoPeer else s.sendLine far vc ptype p
    else
      { s with delivered := s.delivered ++ [{ line := false, node := beAt p 8 4, vc := vc, ptype := ptype, bytes := p.drop 24 }] }

/-- Takes a DATA flit into its VC's packet. -/
def State.takeData (s : State) (f : Nat) (b : List Byte) : State :=
  let v := flVc b
  let x := s.fib f
  let part := x.partials.get (fun _ => []) v
  let pay := (b.drop 16).take (flLen b)
  let bad := decide (flLen b = 0) || decide (240 < flLen b) || (flSop b && !part.isEmpty) || (!flSop b && part.isEmpty)
  let late := flSop b && s.scheduledVc v && !(((s.slotNode f 1).map (fun r => nodeAllows r (beAt pay 8 4))).getD true)
  let s := (s.bumpIf bad (A.dflFCnt f 8)).bumpIf late (A.dflFCnt f 6)
  let data := if flSop b then pay else if part.isEmpty then [] else part ++ pay
  let y := { (s.fib f).free v with partials := x.partials.put (fun _ => []) v (if flEop b then [] else data) }
  let s := s.setFib f y
  if flEop b && !data.isEmpty then s.takeFabricPacket f v data else s

/-- Takes a CIRCUIT flit: written to its ring, held, or dropped. -/
def State.takeCircuit (s : State) (f : Nat) (b : List Byte) : State :=
  let c := flCirc b
  let v := flVc b
  let data := (b.drop 16).take (min 240 (flLen b))
  let late := s.scheduledVc v && !(((s.slotNode f 1).map (fun r => nodeAllows r (s.circRemote f c))).getD true)
  if !s.circValid f c || s.circTx f c || decide (s.circVc f c ≠ v) then (s.setFib f ((s.fib f).free v)).bump (A.dflFCnt f 8)
  else
    let x := s.fib f
    let s := s.setFib f { x with circHeld := x.circHeld ++ [(v, c, data)] }
    (s.bumpIf late (A.dflFCnt f 6)).drainCircuit f c (s.fib f).circHeld.length

/-- Drops a flit: the first since an accepted one asks for replay. -/
def State.dropFlit (s : State) (f : Nat) : State :=
  let x := s.fib f
  if x.nakSent then s else (s.setFib f { x with nakSent := true, nakDue := true }).bump (A.dflFCnt f 1)

/-- A descrambled flit on a lane that carries flits. -/
def State.takeFlit (s : State) (f : Nat) (b : List Byte) : State :=
  if beAt b 8 8 ≠ crc64 (b.take 8 ++ b.drop 16) then (s.bump (A.dflFCnt f 0)).dropFlit f
  else
    let x := s.fib f
    let t := flType b
    let v := flVc b
    if flSeq b ≠ (x.ackOut + 1) % 4096 ∨ 2 < t ∨
        (t ≠ 0 ∧ s.allotment v ≤ (x.circHeld.filter (fun h => h.1 = v)).length) then s.dropFlit f
    else
      let s := s.setFib f { x with nakSent := false, nakDue := false, ackOut := if t = 0 then x.ackOut else flSeq b }
      let s := s.takeAck f b
      if t = 1 then s.takeData f b else if t = 2 then s.takeCircuit f b else s

/-- A slot arrives on a lane. -/
def State.takeSlot (s : State) (f w : Nat) (slot : List Byte) : State :=
  if !s.fibreOn f || !s.linkRuns || decide (slot.length ≠ 256) then s
  else
    let x := s.fib f
    let l := x.lane w
    let d := dflScramble l.rxScr slot
    let s := s.setFib f (x.setLane w { l with rxBip := bip32 l.rxBip slot, rxScr := d.1 })
    if l.locked && s.b (A.dflLane f) (16 + w) && s.linkUp f then s.takeFlit f d.2 else s

/-- FLIT_RECEIVE. -/
def execFlitReceive (fibre : Fin 32) (lane : Fin 16) (slot : List Byte) (s : State) : Host.Outcome State Fault Refusal :=
  .next (s.takeSlot fibre lane slot)

/-! ### Statistics (R256) -/

/-- DFL_PM_LATCH: the statistics of the second just ended. -/
def State.latchFabric (s : State) : State :=
  let s := s.setReg A.dflPmSeq (s.reg A.dflPmSeq + 1)
  let s := s.setReg A.dflPmLen (BitVec.ofNat 32 (openDiv (s.mono - s.dfl.lastLatch) 1000))
  { s with dfl := { s.dfl with lastLatch := s.mono, fibres := s.dfl.fibres.map (fun f => (f.1, { f.2 with latched := f.2.stat, stat := [] })) } }

def execDflPmLatch (s : State) : Host.Outcome State Fault Refusal := .next s.latchFabric

end Sys2Proof.Machine
end

