-- ==== Sys2Proof/Machine/Optics.lean ====
section
/-! DEFINITION. The optical engines' commands: rings and their Pegs, heater grants, laser fade and switches, monitors, laser
sources and the Concourse (12_optical_engines.md R222-R237; 13_fabric_links_and_concourse.md R257-R260;
20_pins_package_electrical.md R363, R365). Heater values are in microwatts, Peg errors in MHz, powers in 0.01 dBm. -/
namespace Sys2Proof.Machine

/-! ### Rings: ring r of a quad is ring r % 17 (16: the spare) of fibre 4q + r / 34, transmit for r % 34 < 17 -/

abbrev noRing : Nat → Ring := fun _ => {}

def Quad.ring (x : Quad) (r : Nat) : Ring := x.rings.get noRing r
def Quad.setRing (x : Quad) (r : Nat) (g : Ring) : Quad := { x with rings := x.rings.put noRing r g }

def ringFibre (q r : Nat) : Nat := 4 * q + r / 34
def ringPos (r : Nat) : Nat := r % 17
def ringTx (r : Nat) : Bool := decide (r % 34 < 17)
def ringSpare (r : Nat) : Nat := r / 17 * 17 + 16

/-- KIND and INDEX of a ring in the field-repair record (R312). -/
def ringKind (r : Nat) : Nat := if ringTx r then 7 else 8
def ringIndex (q r : Nat) : Nat := ringFibre q r * 17 + ringPos r

/-- The register that shows a ring's direction of its fibre, and the bit of OPT_WL_OUT for a wavelength. -/
def ringStatus (q r : Nat) : Nat := if ringTx r then A.optTxStatus q (r / 34) else A.optRxStatus q (r / 34)
def outBit (r w : Nat) : Nat := if ringTx r then w else 16 + w

/-- The wavelength that a ring carries. -/
def Ring.wave (g : Ring) (r : Nat) : Option Nat := if ringPos r = 16 then g.carries else some (ringPos r)

def State.setRing (s : State) (q r : Nat) (g : Ring) : State := s.setQuad q ((s.quad q).setRing r g)

/-- Shows whether the ring that carries its wavelength is locked. -/
def State.showLock (s : State) (q r : Nat) (locked : Bool) : State :=
  match ((s.quad q).ring r).wave r with
  | some w => s.setB (ringStatus q r) w locked
  | none => s

/-- Asks the quad sequencer for a heater step of a transceiver ring (R228); a newer request of a ring replaces an older. -/
def State.askHeater (s : State) (q : Nat) (cls : HeatClass) (r target : Nat) : State :=
  let x := s.quad q
  let now := (x.ring r).heater
  let keep := x.backlog.filter (fun e => decide (e.ring ≠ r))
  let size := (target - now) + (now - target)
  s.setQuad q { x with backlog := if size = 0 then keep else keep ++ [{ cls := cls, ring := r, target := target, size := size }] }

/-! ### Failed rings, spares and wavelengths left out (R222, R229, R354) -/

/-- Whether all enabled fibres of a quad lack a wavelength in some direction (R354). -/
def State.opticsShort (s : State) (q : Nat) : Bool :=
  let on := (List.range 4).filter (fun i => s.b (A.optCtrl q) i)
  !on.isEmpty && on.all (fun i => decide (s.reg (A.optWlOut q i) ≠ 0))

/-- Leaves a fibre out that has not qualified and has no wavelength left in either direction: its FIBRE_EN bit is written to 0,
and a quad without an enabled fibre loses its laser (16_bring_up_and_image.md R299, R315). -/
def State.leaveFibreOut (s : State) (f : Nat) : State :=
  let q := f / 4
  if s.fibreEnabled f && !s.b A.bootFibQual f && (List.range 32).all (fun i => s.waveOut f (decide (i < 16)) (i % 16)) then
    let s := s.setB (A.optCtrl q) (f % 4) false
    if s.f (A.optCtrl q) 0 4 ≠ 0 then s
    else
      let x : Source := { s.opt.sources.get (fun _ => {}) q with en := false, matched := false }
      { s with opt := { s.opt with sources := s.opt.sources.put (fun _ => {}) q x },
               power := { s.power with trim := s.power.trim.erase q } }
  else s

/-- Leaves a wavelength out in a ring's direction. -/
def State.leaveWaveOut (s : State) (q r w : Nat) : State :=
  if s.waveOut (ringFibre q r) (ringTx r) w then s
  else
    let f := ringFibre q r
    let s := s.setWaveQual f (ringTx r) w { s.waveQualOf f (ringTx r) w with retry := false, readmitSince := none }
    let s := (s.setB (A.optWlOut q (r / 34)) (outBit r w) true).bump (A.optCnt q 3)
    let s := s.logEvent { code := 0x0502, cls := .degraded, reason := ringFibre q r, arg0 := w, kind := ringKind r, index := ringIndex q r }
    let s := if s.opticsShort q then s.replaceCriterion 4 else s
    (s.leaveFibreOut (4 * q + r / 34)).progress

/-- Recorded heater value of the crossing of line `w`: the crossings before the gap are W(gap - 1) down to W0, those after it
W15 downward (R224). -/
def crossingOf (xs : List Nat) (gap w : Nat) : Nat := xs.getD (if w < gap then gap - 1 - w else gap + 15 - w) 0

/-- Gives the wavelength of a failed working ring to the spare of its direction, or leaves it out (R222). A spare whose own
sweep is still to come or runs is waited for. -/
def State.coverWave (s : State) (q r : Nat) : State :=
  let x := s.quad q
  let sp := ringSpare r
  let g := x.ring sp
  let w := ringPos r
  if s.waveOut (ringFibre q r) (ringTx r) w || decide (g.carries = some w) then s
  else
    match g.mode with
    | .sweep => s
    | .parked =>
      if g.recXs.isEmpty then s
      else (s.setRing q sp { g with mode := .jump, carries := some w }).askHeater q .relock sp (crossingOf g.recXs (g.recGap.getD 0) w)
    | .locked => s.leaveWaveOut q r w
    | .relock => s.leaveWaveOut q r w
    | .resweep => s.leaveWaveOut q r w
    | .jump => s.leaveWaveOut q r w
    | .failed => s.leaveWaveOut q r w

/-- Covers the wavelengths of every failed working ring of a ring's fibre and direction. -/
def State.coverAll (s : State) (q r : Nat) : State :=
  (List.range 16).foldl (fun s i =>
    let k := r / 17 * 17 + i
    if ((s.quad q).ring k).mode = .failed then s.coverWave q k else s) s

/-- A ring is driven off and parked, and its wavelength is covered. -/
def State.dropRing (s : State) (q r : Nat) : State :=
  let g := (s.quad q).ring r
  let s := ((s.showLock q r false).setRing q r { g with mode := .failed, carries := none, outRun := 0, trackRun := 0 }).askHeater q .relock r 0
  if ringPos r = 16 then
    let s := s.setF (ringStatus q r) 16 6 32
    match g.carries with
    | some w => s.leaveWaveOut q r w
    | none => s.coverAll q r
  else s.coverWave q r

/-- RING_FAIL: reason 0 not recorded, 1 start test, 2 in service. -/
def State.failRing (s : State) (q r reason : Nat) : State :=
  if ((s.quad q).ring r).mode = .failed then s
  else
    let s := if reason = 0 then s else if reason = 1 then s.newBad (ringKind r) (ringIndex q r) 1
             else s.recordUnit (ringKind r) (ringIndex q r) (leBytes 4 reason)
    s.dropRing q r

/-! ### Sweeps (R224) -/

/-- Starts a calibration sweep, at bring-up or in service. -/
def State.startSweep (s : State) (q r : Nat) (service : Bool) : State :=
  let g := (s.quad q).ring r
  let recent := g.fullSweeps.filter (fun t => decide (s.mono < t + 3600000000000))
  let g := { g with mode := if service then .resweep else .sweep, h := 0, xs := [], gap := none, last := 0, again := false, trimmed := false,
                    outRun := 0, trackRun := 0, fullSweeps := if service then recent ++ [s.mono] else recent }
  ((s.showLock q r false).setRing q r g).askHeater q .sweep r 0

/-- A sweep has failed: it is repeated once, then the ring fails. -/
def State.sweepFailed (s : State) (q r : Nat) : State :=
  let g := (s.quad q).ring r
  if g.again then s.failRing q r (if g.mode = .sweep then 1 else 2)
  else (s.setRing q r { g with h := 0, xs := [], gap := none, last := 0, again := true }).askHeater q .sweep r 0

/-- The neighbours of a ring with the coefficients that its Peg measures (R227). -/
def neighboursOf (q r c : Nat) : List (Nat × Nat) :=
  ((List.range 4).map (fun i => (Config.neighbour (q * 136 + r) i % 393, Config.coupling c i % 128))).filter
    (fun e => decide (e.1 ≠ 392) && decide (e.1 ≠ r))

/-- A ring locks on a line whose heater value is known. -/
def State.lockRing (s : State) (q r heater : Nat) : State :=
  let g := (s.quad q).ring r
  ((s.setRing q r { g with mode := .locked, outRun := 0, trackRun := 0 }).askHeater q .sweep r heater).showLock q r true

/-- A sweep has crossed all lines. -/
def State.sweepEnded (s : State) (q r gap : Nat) (xs : List Nat) : State :=
  let g := (s.quad q).ring r
  if g.mode = .sweep then
    let (c, s) := s.draw
    let s := s.setRing q r { g with recXs := xs, recGap := some gap, neighbours := neighboursOf q r c }
    if ringPos r = 16 then ((s.setRing q r { (s.quad q).ring r with mode := .parked }).askHeater q .sweep r 0).coverAll q r
    else s.lockRing q r (crossingOf xs gap (ringPos r))
  else if 3 ≤ g.fullSweeps.length then s.failRing q r 2
  else (s.bump (A.optCnt q 1)).lockRing q r (crossingOf xs gap ((g.wave r).getD 0))

/-- PEG_SWEEP_STEP: the tap's reading at the present heater value of a sweep. -/
def State.sweepStep (s : State) (q r : Nat) (crossing : Bool) : State :=
  let x := s.quad q
  let g := x.ring r
  if !((decide (g.mode = .sweep) || decide (g.mode = .resweep)) && x.light && decide (g.heater = g.h)) then s
  else
    let close := crossing && (match g.xs.getLast? with
      | some y => decide (g.h - y < 500)
      | none => false)
    let xs := if crossing then g.xs ++ [g.h] else g.xs
    let last := if crossing then g.h else g.last
    let gap := if g.gap.isNone && decide (5000 < g.h - last) then some xs.length else g.gap
    if close then s.sweepFailed q r
    else
      match gap with
      | some n =>
        if xs.length = 16 then s.sweepEnded q r n xs
        else if 34000 < g.h + 20 then s.sweepFailed q r
        else (s.setRing q r { g with xs := xs, last := last, gap := gap, h := g.h + 20 }).askHeater q .sweep r (g.h + 20)
      | none =>
        if 34000 < g.h + 20 then s.sweepFailed q r
        else (s.setRing q r { g with xs := xs, last := last, gap := gap, h := g.h + 20 }).askHeater q .sweep r (g.h + 20)

def execPegSweepStep (quad : Fin 8) (ring : Fin 136) (crossing : Bool) (s : State) : Host.Outcome State Fault Refusal :=
  .next (s.sweepStep quad ring crossing)

/-- Starts the sweeps of a fibre's rings that have not been swept; bad rings are never used (R222, R314). -/
def State.sweepFibre (s : State) (f : Nat) : State :=
  let q := f / 4
  let b := f % 4 * 34
  ([b + 16, b + 33] ++ (List.range 16).map (fun i => b + i) ++ (List.range 16).map (fun i => b + 17 + i)).foldl (fun s r =>
    let g := (s.quad q).ring r
    if s.unitBad (ringKind r) (ringIndex q r) || s.ctrlRetired 2 (q * 136 + r) || decide (g.mode = .failed) then
      if g.mode = .failed then (if ringPos r = 16 then s else s.coverWave q r) else s.dropRing q r
    else if g.mode = .parked ∧ g.recXs.isEmpty = true then s.startSweep q r false
    else s) s

/-! ### The lock loop (R225-R227, R229) -/

/-- Raises the throttle reason HEATER for a quad (R226, R284). -/
def State.raiseHeater (s : State) (q : Nat) : State :=
  let s := s.setQuad q { s.quad q with heaterReason := true, trackOkSince := none }
  let s := s.heldPhases.foldl (fun s n => s.setB (A.pwrPhaseCfg n) 4 true) s
  ({ s with power := { s.power with heater := true } }).showReasons

/-- Notes since when every Peg of a quad has been within 0.5 GHz. -/
def State.noteTracking (s : State) (q : Nat) : State :=
  let x := s.quad q
  if x.rings.any (fun e => decide (0 < e.2.trackRun)) then s.setQuad q { x with trackOkSince := none }
  else if x.trackOkSince.isNone then s.setQuad q { x with trackOkSince := some s.mono }
  else s

/-- RING_OUT_OF_LOCK: the local relock starts. -/
def State.startRelock (s : State) (q r : Nat) : State :=
  let g := (s.quad q).ring r
  (s.showLock q r false).setRing q r { g with mode := .relock, outRun := 0, trackRun := 0 }

/-- One update of a Peg: the error from its set point, and whether the drop power lies within its lock band. -/
def State.pegUpdate (s : State) (q r : Nat) (error : Int) (inLock : Bool) : State :=
  let x := s.quad q
  let g := x.ring r
  if g.mode ≠ .locked ∨ x.light = false then s
  else
    let (n, s) := s.draw
    let target : Int := (g.heater : Int) + Config.heaterMove n
    if 34000 < target then s.failRing q r 2
    else
      let track := if 500 < error.natAbs then g.trackRun + 1 else 0
      let out := if inLock then 0 else g.outRun + 1
      let s := (s.setRing q r { g with trackRun := track, outRun := out }).askHeater q .tracking r target.toNat
      let s := if track = 2 then (s.bump (A.optCnt q 8)).raiseHeater q else s
      let s := s.noteTracking q
      if 5 ≤ out then s.startRelock q r else s

def execPegUpdate (quad : Fin 8) (ring : Fin 136) (error : Int) (inLock : Bool) (s : State) : Host.Outcome State Fault Refusal :=
  .next (s.pegUpdate quad ring error inLock)

/-- Whether a mode keeps a fibre's fine trim waiting. -/
def RingMode.unsettled (m : RingMode) : Bool :=
  match m with
  | .sweep => true
  | .resweep => true
  | .relock => true
  | .jump => true
  | .parked => false
  | .locked => false
  | .failed => false

/-- PEG_FINE_TRIM: with every ring of the fibre locked, the set point is corrected by the measured error. -/
def State.fineTrim (s : State) (q r : Nat) (error : Int) : State :=
  let x := s.quad q
  let g := x.ring r
  let ready := (List.range 34).all (fun i => !(x.ring (r / 34 * 34 + i)).mode.unsettled)
  if g.mode = .locked ∧ x.light = true ∧ ready = true then s.setRing q r { g with trimmed := true, setPoint := g.setPoint - error } else s

def execPegFineTrim (quad : Fin 8) (ring : Fin 136) (error : Int) (s : State) : Host.Outcome State Fault Refusal :=
  .next (s.fineTrim quad ring error)

/-- LOCAL_RELOCK_DONE: locked, or the full sweep follows. -/
def State.relockDone (s : State) (q r : Nat) (ok : Bool) : State :=
  let g := (s.quad q).ring r
  if g.mode ≠ .relock then s
  else if ok then
    let (n, s) := s.draw
    let target : Int := (g.heater : Int) + Config.heaterMove n
    let s := (s.setRing q r { g with mode := .locked }).askHeater q .relock r target.toNat
    (s.bump (A.optCnt q 0)).showLock q r true
  else s.startSweep q r true

def execLocalRelockDone (quad : Fin 8) (ring : Fin 136) (ok : Bool) (s : State) : Host.Outcome State Fault Refusal :=
  .next (s.relockDone quad ring ok)

/-- SPARE_RING_JUMP_DONE: the spare is connected to the failed ring's data lane, or it sweeps. -/
def State.jumpDone (s : State) (q r : Nat) (ok : Bool) : State :=
  let g := (s.quad q).ring r
  match g.carries with
  | none => s
  | some w =>
    if g.mode ≠ .jump then s
    else if ok then
      let s := (s.setRing q r { g with mode := .locked }).setF (ringStatus q r) 16 5 (1 + 2 * w)
      let s := (s.bump (A.optCnt q 2)).showLock q r true
      let from_ := r / 17 * 17 + w
      s.logEvent { code := 0x0501, cls := .spared, reason := w, kind := ringKind r, index := ringIndex q from_ }
    else s.startSweep q r true

def execSpareRingJumpDone (quad : Fin 8) (ring : Fin 136) (ok : Bool) (s : State) : Host.Outcome State Fault Refusal :=
  .next (s.jumpDone quad ring ok)

/-- HEATER_REASON_CLEAR: every Peg has been within 0.5 GHz for 1 ms. -/
def State.heaterClear (s : State) (q : Nat) : State :=
  let x := s.quad q
  if x.heaterReason && s.elapsedSince x.trackOkSince 1000000 then
    let s := s.setQuad q { x with heaterReason := false }
    let any := (List.range 8).any (fun p => (s.quad p).heaterReason)
    ({ s with power := { s.power with heater := any } }).showReasons
  else s

def execHeaterReasonClear (quad : Fin 8) (s : State) : Host.Outcome State Fault Refusal := .next (s.heaterClear quad)

/-- LASER_LIGHT_LOSS and LASER_LIGHT_RETURN: while the taps read no light every Peg of the quad holds its heater. -/
def execLaserLightLoss (quad : Fin 8) (s : State) : Host.Outcome State Fault Refusal :=
  .next (s.setQuad quad { s.quad quad with light := false })

def execLaserLightReturn (quad : Fin 8) (s : State) : Host.Outcome State Fault Refusal :=
  .next (s.setQuad quad { s.quad quad with light := true })

/-! ### Heater grants (R227, R228) -/

/-- The signed change that a request makes. -/
def HeatReq.delta (q : Nat) (x : Quad) (r : HeatReq) : Int :=
  if r.cls = .concourse then (if (Config.parkSide (q * 256 + (r.ring - 136)) % 2 = 0) = (r.target = 1) then 570 else -570)
  else (r.target : Int) - ((x.ring r.ring).heater : Int)

/-- The compensations of a ring's step by its locked neighbours: ring and change (R227). -/
def Quad.comps (x : Quad) (ring : Nat) (delta : Int) : List (Nat × Int) :=
  (x.rings.filter (fun e => decide (e.1 ≠ ring) && decide (e.2.mode = .locked))).filterMap (fun e =>
    (e.2.neighbours.find? (fun n => decide (n.1 = ring))).map (fun n => (e.1, -(delta * (6 * n.2 : Nat) / 12800))))

/-- Makes a granted step with its compensations. -/
def State.makeStep (s : State) (q : Nat) (r : HeatReq) (comps : List (Nat × Int)) : State :=
  let x := s.quad q
  let x := if r.cls = .concourse then
      let sw := x.concSwitch.map (fun c =>
        { c with waiting := c.waiting.map (fun e => if e.1 + 136 = r.ring then (e.1, e.2.1, some s.mono) else e) })
      { x with concSwitch := sw, concChanges := x.concChanges ++ [s.mono] }
    else x.setRing r.ring { x.ring r.ring with heater := r.target }
  s.setQuad q (comps.foldl (fun x e => x.setRing e.1 { x.ring e.1 with heater := (((x.ring e.1).heater : Int) + e.2).toNat }) x)

/-- Why a step may not be granted although the allowance has room: Concourse steps wait for a laser switch's relock and for
the limit of 256 changes in 10 us; with the quad sequencer retired only tracking is granted (R228, R234, R309). -/
def State.stepHeld (s : State) (q : Nat) (r : HeatReq) : Bool :=
  let x := s.quad q
  (decide (r.cls ≠ .tracking) && s.ctrlRetired 3 q) ||
  (decide (r.cls = .concourse) &&
    (decide (256 ≤ x.concChanges.length) ||
     (match x.switch with
      | some sw => !sw.relocked
      | none => false)))

/-- Considers one waiting step: what the present microsecond has used so far, and whether a step has already found no room. -/
def State.grantOne (q : Nat) (acc : State × Nat × Bool) (r : HeatReq) : State × Nat × Bool :=
  let (s, used, full) := acc
  let x := s.quad q
  let keep (s : State) (r : HeatReq) : State := s.setQuad q { s.quad q with backlog := (s.quad q).backlog ++ [r] }
  if s.mono < r.due then (keep s r, used, full)
  else
    let delta := r.delta q x
    let comps := x.comps r.ring delta
    let cost := delta.natAbs + (comps.map (fun e => e.2.natAbs)).sum
    let held := s.stepHeld q r
    if held || full || decide (200000 < used + cost) then
      let s := if r.counted then s else s.bump (A.optCnt q (if r.cls = .concourse then 6 else 7))
      (keep s { r with counted := true }, used, full || !held)
    else (s.makeStep q r comps, used + cost, full)

/-- VHTR follows the heaters: at most 50 mV every 100 us, to a voltage that the heater drives ask for (20 R367). -/
def State.adjustVhtr (s : State) : State :=
  if s.elapsed s.opt.vhtrAt 100000 then
    let (n, s) := s.draw
    let v := clamp 1000 1800 (s.opt.vhtr - 50 + Config.heaterRail n % 101)
    if v = s.opt.vhtr then s else { s with opt := { s.opt with vhtr := v, vhtrAt := s.mono } }.emit (.avs 1 v)
  else s

/-- HEATER_GRANT: the steps of one microsecond, in the order of R228. -/
def State.grantHeat (s : State) (q : Nat) : State :=
  let x := s.quad q
  if x.grantAt.isSome && !s.elapsedSince x.grantAt 1000 then s
  else
    let of_ (c : HeatClass) : List HeatReq := x.backlog.filter (fun r => decide (r.cls = c))
    let todo := of_ .tracking ++ of_ .relock ++ of_ .concourse ++ of_ .sweep
    let s := s.setQuad q { x with grantAt := some s.mono, backlog := [],
                                  concChanges := x.concChanges.filter (fun t => decide (s.mono < t + 10000)) }
    let s := (todo.foldl (State.grantOne q) (s, 0, false)).1
    let y := s.quad q
    let total := (y.rings.map (fun e => e.2.heater)).sum + Config.concHeat q y.concOn
    (s.setF (A.optHtrPower q) 0 16 (openDiv total 100)).adjustVhtr

def execHeaterGrant (quad : Fin 8) (s : State) : Host.Outcome State Fault Refusal := .next (s.grantHeat quad)

/-! ### Laser sources and spares (R231-R237) -/

def State.source (s : State) (e : Nat) : Source := s.opt.sources.get (fun _ => {}) e
def State.setSource (s : State) (e : Nat) (x : Source) : State :=
  { s with opt := { s.opt with sources := s.opt.sources.put (fun _ => {}) e x } }

/-- The quad whose connector carries a source. -/
def carrierOf (e : Nat) : Nat := if e < 8 then e else if e = 8 then 0 else 4

def State.latched (s : State) (q : Nat) : Bool := s.b A.pinInStatus (16 + q)

/-- Whether a spare counts as absent (R233, R363). -/
def State.spareAbsent (s : State) (e : Nat) : Bool := (s.source e).faulted || !s.latched (carrierOf e)

/-- OPT_LASER_STATUS fields of a quad. -/
def State.feed4 (s : State) (q : Nat) : Nat := s.f (A.optLaserStatus q) 0 4
def State.fadeState (s : State) (q : Nat) : Nat := s.f (A.optLaserStatus q) 4 3
def State.noSpare (s : State) (q : Nat) : Bool := s.b (A.optLaserStatus q) 7
def State.claimed (s : State) (q : Nat) : Nat := s.f (A.optLaserStatus q) 8 4
def State.fadeCdb (s : State) (q : Nat) : Int := sgn 16 (s.f (A.optLaserStatus q) 12 16)
def State.setFadeState (s : State) (q v : Nat) : State := s.setF (A.optLaserStatus q) 4 3 v
def State.setNoSpare (s : State) (q : Nat) (v : Bool) : State := s.setB (A.optLaserStatus q) 7 v
def State.setClaimed (s : State) (q v : Nat) : State := s.setF (A.optLaserStatus q) 8 4 v
def State.setLaserCmdStatus (s : State) (q v : Nat) : State := s.setF (A.optLaserCmd q) 8 4 v

/-- AUTO_FADE of a quad. -/
def State.autoFade (s : State) (q : Nat) : Bool := s.b (A.optCtrl q) 4

/-- The quad that holds a spare. -/
def State.holder (s : State) (e : Nat) : Option Nat := (List.range 8).find? (fun q => decide (s.claimed q = e))

/-- Drives a source's LASER_EN high, where its connector is latched, or low. -/
def State.lightSource (s : State) (e : Nat) : State :=
  if s.latched (carrierOf e) then s.setSource e { s.source e with en := true } else s
def State.darkenSource (s : State) (e : Nat) : State :=
  let s := s.setSource e { s.source e with en := false, matched := false }
  { s with power := { s.power with trim := s.power.trim.erase e } }

/-- SPARE_SOURCE_CLAIM: E8 if it is free, otherwise E9; with none free NO_SPARE is set. -/
def State.claimSpare (s : State) (q : Nat) : State :=
  match [8, 9].find? (fun e => !s.spareAbsent e && (s.holder e).isNone) with
  | some e => ((s.lightSource e).setClaimed q e).setNoSpare q false
  | none => s.setNoSpare q true

/-- Whether the quad's fade has reached threshold `k`: 0 WARN, 1 PREP, 2 SWITCH, 3 CRIT. -/
def State.fadeReached (s : State) (q k : Nat) : Bool := decide (s.fadeCdb q ≤ -(10 * s.f (A.optFadeThr q) (8 * k) 8 : Nat))

/-- The switch that a quad is ready to make: target source and whether it returns to the primary (R232, R235, R236). -/
def State.switchReady (s : State) (q : Nat) : Option (Nat × Bool) :=
  let x := s.quad q
  let c := s.claimed q
  let spare := decide (c ≠ 0xF) && decide (s.feed4 q < 8) && (s.source c).stable && (s.source c).matched
  let home := (s.source q).stable && (s.source q).matched && decide (8 ≤ s.feed4 q)
  let time := s.hasReached (s.reg64 (A.optSwitchTimeLo q) (A.optSwitchTimeHi q))
  match x.pendingCmd with
  | .switch timed => if spare && (!timed || time || s.fadeReached q 2) then some (c, false) else none
  | .back timed _ => if home && (!timed || time) then some (q, true) else none
  | .none => if spare && s.autoFade q && decide (3 ≤ s.fadeState q) then some (c, false) else none

/-- Decides a switch that is due: Concourse changes of the quad are held from here (R234). -/
def State.decideSwitch (s : State) (q : Nat) : State :=
  let x := s.quad q
  if x.switch.isSome then s
  else
    match s.switchReady q with
    | none => s
    | some (target, back) =>
      let s := if x.pendingCmd = .none then s else s.setLaserCmdStatus q 0
      s.setQuad q { x with pendingCmd := .none, switch := some { target := target, back := back, decided := s.mono } }

/-- The entry of WARN or CRITICAL. -/
def State.logFade (s : State) (q : Nat) (cls : Cls) : State :=
  s.logEvent { code := 0x0503, cls := cls, reason := q, arg0 := unsgn 32 (s.fadeCdb q) }

/-- Moves a quad's fade state away from OK as far as its fade has gone (R232). -/
def State.fadeOn (s : State) (q : Nat) : State :=
  let s := if s.fadeReached q 0 ∧ s.fadeState q < 1 then ((s.setFadeState q 1).bump (A.optCnt q 4)).logFade q .info else s
  let s :=
    if s.fadeReached q 1 ∧ s.fadeState q ≤ 2 then
      if s.autoFade q then
        let s := if s.feed4 q < 8 ∧ s.claimed q = 0xF then s.claimSpare q else s
        if s.feed4 q < 8 ∧ s.claimed q ≠ 0xF then s.setFadeState q 2 else if s.fadeState q = 2 then s.setFadeState q 1 else s
      else s.setFadeState q 2
    else s
  let s := if s.fadeReached q 2 ∧ s.fadeState q = 2 then s.setFadeState q 3 else s
  let s := if s.fadeReached q 3 ∧ s.fadeState q < 4 then (s.setFadeState q 4).logFade q .degraded else s
  s.decideSwitch q

/-- Offers a free spare to the waiting quad with the lowest fade, ties to the lower number (R233). -/
def State.offerSpare (s : State) : State :=
  if [8, 9].all (fun e => s.spareAbsent e || (s.holder e).isSome) then s
  else
    let waiting := (List.range 8).filter s.noSpare
    match waiting with
    | [] => s
    | q0 :: rest =>
      let q := rest.foldl (fun b q => if s.fadeCdb q < s.fadeCdb b then q else b) q0
      (s.claimSpare q).fadeOn q

/-- Releases a claim that has not switched; its source is darkened. -/
def State.dropClaim (s : State) (q : Nat) : State := (s.darkenSource (s.claimed q)).setClaimed q 0xF

/-- One step of a fade state toward OK: its fade has stayed 0.3 dB above its threshold for 1 s. -/
def State.fadeOff (s : State) (q : Nat) : State :=
  let st := s.fadeState q
  if st = 0 then s
  else if s.elapsedSince ((s.quad q).fadeRise.getD (st - 1) none) 1000000000 then
    let s := s.setFadeState q (st - 1)
    if st = 1 then
      let s := s.setNoSpare q false
      if s.claimed q ≠ 0xF ∧ s.feed4 q < 8 ∧ (s.quad q).switch.isNone = true ∧ (s.quad q).pendingCmd = .none then (s.dropClaim q).offerSpare else s
    else s
  else s

/-- The reference line powers of a source serial in the field-repair record, the latest first (R231). -/
def State.reference (s : State) (serial : Nat) : Option (List Int) :=
  (s.boot.record.reverse.find? (fun e => decide (e.kind = 0x0B) && decide (e.payload.take 16 = beBytes 16 serial))).map
    (fun e => (List.range 16).map (fun i => sgn 16 (leAt e.payload (16 + 2 * i) 2)))

/-- FADE_MEASURE: the 16 line powers at the quad's taps, averaged over ten integrations of 1 ms. -/
def State.measureFade (s : State) (q : Nat) (powers : List Int) : State :=
  let x := s.quad q
  match (s.source (s.feed4 q)).serial.bind s.reference with
  | none => s
  | some refs =>
    if powers.length ≠ 16 ∨ x.switch.isSome = true then s
    else
      let fades : List Int := List.zipWith (fun p r => p - r) powers refs
      let low := fades.foldl (fun a b => if b < a then b else a) 32767
      let fade : Int := if low < -32768 then -32768 else low
      let s := s.setF (A.optLaserStatus q) 12 16 (unsgn 16 fade)
      let rise := (List.range 4).map (fun k =>
        if -(10 * s.f (A.optFadeThr q) (8 * k) 8 : Nat) + 30 ≤ fade then
          (match x.fadeRise.getD k none with
           | some t => some t
           | none => some s.mono)
        else none)
      let s := s.setQuad q { x with fadeRise := rise }
      ((((s.fadeOff q).fadeOff q).fadeOff q).fadeOff q).fadeOn q

def execFadeMeasure (quad : Fin 8) (powers : List Int) (s : State) : Host.Outcome State Fault Refusal := .next (s.measureFade quad powers)

/-- The source that a quad is matching: the primary for a RETURN, otherwise its claimed spare. -/
def State.matching (s : State) (q : Nat) : Option Nat :=
  match (s.quad q).pendingCmd with
  | .back _ _ => some q
  | .switch _ => if s.claimed q ≠ 0xF ∧ s.feed4 q < 8 then some (s.claimed q) else none
  | .none => if s.claimed q ≠ 0xF ∧ s.feed4 q < 8 then some (s.claimed q) else none

/-- SPARE_SOURCE_READY: every line lies within 2 GHz of the line it will replace; the trim stays with the source (R294). -/
def State.sourceReady (s : State) (q : Nat) : State :=
  match s.matching q with
  | none => s
  | some e =>
    let x := s.source e
    if x.en && x.stable && !x.matched then
      let (n, s) := s.draw
      let s := s.setSource e { x with matched := true }
      let s := { s with power := { s.power with trim := s.power.trim.put (fun _ => 0) e (Config.trim n) } }
      s.decideSwitch q
    else s

def execSpareSourceReady (quad : Fin 8) (s : State) : Host.Outcome State Fault Refusal := .next (s.sourceReady quad)

/-! ### The Concourse (R257-R260) -/

/-- Whether Concourse ring `n` is ON in a configuration: X(i, j, w) when the source of (j, w) is i, B(j, w) when it is not
LOCAL (R257). -/
def State.concWants (s : State) (q c n : Nat) : Bool :=
  let i := n / 64
  let j := n / 16 % 4
  let src := s.concSource q c j (n % 16)
  if i = j then decide (src ≠ 4) else decide (src = i)

def State.concRingBad (s : State) (q n : Nat) : Bool := s.b (A.concRingFail q (n / 32)) (n % 32)

/-- Shows the lanes given to the Concourse (DFL_LANE_OUT.PASS_OUT). -/
def State.showPass (s : State) (q : Nat) : State :=
  (List.range 4).foldl (fun s i =>
    let f := 4 * q + i
    s.setF (A.dflLaneOut f) 16 16 (laneMask (fun w => s.passTx f w || s.passRx f w))) s

/-- Starts a switch to a configuration: lanes leave local service now, ring changes are requested 1 us later (R259). -/
def State.concBegin (s : State) (q c : Nat) : State :=
  let x := s.quad q
  let changed := (List.range 256).filter (fun n => decide (s.concWants q c n ≠ x.concOn.contains n) && !s.concRingBad q n)
  if changed.isEmpty then ((s.setF (A.concStatus q) 0 4 c).bump (A.concCnt q 0)).showPass q
  else
    let reqs : List HeatReq := changed.map (fun n =>
      { cls := .concourse, ring := 136 + n, target := b2n (s.concWants q c n), size := 570, due := s.mono + 1000 })
    let sw : ConcSwitch := { config := c, started := s.mono, waiting := changed.map (fun n => (n, s.concWants q c n, none)) }
    ((s.setQuad q { x with concSwitch := some sw, backlog := x.backlog ++ reqs }).setB (A.concStatus q) 4 true).showPass q

/-- Whether a laser switch holds the quad's Concourse changes (R234). -/
def State.laserHolds (s : State) (q : Nat) : Bool :=
  match (s.quad q).switch with
  | some sw => !sw.relocked
  | none => false

/-- The time of a schedule entry. -/
def State.concTime (s : State) (q k : Nat) : Nat := s.reg64 (A.concSchedTimeLo q k) (A.concSchedTimeHi q k)

/-- An armed entry falls due: it starts, or waits for the switch in progress or for a laser switch's relock (R259, R260). -/
def State.concFire (s : State) (q k : Nat) : State :=
  let x := s.quad q
  if x.concSwitch.isSome || s.laserHolds q then
    if x.concDue.contains k then s
    else
      let s := s.bumpIf (s.laserHolds q) (A.optCnt q 6)
      s.setQuad q { x with concDue := x.concDue ++ [k] }
  else
    let s := s.setQuad q { x with concDue := x.concDue.filter (fun j => decide (j ≠ k)) }
    (s.setB (A.concSchedCtrl q k) 8 false).concBegin q (s.f (A.concSchedCtrl q k) 0 4)

/-- Starts the entry with the earliest time of those that wait. -/
def State.concNext (s : State) (q : Nat) : State :=
  match (s.quad q).concDue with
  | [] => s
  | k0 :: rest =>
    let k := rest.foldl (fun b k => if sgn 64 (s.concTime q k + 0x10000000000000000 - s.concTime q b) < 0 then k else b) k0
    if (s.quad q).concSwitch.isSome || s.laserHolds q then s else s.concFire q k

/-- CONC_SCHED_ARM: a write of CONC_SCHED_CTRL_k; a time less than 1 us ahead starts the sequence at once. -/
def State.concArm (s : State) (q k : Nat) (value : Word) : State :=
  let s := s.writeFields (A.concSchedCtrl q k) value
  if bit value 8 then
    if s.hasReached (s.concTime q k) || !reached 64 (s.concTime q k) (s.now + 1000) then (s.bump (A.concCnt q 3)).concFire q k else s
  else s.setQuad q { s.quad q with concDue := (s.quad q).concDue.filter (fun j => decide (j ≠ k)) }

def execConcSchedArm (quad : Fin 8) (k : Fin 8) (value : Word) (s : State) : Host.Outcome State Fault Refusal :=
  .next (s.onAccess (A.concSchedCtrl quad k) (fun s => s.concArm quad k value))

/-- CONCOURSE_SWITCH_START: 1 us before the TIME of an armed entry. -/
def State.concStart (s : State) (q k : Nat) : State :=
  if s.b (A.concSchedCtrl q k) 8 && reached 64 (s.now + 1000) (s.concTime q k) then s.concFire q k else s

def execConcourseSwitchStart (quad : Fin 8) (k : Fin 8) (s : State) : Host.Outcome State Fault Refusal := .next (s.concStart quad k)

/-- A ring of a Concourse switch has been dealt with; the last one completes the switch. -/
def State.concRingEnd (s : State) (q n : Nat) (sw : ConcSwitch) : State :=
  let rest := sw.waiting.filter (fun e => decide (e.1 ≠ n))
  if rest.isEmpty then
    let s := s.setQuad q { s.quad q with concSwitch := none }
    let s := ((s.setF (A.concStatus q) 0 5 sw.config).bump (A.concCnt q 0)).showPass q
    s.concNext q
  else s.setQuad q { s.quad q with concSwitch := some { sw with waiting := rest } }

/-- CONCOURSE_RING_SETTLED: a changed ring has reached its state. -/
def State.concSettled (s : State) (q n : Nat) : State :=
  let x := s.quad q
  match x.concSwitch with
  | none => s
  | some sw =>
    match sw.waiting.find? (fun e => decide (e.1 = n)) with
    | some (_, on, some _) =>
      let ring := x.concOn.filter (fun m => decide (m ≠ n))
      let s := s.setQuad q { x with concOn := if on then (ring ++ [n]).mergeSort (fun a b => decide (a ≤ b)) else ring }
      (s.bump (A.concCnt q 1)).concRingEnd q n sw
    | _ => s

def execConcourseRingSettled (quad : Fin 8) (ring : Fin 256) (s : State) : Host.Outcome State Fault Refusal := .next (s.concSettled quad ring)

/-- A Concourse ring fails: it is parked OFF, shown, logged and counted (R260). -/
def State.failConcRing (s : State) (q n : Nat) : State :=
  let x := s.quad q
  let s := s.setQuad q { x with concOn := x.concOn.filter (fun m => decide (m ≠ n)),
                                backlog := x.backlog.filter (fun r => decide (r.ring ≠ 136 + n)) }
  let s := (s.setB (A.concRingFail q (n / 32)) (n % 32) true).bump (A.concCnt q 2)
  s.logEvent { code := 0x0502, cls := .degraded, reason := 4 * q + n / 16 % 4, arg0 := n, kind := 9, index := q * 256 + n }

/-- CONCOURSE_RING_TIMEOUT: a ring not at its new state 24 us after its grant. -/
def State.concTimeout (s : State) (q n : Nat) : State :=
  match (s.quad q).concSwitch with
  | none => s
  | some sw =>
    match sw.waiting.find? (fun e => decide (e.1 = n)) with
    | some (_, _, some t) =>
      if s.elapsed t 24000 then ((s.failConcRing q n).recordUnit 9 (q * 256 + n) (leBytes 4 2)).concRingEnd q n sw else s
    | _ => s

def execConcourseRingTimeout (quad : Fin 8) (ring : Fin 256) (s : State) : Host.Outcome State Fault Refusal := .next (s.concTimeout quad ring)

/-! ### Laser switches and the host's laser commands (R234-R236) -/

/-- LASER_SWITCH: the selector moves to the other source, decided now or before. -/
def State.moveSelector (s : State) (q : Nat) : State :=
  let s := s.decideSwitch q
  let x := s.quad q
  match x.switch with
  | none => s
  | some sw =>
    if sw.moved then s
    else s.setQuad q { x with switch := some { sw with moved := true }, light := true, stableSince := some s.mono }

def execLaserSwitch (quad : Fin 8) (s : State) : Host.Outcome State Fault Refusal := .next (s.moveSelector quad)

/-- LASER_SWITCH_RELOCK_DONE: every transceiver ring is back within 0.5 GHz; held Concourse changes are released. -/
def State.switchRelocked (s : State) (q : Nat) : State :=
  let x := s.quad q
  match x.switch with
  | none => s
  | some sw =>
    if !sw.moved || sw.relocked then s
    else
      let s := s.setQuad q { x with switch := some { sw with relocked := true, relockedAt := s.mono } }
      let s := (s.setF (A.optLaserStatus q) 0 4 sw.target).bump (A.optCnt q 5)
      let s := if sw.back then s else s.logEvent { code := 0x0501, cls := .spared, reason := sw.target }
      s.concNext q

def execLaserSwitchRelockDone (quad : Fin 8) (s : State) : Host.Outcome State Fault Refusal := .next (s.switchRelocked quad)

/-- LASER_SWITCH_STABLE: 10 ms after the decision; the old source is darkened, and a spare that is left is freed. -/
def State.switchStable (s : State) (q : Nat) : State :=
  let x := s.quad q
  match x.switch with
  | none => s
  | some sw =>
    if sw.relocked && s.elapsed sw.decided 10000000 then
      let s := s.setQuad q { x with switch := none, fadeRise := [none, none, none, none] }
      let s := (s.setFadeState q 0).setNoSpare q false
      if sw.back then (s.dropClaim q).offerSpare else s.darkenSource q
    else s

def execLaserSwitchStable (quad : Fin 8) (s : State) : Host.Outcome State Fault Refusal := .next (s.switchStable quad)

/-- LASER_REFERENCE_CAPTURE: the line powers of a source seen for the first time, 10 ms after it is stable at the quad. -/
def State.captureReference (s : State) (q : Nat) (powers : List Int) : State :=
  match (s.source (s.feed4 q)).serial with
  | none => s
  | some serial =>
    if (s.reference serial).isSome || !s.elapsedSince (s.quad q).stableSince 10000000 || decide (powers.length ≠ 16) then s
    else s.recordUnit 0x0B q (beBytes 16 serial ++ powers.flatMap (fun p => leBytes 2 (unsgn 16 p)))

def execLaserReferenceCapture (quad : Fin 8) (powers : List Int) (s : State) : Host.Outcome State Fault Refusal :=
  .next (s.captureReference quad powers)

/-- LASER_SWITCH_CMD: SWITCH in a write of OPT_LASER_CMD. -/
def State.cmdSwitch (s : State) (q : Nat) (value : Word) : State :=
  let s := s.writeFields (A.optLaserCmd q) value
  let x := s.quad q
  if !bit value 0 then s
  else if x.switch.isSome || decide (x.pendingCmd ≠ .none) then s.setLaserCmdStatus q 4
  else if 8 ≤ s.feed4 q then s.setLaserCmdStatus q 0
  else
    let s := if s.claimed q = 0xF then s.claimSpare q else s
    let s := s.setLaserCmdStatus q (if s.claimed q = 0xF then 5 else 1)
    (s.setQuad q { s.quad q with pendingCmd := .switch (bit value 2) }).decideSwitch q

def execLaserSwitchCmd (quad : Fin 8) (value : Word) (s : State) : Host.Outcome State Fault Refusal := .next (s.onAccess (A.optLaserCmd quad) (fun s => s.cmdSwitch quad value))

/-- Starts a return to the quad's own source. -/
def State.startReturn (s : State) (q : Nat) (timed : Bool) : State :=
  let s := (s.lightSource q).setLaserCmdStatus q 1
  (s.setQuad q { s.quad q with pendingCmd := .back timed s.mono }).decideSwitch q

/-- LASER_RETURN_CMD: RETURN in a write of OPT_LASER_CMD. -/
def State.cmdReturn (s : State) (q : Nat) (value : Word) : State :=
  let s := s.writeFields (A.optLaserCmd q) value
  let x := s.quad q
  if !bit value 1 then s
  else if x.switch.isSome || decide (x.pendingCmd ≠ .none) then s.setLaserCmdStatus q 4
  else if s.feed4 q < 8 then s.setLaserCmdStatus q 2
  else s.startReturn q (bit value 2)

def execLaserReturnCmd (quad : Fin 8) (value : Word) (s : State) : Host.Outcome State Fault Refusal := .next (s.onAccess (A.optLaserCmd quad) (fun s => s.cmdReturn quad value))

/-- LASER_RELEASE_CMD: RELEASE in a write of OPT_LASER_CMD. -/
def State.cmdRelease (s : State) (q : Nat) (value : Word) : State :=
  let s := s.writeFields (A.optLaserCmd q) value
  if !bit value 3 then s
  else if (s.quad q).switch.isSome then s.setLaserCmdStatus q 4
  else if s.claimed q = 0xF ∨ 8 ≤ s.feed4 q then s.setLaserCmdStatus q 2
  else
    let s := (s.dropClaim q).setLaserCmdStatus q 0
    let s := s.setQuad q { s.quad q with pendingCmd := .none }
    let s := if s.fadeState q = 2 ∨ s.fadeState q = 3 then s.setFadeState q 1 else s
    s.offerSpare

def execLaserReleaseCmd (quad : Fin 8) (value : Word) (s : State) : Host.Outcome State Fault Refusal := .next (s.onAccess (A.optLaserCmd quad) (fun s => s.cmdRelease quad value))

/-- RETURN_PRIMARY_TIMEOUT: the primary is not stable 2 s after RETURN; the quad stays on the spare. -/
def State.returnTimeout (s : State) (q : Nat) : State :=
  let x := s.quad q
  match x.pendingCmd with
  | .back _ since =>
    if s.elapsed since 2000000000 && !(s.source q).stable then
      ((s.setQuad q { x with pendingCmd := .none }).darkenSource q).setLaserCmdStatus q 3
    else s
  | .switch _ => s
  | .none => s

def execReturnPrimaryTimeout (quad : Fin 8) (s : State) : Host.Outcome State Fault Refusal := .next (s.returnTimeout quad)

/-! ### Monitors (R223) -/

/-- Whether calibration conditions hold for a ring. -/
def Quad.calConditions (x : Quad) (r : Nat) : Bool :=
  let g := x.ring r
  let sweeps (g : Ring) : Bool := decide (g.mode = .sweep) || decide (g.mode = .resweep)
  (decide (g.mode = .locked) && !g.trimmed) || (List.range 34).any (fun i => sweeps (x.ring (r / 34 * 34 + i)))

/-- Effective bits of a reading, rounded down, by INT; those of INT 5 to 7 are not stated. -/
def enobOf (n int : Nat) (cal : Bool) : Nat :=
  if 4 < int then Config.outside n % 16
  else if int = 0 then 6
  else if cal then 7
  else [6, 7, 9, 11, 12].getD int 6

/-- MONITOR_GO: a write of OPT_MON_SEL with GO. -/
def State.monGo (s : State) (q : Nat) (value : Word) : State :=
  let s := s.writeFields (A.optMonSel q) value
  if bit value 31 then s.setQuad q { s.quad q with mon := some value } else s

def execMonitorGo (quad : Fin 8) (value : Word) (s : State) : Host.Outcome State Fault Refusal := .next (s.onAccess (A.optMonSel quad) (fun s => s.monGo quad value))

/-- MONITOR_READING_DONE: the converter's reading. -/
def State.monDone (s : State) (q reading : Nat) : State :=
  let x := s.quad q
  match x.mon with
  | none => s
  | some w =>
    let s := s.setQuad q { x with mon := none }
    let ring := fld w 3 5
    if 16 < ring then s.setReg (A.optMonData q) 0
    else
      let cal := !bit w 12 && x.calConditions (fld w 0 2 * 34 + fld w 2 1 * 17 + ring)
      let (n, s) := s.draw
      s.setReg (A.optMonData q) (BitVec.ofNat 32 (reading % 4096 + 4096 * enobOf n (fld w 8 3) cal + 65536 * b2n cal))

def execMonitorReadingDone (quad : Fin 8) (reading : Nat) (s : State) : Host.Outcome State Fault Refusal := .next (s.monDone quad reading)

/-! ### Fibres, sources and connectors (R237, R363, R365; 19 R355) -/

/-- OPT_FIBRE_ENABLE: a write of OPT_CTRL. A source is lit while its quad is enabled and has not left it; a fibre enabled after
bring-up is swept and qualified anew (R305). -/
def State.fibreEnable (s : State) (q : Nat) (value : Word) : State :=
  let old := s.f (A.optCtrl q) 0 4
  let s := s.writeFields (A.optCtrl q) value
  let now := s.f (A.optCtrl q) 0 4
  let s := if now = 0 then s.darkenSource q else if s.feed4 q < 8 then (s.setF (A.optLaserStatus q) 0 4 q).lightSource q else s
  if s.f A.bootStatus 0 3 < 3 then s
  else
    (List.range 4).foldl (fun s i =>
      if nfld now i 1 = 1 ∧ nfld old i 1 = 0 then
        let f := 4 * q + i
        let s := (List.range 32).foldl (fun s w => s.setWaveQual f (decide (w < 16)) (w % 16) { since := s.mono, retry := s.b (A.optWlOut q i) w }) s
        (s.setB A.bootFibQual f false).sweepFibre f
      else s) s

def execOptFibreEnable (quad : Fin 8) (value : Word) (s : State) : Host.Outcome State Fault Refusal := .next (s.onAccess (A.optCtrl quad) (fun s => s.fibreEnable quad value))

/-- A spare has become absent: a claim of it that has not switched is released, and the quad claims again (R233). -/
def State.spareGone (s : State) (e : Nat) : State :=
  match s.holder e with
  | none => s
  | some q =>
    if 8 ≤ s.feed4 q ∨ ((s.quad q).switch.any (·.moved)) = true then s
    else
      let s := s.dropClaim q
      let s := s.setQuad q { s.quad q with switch := none }
      (s.claimSpare q).fadeOn q

/-- LCB_STATUS_POLL: what a source answers, or none when it fails to acknowledge. -/
def State.pollSource (s : State) (e : Nat) (reply : Option LaserStatus) : State :=
  let x := s.source e
  let wasGone := s.spareAbsent e
  let y := match reply with
    | none => { x with badRun := x.badRun + 1, goodRun := 0, faulted := x.faulted || decide (3 ≤ x.badRun + 1) }
    | some r =>
      let good := if r.fault then 0 else x.goodRun + 1
      { x with badRun := 0, goodRun := good, faulted := r.fault || (x.faulted && decide (good < 3)), stable := r.stable, tecAct := r.tecAct % 65536,
               serial := if r.stable && !x.stable then some r.serial else x.serial }
  let s := s.setSource e y
  let s := if y.stable && !x.stable then
      (List.range 8).foldl (fun s q => if s.feed4 q = e then s.setQuad q { s.quad q with stableSince := some s.mono } else s) s
    else s
  let s := { s with pins := { s.pins with lastLcb := s.pins.lastLcb.put (fun _ => 0) e s.mono } }
  if e < 8 then s
  else if s.spareAbsent e && !wasGone then s.spareGone e
  else if !s.spareAbsent e && wasGone then s.offerSpare
  else s

def execLcbStatusPoll (source : Fin 10) (reply : Option LaserStatus) (s : State) : Host.Outcome State Fault Refusal :=
  .next (s.pollSource source reply)

/-- Counts a detached fibre's wavelengths as left out until it is enabled and qualified again (19 R355). -/
def State.detachFibre (s : State) (f : Nat) : State :=
  let a := A.optWlOut (f / 4) (f % 4)
  let fresh := 32 - ((List.range 32).filter (fun i => s.b a i)).length
  let s := (s.setReg a 0xFFFFFFFF#32).bumpBy (A.optCnt (f / 4) 3) fresh
  let s := (List.range 32).foldl (fun s i =>
    { s with boot := { s.boot with waveQual := s.boot.waveQual.put (fun _ => {}) (f * 32 + i) { leftOut := true } } }) s
  s.setB A.bootFibQual f false

/-- FIBRE_ARRAY_DETACH: the connector's sources go dark and its enabled fibres are treated as detached. -/
def State.detachArray (s : State) (q : Nat) : State :=
  let s := s.setB A.pinInStatus (16 + q) false
  let s := ((List.range 10).filter (fun e => decide (carrierOf e = q))).foldl (fun s e =>
    let s := s.setSource e { s.source e with en := false, matched := false }
    let s := { s with power := { s.power with trim := s.power.trim.erase e } }
    if e < 8 then s
    else
      match s.holder e with
      | none => s
      | some p => if s.feed4 p = e then s.startReturn p false else s.spareGone e) s
  let s := (List.range 4).foldl (fun s i => if s.b (A.optCtrl q) i then s.detachFibre (4 * q + i) else s) s
  if s.opticsShort q then s.replaceCriterion 4 else s

def execFibreArrayDetach (quad : Fin 8) (s : State) : Host.Outcome State Fault Refusal := .next (s.detachArray quad)

/-- FIBRE_ARRAY_ATTACH: a spare that the connector carries may be claimed again. -/
def State.attachArray (s : State) (q : Nat) : State :=
  let s := s.setB A.pinInStatus (16 + q) true
  if q = 0 ∨ q = 4 then s.offerSpare else s

def execFibreArrayAttach (quad : Fin 8) (s : State) : Host.Outcome State Fault Refusal := .next (s.attachArray quad)

end Sys2Proof.Machine
end

