-- ==== Sys2Proof/Machine/Power.lean ====
section
/-! DEFINITION. The power controller's commands: estimate, cap and bubbles, operating points, droop, current and temperature,
IDLE and waking, stagger groups, phases, heat forecast, coolers and SAFE (15_power_and_thermal.md R273-R295;
20_pins_package_electrical.md R366-R369). Powers of a sample are in milliwatts. -/
namespace Sys2Proof.Machine

/-! ### The estimate and the bubble fraction (R278, R279, R282-R285) -/

/-- UNCAL: no good PMBus reading for 100 ms. -/
def State.uncal (s : State) : Bool := s.b A.pwrStatus 15

/-- A power scaled to the latest PMBus measurement, raised by 5 % without one, in mW. -/
def State.scaled (s : State) (mw : Nat) : Nat :=
  mw * s.power.calNum * (if s.uncal then 105 else 100) / (max 1 s.power.calDen * 100)

/-- The larger of two fractions. -/
def maxFrac (a b : Nat × Nat) : Nat × Nat := if a.1 * b.2 < b.1 * a.2 then b else a

/-- The bubble fraction that the cap demands (R279). -/
def State.capBubble (s : State) : Nat × Nat :=
  let cap := s.capW.1
  let excess := s.f A.pwrEst 0 10 - cap
  let num := s.f A.pwrCtrl 12 4 * excess
  if excess = 0 then (0, 1) else if 7 * cap ≤ 8 * num then (7, 8) else (num, cap)

/-- The bubble fraction in force: the largest that any reason demands (R282-R285). -/
def State.bubble (s : State) : Nat × Nat :=
  let p := s.power
  let b := maxFrac (p.bNum, max 1 p.bDen) (if p.ilimHold then (1, 2) else (0, 1))
  let b := maxFrac b (if 9 ≤ p.thermTenths then (7, 8) else (p.thermTenths, 10))
  maxFrac b (p.rampBubble, 256)

/-- Shows the bubble fraction. -/
def State.showBubble (s : State) : State :=
  let b := s.bubble
  s.setF A.pwrStatus 16 8 (min 255 (openDiv (256 * b.1) b.2))

/-- What the ramp limit of R284 adds while HEATER is raised: compute power rises by at most 200 mW in a microsecond. -/
def rampHold (last now : Nat) : Nat := if now ≤ last + 200 then 0 else min 224 (cdiv (256 * (now - (last + 200))) now)

/-- Since when a condition has held. -/
def sinceWhen (s : State) (c : Bool) (old : Option Nat) : Option Nat :=
  if c then (match old with
    | some t => some t
    | none => some s.mono) else none

/-! ### IDLE (R287) -/

/-- Whether a queue has no started entry, and its oldest fetched entry waits only on a token or a start time. -/
def State.queueQuiet (s : State) (q : Nat) : Bool :=
  let x := s.queue q
  x.started.isEmpty &&
    (match x.fetched with
     | [] => true
     | e :: _ => !s.waitDone e.desc || (Desc.timed e.desc && !s.hasReached (Desc.startTime e.desc)))

/-- Whether a COMMIT of a block is in its check or waits for its boundary. -/
def State.commitBusy (s : State) (n : Nat) : Bool :=
  let c := s.commits.get (fun _ => {}) n
  c.checking.isSome || c.accepted.isSome

/-- The conditions of IDLE. -/
def State.quiet (s : State) : Bool :=
  s.b A.pwrIdleCtrl 31 && (List.range 64).all s.queueQuiet && s.cle.insts.isEmpty && s.gal.refills.isEmpty &&
    !s.commitBusy 0 && !s.commitBusy 1 && !s.commitBusy 3

/-! ### The control loop (R278-R285, R290) -/

/-- One microsecond's power of a phase, normalised to OPP2, accrues to its occurrence (R290). -/
def State.accrue (s : State) (e : Nat × Nat) : State :=
  let o := s.occ e.1
  if o.holders = 0 then s
  else
    let mw := s.scaled e.2 * 100 / relPower s.opp
    s.setOcc e.1 { o with sumMw := o.sumMw + mw, ticks := o.ticks + 1, peakMw := max o.peakMw mw }

/-- Notes the band that Tj lies in, with the log of the last seven days (19 R351). -/
def State.noteBand (s : State) : State :=
  let b := bandOf s.tj
  let old := s.faults.bandLog
  if old.head?.map (·.1) = some b then s
  else
    let recent := old.takeWhile (fun e => decide (s.mono < e.2 + weekNs))
    { s with faults := { s.faults with bandLog := (b, s.mono) :: old.take (recent.length + 1) } }

/-- Counts a microsecond for every reason that is set (R285). -/
def State.countReasons (s : State) : State :=
  (List.range 6).foldl (fun s k =>
    if s.b A.pwrStatus (8 + k) then
      let v := (s.reg64 (A.pwrThrUsLo k) (A.pwrThrUsHi k) + 1) % 0x10000000000000000
      s.setReg64 (A.pwrThrUsLo k) (A.pwrThrUsHi k) v
    else s) s

/-- POWER_CONTROL_TICK: one microsecond of the controller. -/
def State.powerTick (s : State) (x : PowerSample) : State :=
  let phases := (x.phaseMw.map (·.2)).sum
  let raw := phases + x.computeMw + x.otherMw
  let s := x.phaseMw.foldl State.accrue s
  let est := s.scaled raw
  let s := s.setF A.pwrEst 0 10 (min 1023 (openDiv est 1000))
  let s := (s.setF A.pwrTemp 0 8 x.tj).noteBand
  let hotC := s.f A.pwrTemp 8 8
  let hot := decide (hotC ≤ s.tj) || (s.power.hot && decide (hotC ≤ s.tj + 3))
  let compute := s.scaled (phases + x.computeMw)
  let ramp := if s.power.heater then rampHold s.power.lastCompute compute else 0
  let cb := s.capBubble
  let p := s.power
  let s := { s with power := { p with
    bNum := cb.1, bDen := cb.2, hot := hot, thermTenths := if hot then p.thermTenths else 0, rampBubble := ramp,
    lastCompute := if p.heater then min compute (p.lastCompute + 200) else compute,
    background := s.scaled (x.computeMw + x.otherMw), estSum := p.estSum + raw, estCount := p.estCount + 1,
    heatSum := p.heatSum + est, backSum := p.backSum + s.scaled (x.computeMw + x.otherMw), heatCount := p.heatCount + 1 } }
  let b := s.bubble
  let p := s.power
  let s := { s with power := { p with
    overSince := sinceWhen s (decide (b.2 < 10 * b.1)) p.overSince,
    zeroSince := sinceWhen s (decide (b.1 = 0)) p.zeroSince,
    maxSince := sinceWhen s (decide (7 * b.2 ≤ 8 * b.1)) p.maxSince,
    overTempSince := sinceWhen s (decide (112 ≤ s.tj)) p.overTempSince,
    quietSince := sinceWhen s s.quiet p.quietSince } }
  let s := if s.power.maxSince.isNone then s.setB A.pwrStatus 14 false else s
  s.showBubble.showReasons.countReasons

def execPowerControlTick (sample : PowerSample) (s : State) : Host.Outcome State Fault Refusal := .next (s.powerTick sample)

/-! ### PMBus (R278, R366) -/

/-- A LINEAR11 word in units of 2^-16 W; a negative power reads 0. -/
def linear11 (w : Nat) : Nat :=
  let y := sgn 11 (w % 2048)
  let n := sgn 5 (w / 2048 % 32)
  if y ≤ 0 then 0 else y.toNat * 2 ^ (n + 16).toNat

/-- PMBUS_READ: the answers of the 16 devices, none where a device fails to answer. -/
def State.pmbusRead (s : State) (readings : List (Option Nat)) : State :=
  let on := (List.range 16).filter (fun n => s.b (A.pinPmbDev n) 31)
  let s := on.foldl (fun s n =>
    match readings.getD n none with
    | some w => (s.setF (A.pinPmbPout n) 0 16 (min 0xFFFF (openDiv (linear11 w * 10) 65536))).setB (A.pinPmbPout n) 31 true
    | none => s.setB (A.pinPmbPout n) 31 false) s
  if on.isEmpty || on.any (fun n => (readings.getD n none).isNone) then s
  else
    let total := (on.map (fun n => linear11 ((readings.getD n none).getD 0))).sum
    let s := (s.setF A.pwrEst 16 10 (min 1023 (openDiv total 65536))).setB A.pwrStatus 15 false
    let p := s.power
    let cal := decide (0 < p.estSum)
    { s with power := { p with calNum := if cal then total * 1000 * p.estCount else p.calNum,
                               calDen := if cal then p.estSum * 65536 else p.calDen,
                               estSum := 0, estCount := 0, lastPmbus := s.mono } }

def execPmbusRead (readings : List (Option Nat)) (s : State) : Host.Outcome State Fault Refusal := .next (s.pmbusRead readings)

/-- PMBUS_STALE_TIMEOUT. -/
def State.pmbusStale (s : State) : State := if s.elapsed s.power.lastPmbus 100000000 then s.setB A.pwrStatus 15 true else s

def execPmbusStaleTimeout (s : State) : Host.Outcome State Fault Refusal := .next s.pmbusStale

/-- PMBUS_ALERT: the level of PMBUS_ALERT_N is recorded; its falling is logged. -/
def State.pmbusAlert (s : State) (low : Bool) : State :=
  let was := s.b A.pinInStatus 26
  let s := s.setB A.pinInStatus 26 low
  if low && !was then s.logEvent { code := Config.alertCode % 65536, cls := .info, blk := some 0x12 } else s

def execPmbusAlert (low : Bool) (s : State) : Host.Outcome State Fault Refusal := .next (s.pmbusAlert low)

/-! ### Operating points (R276, R280, R283) -/

/-- OPP_STEP_DOWN: b above 0.1 throughout 1 ms. -/
def State.oppDown (s : State) : State :=
  if s.elapsedSince s.power.overSince 1000000 then
    let s := { s with power := { s.power with capPoint := min 7 (s.opp + 1), overSince := some s.mono } }
    s.moveOpp.showReasons
  else s

def execOppStepDown (s : State) : Host.Outcome State Fault Refusal := .next s.oppDown

/-- OPP_STEP_UP: b at 0 for 10 ms and the fit test passes one point faster, never beyond what the phases ask for. -/
def State.oppUp (s : State) : State :=
  let to_ := s.opp - 1
  if s.elapsedSince s.power.zeroSince 10000000 && decide (s.preferredOpp ≤ to_) && decide (0 < s.opp) && s.fits s.heldPhases to_ then
    let lift (p : Nat) : Nat := if to_ ≤ s.preferredOpp then 0 else min p to_
    let p := s.power
    let s := { s with power := { p with capPoint := lift p.capPoint, thermPoint := if p.hot then p.thermPoint else lift p.thermPoint,
                                        fitPoint := min p.fitPoint to_, zeroSince := some s.mono } }
    s.moveOpp.showReasons
  else s

def execOppStepUp (s : State) : Host.Outcome State Fault Refusal := .next s.oppUp

/-- OPP_TRANSITION_DONE: the clock has changed and the voltage has settled. -/
def State.oppSettled (s : State) : State :=
  match s.power.moving with
  | none => s
  | some p =>
    let slower := decide (s.opp < p)
    let s := { s with power := { s.power with moving := none } }
    let s := s.setF A.pwrStatus 4 3 p
    let s := if slower then s.emit (.avs 0 (oppMillivolt p)) else s
    s.moveOpp.showReasons

def execOppTransitionDone (s : State) : Host.Outcome State Fault Refusal := .next s.oppSettled

/-- CAP_UNMET_DETECT: b at 0.875 for 1 ms and the estimate still above the cap. -/
def State.capUnmet (s : State) : State :=
  if s.elapsedSince s.power.maxSince 1000000 && decide (s.capW.1 < s.f A.pwrEst 0 10) then s.setB A.pwrStatus 14 true else s

def execCapUnmetDetect (s : State) : Host.Outcome State Fault Refusal := .next s.capUnmet

/-- THERMAL_STEP: each millisecond at or above HOT_C one point slower, or more bubbles at OPP7. -/
def State.thermalStep (s : State) : State :=
  let p := s.power
  if p.hot && s.elapsed p.lastThermStep 1000000 then
    let at7 := decide (7 ≤ s.opp)
    let s := { s with power := { p with lastThermStep := s.mono, thermTenths := if at7 then min 9 (p.thermTenths + 1) else p.thermTenths,
                                        thermPoint := if at7 then p.thermPoint else min 7 (s.opp + 1) } }
    s.moveOpp.showBubble.showReasons
  else s

def execThermalStep (s : State) : Host.Outcome State Fault Refusal := .next s.thermalStep

/-! ### Droop, current and the power brake (R281, R282, R368) -/

/-- DROOP_DETECT and DROOP_RESTORE. -/
def State.setDroop (s : State) (v : Bool) : State := ({ s with power := { s.power with droop := v } }).showReasons

def execDroopDetect (s : State) : Host.Outcome State Fault Refusal := .next (s.setDroop true)
def execDroopRestore (s : State) : Host.Outcome State Fault Refusal := .next (s.setDroop false)

/-- Whether ILIM_N and PWRBRK_N are sampled: not in RESET, and not without the main supplies (R368). -/
def State.pinsSampled (s : State) : Bool :=
  match s.power.state with
  | .bringup => true
  | .service => true
  | .safe => true
  | .off => false
  | .ao => false
  | .reset => false

/-- ILIM_ASSERT and ILIM_RELEASE (10 us after deassertion). -/
def State.setIlim (s : State) (v : Bool) : State :=
  if s.pinsSampled then
    (({ s with power := { s.power with ilimHold := v } }).setB A.pinInStatus 24 v).showBubble.showReasons
  else s

def execIlimAssert (s : State) : Host.Outcome State Fault Refusal := .next (s.setIlim true)
def execIlimRelease (s : State) : Host.Outcome State Fault Refusal := .next (s.setIlim false)

/-- PWRBRK_ASSERT and PWRBRK_RELEASE (10 us after deassertion). -/
def State.setBrake (s : State) (v : Bool) : State :=
  if s.pinsSampled then (({ s with power := { s.power with brake := v } }).setB A.pinInStatus 25 v).showReasons else s

def execPwrbrkAssert (s : State) : Host.Outcome State Fault Refusal := .next (s.setBrake true)
def execPwrbrkRelease (s : State) : Host.Outcome State Fault Refusal := .next (s.setBrake false)

/-! ### IDLE and waking (R287-R291) -/

/-- IDLE_ENTRY: quiet for ENTRY_US. -/
def State.idleEntry (s : State) : State :=
  if decide (s.power.state = .service) && !s.power.idle && s.quiet && s.elapsedSince s.power.quietSince (s.f A.pwrIdleCtrl 0 16 * 1000) then
    ({ s with power := { s.power with idle := true, started := 0, wanted := 0, quietSince := none } }).showPower
  else s

def execIdleEntry (s : State) : Host.Outcome State Fault Refusal := .next s.idleEntry

/-- COMPUTE_WAKE: the clocks run again, the control cores start first. -/
def State.computeWake (s : State) : State :=
  if s.power.idle && s.power.wake then
    let p := s.power
    ({ s with power := { p with idle := false, wake := false, quietSince := none, wanted := Nat.lor p.wanted 3 } }).showPower
  else s

def execComputeWake (s : State) : Host.Outcome State Fault Refusal := .next s.computeWake

/-- STAGGER_GROUP_START: the next wanted group starts, STEP_NS after the previous one, or 4,000 ns after it while a phase that is
held is RAMP_LIMITED. -/
def State.staggerStart (s : State) : State :=
  let p := s.power
  let step := if s.heldPhases.any (fun n => s.b (A.pwrPhaseCfg n) 4) then 4000 else s.f A.pwrStagger 0 12
  let free := match p.lastGroup with
    | none => true
    | some t => s.elapsed t step
  match (List.range 24).find? (fun g => decide (nfld p.wanted g 1 = 1) && decide (nfld p.started g 1 = 0)) with
  | some g =>
    if s.computeRuns && free then { s with power := { p with started := Nat.lor p.started (2 ^ g), lastGroup := some s.mono } } else s
  | none => s

def execStaggerGroupStart (s : State) : Host.Outcome State Fault Refusal := .next s.staggerStart

/-- The lead before START_TIME at which a phase's units are woken, ns (R291). -/
def State.wakeLead (s : State) (phase : Nat) : Nat :=
  let step := if s.b (A.pwrPhaseCfg phase) 4 then 4000 else s.f A.pwrStagger 0 12
  4000 + s.phaseGroups phase * step + s.f A.pwrIdleCtrl 16 8 * 1000

/-- Stagger groups of a phase as a bit mask. -/
def State.phaseMask (s : State) (phase : Nat) : Nat :=
  if s.phaseCount phase < 4 then 0xFFFFFF else s.f (A.pwrPhaseUnits phase) 0 24

/-- PRESTART_WAKE: the oldest fetched entry of a queue is TIMED and its lead has come. -/
def State.prestart (s : State) (q : Nat) : State :=
  match (s.queue q).fetched with
  | [] => s
  | e :: _ =>
    let d : Desc := e.desc
    if s.power.idle && d.timed && reached 64 (s.now + s.wakeLead d.phaseId) d.startTime then
      { s with power := { s.power with wake := true, wanted := Nat.lor s.power.wanted (s.phaseMask d.phaseId) } }
    else s

def execPrestartWake (q : Fin 64) (s : State) : Host.Outcome State Fault Refusal := .next (s.prestart q)

/-- PHASE_CLEAR: a write of PWR_PHASE_CFG_n; LEARN_EN reads 0 for phase 0, and CLEAR resets the envelope (R290). -/
def State.phaseClear (s : State) (n : Nat) (value : Word) : State :=
  let s := s.writeFields (A.pwrPhaseCfg n) value
  let s := if n = 0 then s.setB (A.pwrPhaseCfg 0) 3 false else s
  let s := if bit value 31 then ((s.setReg (A.pwrPhaseEnv n) 0).setReg (A.pwrPhaseDur n) 0).setReg (A.pwrPhaseUnits n) 0 else s
  s.chooseOpp

def execPhaseClear (phase : Fin 16) (value : Word) (s : State) : Host.Outcome State Fault Refusal := .next (s.onAccess (A.pwrPhaseCfg phase) (fun s => s.phaseClear phase value))

/-! ### Heat forecast and coolers (R293, R294) -/

/-- TIMED entries that wait, of learnt phases: ns to their start and phase, the earliest first. -/
def State.waitingTimed (s : State) : List (Nat × Nat) :=
  let all := (List.range 64).flatMap (fun q => (s.queue q).fetched.filterMap (fun e =>
    let d : Desc := e.desc
    let ahead := sgn 64 (d.startTime + 0x10000000000000000 - s.now)
    if d.timed && decide (0 ≤ ahead) && decide (d.phaseId ≠ 0) && decide (4 ≤ s.phaseCount d.phaseId) then some (ahead.toNat, d.phaseId) else none))
  all.mergeSort (fun a b => decide (a.1 ≤ b.1))

/-- Mean of the sums since the last message, W. -/
def State.meanW10 (s : State) (sum : Nat) : Nat := if s.power.heatCount = 0 then 0 else openDiv sum (s.power.heatCount * 1000)

/-- MEAN_W of a phase at the point that R292 would choose for it. -/
def State.forecastW (s : State) (n : Nat) : Nat :=
  openDiv (s.meanW n * relPower (s.fitPointOf [n] (s.f (A.pwrPhaseCfg n) 0 3))) 100

/-- The forecast mean over the next 10 s. -/
def State.mean10s (s : State) : Nat :=
  let part := ((s.waitingTimed.filter (fun e => decide (e.1 < 10000000000))).map (fun e =>
    s.forecastW e.2 * min (s.f (A.pwrPhaseDur e.2) 0 16 * 1000000) (10000000000 - e.1))).sum
  s.meanW10 s.power.backSum + openDiv part 10000000000

/-- HEAT_FORECAST_SEND. -/
def State.heatForecast (s : State) : State :=
  if s.b A.pwrFcCtrl 0 && s.pinsSampled then
    let (n, s) := s.draw
    let next := (s.waitingTimed.head?).filter (fun e => decide (e.1 / 1000000 < 0xFFFF))
    let three : Nat × Nat × Nat := match next with
      | some e => (e.1 / 1000000, s.meanW10 s.power.backSum + s.forecastW e.2, s.f (A.pwrPhaseDur e.2) 0 16)
      | none => (0xFFFF, Config.outside n % 65536, Config.outside n / 65536 % 65536)
    let m := [0xA5#8] ++ beBytes 1 (s.power.fcSeq % 256) ++ beBytes 2 (s.meanW10 s.power.heatSum) ++ beBytes 2 three.1 ++ beBytes 2 three.2.1 ++
      beBytes 2 three.2.2 ++ beBytes 2 s.mean10s ++ beBytes 1 s.tj ++ beBytes 1 (s.f A.pwrStatus 0 4)
    let s := s.emit (.heat (m ++ beBytes 2 (crc16 m)))
    { s with power := { s.power with fcSeq := (s.power.fcSeq + 1) % 256, heatSum := 0, backSum := 0, heatCount := 0 } }
  else s

def execHeatForecastSend (s : State) : Host.Outcome State Fault Refusal := .next s.heatForecast

/-- Whether a source carries data: it feeds an enabled quad. -/
def State.carriesData (s : State) (e : Nat) : Bool :=
  (List.range 8).any (fun q => decide (s.feed4 q = e) && decide (s.f (A.optCtrl q) 0 4 ≠ 0))

/-- TEC_SETPOINT_SEND: BASE plus trim; for a source that carries data it moves by at most 0.1 degC per second. -/
def State.tecSend (s : State) (e : Nat) : State :=
  let want : Int := (s.f (A.pwrTec e) 0 16 : Int) + s.power.trim.get (fun _ => 0) e
  let last := s.f (A.pwrTecAct e) 0 16
  let to_ : Int := match s.power.tecSent.find? (fun t => decide (t.1 = e)) with
    | some t =>
      let room : Int := ((s.mono - t.2) / 100000000 : Nat)
      if s.carriesData e then max ((last : Int) - room) (min ((last : Int) + room) want) else want
    | none => want
  let v := min 0xFFFF to_.toNat
  let s := (s.setF (A.pwrTecAct e) 0 16 v).emit (.tecSet e v)
  { s with power := { s.power with tecSent := s.power.tecSent.insert e s.mono } }

def execTecSetpointSend (source : Fin 10) (s : State) : Host.Outcome State Fault Refusal := .next (s.tecSend source)

/-! ### SAFE (R295; 19 R356) -/

/-- Whether any line key is present. -/
def State.keysPresent (s : State) : Bool := (List.range 64).any s.anyKey

/-- Entry to SAFE from where keys may be present: GOING_DOWN goes out first, with DOWN_US 0. -/
def State.safeWithNotice (s : State) (cause : Nat) : State :=
  (if s.linkRuns && s.keysPresent then s.sendGoingDown 0 else s).enterSafe cause

/-- OVERTEMP_SAFE: Tj at or above 112 degrees for 1 ms. -/
def State.overtemp (s : State) : State := if s.elapsedSince s.power.overTempSince 1000000 then s.safeWithNotice 2 else s

def execOvertempSafe (s : State) : Host.Outcome State Fault Refusal := .next s.overtemp

/-- SAFE_WRITE: a write of PWR_CTRL with SAFE. -/
def State.safeWrite (s : State) (value : Word) : State :=
  let s := s.writeFields A.pwrCtrl value
  if bit value 31 then s.safeWithNotice 3 else s

def execSafeWrite (value : Word) (s : State) : Host.Outcome State Fault Refusal := .next (s.onAccess A.pwrCtrl (fun s => s.safeWrite value))

end Sys2Proof.Machine
end

