-- ==== Sys2Proof/Machine/Commit.lean ====
section
/-! DEFINITION. COMMIT: the snapshot of a block's staged fields, the refusal reasons of every block, and the boundary at which an
accepted set takes effect (18_host_interface.md R341-R344; 03 R79; 04 R81-R83; 05 R105; 06 R118, R119; 07 R144, R145; 09 R174, R193;
13 R252, R258 and the refusal reasons of the DFL block). A refusal is its reason and its item. -/
namespace Sys2Proof.Machine

/-! ### Blocks -/

/-- Number of a block with staged fields. -/
def blockNo (b : Block) : Nat :=
  match b with
  | .cle => 0 | .lnd => 1 | .gal => 2 | .cmp => 3 | .route => 4 | .dfl => 5 | .opt q => 6 + q

/-- First address of a block and of the next. -/
def blockBase (b : Block) : Nat :=
  match b with
  | .cle => 0xB00000 | .lnd => 0x800000 | .gal => 0x900000 | .cmp => 0xC00000 | .route => 0x600000 | .dfl => 0xE00000
  | .opt q => 0xD00000 + q * 0x20000

def blockSize (b : Block) : Nat :=
  match b with
  | .cle => 0x100000 | .lnd => 0x100000 | .gal => 0x100000 | .cmp => 0x100000 | .route => 0x100000 | .dfl => 0x100000
  | .opt _ => 0x20000

def inBlock (b : Block) (a : Nat) : Bool := decide (blockBase b ≤ a) && decide (a < blockBase b + blockSize b)

/-- The code of a GO during a check or with a set pending (R343). -/
def busyReason (b : Block) : Nat :=
  match b with
  | .cle => 0xF0 | .lnd => 6 | .gal => 6 | .cmp => 6 | .route => 9 | .dfl => 0xF0 | .opt _ => 0xF0

/-- COMMIT_STATUS, COMMIT_DETAIL and COMMIT_SEQ of a block. -/
def commitStatus (b : Block) : Nat := blockBase b + 0xFF04
def commitDetail (b : Block) : Nat := blockBase b + 0xFF08
def commitSeq (b : Block) : Nat := blockBase b + 0xFF0C

def State.commitOf (s : State) (b : Block) : Commit := s.commits.get (fun _ => {}) (blockNo b)
def State.setCommit (s : State) (b : Block) (c : Commit) : State := { s with commits := s.commits.put (fun _ => {}) (blockNo b) c }

/-- Shows LAST, REASON and ITEM. -/
def State.showOutcome (s : State) (b : Block) (last reason item : Nat) : State :=
  ((s.setF (commitStatus b) 0 2 last).setF (commitStatus b) 16 8 reason).setReg (commitDetail b) (BitVec.ofNat 32 item)

/-! ### Snapshots -/

/-- The snapshot of a block's staged fields; for CLE with the staged group table. -/
def State.snapshot (s : State) (b : Block) : StagedSet :=
  { regs := s.staged.filter (fun e => inBlock b e.1),
    table := if b = .cle then
        (s.gallery.filter (fun e => decide (s.workBase ≤ e.1) && decide (e.1 < s.workBase + tableBytes))).map
          (fun e => (e.1 - s.workBase, e.2))
      else [] }

/-- What a snapshot holds for a register. -/
def StagedSet.rd (x : StagedSet) (a : Nat) : Word := x.regs.get regReset a

/-- Whether the registers from `lo` to below `hi` would change. -/
def State.changes (s : State) (x : StagedSet) (lo hi : Nat) : Bool :=
  let part : Sparse Word → Sparse Word := fun m => m.filter (fun e => decide (lo ≤ e.1) && decide (e.1 < hi))
  decide (part s.regs ≠ part x.regs)

/-- The lowest refusal: lowest reason, then lowest item (R342); (0, 0) when there is none. -/
def lowestRefusal (l : List (Nat × Nat)) : Nat × Nat :=
  match l with
  | [] => (0, 0)
  | r :: rest => rest.foldl (fun a b => if b.1 < a.1 ∨ (b.1 = a.1 ∧ b.2 < a.2) then b else a) r

/-- The numbers below `n` that break a rule, each as a refusal. -/
def refuse (reason n : Nat) (bad : Nat → Bool) : List (Nat × Nat) := ((List.range n).filter bad).map (fun i => (reason, i))

/-- One refusal of a rule that names an item, or none. -/
def refuseIf (bad : Bool) (reason item : Nat) : List (Nat × Nat) := if bad then [(reason, item)] else []

/-! ### CLE (03 R79; 04 R81-R83) -/

/-- The instruction words of a program slot in a snapshot. -/
def StagedSet.progWords (x : StagedSet) (p : Nat) : List Nat :=
  (List.range 64).map (fun i => (x.rd (A.cleProg p (2 * i))).toNat + 0x100000000 * (x.rd (A.cleProg p (2 * i + 1))).toNat)

def State.refuseCle (s : State) (x : StagedSet) : List (Nat × Nat) :=
  (List.range 64).filterMap (fun p =>
    let r := progReason (s.licensed 1) (x.progWords p)
    if r = 0 then none else some (r, p)) ++ s.groupRefusals

/-- The first unreadable codeword of the staged table. -/
def State.stagedPoison (s : State) : Option Nat := (List.range 4096).findSome? (s.groupPoison areaStaged)

/-! ### LND (05 R105) -/

def State.refuseLnd (s : State) (x : StagedSet) : List (Nat × Nat) :=
  let w := x.rd A.lndPoolBanks
  let mins : Nat → Nat → Nat := minOf x.rd
  refuse 1 4 (fun p => decide (poolBanks w p = 0)) ++
  refuseIf (decide (((List.range 4).map (poolBanks w)).sum ≠ s.f A.lndBankStatus 0 8)) 2 0 ++
  refuse 3 4 (fun p => decide (poolBanks w p * poolPerBank p < ((List.range 16).map (fun c => mins c p)).sum)) ++
  refuse 4 16 (fun c => (List.range 4).any (fun p => decide (mins c p < floorIn c p))) ++
  refuse 5 16 (fun c => decide (fld (x.rd (A.lndClassMax c)) 0 14 < ((List.range 4).map (fun p => mins c p * pool4K p)).sum))

/-! ### GAL (06 R118) -/

def regionLine (w : Word) : Nat := fld w 0 8
def regionReseq (w : Word) : Nat := fld w 8 8
def regionWork (w : Word) : Nat := fld w 16 8
def regionReserve (w : Word) : Nat := fld w 24 4

/-- Channels retired into the reserve. -/
def State.reserveUsed (s : State) : Nat := regionReserve (s.reg A.galRegion) - s.reserveFree

/-- Whether anything uses the regions (reason 0x05). -/
def State.regionsInUse (s : State) : Bool :=
  !s.cle.insts.isEmpty || (List.range 64).any (fun q => decide (s.qLoc q = 1) && s.qActive q) ||
    (List.range 16).any (fun n => decide (s.f (A.cleMapCtrl n) 28 2 ≠ 0)) || !s.gal.refills.isEmpty

def State.refuseGal (s : State) (x : StagedSet) : List (Nat × Nat) :=
  let w := x.rd A.galRegion
  refuseIf (decide (regionReseq w < 8) || decide (regionLine w < regionReseq w + 8)) 1 0 ++
  refuseIf (decide (regionWork w < 25 + 3 * regionReserve w)) 2 0 ++
  refuseIf (decide (576 < regionLine w + regionWork w)) 3 0 ++
  refuseIf (decide (8 < regionReserve w) || decide (regionReserve w < s.reserveUsed)) 4 0 ++
  refuseIf s.regionsInUse 5 0

/-! ### CMP (07 R144, R145) -/

/-- Whether a snapshot changes table slot `n`. -/
def State.cmpChanges (s : State) (x : StagedSet) (n : Nat) : Bool :=
  s.changes x (A.cmpSlot n) (A.cmpSlot n + 4) || s.changes x (0xC10000 + n * 0x1000) (0xC11000 + n * 0x1000)

/-- Whether a code table's lengths give no code (reason 0x03). -/
def lensBad (lens : List Nat) : Bool :=
  lens.all (fun l => decide (l = 0)) || decide (32768 < (lens.map (fun l => if l = 0 then 0 else 2 ^ (15 - l))).sum)

/-- Whether the padding after symbol 269 of a table is not zero. -/
def padBad (rd : Nat → Word) (n t : Nat) : Bool :=
  let w : Nat → Word := fun i => rd (A.cmpTablesLen n (t * 64 + i))
  decide (fld (w 33) 24 8 ≠ 0) || (List.range 30).any (fun i => decide (w (34 + i) ≠ 0))

def State.refuseCmp (s : State) (x : StagedSet) : List (Nat × Nat) :=
  let valid : Nat → Bool := fun n => bit (x.rd (A.cmpSlot n)) 8
  let gen : Nat → Nat := fun n => fld (x.rd (A.cmpSlot n)) 0 8
  let enc := fld (x.rd A.cmpCtrl) 1 1
  refuseIf (bit (x.rd A.cmpCtrl) 0 && !valid enc) 1 enc ++
  refuse 2 2 (fun n => valid n && (decide (gen n = 0) || (decide (n = 0) && valid 1 && decide (gen 0 = gen 1)))) ++
  refuse 3 2 (fun n => valid n && (List.range 15).any (fun e => lensBad (codeLens x.rd n (planeMapEntry x.rd n e % 8)))) ++
  refuse 4 2 (fun n => (List.range 15).any (fun e => decide (8 ≤ planeMapEntry x.rd n e)) || decide (planeMapEntry x.rd n 15 ≠ 0) ||
    (List.range 8).any (padBad x.rd n)) ++
  refuse 5 2 (fun n => decide (n = enc) && decide (n = s.f A.cmpCtrl 1 1) && s.cmpChanges x n)

/-- Whole packets in the data area of a decoded stripe that has not been delivered. -/
def packetsIn (b : List Byte) (fuel : Nat) : List (List Byte) :=
  match fuel with
  | 0 => []
  | n + 1 =>
    if b.length < 8 ∨ beAt b 4 4 = 0 then [] else (b.drop 8).take (beAt b 4 4) :: packetsIn (b.drop (8 + beAt b 4 4)) n

/-- Chunk packets that wait in the resequencing part or in fabric reassembly. -/
def State.waitingChunks (s : State) : List (List Byte) :=
  (s.delivered.filter (fun p => p.ptype = 1)).map (·.bytes) ++
  s.rte.rxs.flatMap (fun x => x.2.stripes.flatMap (fun t =>
    match t.decoded with
    | some d => packetsIn (d.drop t.firstPkt) (d.length + 1)
    | none => [])) ++
  s.dfl.fibres.flatMap (fun x => x.2.partials.map (fun p => p.2.drop 24))

/-- CMP_INFLIGHT_n: chunks coded here and still kept, and received ones that wait coded (R144). -/
def State.cmpInflight (s : State) (n : Nat) : Nat :=
  (s.cle.kept.filter (fun k => k.cmpSlot = some n)).length +
  (s.waitingChunks.filter (fun b => hCoded b && decide (s.stampedSlot (hLen b) (b.drop 32) 17 = some n))).length

/-! ### ROUTE (09 R174, R193) -/

/-- Whether a snapshot changes route-table slot `n`. -/
def State.routeChanges (s : State) (x : StagedSet) (n : Nat) : Bool :=
  s.changes x (A.routeSlot n) (A.routeSlot n + 4) || s.changes x (0x610000 + n * 0x1000) (0x611000 + n * 0x1000)

/-- Refusals of the entries of slot `n`, by item within the slot. -/
def State.refuseSlot (s : State) (rd : Nat → Word) (n : Nat) : List (Nat × Nat) :=
  let port : Nat → Word := fun p => rd (A.routeTablesPort n p)
  let role : Nat → Nat := fun p => fld (port p) 0 2
  let word : Nat → Nat → Word := fun e w => rd (A.routeTablesPeer n (e * 4 + w))
  let valid : Nat → Bool := fun e => bit (word e 1) 0
  let k : Nat → Nat := fun e => fld (word e 1) 4 4
  let m : Nat → Nat := fun e => fld (word e 1) 8 3
  let list : Nat → List Nat := fun e => (List.range (min 8 (k e + m e))).map (fun i => fld (word e 2) (3 * i) 3)
  let peers : Nat → (Nat → Bool) → List (Nat × Nat) := fun reason bad =>
    ((List.range 64).filter (fun e => valid e && bad e)).map (fun e => (reason, 0x100 + e))
  peers 1 (fun e => decide (k e = 0)) ++
  peers 2 (fun e => decide (4 < m e) || decide (8 < k e + m e) || hasDup (list e)) ++
  peers 3 (fun e => (list e).any (fun r => !(List.range 16).any (fun p =>
    decide (role p = 1) && decide (fld (port p) 2 3 = r) && decide (fld (port p) 5 6 = e)))) ++
  peers 4 (fun e => decide (4 < k e + m e) && !s.licensed 4) ++
  refuse 4 16 (fun p => decide (role p ≠ 0) && decide (8 ≤ p) && !s.licensed 0) ++
  refuse 5 16 (fun p =>
    let q := fld (port p) 16 4
    decide (role p = 3) || decide (fld (port p) 11 5 ≠ 0) || decide (fld (port p) 20 12 ≠ 0) ||
    (decide (role p = 1) && !valid (fld (port p) 5 6)) ||
    (decide (role p = 2) && (decide (q = p) || decide (role q ≠ 2) || decide (fld (port q) 16 4 ≠ p)))) ++
  peers 5 (fun e => decide (fld (word e 1) 1 3 ≠ 0) || decide (fld (word e 1) 11 21 ≠ 0) ||
    decide ((word e 2).toNat / 2 ^ (3 * min 8 (k e + m e)) ≠ 0) || decide (word e 3 ≠ 0)) ++
  peers 6 (fun e => (List.range 64).any (fun d => decide (e < d) && valid d && decide (word d 0 = word e 0))) ++
  refuseIf (decide (fld (rd (A.routeSlot n)) 0 8 = 0)) 6 0xFFFF

def State.refuseRoute (s : State) (x : StagedSet) : List (Nat × Nat) :=
  let valid : Nat → Bool := fun n => bit (x.rd (A.routeSlot n)) 8
  let gen : Nat → Nat := fun n => fld (x.rd (A.routeSlot n)) 0 8
  let cur := fld (x.rd A.routeCtrl) 0 1
  (List.range 2).flatMap (fun n => if valid n then (s.refuseSlot x.rd n).map (fun r => (r.1, n * 0x10000 + r.2)) else []) ++
  refuseIf (valid 0 && valid 1 && decide (gen 0 = gen 1)) 6 0xFFFF ++
  refuseIf (!valid cur) 7 (cur * 0x10000 + 0xFFFF) ++
  refuseIf (decide (cur = s.curSlot) && s.routeChanges x cur) 8 (cur * 0x10000 + 0xFFFF)

/-- ROUTE_INFLIGHT_n (R193). -/
def State.routeInflight (s : State) (n : Nat) : Nat := (s.rte.retained.filter (fun t => t.slot = n)).length

/-! ### DFL (13) -/

/-- A circuit entry of a snapshot: valid, first byte of its ring, size of its ring. -/
def circRing (rd : Nat → Word) (f c : Nat) : Bool × Nat × Nat :=
  let w : Nat → Word := fun i => rd (A.dflCirc f (c * 4 + i))
  (bit (w 0) 0, addrOffset ((w 2).toNat + 0x100000000 * (w 3).toNat), 65536 * 2 ^ fld (w 0) 8 4)

/-- Reason 0x04 of a valid circuit. -/
def State.circBad (s : State) (rd : Nat → Word) (f c : Nat) : Bool :=
  let w : Nat → Word := fun i => rd (A.dflCirc f (c * 4 + i))
  let a := (w 2).toNat + 0x100000000 * (w 3).toNat
  let (v, base, size) := circRing rd f c
  v && (decide (fld (w 0) 2 3 < 2) || decide (fld (w 0) 5 3 ≠ 0) || decide (fld (w 0) 12 20 ≠ 0) || !addrGallery a ||
    decide (nfld a 40 23 ≠ 0) || decide (a % 65536 ≠ 0) || !s.inWorking base size)

def State.refuseDfl (s : State) (x : StagedSet) : List (Nat × Nat) :=
  let credits : Nat → Nat := fun v => fld (x.rd (A.dflVcCfg v)) 8 8
  let low : Nat → Nat := fun v => fld (x.rd (A.dflVcThr v)) 0 12
  let high : Nat → Nat := fun v => fld (x.rd (A.dflVcThr v)) 16 12
  refuseIf (decide (0x80 < ((List.range 8).map credits).sum) || decide (credits 0 < 2)) 1 0 ++
  refuse 2 8 (fun v => decide (high v ≤ low v) || decide (4096 < high v)) ++
  refuse 3 8 (fun v => decide (v ≠ 0) && bit (x.rd (A.dflVcCfg v)) 0 && decide (fld (x.rd A.dflSlotCtrl) 0 9 = 0)) ++
  refuse 4 1024 (fun i => s.circBad x.rd (i / 32) (i % 32)) ++
  refuse 5 1024 (fun i =>
    let (v, a, n) := circRing x.rd (i / 32) (i % 32)
    v && (List.range 32).any (fun c =>
      let (u, b, m) := circRing x.rd (i / 32) c
      decide (i % 32 < c) && u && rangesMeet a n b m))

/-! ### OPT (13 R257, R258) -/

/-- Source of an entry `e` = 16 j + w of configuration `c` in a snapshot. -/
def cfgSource (rd : Nat → Word) (q c e : Nat) : Nat := fld (rd (A.concCfg q (c * 8 + e / 8))) (4 * (e % 8)) 4

def State.refuseOpt (s : State) (q : Nat) (x : StagedSet) : List (Nat × Nat) :=
  let src : Nat → Nat → Nat := cfgSource x.rd q
  let some_ : Nat → (Nat → Bool) → Bool := fun _ bad => (List.range 64).any bad
  refuse 0x10 16 (fun c => some_ c (fun e => decide (4 < src c e) || decide (src c e = e / 16))) ++
  refuse 0x11 16 (fun c => some_ c (fun e => decide (src c e < 4) && (List.range 4).any (fun j =>
    decide (e / 16 < j) && decide (src c (16 * j + e % 16) = src c e)))) ++
  refuse 0x12 16 (fun c => some_ c (fun e => decide (src c e ≠ 4)) && !s.licensed 3) ++
  refuse 0x13 16 (fun c => some_ c (fun e => decide (src c e < 4) &&
    (s.concRingBad q (16 * (4 * src c e + e / 16) + e % 16) || s.concRingBad q (16 * (4 * (e / 16) + e / 16) + e % 16)))) ++
  refuse 0x14 16 (fun c => (s.concConfigs q).contains c && s.changes x (A.concCfg q (c * 8)) (A.concCfg q (c * 8 + 8)))

/-! ### The check (R342) -/

/-- The refusals of a set. -/
def State.refusals (s : State) (b : Block) (x : StagedSet) : List (Nat × Nat) :=
  match b with
  | .cle => s.refuseCle x
  | .lnd => s.refuseLnd x
  | .gal => s.refuseGal x
  | .cmp => s.refuseCmp x
  | .route => s.refuseRoute x
  | .dfl => s.refuseDfl x
  | .opt q => s.refuseOpt q x

/-- Whether GO has an effect: its block is in service (R344; 16_bring_up_and_image.md R297). -/
def State.commitServed (s : State) : Bool :=
  decide (s.power.state = .service) || (decide (s.power.state = .bringup) && s.stepDone 1)

/-- The check of a snapshot: its outcome, and what the check itself does. -/
def State.checkSet (s : State) (b : Block) (x : StagedSet) : State × Nat × Nat :=
  match (if b = .cle then s.stagedPoison else none) with
  | some cw =>
    let s := s.noteUncorrectable cw 6
    (s.logEvent { code := 0x0402, cls := .contained, reason := 0xFFFF, arg1 := Config.internalCause 1 }, 0xFF, 0)
  | none =>
    let r := lowestRefusal (s.refusals b x)
    (if b = .lnd ∧ r.1 = 0 then s.markMoving (x.rd A.lndPoolBanks) else s, r.1, r.2)

/-- GO in a block that is served. -/
def State.submit (s : State) (b : Block) : State :=
  let c := s.commitOf b
  if c.checking.isSome || c.accepted.isSome then s.showOutcome b 2 (busyReason b) 0
  else
    let x := s.snapshot b
    let (s, reason, item) := s.checkSet b x
    (s.setCommit b { c with checking := some (x, reason, item) }).setF (commitStatus b) 0 2 1

/-- A write of XXX_COMMIT with GO. -/
def State.commitGo (s : State) (b : Block) : State :=
  if s.commitServed then
    (if b = .cle ∨ b = .lnd ∨ b = .cmp then s.wakeEvent else s).submit b
  else if s.accepts A.errCtrl then s.accessError 5 (blockBase b + 0xFF00)
  else s

/-- COMMIT_GO. -/
def execCommitGo (blk : Block) (s : State) : Host.Outcome State Fault Refusal := .next (s.commitGo blk)

/-! ### Taking effect (R343) -/

/-- Whether a register has staged fields. -/
def isStaged (a : Nat) : Bool :=
  match regAt a with
  | some (r, _, _) => decide (r.st ≠ 0)
  | none => false

/-- Every staged field of the block takes its snapshot value. -/
def State.applySet (s : State) (b : Block) (x : StagedSet) : State :=
  { s with regs := x.regs.foldl (fun m e => m.put regReset e.1 e.2) (s.regs.filter (fun e => !(inBlock b e.1 && isStaged e.1))) }

/-- Valid state units after the state region has moved: those that stay in it, by their Gallery offset (06 R119, R126). -/
def State.moveUnits (s : State) (oldBase oldUnits : Nat) : State :=
  let kept := (s.gal.valid.filter (fun e =>
    let a := oldBase + e.1 * 0x10000
    e.2 && decide (e.1 < oldUnits) && decide (s.stateBase ≤ a) && decide (a < s.workBase))).map
      (fun e => ((oldBase + e.1 * 0x10000 - s.stateBase) / 0x10000, e.2))
  { s with gal := { s.gal with valid := kept } }

/-- Moves a group table's bytes and its poisoned codewords to another working region. -/
def State.moveTable (s : State) (old new : Nat) : State :=
  let poison := (s.gal.poison.filter (fun e => decide (old ≤ e.1 * 64) && decide (e.1 * 64 < old + tableBytes))).foldl
    (fun (m : Sparse Bool) e => m.put (fun _ => false) ((e.1 * 64 - old + new) / 64) e.2)
    (s.gal.poison.filter (fun e => !(decide (new ≤ e.1 * 64) && decide (e.1 * 64 < new + tableBytes))))
  { s with gallery := copySparse s.gallery old new tableBytes, gal := { s.gal with poison := poison } }

/-- The regions of an accepted GAL set take effect; a change of the line region then goes on (06 R119). -/
def State.applyGal (s : State) (x : StagedSet) : State :=
  let old := s.reg A.galRegion
  let oldBase := s.stateBase
  let oldUnits := s.stateUnits
  let oldWork := s.workBase
  let used := s.reserveUsed
  let s := (s.applySet .gal x).moveUnits oldBase oldUnits
  let w := s.reg A.galRegion
  let s := if s.workBase = oldWork then s
    else { (s.moveTable oldWork s.workBase).moveTable (oldWork + areaEffective) (s.workBase + areaEffective) with
      cle := { s.cle with kept := s.cle.kept.filter (fun k => k.line) } }
  let s := s.setF A.galRegionStatus 4 4 (regionReserve w - used)
  if regionLine w = regionLine old ∧ regionReseq w = regionReseq old then s
  else { s with gal := { s.gal with lineChange := some (regionLine old) } }.setB A.galRegionStatus 0 true

/-- Ends the circuits that an accepted DFL set makes invalid: their held flits are discarded and free their buffers (13 R252). -/
def State.endCircuits (s : State) (f : Nat) : State :=
  let x := s.fib f
  let gone := x.circHeld.filter (fun h => !s.circValid f h.2.1)
  let x := { x with circHeld := x.circHeld.filter (fun h => s.circValid f h.2.1) }
  s.setFib f { gone.foldl (fun x h => x.free h.1) x with slotEntry := if x.slotEntry.isSome then s.slotNow else none }

/-- What an accepted DFL set changes on fibre `f`. -/
def State.applyFibre (s : State) (f : Nat) : State :=
  let s := s.endCircuits f
  let n := (s.fib f).circHeld.length + 1
  ((List.range 32).foldl (fun s c => s.drainCircuit f c n) s).feedCircuits f

/-- Open instances that must send to a gateway without a peer entry are aborted, LOST (04 R99). -/
def State.abortUnreached (s : State) : State :=
  s.cle.insts.foldl (fun s i =>
    match s.inst i.1 with
    | none => s
    | some x => if x.lineTargets.any (fun y => (s.peerOf (x.nodeOf y)).isNone) then s.abortInst i.1 2 else s) s

/-- An accepted set takes effect in its block. -/
def State.applyBlock (s : State) (b : Block) (x : StagedSet) : State :=
  match b with
  | .cle => (s.applySet .cle x).installGroups x.table
  | .lnd => ((s.applySet .lnd x).placeBanks (x.rd A.lndPoolBanks)).setB A.lndBankStatus 8 false
  | .gal => s
  | .cmp => (s.applySet .cmp x).setB A.cmpStatus 0 false
  | .route => (((s.applySet .route x).setB A.routeStatus 0 false).routesChanged).abortUnreached
  | .dfl => (List.range 32).foldl State.applyFibre (s.applySet .dfl x)
  | .opt q => s.applySet (.opt q) x

/-- Whether an accepted set's boundary needs no waiting, or has come (R343). -/
def State.atBoundary (s : State) (b : Block) (x : StagedSet) : Bool :=
  match b with
  | .cle => true
  | .lnd => s.bankDrained
  | .gal => s.gal.lineChange.isNone
  | .cmp => (List.range 2).all (fun n => !s.cmpChanges x n || decide (s.cmpInflight n = 0))
  | .route => (List.range 2).all (fun n => !s.routeChanges x n || decide (s.routeInflight n = 0))
  | .dfl => (List.range 32).all (fun f => !s.linkUp f)
  | .opt _ => true

/-- DONE becomes equal to ACCEPTED, PENDING clears, and COMMIT_VECTOR is raised if it is in use. -/
def State.commitDone (s : State) (b : Block) : State :=
  let s := s.setB (commitStatus b) 8 false
  let s := s.setF (commitSeq b) 16 16 (s.f (commitSeq b) 0 16)
  if s.b A.topIrqCtrl 31 then s.raiseVector (s.f A.topIrqCtrl 16 9) else s

/-- The accepted set takes effect. -/
def State.effectNow (s : State) (b : Block) (x : StagedSet) : State :=
  ((s.setCommit b { s.commitOf b with accepted := none }).applyBlock b x).commitDone b

/-- Shows that an accepted set waits. -/
def State.showWaiting (s : State) (b : Block) : State :=
  match b with
  | .lnd => s.setB A.lndBankStatus 8 true
  | .cmp => s.setB A.cmpStatus 0 true
  | .route => s.setB A.routeStatus 0 true
  | _ => s

/-- Accepts a set: it waits for its boundary, or takes effect when that has come. -/
def State.accept (s : State) (b : Block) (x : StagedSet) : State :=
  let s := s.setF (commitSeq b) 0 16 (s.f (commitSeq b) 0 16 + 1)
  let s := (s.setCommit b { checking := none, accepted := some x }).setB (commitStatus b) 8 true
  let s := if b = .gal then s.applyGal x else s
  if s.atBoundary b x then s.effectNow b x else s.showWaiting b

/-- The end of the check. -/
def State.checkDone (s : State) (b : Block) : State :=
  match (s.commitOf b).checking with
  | none => s
  | some (x, reason, item) =>
    if reason = 0 then (s.setF (commitStatus b) 0 2 3).accept b x
    else (s.setCommit b { s.commitOf b with checking := none }).showOutcome b 2 reason item

/-- COMMIT_CHECK_DONE. -/
def execCommitCheckDone (blk : Block) (s : State) : Host.Outcome State Fault Refusal := .next (s.checkDone blk)

/-- The boundary of an accepted set: GAL's line unit has finished with the addresses (R119), DFL's links have passed their next
marker, the others' conditions hold. -/
def State.takesEffect (s : State) (b : Block) : State :=
  match (s.commitOf b).accepted with
  | none => s
  | some x =>
    match b with
    | .gal => (({ s with gal := { s.gal with lineChange := none } }).setB A.galRegionStatus 0 false).effectNow b x
    | .dfl => s.effectNow b x
    | _ => if s.atBoundary b x then s.effectNow b x else s

/-- COMMIT_TAKES_EFFECT. -/
def execCommitTakesEffect (blk : Block) (s : State) : Host.Outcome State Fault Refusal := .next (s.takesEffect blk)

end Sys2Proof.Machine
end

