-- ==== Sys2Proof/Machine/Reset.lean ====
section
/-! DEFINITION. Entry to RESET and power-up of the always-on domain: what is kept and what is lost (00_scope.md R7;
03 R63; 06 R126; 09 R192; 17 R326; 18 R332, R344; 19 R346; 20 R377, R378). -/
namespace Sys2Proof.Machine

/-- The error log as RESET leaves it: the latest 64 entries of class DEGRADED or higher, and the sequence (19 R346). -/
def ErrLog.kept (l : ErrLog) : ErrLog :=
  { entries := ((l.entries.filter (fun e => decide (3 ≤ e.cls))).reverse.take 64).reverse, seq := l.seq }

/-- What survives with no supply but the flash, the fuses, the host's memory and the commands that wait: row repairs stay because
bring-up applies them again from the field-repair record. -/
def State.unpowered (s : State) : State :=
  { pending := s.pending, freeCtr := s.freeCtr, outbox := s.outbox, flash := s.flash, hostMem := s.hostMem,
    gal := { rows := s.gal.rows, spares := s.gal.spares },
    boot := { fuses := s.boot.fuses, record := s.boot.record, recordGen := s.boot.recordGen, recordBytes := s.boot.recordBytes },
    power := { state := .ao } }

/-- Entry to RESET: every field takes its reset value but what the always-on domain holds (alarm bits 0-3, the log's kept entries), the alarm sources that are still asserted, and
the Gallery's bytes; every state unit is invalid, keys are gone, lasers are dark and the line is squelched. -/
def State.enterReset (s : State) : State :=
  let t := s.unpowered
  let t := { t with gallery := s.gallery, gal := { t.gal with poison := s.gal.poison }, log := s.log.kept,
                    power := { state := .reset },
                    pins := { gpioIn := s.pins.gpioIn, mainPg := s.pins.mainPg, perst := s.pins.perst } }
  ((t.setF A.secAlarmLatch 0 4 (s.f A.secAlarmLatch 0 4)).setF A.secAlarmStatus 0 4 (s.f A.secAlarmStatus 0 4)).showAlarm

/-- Whether the part is in RESET, or has not left AO. -/
def State.held (s : State) : Bool :=
  match s.power.state with
  | .off => true
  | .ao => true
  | .reset => true
  | .bringup => false
  | .service => false
  | .safe => false

/-- The end of an orderly reset's notice. -/
def State.noticeEnds (s : State) : State :=
  match s.rte.downAt with
  | some t => if t ≤ s.mono then s.enterReset else s
  | none => s

/-- GOING_DOWN_NOTICE_EXPIRE. -/
def execGoingDownNoticeExpire (s : State) : Host.Outcome State Fault Refusal := .next s.noticeEnds

/-- POWER_FAIL: MAIN_PG falls, or a supply leaves its window. -/
def State.powerFail (s : State) : State :=
  let s := { s with pins := { s.pins with mainPg := false } }
  if s.held then s else s.enterReset

def execPowerFail (s : State) : Host.Outcome State Fault Refusal := .next s.powerFail

/-- FUNDAMENTAL_RESET_ASSERT: PCIE_PERST_N goes low. -/
def State.perstLow (s : State) : State :=
  let s := { s with pins := { s.pins with perst := true } }
  if s.held then s else s.enterReset

def execFundamentalResetAssert (s : State) : Host.Outcome State Fault Refusal := .next s.perstLow

/-- ALWAYS_ON_POWER_UP: VDD_AO comes up from OFF, in which everything outside the fuses and the flash was lost; the log's sequence
starts at 0. The main supplies and the fundamental reset are still low. -/
def State.alwaysOnUp (s : State) : State :=
  { s.unpowered with pins := { gpioIn := s.pins.gpioIn, mainPg := false, perst := true } }

def execAlwaysOnPowerUp (s : State) : Host.Outcome State Fault Refusal := .next s.alwaysOnUp

end Sys2Proof.Machine
end

