-- ==== Sys2Proof/Machine/Signatures.lean ====
section
/-! DEFINITION. HSS signatures (16_bring_up_and_image.md R301). The rule names RFC 8554 and NIST SP 800-208 and gives no bytes
of its own: the formats and hashes here are those of RFC 8554 (PRESUMED, log 31). -/
namespace Sys2Proof.Machine

/-- Height of the tree that an LMS typecode names: LMS_SHA256_M32_H10, H15 and H20 only. -/
def lmsHeight (type : Nat) : Option Nat :=
  if type = 6 then some 10 else if type = 7 then some 15 else if type = 8 then some 20 else none

/-- Winternitz width, chains and checksum shift that an LM-OTS typecode names: LMOTS_SHA256_N32_W4 and W8 only. -/
def otsParams (type : Nat) : Option (Nat × Nat × Nat) :=
  if type = 3 then some (4, 67, 4) else if type = 4 then some (8, 34, 0) else none

/-- An LMS public key is 56 bytes: LMS typecode, LM-OTS typecode, key identifier, root. -/
def lmsRoot (pub : List Byte) : List Byte := bytesAt pub 24 32
def lmsId (pub : List Byte) : List Byte := bytesAt pub 8 16

/-- The i-th w-bit digit of a string, from its most significant end (RFC 8554 section 3.1.3). -/
def hashDigit (s : List Byte) (i w : Nat) : Nat := nfld (beAt s (i * w / 8) 1) (8 - w - w * (i % (8 / w))) w

/-- The digits of a message hash and of its checksum (RFC 8554 section 4.4). -/
def otsDigits (q : List Byte) (w p shift : Nat) : List Nat :=
  let sum := ((List.range (256 / w)).map (fun i => 2 ^ w - 1 - hashDigit q i w)).sum
  (List.range p).map (fun i => hashDigit (q ++ beBytes 2 (sum * 2 ^ shift)) i w)

/-- One Winternitz chain from digit j on, n steps. -/
def otsChain (pre : List Byte) : Nat → Nat → List Byte → List Byte
  | 0, _, x => x
  | n + 1, j, x => otsChain pre n (j + 1) (sha256 (pre ++ beBytes 1 j ++ x))

/-- The LM-OTS public key that a signature and a message give (RFC 8554 algorithm 4b). -/
def otsCandidate (id : List Byte) (leaf w p shift : Nat) (msg sig : List Byte) : List Byte :=
  let head := id ++ beBytes 4 leaf
  let q := sha256 (head ++ beBytes 2 0x8181 ++ bytesAt sig 4 32 ++ msg)
  let z := (otsDigits q w p shift).zipIdx.flatMap (fun (a, i) =>
    otsChain (head ++ beBytes 2 i) (2 ^ w - 1 - a) a (bytesAt sig (36 + 32 * i) 32))
  sha256 (head ++ beBytes 2 0x8080 ++ z)

/-- Climbs from a leaf to the root (RFC 8554 algorithm 6a). -/
def lmsClimb (id path : List Byte) : Nat → Nat → Nat → List Byte → List Byte
  | 0, _, _, x => x
  | n + 1, node, i, x =>
    let other := bytesAt path (32 * i) 32
    let head := id ++ beBytes 4 (node / 2) ++ beBytes 2 0x8383
    lmsClimb id path n (node / 2) (i + 1) (sha256 (head ++ (if node % 2 = 1 then other ++ x else x ++ other)))

/-- Bytes of an LMS signature with these typecodes. -/
def lmsSigLen (p h : Nat) : Nat := 4 + (36 + 32 * p) + 4 + 32 * h

/-- Whether an LMS signature of a message verifies under an LMS public key. -/
def lmsVerify (pub msg sig : List Byte) : Bool :=
  match lmsHeight (beAt pub 0 4), otsParams (beAt pub 4 4) with
  | some h, some (w, p, shift) =>
    let leaf := beAt sig 0 4
    decide (pub.length = 56) && decide (sig.length = lmsSigLen p h) && decide (beAt sig 4 4 = beAt pub 4 4) &&
    decide (beAt sig (40 + 32 * p) 4 = beAt pub 0 4) && decide (leaf < 2 ^ h) &&
    (let k := otsCandidate (lmsId pub) leaf w p shift msg (bytesAt sig 4 (36 + 32 * p))
     decide (lmsClimb (lmsId pub) (sig.drop (44 + 32 * p)) h (2 ^ h + leaf) 0
       (sha256 (lmsId pub ++ beBytes 4 (2 ^ h + leaf) ++ beBytes 2 0x8282 ++ k)) = lmsRoot pub))
  | _, _ => false

/-- Bytes of the LMS signature made with an LMS public key's parameter sets. -/
def lmsSigLenOf (pub : List Byte) : Nat :=
  match lmsHeight (beAt pub 0 4), otsParams (beAt pub 4 4) with
  | some h, some (_, p, _) => lmsSigLen p h
  | _, _ => 0

/-- Whether an HSS signature of a message verifies under an HSS public key of one or two levels (RFC 8554 section 6.3). -/
def hssVerify (pub msg sig : List Byte) : Bool :=
  let top := pub.drop 4
  if beAt pub 0 4 = 1 then decide (beAt sig 0 4 = 0) && lmsVerify top msg (sig.drop 4)
  else if beAt pub 0 4 = 2 then
    let n := lmsSigLenOf top
    let next := bytesAt sig (4 + n) 56
    decide (beAt sig 0 4 = 1) && lmsVerify top next (bytesAt sig 4 n) && lmsVerify next msg (sig.drop (60 + n))
  else false

end Sys2Proof.Machine
end

