-- ==== Sys2Proof/Machine/Image.lean ====
section
/-! DEFINITION. The configuration image and its records, signatures, licences, and the choice of an image
(16_bring_up_and_image.md R301-R307). -/
namespace Sys2Proof.Machine

/-! ### Image and directory -/

/-- Bytes of boot memory and of an image at most. -/
abbrev imageMax : Nat := 0x800000

/-- A directory entry: 48 bytes. -/
def recType (e : List Byte) : Nat := leAt e 0 2
def recCritical (e : List Byte) : Bool := nfld (leAt e 2 1) 0 1 = 1
def recOffset (e : List Byte) : Nat := leAt e 4 4
def recLength (e : List Byte) : Nat := leAt e 8 4
def recParam (e : List Byte) : Nat := leAt e 12 4
def recDigest (e : List Byte) : List Byte := bytesAt e 16 32

def imgSeq (h : List Byte) : Nat := leAt h 8 8
def imgSvn (h : List Byte) : Nat := leAt h 16 1
def imgSlot (h : List Byte) : Nat := leAt h 17 1
def imgCount (h : List Byte) : Nat := leAt h 18 2
def imgSigOffset (h : List Byte) : Nat := leAt h 20 4
def imgSigLen (h : List Byte) : Nat := leAt h 24 4
def imgLength (h : List Byte) : Nat := leAt h 28 4
def imgKey (h : List Byte) : List Byte := bytesAt h 48 60

/-- PRODUCT: ASCII "IBR-1640", padded with zeros. -/
def productBytes : List Byte := [0x49, 0x42, 0x52, 0x2D, 0x31, 0x36, 0x34, 0x30] ++ List.replicate 8 0

/-- Whether an image header is well formed (the header table). -/
def headerOk (h : List Byte) : Bool :=
  decide (leAt h 0 4 = 0x52435A41) && decide (leAt h 4 2 = 1) && decide (leAt h 6 2 = 0x100) && decide (imgSvn h ≤ 64) &&
  decide (imgSlot h ≤ 3) && decide (1 ≤ imgCount h) && decide (imgCount h ≤ 1024) && decide (imgSigOffset h = 256 + 48 * imgCount h) &&
  decide (1 ≤ imgSigLen h) && decide (imgSigLen h ≤ 8192) && decide (imgLength h ≤ imageMax) &&
  decide (imgSigOffset h + imgSigLen h ≤ imgLength h) && decide (bytesAt h 32 16 = productBytes) &&
  (bytesAt h 108 148).all (fun b => decide (b = 0))

/-- The directory of an image. -/
def directory (img : List Byte) : List (List Byte) := (List.range (imgCount img)).map (fun i => bytesAt img (256 + 48 * i) 48)

/-- The bytes of a record. -/
def recData (img e : List Byte) : List Byte := (img.drop (recOffset e)).take (recLength e)

/-- Whether a directory entry is well formed. -/
def entryOk (img e : List Byte) : Bool :=
  decide (leAt e 2 1 < 2) && decide (leAt e 3 1 = 0) && decide (recOffset e % 64 = 0) &&
  decide (imgSigOffset img + imgSigLen img ≤ recOffset e) && decide (recOffset e + recLength e ≤ imgLength img) &&
  (decide (recType e ≠ 1) || decide (recLength e ≤ 0x400000))

/-- Records of a type, in image order. -/
def recordsOf (img : List Byte) (t : Nat) : List (List Byte) := (directory img).filter (fun e => decide (recType e = t))

/-- FW_BUNDLE records of a class. -/
def bundlesOf (img : List Byte) (cls : Nat) : List (List Byte) :=
  (recordsOf img 1).filter (fun e => decide (nfld (recParam e) 0 8 = cls))

/-- Whether the records have the digests and the multiplicity that R302 asks for; an update holds only firmware, each class at
most once (R310). -/
def recordsOk (img : List Byte) (update : Bool) : Bool :=
  let d := directory img
  d.all (fun e => entryOk img e && decide (sha256 (recData img e) = recDigest e)) &&
  d.all (fun e => decide (1 ≤ recType e) && decide (recType e ≤ 5) || !recCritical e) &&
  (if update then
    d.all (fun e => decide (recType e = 1) || decide (recType e = 5)) && decide ((recordsOf img 5).length ≤ 1) &&
    (List.range 5).all (fun c => decide ((bundlesOf img (c + 1)).length ≤ 1)) &&
    (recordsOf img 1).all (fun e => decide (1 ≤ nfld (recParam e) 0 8) && decide (nfld (recParam e) 0 8 ≤ 5))
   else
    decide ((recordsOf img 5).length = 1) && (List.range 5).all (fun c => decide ((bundlesOf img (c + 1)).length = 1)))

/-! ### Signatures (R301) -/

/-- Whether a signature is accepted under a root key slot. -/
def State.sigAccepted (s : State) (slot : Nat) (pub msg sig : List Byte) : Bool :=
  decide (sha256 pub = s.boot.fuses.rootHash.getD slot []) && !s.boot.fuses.revoked.getD slot true &&
    hssVerify pub msg sig

/-- Whether an image's header is well formed and its signature accepted. -/
def State.signedOk (s : State) (img : List Byte) : Bool :=
  headerOk img &&
    s.sigAccepted (imgSlot img) (imgKey img) (img.take (imgSigOffset img)) (bytesAt img (imgSigOffset img) (imgSigLen img))

/-- Whether an image is valid (R302). -/
def State.imageOk (s : State) (img : List Byte) (update : Bool) : Bool :=
  s.signedOk img && decide (s.boot.fuses.svn ≤ imgSvn img) && recordsOk img update

/-! ### The choice of a copy (R302) -/

/-- Header, directory and signature of a flash copy, when its header is well formed. -/
def State.copyFront (s : State) (c : Nat) : List Byte :=
  let h := s.flashRead (c * 0x1000000) 256
  if headerOk h then s.flashRead (c * 0x1000000) (imgSigOffset h + imgSigLen h) else h

/-- The whole of a flash copy. -/
def State.copyWhole (s : State) (c : Nat) : List Byte := s.flashRead (c * 0x1000000) (imgLength (s.flashRead (c * 0x1000000) 256))

/-- The copies whose signature is accepted, in the order in which they are read. -/
def State.copyOrder (s : State) : List Nat :=
  let signed := [0, 1].filter (fun c => s.signedOk (s.copyFront c))
  if imgSeq (s.copyFront 0) < imgSeq (s.copyFront 1) then signed.reverse else signed

/-- The copy that is chosen, with its bytes. -/
def State.chooseImage (s : State) : Option (Nat × List Byte) :=
  (s.copyOrder.find? (fun c => s.imageOk (s.copyWhole c) false)).map (fun c => (c, s.copyWhole c))

/-! ### Licences (R306, R307) -/

/-- The length of the signature that a licence announces. -/
def licSigLen (l : List Byte) : Nat := leAt l 40 4

/-- Whether a licence, 128 bytes with its signature, is valid. -/
def State.licenceOk (s : State) (l : List Byte) : Bool :=
  decide (leAt l 0 4 = 0x4E434C41) && decide (leAt l 4 2 = 1) && decide (leAt l 6 2 = 0) && decide (leAt l 8 16 = s.boot.fuses.chipId) &&
  decide (leAt l 32 4 < 32) && decide (leAt l 36 1 ≤ 3) && decide (leAt l 37 3 = 0) && decide (1 ≤ licSigLen l) &&
  decide (licSigLen l ≤ 8192) && decide (leAt l 104 24 = 0) &&
  s.sigAccepted (leAt l 36 1) (bytesAt l 44 60) (l.take 128) (bytesAt l 128 (licSigLen l))

/-- Installs a valid licence: its features are added. -/
def State.addLicence (s : State) (l : List Byte) : State :=
  let x : Licence := { serial := leAt l 24 8, features := leAt l 32 4, bytes := l.take 128 }
  let s := { s with boot := { s.boot with licences := s.boot.licences ++ [x] } }
  s.setReg A.bootFeatures (BitVec.ofNat 32 (Nat.lor (s.reg A.bootFeatures).toNat x.features))

/-- Ignores an invalid licence: counted and logged. -/
def State.rejectLicence (s : State) (l : List Byte) : State :=
  (s.bump (A.bootCnt 6)).logEvent { code := 0x0A02, cls := .info, reason := leAt l 24 8 }

/-- Takes the licences of an image. -/
def State.takeLicences (s : State) (img : List Byte) : State :=
  (recordsOf img 4).foldl (fun s e =>
    let l := recData img e
    if s.licenceOk l then s.addLicence l else s.rejectLicence l) s

/-- The licence in BOOT_LIC_WIN. -/
def State.licWindow (s : State) : List Byte := (List.range 2080).flatMap (fun i => leBytes 4 (s.reg (A.bootLicWin i)).toNat)

/-- LICENCE_INSTALL: a write of BOOT_LIC_CTRL. -/
def State.installLicence (s : State) (value : Word) : State :=
  let s := s.writeFields A.bootLicCtrl value
  if !bit value 0 then s
  else
    let l := s.licWindow
    let status : State → Nat → State := fun s v => s.setF A.bootLicCtrl 8 4 v
    if !s.licenceOk l then status (s.rejectLicence l) 1
    else if s.boot.licences.any (fun x => decide (x.serial = leAt l 24 8)) then status s 2
    else status (s.addLicence l) 0

def execLicenceInstall (value : Word) (s : State) : Host.Outcome State Fault Refusal := .next (s.onAccess A.bootLicCtrl (fun s => s.installLicence value))

end Sys2Proof.Machine
end

