-- ==== Sys2Proof/Machine/Boot.lean ====
section
/-! DEFINITION. Leaving RESET, the flash image, recovery, firmware of the controllers, the tests of start and the
qualification of links (16_bring_up_and_image.md R296-R303, R308-R316; 17 R317-R319, R322, R328; 20 R377). -/
namespace Sys2Proof.Machine

/-! ### Controllers (R308, R309). Classes: 1 CC, 2 PEG, 3 QUAD_SEQ, 4 SERDES_SEQ, 5 MEM_SEQ -/

/-- Controllers of a class. -/
def ctrlCount (cls : Nat) : Nat := [0, 8, 1088, 8, 64, 24].getD cls 0

/-- Control cores that are not retired. -/
def State.activeCores (s : State) : List Nat := (List.range 8).filter (fun c => !s.ccRetired c)

/-- A retired control core: its queues pass on, and the criterion CC is tested; with none left bring-up fails. -/
def State.dropCore (s : State) (n : Nat) : State :=
  let s := { s with que := { s.que with retired := Nat.lor s.que.retired (2 ^ n),
                                        restarting := s.que.restarting - nfld s.que.restarting n 1 * 2 ^ n } }
  let s := if s.activeCores.length < 4 then s.replaceCriterion 3 else s
  let s := if s.activeCores.isEmpty = true ∧ s.power.state = .bringup then s.setF A.bootStatus 12 4 4 else s
  (List.range 64).foldl State.notice s

/-- A retired quad sequencer: every Concourse ring of the quad is failed; a switch in progress ends. -/
def State.dropQuadSeq (s : State) (q : Nat) : State :=
  let s := (List.range 8).foldl (fun s w => s.setReg (A.concRingFail q w) 0xFFFFFFFF#32) s
  let x := s.quad q
  let s := s.setQuad q { x with concOn := [], backlog := x.backlog.filter (fun r => decide (r.cls ≠ .concourse)) }
  match x.concSwitch with
  | none => s
  | some sw => s.concRingEnd q ((sw.waiting.head?.map (·.1)).getD 0) { sw with waiting := sw.waiting.take 1 }

/-- Takes the unit of a retired controller out of service (R309). A retired Peg's ring is failed when `pegs` says so, else when its
fibre's rings are swept; retired memory sequencers show at the next training. -/
def State.dropUnit (s : State) (cls n : Nat) (pegs : Bool) : State :=
  match cls with
  | 1 => s.dropCore n
  | 2 => if pegs then s.failRing (n / 136) (n % 136) 0 else s
  | 3 => s.dropQuadSeq n
  | 4 => if s.portEnabled (n / 4) then s.leavePortOut (n / 4) else s
  | _ => s

/-- CONTROLLER_RETIRE: recorded, counted and logged. -/
def State.retireCtrl (s : State) (cls n rounds : Nat) : State :=
  if s.ctrlRetired cls n then s
  else
    let s := { s with boot := { s.boot with retired := s.boot.retired ++ [cls * 65536 + n] } }
    let s := (s.recordUnit 0x0A (cls * 65536 + n) (leBytes 4 rounds)).bump (A.bootCnt 2)
    let s := s.logEvent { code := 0x0A01, cls := .degraded, reason := cls, arg0 := n, kind := 0x0A, index := cls * 65536 + n }
    s.dropUnit cls n true

/-! ### Firmware broadcast (R308) -/

def segCount (fw : List Byte) : Nat := cdiv fw.length 4096

/-- A firmware segment, 4,128 bytes. -/
def segmentBytes (cls bank pass version seg : Nat) (fw : List Byte) : List Byte :=
  let b := leBytes 1 cls ++ leBytes 1 bank ++ leBytes 1 pass ++ [0] ++ leBytes 2 version ++ leBytes 2 seg ++ leBytes 2 (segCount fw) ++
    [0, 0] ++ leBytes 4 (crc32c fw) ++ bytesAt (fw.drop (seg * 4096)) 0 4096 ++ List.replicate 12 0
  b ++ leBytes 4 (crc32c b)

/-- The image that firmware comes from: the update's, else the running one; and its bundle of a class. -/
def State.fwImage (s : State) : List Byte := s.boot.update.getD s.boot.image
def State.bundle (s : State) (cls : Nat) : Option (List Byte) := (bundlesOf s.fwImage cls).head?

/-- The bank of a class that is written: in bring-up bank 0, in an update the one not in use (R310). -/
def State.fwBank (s : State) (cls : Nat) : Nat := if s.boot.update.isSome then 1 - nfld s.boot.banks cls 1 else 0

/-- Sends a segment to every controller of a class, or to one. -/
def State.sendSegment (s : State) (cls pass seg : Nat) (target : Option Nat) : State :=
  match s.bundle cls with
  | none => s
  | some e => s.emit (.segment target (segmentBytes cls (s.fwBank cls) pass (nfld (recParam e) 16 16) seg (recData s.fwImage e)))

/-- FIRMWARE_BROADCAST: three passes over a class's bundle. -/
def State.broadcast (s : State) (cls : Nat) : State :=
  match s.bundle cls with
  | none => s
  | some e =>
    [1, 2, 3].foldl (fun s pass =>
      (List.range (segCount (recData s.fwImage e))).foldl (fun s seg => s.sendSegment cls pass seg none) s) s

/-- Starts the loading of every class that the image holds; the others count as complete. -/
def State.loadClasses (s : State) : State :=
  let absent := (List.range 6).foldl (fun a c => if c ≠ 0 ∧ (s.bundle c).isSome = true then a else a + 2 ^ c) 0
  let s := { s with boot := { s.boot with fwRounds := [], fwComplete := absent } }
  [1, 2, 3, 4, 5].foldl State.broadcast s

/-- Whether a class is being loaded: in step 1, or in an update. -/
def State.fwLoading (s : State) (cls : Nat) : Bool :=
  decide (cls ≠ 0) && decide (nfld s.boot.fwComplete cls 1 = 0) &&
    (s.boot.update.isSome || (decide (s.power.state = .bringup) && decide (s.bootFail = 0) && decide (s.bootStep = 1) && !s.stepDone 1))

/-- The bytes of a class's bundle. -/
def State.bundleBytes (s : State) (cls : Nat) : List Byte :=
  match s.bundle cls with
  | some e => recData s.fwImage e
  | none => []

/-- A class is complete: in bring-up it runs; in an update its safe point is awaited. -/
def State.classLoaded (s : State) (cls : Nat) : State :=
  let s := { s with boot := { s.boot with fwComplete := s.boot.fwComplete + 2 ^ cls } }
  if s.boot.update.isSome then
    if cls = 1 then { s with boot := { s.boot with updateAt := s.mono } } else s
  else
    let fw := s.bundleBytes cls
    let s := { s with boot := { s.boot with firmware := s.boot.firmware.put (fun _ => []) cls fw } }
    let s := if cls = 1 then
        { s with boot := { s.boot with ccFirmware := (List.range 8).foldl (fun m c => m.put (fun _ => []) c fw) s.boot.ccFirmware } }
      else s
    if s.boot.fwComplete = 63 ∧ s.bootFail = 0 then (s.endStep 1).progress else s

/-- FIRMWARE_POLL_ROUND: the controllers that answer as incomplete, with the segments they lack. -/
def State.pollRound (s : State) (cls : Nat) (missing : List (Nat × List Nat)) : State :=
  if !s.fwLoading cls then s
  else
    let lacks := missing.filter (fun m => decide (m.1 < ctrlCount cls) && !s.ctrlRetired cls m.1)
    let rounds := s.boot.fwRounds.get (fun _ => 0) cls
    if lacks.isEmpty then s.classLoaded cls
    else if 5 ≤ rounds then (lacks.foldl (fun s m => s.retireCtrl cls m.1 5) s).classLoaded cls
    else
      let s := if rounds = 0 then s.bumpBy (A.bootCnt 0) (lacks.map (fun m => m.2.length)).sum else s
      let s := lacks.foldl (fun s m => m.2.foldl (fun s g => (s.sendSegment cls 0 g (some m.1)).bump (A.bootCnt 1)) s) s
      { s with boot := { s.boot with fwRounds := s.boot.fwRounds.put (fun _ => 0) cls (rounds + 1) } }

def execFirmwarePollRound (cls : Fin 6) (missing : List (Nat × List Nat)) (s : State) : Host.Outcome State Fault Refusal :=
  .next (s.pollRound cls missing)

/-! ### Step 0 (R296, R302, R311, R317-R319, R322, R328) -/

/-- What every exit from RESET does: a new NONCE and a new INCARNATION; the attestation state is shown. -/
def State.drawNonce (s : State) : State :=
  let (a, s) := s.draw
  let (b, s) := s.draw
  (s.setReg A.topDbgNonceLo (BitVec.ofNat 32 (Config.entropy a))).setReg A.topDbgNonceHi (BitVec.ofNat 32 (Config.entropy b))

def State.exitReset (s : State) : State :=
  if s.rte.incarnation ≠ 0 then s
  else
    let s := s.drawNonce
    let (n, s) := s.draw
    let s := { s with rte := { s.rte with incarnation := 1 + Config.entropy n % 0xFFFF } }
    s.setF A.topAttStatus 0 13 s.boot.fuses.attBlocks

/-- Blows the second bit of a transition that lost power halfway (R318). -/
def State.finishFuses (s : State) : State :=
  let l := s.boot.fuses.lifecycle
  let both := (List.range 4).foldl (fun l i =>
    if l.getD (2 * i) false || l.getD (2 * i + 1) false then setAt (setAt l (2 * i) true) (2 * i + 1) true else l) l
  { s with boot := { s.boot with fuses := { s.boot.fuses with lifecycle := both } } }

/-- Generates the attestation key on the first start in PROVISION (R328). -/
def State.attKeyIfDue (s : State) : State :=
  if s.lcState = 1 ∧ s.boot.fuses.attKey = false then
    let (n, s) := s.draw
    { s with boot := { s.boot with fuses := { s.boot.fuses with attKey := true, attSeed := Config.entropy n } } }
  else s

/-- Takes known retired controllers and Concourse rings out of use. -/
def State.applyKnown (s : State) : State :=
  let known := s.boot.fuses.badUnits ++ s.boot.record.map (fun e => (e.kind, e.index))
  known.foldl (fun s u =>
    if u.1 = 0x0A ∧ s.ctrlRetired (u.2 / 65536) (u.2 % 65536) = false then
      ({ s with boot := { s.boot with retired := s.boot.retired ++ [u.2] } }).dropUnit (u.2 / 65536) (u.2 % 65536) false
    else if u.1 = 9 ∧ u.2 < 2048 then s.setB (A.concRingFail (u.2 / 256) (u.2 % 256 / 32)) (u.2 % 32) true
    else s) s

/-- Runs from a valid image: its sequence is shown, the MC's firmware runs, its licences are taken, and step 0 ends. -/
def State.runImage (s : State) (img : List Byte) : State :=
  let s := { s with boot := { s.boot with image := img } }
  let s := s.setReg64 A.bootSeqLo A.bootSeqHi (imgSeq img)
  let mc := match (recordsOf img 5).head? with
    | some e => recData img e
    | none => []
  let s := { s with boot := { s.boot with firmware := s.boot.firmware.put (fun _ => []) 0 mc } }
  ((s.takeLicences img).applyKnown).endStep 0

/-- Selects the image of the flash, or enters recovery (R300, R302). -/
def State.bootFlash (s : State) : State :=
  let s := s.attKeyIfDue
  match s.chooseImage with
  | none => (s.setF A.bootStatus 12 4 1).setB A.bootStatus 11 true
  | some (c, img) => ({ s with bootMem := Sparse.putList zeroByte [] 0 img }.setF A.bootStatus 10 1 c).runImage img

/-- Step 0 up to the image: fuses are read, and in RETURN the erasure runs until it has completed. -/
def State.bootRom (s : State) : State :=
  if s.power.state ≠ .bringup ∨ s.stepDone 0 = true ∨ s.bootFail ≠ 0 ∨ s.life.erasing = true then s
  else
    let s := s.exitReset.showPower.showAlarm
    if s.boot.fuses.parityBad then s.setF A.bootStatus 12 4 2
    else
      let s := s.finishFuses.checkAlarms
      if s.lcState = 3 ∧ s.boot.fuses.returnClean = false then { s with life := { s.life with erasing := true } }
      else s.bootFlash

/-- RESET_RELEASE: MAIN_PG and PCIE_PERST_N are high, and bring-up begins. -/
def State.releaseReset (s : State) : State :=
  let s := { s with pins := { s.pins with mainPg := true, perst := false } }
  if s.power.state = .reset ∨ s.power.state = .ao then ({ s with power := { s.power with state := .bringup } }).bootRom else s

def execResetRelease (s : State) : Host.Outcome State Fault Refusal := .next s.releaseReset

/-! ### Recovery (R303) -/

/-- Sets BOOT_REC_CTRL.STATUS: 0 DONE, 1 INVALID, 2 BUSY, 3 FLASH_ERROR. -/
def State.recStatus (s : State) (v : Nat) : State := s.setF A.bootRecCtrl 12 4 v

/-- The image in boot memory, as long as its header says. -/
def State.bootImage (s : State) : List Byte := s.bootRead 0 (min imageMax (max 256 (imgLength (s.bootRead 0 256))))

/-- Checks the image in boot memory; in recovery bring-up goes on from it. -/
def State.checkRecovery (s : State) : State :=
  let img := s.bootImage
  if !s.imageOk img false then s.recStatus 1
  else if s.bootFail = 1 ∧ s.stepDone 0 = false then (s.recStatus 0).setF A.bootStatus 12 4 0 |>.runImage img
  else s.recStatus 0

/-- Writes boot memory to a flash copy, once ready. -/
def State.writeCopy (s : State) (ok : Bool) : State :=
  if s.f A.bootStatus 8 2 ≠ 2 then s.recStatus 2
  else if !ok then s.recStatus 3
  else (s.flashWrite (s.f A.bootRecCtrl 9 1 * 0x1000000) (s.bootRead 0 imageMax)).recStatus 0

/-- A write of BOOT_REC_CTRL. -/
def State.writeRecCtrl (s : State) (value : Word) (flashOk : Bool) : State :=
  let s := s.writeFields A.bootRecCtrl value
  if !bit value 31 then s
  else if bit value 8 then s.writeCopy flashOk
  else s.checkRecovery

/-- RECOVERY_GO. Where FLASH = 1, whether the flash takes the bytes is not said by the command: a free value. -/
def execRecoveryGo (value : Word) (s : State) : Host.Outcome State Fault Refusal :=
  .next (s.onAccess A.bootRecCtrl (fun s => s.draw.2.writeRecCtrl value (decide (Config.outside s.draw.1 % 2 = 0))))

def execRecoveryFlashWrite (value : Word) (flashOk : Bool) (s : State) : Host.Outcome State Fault Refusal :=
  .next (s.onAccess A.bootRecCtrl (fun s => s.writeRecCtrl value flashOk))

/-! ### Firmware update in service (R310) -/

/-- Sets BOOT_UPD_CTRL.STATUS: 0 DONE, 1 INVALID, 2 NOT_NEWER, 3 RUNNING, 4 PARTIAL. -/
def State.updStatus (s : State) (v : Nat) : State := s.setF A.bootUpdCtrl 8 4 v

/-- Checks the update image and starts its broadcast. -/
def State.startUpdate (s : State) : State :=
  let a := s.reg64 A.bootUpdAddrLo A.bootUpdAddrHi
  let n := (s.reg A.bootUpdLen).toNat
  if !s.inService || imageMax < n || !s.inWorking a n then s.updStatus 1
  else
    match s.firstPoison a n with
    | some cw => (s.noteUncorrectable cw 5).updStatus 1
    | none =>
      let img := s.galRead a n
      if n < 256 || n < imgLength img || !s.imageOk img true then s.updStatus 1
      else if imgSeq img ≤ imgSeq s.boot.image then s.updStatus 2
      else
        let s := { s with boot := { s.boot with update := some img, switched := 0, ccSwitched := 0 } }
        ((s.setF A.bootUpdCtrl 16 8 0).updStatus 3).loadClasses

/-- FIRMWARE_UPDATE_GO: a write of BOOT_UPD_CTRL; a GO while an update runs has no effect. -/
def State.updateGo (s : State) (value : Word) : State :=
  let s := s.writeFields A.bootUpdCtrl value
  if bit value 0 && s.boot.update.isNone then s.startUpdate else s

def execFirmwareUpdateGo (value : Word) (s : State) : Host.Outcome State Fault Refusal := .next (s.onAccess A.bootUpdCtrl (fun s => s.updateGo value))

/-- Whether a class has been loaded and has not changed bank. -/
def State.awaitsSwitch (s : State) (cls : Nat) : Bool :=
  s.boot.update.isSome && decide (nfld s.boot.switched cls 1 = 0) &&
    (if cls = 0 then !(recordsOf s.fwImage 5).isEmpty && [1, 2, 3, 4, 5].all (fun c => (s.bundle c).isNone || decide (nfld s.boot.switched c 1 = 1))
     else (s.bundle cls).isSome && decide (nfld s.boot.fwComplete cls 1 = 1))

/-- The update ends once every class that it holds has changed, the MC last. -/
def State.updateEnds (s : State) : State :=
  if s.boot.update.isSome && [1, 2, 3, 4, 5].all (fun c => (s.bundle c).isNone || decide (nfld s.boot.switched c 1 = 1)) &&
      ((recordsOf s.fwImage 5).isEmpty || decide (nfld s.boot.switched 0 1 = 1)) then
    let s := { s with boot := { s.boot with update := none } }
    s.updStatus (if s.f A.bootUpdCtrl 16 8 = 0 then 0 else 4)
  else s

/-- A class changes bank: its firmware in use is the update's. -/
def State.switchClass (s : State) (cls : Nat) : State :=
  let fw := if cls = 0 then (match (recordsOf s.fwImage 5).head? with
      | some e => recData s.fwImage e
      | none => []) else s.bundleBytes cls
  let b := s.boot
  let bank := nfld b.banks cls 1
  ({ s with boot := { b with switched := b.switched + 2 ^ cls, banks := if bank = 0 then b.banks + 2 ^ cls else b.banks - 2 ^ cls,
                             firmware := b.firmware.put (fun _ => []) cls fw } }).updateEnds

/-- Control cores that have not changed bank. -/
def State.oldCores (s : State) : List Nat := s.activeCores.filter (fun c => decide (nfld s.boot.ccSwitched c 1 = 0))

/-- Whether none of a control core's queues has a started entry. -/
def State.coreQuiet (s : State) (n : Nat) : Bool :=
  (List.range 64).all (fun q => decide (s.watcher q ≠ some n) || (s.queue q).started.isEmpty)

/-- A control core changes bank at its safe point. -/
def State.switchCore (s : State) (n : Nat) : State :=
  if s.oldCores.contains n && s.coreQuiet n then
    let b := s.boot
    let cc := if nfld b.ccBanks n 1 = 0 then b.ccBanks + 2 ^ n else b.ccBanks - 2 ^ n
    let s := { s with boot := { b with ccSwitched := b.ccSwitched + 2 ^ n, ccBanks := cc,
                                       ccFirmware := b.ccFirmware.put (fun _ => []) n (s.bundleBytes 1) } }
    if s.oldCores.isEmpty then s.switchClass 1 else s
  else s

/-- CONTROLLER_BANK_SWITCH: the Pegs and sequencers of a class change together between two update cycles. -/
def State.bankSwitch (s : State) (cls n : Nat) : State :=
  if !s.awaitsSwitch cls then s
  else if cls = 1 then s.switchCore n
  else s.switchClass cls

def execControllerBankSwitch (cls : Fin 6) (n : Nat) (s : State) : Host.Outcome State Fault Refusal := .next (s.bankSwitch cls n)

/-- CC_BANK_SWITCH_TIMEOUT: 10 s after the class was loaded, the cores that found no idle moment stay on their old bank. -/
def State.bankTimeout (s : State) : State :=
  if s.awaitsSwitch 1 && s.elapsed s.boot.updateAt 10000000000 then
    (s.setF A.bootUpdCtrl 16 8 ((s.oldCores.map (fun c => 2 ^ c)).sum)).switchClass 1
  else s

def execCcBankSwitchTimeout (s : State) : Host.Outcome State Fault Refusal := .next s.bankTimeout

/-- SVN_BURN: a write of BOOT_CTRL. -/
def State.svnBurn (s : State) (value : Word) : State :=
  let s := s.writeFields A.bootCtrl value
  let v := imgSvn s.boot.image
  if bit value 16 ∧ s.boot.fuses.svn < v then { s with boot := { s.boot with fuses := { s.boot.fuses with svn := v } } } else s

def execSvnBurn (value : Word) (s : State) : Host.Outcome State Fault Refusal := .next (s.onAccess A.bootCtrl (fun s => s.svnBurn value))

/-! ### Step 2: Gallery and Landing (R313) -/

/-- Whether step `n` is running. -/
def State.inStep (s : State) (n : Nat) : Bool :=
  decide (s.power.state = .bringup) && decide (s.bootFail = 0) && decide (n ≤ s.bootStep) && !s.stepDone n

/-- Ends step 2 when both of its parts have ended. -/
def State.endStep2 (s : State) : State :=
  if s.boot.galleryDone && s.boot.landingDone && decide (s.bootFail = 0) then (s.endStep 2).progress else s

/-- A channel that training does not take into use: the reserve takes its granules, or it is degraded (R123, R124). -/
def State.retireUntrained (s : State) (c : Nat) : State :=
  if s.chanRetired c || s.gal.degraded.contains c then s
  else if s.reserveFree = 0 then s.retireChannel c
  else
    let s := (s.setF A.galRegionStatus 4 4 (s.reserveFree - 1)).setB (A.galChanRetired (c / 32)) (c % 32) true
    s.setF A.galRegionStatus 8 8 (s.f A.galRegionStatus 8 8 + 1)

/-- A channel that fails the training of this start. -/
def State.failTraining (s : State) (c : Nat) : State :=
  let t := s.retireUntrained c
  let t := if t.chanRetired c && !s.chanRetired c then
      (t.bump (A.galCnt 3)).logEvent { code := 0x0302, cls := .spared, reason := 2, arg0 := t.reserveFree, kind := 6, index := c }
    else t
  t.newBad 6 c 1

/-- Channels of the stacks whose four sequencers are all retired (R309). -/
def State.unservedChannels (s : State) : List Nat :=
  (List.range 192).filter (fun c => (List.range 4).all (fun i => s.ctrlRetired 5 (c / 32 * 4 + i)))

/-- GALLERY_TRAINING_DONE: channels known as bad, then those that fail. -/
def State.trained (s : State) (failed : List Nat) : State :=
  if !s.inStep 2 || s.boot.galleryDone then s
  else
    let s := ((List.range 192).filter (s.unitBad 6)).foldl State.retireUntrained s
    let lost := (s.unservedChannels ++ failed.filter (fun c => decide (c < 192))).filter (fun c => !s.unitBad 6 c)
    let s := lost.eraseDups.foldl State.failTraining s
    ({ s with boot := { s.boot with galleryDone := true } }).endStep2

def execGalleryTrainingDone (failed : List Nat) (s : State) : Host.Outcome State Fault Refusal := .next (s.trained failed)

/-- LANDING_TEST_DONE: the banks that pass take their pools; the shortfall is taken from P1 (R106). -/
def State.landingTested (s : State) (failed : List Nat) : State :=
  if !s.inStep 2 || s.boot.landingDone then s
  else
    let known := (List.range 192).filter (s.unitBad 4)
    let bad := (failed.filter (fun n => decide (n < 192) && !s.unitBad 4 n)).eraseDups
    let s := bad.foldl (fun s n => s.newBad 4 n 1) s
    let lost := known ++ bad
    let banks := (List.range 192).map (fun n => if lost.contains n then ({} : Bank) else { pool := some 0 })
    let s := { s with lnd := { s.lnd with banks := banks } }
    let s := lost.foldl (fun s _ => s.lowerPool 1) s
    let s := (s.placeBanks (s.reg A.lndPoolBanks)).setGood
    let s : State := if lost.isEmpty then s else s.refitPool 1 (lost.getD 0 0)
    let t : State := if s.goodBanks.length < 160 then s.setF A.bootStatus 12 4 3 else s
    ({ t with boot := { t.boot with landingDone := true } }).endStep2

def execLandingTestDone (failed : List Nat) (s : State) : Host.Outcome State Fault Refusal := .next (s.landingTested failed)

/-! ### Qualification of links (R305, R314, R315) -/

/-- Whether a line port is being qualified. -/
def State.portQualifies (s : State) (p : Nat) : Bool := s.framersOn p && s.linkRuns && !(s.portQualOf p).passed && !(s.portQualOf p).leftOut

/-- A host lane has been measured. -/
def State.laneMeasured (s : State) (p l : Nat) (pass : Bool) : State :=
  if !s.portQualifies p then s
  else if !pass then s.leavePortOut p
  else
    let m := Nat.lor (s.boot.hostLanes.get (fun _ => 0) p) (2 ^ l)
    let s := { s with boot := { s.boot with hostLanes := s.boot.hostLanes.put (fun _ => 0) p m } }
    if m ≠ 15 then s
    else ((s.setPortQual p { s.portQualOf p with passed := true }).setB A.bootLinkQual p true).routesChanged.progress

/-- The working ring of a wavelength of a fibre. -/
def waveRing (f : Nat) (tx : Bool) (w : Nat) : Nat := f % 4 * 34 + (if tx then 0 else 17) + w

/-- Whether a wavelength has still to qualify. -/
def State.waveWaits (s : State) (f : Nat) (tx : Bool) (w : Nat) : Bool :=
  s.fibreEnabled f && s.linkRuns && !(s.waveQualOf f tx w).passed && !s.waveOut f tx w

/-- A wavelength has failed: it goes to the spare once, in transmit until the far end readmits it; a second failure, or a spare
that cannot take it, leaves it out. -/
def State.waveFailed (s : State) (f : Nat) (tx : Bool) (w : Nat) : State :=
  let q := f / 4
  let r := waveRing f tx w
  let x := s.waveQualOf f tx w
  if 0 < x.attempts ∨ ((s.quad q).ring r).mode = .failed then s.leaveWaveOut q r w
  else (s.setWaveQual f tx w { x with attempts := 1, spare := true, readmitSince := if tx then some s.mono else none }).failRing q r 0

/-- A wavelength has been measured; both ends hold marker lock on its lane. -/
def State.waveMeasured (s : State) (f : Nat) (tx : Bool) (w : Nat) (pass : Bool) : State :=
  if !s.waveWaits f tx w || !((s.fib f).lane w).locked || (s.waveQualOf f tx w).readmitSince.isSome then s
  else if pass then
    let s := s.setWaveQual f tx w { s.waveQualOf f tx w with passed := true, readmitSince := none, retry := false }
    (s.setB (A.optWlOut (f / 4) (f % 4)) ((if tx then 0 else 16) + w) false).progress
  else s.waveFailed f tx w

/-- LINK_QUALIFIED. -/
def execLinkQualified (link : QualLink) (pass : Bool) (s : State) : Host.Outcome State Fault Refusal :=
  match link with
  | .lane p l => .next (s.laneMeasured p l pass)
  | .wave f tx w => .next (s.waveMeasured f tx w pass)

/-- Whether QUAL_WAIT_S has passed since step 3 began, or since the link was enabled after it. -/
def State.qualLate (s : State) (since : Nat) : Bool :=
  match s.boot.step3At with
  | some t => s.elapsed (max t since) (s.f A.bootCtrl 24 8 * 1000000000)
  | none => false

/-- QUAL_WAIT_TIMEOUT: a port that has not begun, or a wavelength that has not qualified, fails. -/
def execQualWaitTimeout (link : QualLink) (s : State) : Host.Outcome State Fault Refusal :=
  match link with
  | .lane p _ =>
    let x := s.portQualOf p
    .next (if s.portEnabled p && !s.framersOn p && !x.passed && !x.leftOut && s.qualLate x.since then s.leavePortOut p else s)
  | .wave f tx w =>
    let x := s.waveQualOf f tx w
    .next (if s.waveWaits f tx w && x.readmitSince.isNone && s.qualLate x.since then s.waveFailed f tx w else s)

/-- TX_SPARE_READMIT_TIMEOUT: 2 s after the move to the transmit spare. -/
def State.readmitTimeout (s : State) (f w : Nat) : State :=
  if s.elapsedSince (s.waveQualOf f true w).readmitSince 2000000000 then s.leaveWaveOut (f / 4) (waveRing f true w) w else s

def execTxSpareReadmitTimeout (fibre : Fin 32) (lane : Fin 16) (s : State) : Host.Outcome State Fault Refusal :=
  .next (s.readmitTimeout fibre lane)

/-! ### Step 4: vector units and RUE sets (R316) -/

/-- Ends step 4 when every vector unit in service has been tested and every RUE's sets are resolved. -/
def State.endStep4 (s : State) : State :=
  if s.boot.rueDone = 15 ∧ s.activeCores.all (fun c => decide (nfld s.boot.vectorDone c 1 = 1)) = true then (s.endStep 4).progress else s

/-- VECTOR_UNIT_TEST_DONE: a unit that fails is counted and logged; the record has no kind for it. -/
def State.vectorTested (s : State) (c : Nat) (pass : Bool) : State :=
  if !s.inStep 4 || decide (nfld s.boot.vectorDone c 1 = 1) || s.ccRetired c then s
  else
    let s := { s with boot := { s.boot with vectorDone := s.boot.vectorDone + 2 ^ c } }
    let s := if pass then s else ({ s with boot := { s.boot with vectorBad := s.boot.vectorBad + 2 ^ c } }).noteNewBad 0 c
    s.endStep4

def execVectorUnitTestDone (cc : Fin 8) (pass : Bool) (s : State) : Host.Outcome State Fault Refusal := .next (s.vectorTested cc pass)

/-- A lane known as bad is not used: the spare works in its place, or its set is out (R25). -/
def State.knownLane (s : State) (f64 : Bool) (lane : Nat) : State :=
  let group := lane / 128 * 128
  let a := if f64 then A.rueLane64Status (lane / 1024) else A.rueLaneStatus (lane / 4096)
  let i := if f64 then lane / 128 % 8 else lane / 128 % 32
  let out := if f64 then 4 + i else 16 + i
  let t := { s with rue := { s.rue with lanesOut := s.rue.lanesOut ++ [(f64, lane)] } }
  if s.b a out || (decide (lane % 128 = 64) && !s.b a i) then t
  else if s.b a i || s.rue.lanesOut.contains (f64, group + 64) then t.setB a out true
  else t.setB a i true

/-- Known bad lanes and sets of a RUE. -/
def State.knownRue (s : State) (n : Nat) : State :=
  let known := (s.boot.fuses.badUnits ++ s.boot.record.map (fun e => (e.kind, e.index))).eraseDups
  known.foldl (fun s u =>
    if u.1 = 1 ∧ u.2 / 4096 = n then s.knownLane false u.2
    else if u.1 = 3 ∧ u.2 / 1024 = n then s.knownLane true u.2
    else if u.1 = 2 ∧ u.2 / 16 = n then s.setB (A.rueLaneStatus n) (16 + u.2 % 16) true
    else s) s

/-- A lane that fails at this start. -/
def State.newBadLane (s : State) (u : Bool × Nat) : State :=
  let kind := if u.1 then 3 else 1
  if s.unitBad kind u.2 then s else (s.retireLane { f64 := u.1, index := u.2, reason := 1 }).noteNewBad kind u.2

/-- RUE_SET_TEST_DONE: the sets of one RUE are resolved and it comes into service. -/
def State.rueTested (s : State) (n : Nat) (failed : List (Bool × Nat)) : State :=
  if !s.inStep 4 || decide (nfld s.boot.rueDone n 1 = 1) then s
  else
    let mine := failed.filter (fun u => if u.1 then decide (u.2 / 1024 = n) else decide (u.2 / 4096 = n))
    let s := mine.foldl State.newBadLane (s.knownRue n)
    let s := { s with boot := { s.boot with rueDone := s.boot.rueDone + 2 ^ n },
                      rue := { s.rue with inService := Nat.lor s.rue.inService (2 ^ n) } }
    s.endStep4

def execRueSetTestDone (rue : Fin 4) (failed : List (Bool × Nat)) (s : State) : Host.Outcome State Fault Refusal := .next (s.rueTested rue failed)

end Sys2Proof.Machine
end

