-- ==== Sys2Proof/Machine/Life.lean ====
section
/-! DEFINITION. Lifecycle transitions, debug levels and tokens, and attestation through the DOE mailbox
(17_lifecycle_debug_power_states.md R317-R329; 18_host_interface.md R334). -/
namespace Sys2Proof.Machine

/-! ### Lifecycle (R317-R319) -/

/-- Sets TOP_LC_CTRL.STATUS: 0 DONE, 1 NOT_NEXT, 2 NOT_VENDOR, 3 BUSY. -/
def State.lcStatus (s : State) (v : Nat) : State := s.setF A.topLcCtrl 12 4 v

/-- Blows both fuse bits of a lifecycle state; entering RETURN blows the revocation fuses of slots 1 to 3 as well (R319). -/
def Fuses.enter (x : Fuses) (target : Nat) : Fuses :=
  { x with lifecycle := setAt (setAt x.lifecycle (2 * target) true) (2 * target + 1) true,
           revoked := if target = 3 then [x.revoked.getD 0 false, true, true, true] else x.revoked }

/-- The transition (R318): alarm, INTERNAL, fuses, erasures, RESET. The erasures of RETURN take their time. -/
def State.transition (s : State) (target : Nat) : State :=
  let s := (s.pulseAlarm 7).eraseKeys.enterSafe 5
  let s := { s with boot := { s.boot with fuses := s.boot.fuses.enter target } }
  if target = 3 then { s with life := { s.life with erasing := true } } else s.enterReset

/-- LIFECYCLE_ADVANCE: a write of TOP_LC_CTRL. -/
def State.writeLcCtrl (s : State) (value : Word) : State :=
  let s := s.writeFields A.topLcCtrl value
  let target := fld value 0 2
  if !bit value 8 then s
  else if s.life.erasing then s.lcStatus 3
  else if target ≠ s.lcState + 1 then s.lcStatus 1
  else if target ≠ 3 ∧ s.dbgLevel ≠ 2 then s.lcStatus 2
  else (s.lcStatus 0).transition target

def execLifecycleAdvance (value : Word) (s : State) : Host.Outcome State Fault Refusal := .next (s.onAccess A.topLcCtrl (fun s => s.writeLcCtrl value))

/-- RETURN_ERASE_DONE: Landing, Gallery and both flash copies are erased, and RETURN_CLEAN is blown. A transition then enters RESET;
at a start in RETURN bring-up goes on. -/
def State.returnErased (s : State) : State :=
  if !s.life.erasing then s
  else
    let s := { s with life := { s.life with erasing := false }, gallery := [], flash := eraseRange s.flash 0 0x2000000,
                      gal := { s.gal with poison := [], valid := [] },
                      boot := { s.boot with fuses := { s.boot.fuses.enter 3 with returnClean := true } } }
    if s.power.state = .bringup then s.bootFlash else s.enterReset

def execReturnEraseDone (s : State) : Host.Outcome State Fault Refusal := .next s.returnErased

/-! ### Debug levels (R320-R324) -/

/-- Sets TOP_DBG_STATUS.RESULT. -/
def State.dbgResult (s : State) (v : Nat) : State := s.setF A.topDbgStatus 8 4 v

/-- Whether a register lies in the compression tables or is CMP_SLOT_n. -/
def isCmpTable (a : Nat) : Bool :=
  decide (0xC10000 ≤ a) && decide (a < 0xC12000) || decide (a = A.cmpSlot 0) || decide (a = A.cmpSlot 1)

/-- Zeroes both CMP table slots, effective and staged, and stops encoding (R323). -/
def State.eraseCmp (s : State) : State :=
  let s := { s with regs := s.regs.filter (fun e => !isCmpTable e.1), staged := s.staged.filter (fun e => !isCmpTable e.1) }
  (s.setB A.cmpCtrl 0 false).setSreg A.cmpCtrl (setBit (s.sreg A.cmpCtrl) 0 false)

/-- Discards the TRACE buffers (class 0xF). -/
def State.dropTrace (s : State) : State :=
  { s with lnd := { s.lnd with banks := s.lnd.banks.map (fun b => { b with used := b.used.filter (fun u => decide (u.2 ≠ 15)) }) } }

/-- The level in force ends: CUSTOMER closes, VENDOR leads to SAFE (R324). -/
def State.endLevel (s : State) : State :=
  let was := s.dbgLevel
  if was = 0 then s
  else
    let s := { s.setF A.topDbgStatus 0 2 0 with life := { s.life with notAfter := 0, monoLimit := 0 } }
    if was = 2 then s.enterSafe 4 else s.dropTrace.checkAlarms

/-- A level takes force (R323). A CUSTOMER token that replaces VENDOR leads to SAFE. -/
def State.takeLevel (s : State) (level notAfter monoLimit : Nat) : State :=
  let was := s.dbgLevel
  let s := (s.pulseAlarm 6).eraseKeys.eraseCmp
  let s := (s.setF A.topDbgStatus 0 2 level).setB A.topDbgStatus (1 + level) true
  let s := { s with life := { s.life with notAfter := notAfter, monoLimit := monoLimit } }
  let s := if was = 1 ∧ level = 2 then s.dropTrace else s
  if was = 2 ∧ level = 1 then s.enterSafe 4 else s.checkAlarms

/-! ### Tokens (R321, R322) -/

/-- The bytes of TOP_DBG_WIN. -/
def State.dbgWindow (s : State) : List Byte := (List.range 3072).flatMap (fun i => leBytes 4 (s.reg (A.topDbgWin i)).toNat)

def tokLevel (t : List Byte) : Nat := leAt t 6 1
def tokSlot (t : List Byte) : Nat := leAt t 7 1
def tokNotAfter (t : List Byte) : Nat := leAt t 32 6
def tokSigLen (t : List Byte) : Nat := leAt t 40 4

/-- How far ahead of device time a token ends, in ns. -/
def State.tokAhead (s : State) (t : List Byte) : Int := (tokNotAfter t * 1000000000 : Nat) - (s.time.dev / 0x10000 : Nat)

/-- The first condition of R322 that a token breaks; 0 when it is accepted. -/
def State.tokenCheck (s : State) (t : List Byte) : Nat :=
  if leAt t 0 4 ≠ 0x4B544244 ∨ leAt t 4 2 ≠ 1 ∨ leAt t 38 2 ≠ 0 ∨ leAt t 104 24 ≠ 0 then 1
  else if leAt t 8 16 ≠ s.boot.fuses.chipId then 2
  else if leAt t 24 8 ≠ s.reg64 A.topDbgNonceLo A.topDbgNonceHi then 3
  else if tokLevel t ≠ 2 ∧ (tokLevel t ≠ 1 ∨ s.lcState ≠ 2) then 4
  else if (tokLevel t = 2 ∧ tokSlot t ≠ 0) ∨ 3 < tokSlot t then 5
  else if tokSigLen t = 0 ∨ 8192 < tokSigLen t ∨
      s.sigAccepted (tokSlot t) (bytesAt t 44 60) (t.take 128) (bytesAt t 128 (tokSigLen t)) = false then 6
  else if s.f A.timeStatus 0 2 ≠ 2 ∧ s.f A.timeStatus 0 2 ≠ 3 then 7
  else if s.tokAhead t < 1000000000 ∨ 604800000000000 < s.tokAhead t then 8
  else if s.life.erasing = true ∨ (s.b A.topDbgCtrl 3 = false ∧ (s.cle.insts ≠ [] ∨ s.gal.refills ≠ [])) then 9
  else 0

/-- PRESENT: the token is checked, takes effect when it passes, and a new NONCE is drawn. -/
def State.presentToken (s : State) : State :=
  let t := s.dbgWindow
  let r := s.tokenCheck t
  let s := (s.dbgResult r).drawNonce
  if r = 0 then s.takeLevel (tokLevel t) (tokNotAfter t) (s.mono + (s.tokAhead t).toNat) else s

/-- A write of TOP_DBG_CTRL: PRESENT, CLOSE and OPEN. -/
def State.writeDbgCtrl (s : State) (value : Word) : State :=
  let s := s.writeFields A.topDbgCtrl value
  let s := if bit value 0 then s.presentToken else s
  let s := if bit value 1 then s.endLevel else s
  if bit value 2 ∧ s.lcState = 0 then s.takeLevel 2 0 0 else s

def execDebugTokenPresent (value : Word) (s : State) : Host.Outcome State Fault Refusal := .next (s.onAccess A.topDbgCtrl (fun s => s.writeDbgCtrl value))

def execDebugOpen (value : Word) (s : State) : Host.Outcome State Fault Refusal := .next (s.onAccess A.topDbgCtrl (fun s => s.writeDbgCtrl value))

def execDebugClose (value : Word) (s : State) : Host.Outcome State Fault Refusal := .next (s.onAccess A.topDbgCtrl (fun s => s.writeDbgCtrl value))

/-- DEBUG_EXPIRE: device time has reached NOT_AFTER, or the monotonic count its limit. -/
def State.debugExpire (s : State) : State :=
  if s.life.notAfter ≠ 0 ∧ (s.life.notAfter * 1000000000 ≤ s.time.dev / 0x10000 ∨ s.life.monoLimit ≤ s.mono) then s.endLevel else s

def execDebugExpire (s : State) : Host.Outcome State Fault Refusal := .next s.debugExpire

/-! ### Attestation (R328, R329, R334). Requests and responses are the words after the two-word DOE header -/

/-- Answers a DOE request. -/
def State.doeAnswer (s : State) (bytes : List Byte) : State :=
  ({ s with host := { s.host with doeResponse := some bytes } }).emit (.doe bytes)

/-- The first word of an attestation response. -/
def attHead (op status : Nat) : List Byte := [BitVec.ofNat 8 op, BitVec.ofNat 8 status, 0, 0]

/-- Bytes of the registers from `a`, `n` words. -/
def State.regBytes (s : State) (a n : Nat) : List Byte := (List.range n).flatMap (fun i => leBytes 4 (s.reg (a + 4 * i)).toNat)

/-- Whether the control cores run different banks (CC_PENDING). -/
def State.updateMixed (s : State) : Bool := decide (s.f A.bootUpdCtrl 16 8 ≠ 0)

/-- The control cores' firmware that is measured. -/
def State.ccMeasured (s : State) : List Byte :=
  let n := if s.updateMixed then 0 else s.activeCores.headD 0
  s.boot.ccFirmware.get (fun _ => []) n

/-- DIGEST_0 to DIGEST_8. -/
def State.attDigests (s : State) : List Byte :=
  let fw : Nat → List Byte := fun c => if c = 1 then s.ccMeasured else s.boot.firmware.get (fun _ => []) c
  let config := (recordsOf s.boot.image 2).flatMap (recData s.boot.image)
  let cmp := s.regBytes 0xC10000 1024 ++ s.regBytes 0xC11000 1024
  let lic := (s.boot.licences.mergeSort (fun a b => decide (a.serial ≤ b.serial))).flatMap (fun l => l.bytes)
  ((List.range 6).map fw ++ [config, cmp, lic]).flatMap sha256

/-- The report, 384 bytes. -/
def State.attReport (s : State) (nonce : List Byte) : List Byte :=
  let debug := s.f A.topDbgStatus 0 4
  let flags := b2n s.updateMixed + 2 * b2n (s.b A.bootStatus 17) + 4 * s.f A.timeStatus 0 2
  leBytes 4 0x54505441 ++ leBytes 2 1 ++ leBytes 1 s.lcState ++ leBytes 1 debug ++ leBytes 1 s.powerCode ++ leBytes 1 (s.f A.bootStatus 8 2) ++
    leBytes 1 flags ++ [0] ++ leBytes 4 (s.reg A.bootFeatures).toNat ++ leBytes 16 s.boot.fuses.chipId ++ bytesAt nonce 0 32 ++
    leBytes 12 (time96 s.time.dev) ++ leBytes 8 (imgSeq s.boot.image) ++ leBytes 1 (imgSvn s.boot.image) ++ leBytes 1 s.boot.fuses.svn ++
    List.replicate 10 0 ++ s.attDigests

/-- Reserves an index block when the present one is used up. -/
def State.attBlock (s : State) : State :=
  if s.life.attIndex < 0x40000 ∨ 4096 ≤ s.boot.fuses.attBlocks then s
  else
    let n := s.boot.fuses.attBlocks + 1
    ({ s with life := { s.life with attIndex := 0 }, boot := { s.boot with fuses := { s.boot.fuses with attBlocks := n } } }).setF A.topAttStatus 0 13 n

/-- ATTEST with a nonce: EXHAUSTED, RATE, or the signed report, which uses one index and one report of the bucket. -/
def State.attestWith (s : State) (nonce : List Byte) : State :=
  let bucket := s.f A.topAttStatus 16 4
  if 0x40000 ≤ s.life.attIndex ∧ 4096 ≤ s.boot.fuses.attBlocks then s.doeAnswer (attHead 2 2)
  else if bucket = 0 then s.doeAnswer (attHead 2 1)
  else
    let s := (s.attBlock).setF A.topAttStatus 16 4 (bucket - 1)
    let index := (s.boot.fuses.attBlocks - 1) * 0x40000 + s.life.attIndex
    let s := { s with life := { s.life with attIndex := s.life.attIndex + 1, refilledAt := if bucket = 8 then s.mono else s.life.refilledAt } }
    let report := s.attReport nonce
    s.doeAnswer (attHead 2 0 ++ report ++ Config.hssSign index report)

/-- Whether the mailbox is answered: from the end of step 0 in every power state. -/
def State.doeServed (s : State) : Bool := s.stepDone 0 && !s.held

/-- An attestation request. -/
def State.attRequest (s : State) (request : List Byte) : State :=
  let op := leAt request 0 1
  let wellFormed := decide (leAt request 1 3 = 0)
  if !s.doeServed then s
  else if !s.boot.fuses.attKey then s.doeAnswer (attHead op 4)
  else if op = 1 ∧ request.length = 4 ∧ wellFormed = true then
    s.doeAnswer (attHead 1 0 ++ bytesAt (Config.attestKey s.boot.fuses.attSeed) 0 60)
  else if op = 2 ∧ request.length = 36 ∧ wellFormed = true then s.attestWith (request.drop 4)
  else s.doeAnswer (attHead op 3)

def execAttestGetKey (request : List Byte) (s : State) : Host.Outcome State Fault Refusal := .next (s.attRequest request)

def execAttest (request : List Byte) (s : State) : Host.Outcome State Fault Refusal := .next (s.attRequest request)

/-- ATTEST_BUCKET_REFILL: one report per second, up to 8. -/
def State.attRefill (s : State) : State :=
  let bucket := s.f A.topAttStatus 16 4
  if 8 ≤ bucket ∨ s.elapsed s.life.refilledAt 1000000000 = false then s
  else { s.setF A.topAttStatus 16 4 (bucket + 1) with life := { s.life with refilledAt := s.life.refilledAt + 1000000000 } }

def execAttestBucketRefill (s : State) : Host.Outcome State Fault Refusal := .next s.attRefill

/-- DOE_DISCOVERY, as the PCI Express specification defines it (PRESUMED, log 9): index 0 is discovery itself, index 1 the
attestation type under the function's vendor ID. -/
def State.doeDiscover (s : State) (request : List Byte) : State :=
  if !s.doeServed then s
  else
    match leAt request 0 1 with
    | 0 => s.doeAnswer [0x01, 0x00, 0x00, 0x01]
    | 1 => s.doeAnswer (leBytes 2 Config.vendorId ++ [0x01, 0x00])
    | _ => s.doeAnswer [0xFF, 0xFF, 0x00, 0x00]

def execDoeDiscovery (request : List Byte) (s : State) : Host.Outcome State Fault Refusal := .next (s.doeDiscover request)

/-- DOE_ABORT: the response in progress is discarded. -/
def execDoeAbort (s : State) : Host.Outcome State Fault Refusal := .next { s with host := { s.host with doeResponse := none } }

end Sys2Proof.Machine
end

