-- ==== Sys2Proof/Machine/HostOps.lean ====
section
/-! DEFINITION. Resets that face the host, bus mastering and masks of vectors, heartbeats of the control cores, the end of
suspicion and the tamper loops (18_host_interface.md R331, R332, R340; 19_faults_and_spares.md R350, R351;
20_pins_package_electrical.md R370). -/
namespace Sys2Proof.Machine

/-! ### Reset of what faces the host (R332) -/

/-- A queue is disabled: entries not started are withdrawn without a record, started ones run on unrecorded. -/
def State.muteQueue (s : State) (q : Nat) : State :=
  let x := s.queue q
  let s := s.setB (A.queQCtrl q) 0 false
  s.setQueue q { x with fetched := [], stall := false, started := x.started.map (fun e => { e with mute := true }) }

/-- The MSI-X table returns to its reset values, every vector masked, and nothing is pending. -/
def State.resetVectors (s : State) : State :=
  { s with regs := s.regs.filter (fun e => !(decide (0x8000 ≤ e.1) && decide (e.1 < 0xA040))) }

/-- HOST_RESET: function level reset, hot reset or link down. -/
def State.hostReset (s : State) : State :=
  if s.held then s
  else
    let s := ((List.range 64).foldl State.muteQueue s).resetVectors
    let s := s.setReg A.topBar2Base (regReset A.topBar2Base)
    { s with bar4 := [], host := {} }

def execHostReset (s : State) : Host.Outcome State Fault Refusal := .next s.hostReset

/-! ### MSI-X (R331, R340) -/

/-- BUS_MASTER_ENABLE: requests may go to the host, and so do the messages that wait for it. -/
def State.busMasterOn (s : State) : State :=
  ({ s with host := { s.host with bme := true, d3hot := false } }).flushVectors

def execBusMasterEnable (s : State) : Host.Outcome State Fault Refusal := .next s.busMasterOn

/-- MSIX_UNMASK: the vector's mask clears, and its pending message goes. -/
def State.unmaskVector (s : State) (v : Nat) : State :=
  let s := s.setB (A.topMsixVctrl v) 0 false
  if s.b (A.topMsixPba (v / 32)) (v % 32) && !s.vectorMasked v && s.busMaster then s.sendVector v else s

def execMsixUnmask (vector : Fin 512) (s : State) : Host.Outcome State Fault Refusal := .next (s.unmaskVector vector)

/-! ### Control cores (R350) -/

/-- CC_HEARTBEAT_TIMEOUT: started entries of the core's queues end with INTERNAL and the core restarts; a second miss within 24 h
retires it. -/
def State.heartbeatLost (s : State) (c : Nat) : State :=
  if s.ccRetired c || s.ccRestarting c || !s.stepDone 1 || s.held then s
  else
    let again := s.que.misses.any (fun m => decide (m.1 = c) && !s.elapsed m.2 dayNs)
    let t := s.stopStarted (fun q => decide (s.watcher q = some c))
    let t := { t with que := { t.que with misses := t.que.misses.filter (fun (m : Nat × Nat) => decide (m.1 ≠ c)) ++ [(c, t.mono)] } }
    if again then t.retireCtrl 1 c 0
    else { t with que := { t.que with restarting := t.que.restarting + 2 ^ c } }

def execCcHeartbeatTimeout (cc : Fin 8) (s : State) : Host.Outcome State Fault Refusal := .next (s.heartbeatLost cc)

/-- CC_RESTART_DONE: the core resumes its queues. -/
def State.coreRestarted (s : State) (c : Nat) : State :=
  if s.ccRestarting c then
    let s := { s with que := { s.que with restarting := s.que.restarting - 2 ^ c } }
    (List.range 64).foldl (fun s q => if s.watcher q = some c then s.notice q else s) s
  else s

def execCcRestartDone (cc : Fin 8) (s : State) : Host.Outcome State Fault Refusal := .next (s.coreRestarted cc)

/-! ### Suspicion (R351) -/

/-- Ends the suspect state and the band history: mismatches and hours start anew. -/
def State.clearSuspect (s : State) : State :=
  let s := ((s.setF A.errHealth 0 2 0).setF A.errHealth 8 5 0).setReg A.errPattern 0
  { s with faults := { history := [], bandLog := [(bandOf s.tj, s.mono)], patPhases := [] } }

/-- SUSPECT_CLEAR: a write of ERR_CTRL. -/
def State.writeErrCtrl (s : State) (value : Word) : State :=
  let s := s.writeFields A.errCtrl value
  if bit value 9 then s.clearSuspect else s

def execSuspectClear (value : Word) (s : State) : Host.Outcome State Fault Refusal := .next (s.onAccess A.errCtrl (fun s => s.writeErrCtrl value))

/-! ### The tamper loops (R370) -/

/-- MESH_CHECK: every 100 us; a loop that reads open, short or in disagreement asserts alarm MESH. -/
def State.meshCheck (s : State) (fault : Bool) : State :=
  if s.power.state = .off ∨ s.elapsed s.pins.lastMesh 100000 = false then s
  else
    let s := { s with pins := { s.pins with lastMesh := s.mono } }
    (s.setB A.secAlarmStatus 0 fault).checkAlarms

def execMeshCheck (fault : Bool) (s : State) : Host.Outcome State Fault Refusal := .next (s.meshCheck fault)

end Sys2Proof.Machine
end

