-- ==== Sys2Proof/Machine/Read.lean ====
section
/-! DEFINITION. What a read of a BAR0 register returns, and the companion words that a read latches (00_scope.md R5, R8;
07 registers; 09 registers; 10 R203; 11 registers; 14 registers; 15 registers; 19 R346). -/
namespace Sys2Proof.Machine

/-! ### Entries of the error log (19 R346) -/

/-- The 64 bytes of an entry. -/
def LogEntry.bytes (e : LogEntry) : List Byte :=
  leBytes 4 e.seq ++ leBytes 12 (time96 e.time) ++ leBytes 1 e.cls ++ leBytes 1 e.blk ++ leBytes 2 e.code ++ leBytes 1 e.phase ++
    leBytes 1 e.tj ++ leBytes 2 e.vcore ++ leBytes 2 e.kind ++ leBytes 2 e.reason ++ leBytes 4 e.index ++ leBytes 4 e.arg0 ++
    leBytes 4 e.arg1 ++ leBytes 8 e.arg2 ++ leBytes 16 e.arg3

/-- Word `k` of the selected entry; 0 when it is not held. -/
def State.logWord (s : State) (k : Nat) : Nat :=
  match s.log.entries.find? (fun e => decide (e.seq = (s.reg A.errLogSel).toNat)) with
  | some e => leAt e.bytes (4 * k) 4
  | none => 0

/-! ### Values that other state holds -/

/-- The selected association's slot `n`. -/
def State.selSlot (s : State) (n : Nat) : KeySlot := (s.sa s.saSel).slot n

def slotCode (x : SlotState) : Nat :=
  match x with
  | .empty => 0 | .rxValid => 1 | .rxHold => 2 | .txArmed => 3 | .txCurrent => 4 | .txExhausted => 5

/-- Next counter of the selected association's current transmit slot. -/
def State.selCounter (s : State) : Nat :=
  let x := s.sa s.saSel
  match x.inState .txCurrent with
  | some i => (x.slot i).ctr
  | none => 0

/-- SEC_SA_STATUS. -/
def State.saStatus (s : State) : Nat :=
  let x := s.sa s.saSel
  let keyed := if s.saSel < 512 then (x.inState .txCurrent).isSome else (x.inState .rxValid).isSome
  b2n keyed + 2 * b2n x.switchAt.isSome

/-- ROUTE_PEER_STATE: usable routes and routes in window towards the selected peer. -/
def State.peerState (s : State) : Nat :=
  let e := s.f A.routePeerSel 0 6
  ((s.usableRoutes e).map (fun r => 2 ^ r)).sum + ((s.inWindow (s.peerNode e)).map (fun d => 2 ^ (8 + d.1))).sum

/-- A statistic of a queue by its number `k` (10 R203): means are rounded down. -/
def QStat.value (x : QStat) (k : Nat) : Nat :=
  match k with
  | 0 => x.depthMin
  | 1 => x.depthMax
  | 2 => x.depthSum / max 1 x.samples
  | 3 => x.delayMin
  | 4 => x.delayMax
  | 5 => x.delaySum / max 1 x.cells
  | _ => x.cells

/-- Control cores whose vector units serve spill mode (05 R114). -/
def State.spillCores (s : State) : Nat :=
  if s.stepDone 1 then
    (s.activeCores.filter (fun c => !s.ccRestarting c && decide (nfld s.boot.vectorBad c 1 = 0))).length
  else 0

/-- QUE_Q_STATUS_n. -/
def State.qStatus (s : State) (q : Nat) : Nat :=
  let x := s.queue q
  let waits := match x.fetched.head? with
    | some e => !s.waitDone e.desc || (Desc.timed e.desc && !s.hasReached (Desc.startTime e.desc))
    | none => false
  b2n (s.qActive q) + 2 * b2n (decide (x.halt ≠ 0)) + 4 * b2n x.stall + 8 * b2n waits + 16 * x.halt + 256 * x.started.length

/-- ERR_BAND_STAT of the selected band. -/
def State.bandStat (s : State) : Nat :=
  let b := s.f A.errBandSel 0 5
  min 0xFFFF (s.recentMismatches.filter (fun m => decide (m.band = b))).length + 0x10000 * min 0xFFFF (s.bandTime b / hourNs)

/-- ERR_HEALTH.GUARD_ACTIVE: the override of R352 acts for the temperature, or for a phase that is held. -/
def State.guardActive (s : State) : Bool :=
  s.b A.errCtrl 8 &&
    ((s.b A.errHealth 0 && decide (bandOf s.tj = s.f A.errHealth 8 5)) ||
     (s.b A.errHealth 1 && s.heldPhases.any (fun n => s.faults.patPhases.contains n)))

/-- CLE_GROUP_LEAVES of the selected group. -/
def State.groupLeaves (s : State) : Nat :=
  let g := s.f A.cleGroupSel 0 12
  let exp := match s.effectiveGroup g with
    | some x => x.expected
    | none => 0
  exp % 0x10000 + 0x10000 * b2n (s.cle.insts.any (fun i => decide (i.1 = g)))

/-- Byte offset in boot memory that BOOT_REC_WIN shows at word `i`. -/
def State.recWindow (s : State) (i : Nat) : Nat := s.f A.bootRecCtrl 0 7 * 0x10000 + 4 * i

/-- The word that a register shows of other state; `i` is its index. -/
def State.viewWord (s : State) (v : View) (i : Nat) (stored : Nat) : Nat :=
  let sec := s.time.dev / 0x10000 / 1000000000
  let us := s.mono / 1000
  let e := s.peerTime (s.f A.timePeerSel 0 6)
  match v with
  | .stored => stored
  | .topLcStatus => s.lcState + 4 * b2n s.boot.fuses.returnClean + 8 * b2n s.boot.fuses.attKey
  | .timeStatus => s.timeState + 4 * b2n (s.time.lastEdge.isSome && !s.elapsedSince s.time.lastEdge 1000000000) +
      8 * b2n (s.time.lastTod.isSome && !s.elapsedSince s.time.lastTod 1000000000) + 16 * b2n s.time.tenMHz
  | .timePeerSel => stored % 64 + 256 * e.farState
  | .timeNowSubns => s.time.dev % 0x10000
  | .timeNowNs => s.time.dev / 0x10000 % 1000000000
  | .timeNowSecLo => sec % 0x100000000
  | .timeNowSecHi => sec / 0x100000000 % 0x10000
  | .timeNow64Lo => s.now % 0x100000000
  | .timeNow64Hi => s.now / 0x100000000
  | .timeMonoLo => us % 0x100000000
  | .timeMonoHi => us / 0x100000000 % 0x100000000
  | .timePeerOffset => (satWord (halfNs e.offset)).toNat
  | .timePeerDelay => (satWord (halfNs e.delay)).toNat
  | .secSaStatus => s.saStatus
  | .secSlotInfo => let k := s.selSlot i
    if k.state = .empty then 0 else k.kcv + 0x1000000 * slotCode k.state
  | .secSlotEpoch => (s.selSlot i).epoch
  | .secTxCtrLo => s.selCounter % 0x100000000
  | .secTxCtrHi => s.selCounter / 0x100000000
  | .secAlarmArmed => s.alarmArmed
  | .routeRseqStatus => s.skewUs
  | .routePeerState => s.peerState
  | .routePeerRtt => min 0xFFFFF (openDiv (s.rttNs (s.peerNode (s.f A.routePeerSel 0 6))) 1000)
  | .routePeerRev => match (s.delay (s.peerNode (s.f A.routePeerSel 0 6)) i).dref with
    | some d => unsgn 32 d
    | none => 0xFFFFFFFF
  | .routePeerFwd => ((s.delay (s.peerNode (s.f A.routePeerSel 0 6)) i).fwd).getD 0xFFFFFFFF
  | .routeInflight => s.routeInflight i
  | .schedPm => (s.sched.latched.get (fun _ => {}) (s.f A.schedPmSel 8 3 * 64 + s.f A.schedPmSel 0 6)).value i
  | .lndSpillStatus => ((s.cle.insts.filter (fun x => x.2.spilled)).length) % 0x2000 + 0x10000 * s.spillCores
  | .lndPoolStatus => (s.lndFree i).length + 0x10000 * s.lndTotal i
  | .lndClassUsed => s.lndUsed4K i
  | .galUnitState => b2n (!s.unitValid (s.f A.galUnitSel 0 23))
  | .galInvalidTotal => s.invalidTotal
  | .rueLane64Status => if s.licensed 1 then stored else stored % 16 + 0xF0
  | .cleGroupTabort => s.tabortUs (s.f A.cleGroupSel 0 12)
  | .cleGroupLeaves => s.groupLeaves
  | .cleGroupLast => s.cle.last.get (fun _ => 0) (s.f A.cleGroupSel 0 12)
  | .cmpInflight => s.cmpInflight i
  | .optSpareStatus => (s.holder 8).getD 0xF + 16 * (s.holder 9).getD 0xF + 256 * b2n (s.spareAbsent 8) + 512 * b2n (s.spareAbsent 9)
  | .dflPm => ((s.fib (s.f A.dflPmSel 0 5)).latched.get (fun _ => {}) (s.f A.dflPmSel 8 3)).value i
  | .queQStatus => s.qStatus i
  | .queQFetch => (s.queue i).fetch
  | .errLogFirst => (s.log.entries.head?.map (fun e => e.seq)).getD 0
  | .errLogLast => (s.log.entries.getLast?.map (fun e => e.seq)).getD 0
  | .errBandStat => s.bandStat
  | .errLogData => s.logWord i
  | .bootSvn => s.boot.fuses.svn + 256 * (if s.boot.image = [] then 0 else imgSvn s.boot.image)
  | .bootChipId => leAt (leBytes 16 s.boot.fuses.chipId) (4 * i) 4
  | .bootRecWin => leNat (s.bootRead (s.recWindow i) 4)
  | .pinGpioIn => (List.range 16).foldl (fun a g =>
      a + 2 ^ g * (if s.b A.pinGpioDir g then s.f A.pinGpioOut g 1 else nfld s.pins.gpioIn g 1)) 0
  | .pinLcbStatus => let x := s.source i
    b2n x.stable + 2 * b2n x.faulted + 4 * b2n x.en + 0x10000 * x.tecAct

/-! ### Reads -/

/-- Fields of a self-clearing bit that read 1 while the action is in progress: COMMIT's check, a monitor reading, an erasure. -/
def State.scNow (s : State) (a : Nat) : Nat :=
  if a = A.secEraseCtrl then b2n s.sec.erasing
  else if a % 0x10000 = 0xFF00 ∧ s.f (a + 4) 0 2 = 1 then 1
  else if (List.range 8).any (fun q => decide (a = A.optMonSel q) && (s.quad q).mon.isSome) then 0x80000000
  else 0

/-- What a register's own bits read: staged fields their staged value, write-only and self-clearing ones 0. -/
def State.storedWord (s : State) (r : RegRow) (a : Nat) : Nat :=
  let hide := BitVec.ofNat 32 (Nat.lor r.st (Nat.lor r.wo r.sc))
  let w := (s.reg a &&& ~~~ hide) ||| (s.sreg a &&& BitVec.ofNat 32 r.st)
  Nat.lor w.toNat (s.scNow a)

/-- The present value of the register at an address; 0 where none lies. -/
def State.present (s : State) (a : Nat) : Word :=
  match regAt a with
  | none => 0
  | some (r, i, j) =>
    let w := s.viewWord r.view (if r.n1 = 1 then i else j) (s.storedWord r a)
    BitVec.ofNat 32 (if a = A.errHealth then Nat.lor w (4 * b2n s.guardActive) else w)

/-- The words that a read of `a` latches. -/
def companions (a : Nat) : List Nat :=
  if a = A.timeNowSubns then [A.timeNowNs, A.timeNowSecLo, A.timeNowSecHi]
  else if a = A.timeNow64Lo then [A.timeNow64Hi]
  else if a = A.timeMonoLo then [A.timeMonoHi]
  else if a = A.secTxCtrLo then [A.secTxCtrHi]
  else if a = A.cmpLogicalLo then [A.cmpLogicalHi]
  else if a = A.cmpCodedLo then [A.cmpCodedHi]
  else if a = A.errLogData 0 then (List.range 15).map (fun k => A.errLogData (k + 1))
  else ((List.range 6).filter (fun k => decide (a = A.pwrThrUsLo k))).map A.pwrThrUsHi

/-- Whether a register shows what was latched. -/
def isCompanion (a : Nat) : Bool :=
  [A.timeNowNs, A.timeNowSecLo, A.timeNowSecHi, A.timeNow64Hi, A.timeMonoHi, A.secTxCtrHi, A.cmpLogicalHi, A.cmpCodedHi].contains a ||
    (List.range 15).any (fun k => decide (a = A.errLogData (k + 1))) || (List.range 6).any (fun k => decide (a = A.pwrThrUsHi k))

/-- What a read of a register returns. -/
def State.readWord (s : State) (a : Nat) : Word :=
  if isCompanion a then s.rlatch.get (fun _ => 0) a else s.present a

/-- A read of BAR0, of 32 bits or of bytes of them: the companions are latched and the register's word is completed. -/
def State.readReg (s : State) (addr : Nat) : State :=
  let a := addr / 4 * 4
  let latch := (companions a).foldl (fun (m : Sparse Word) b => m.put (fun _ => 0) b (s.present b)) s.rlatch
  ({ s with rlatch := latch }).emit (.readData addr (s.readWord a))

/-- LATCHING_REGISTER_READ. -/
def execLatchingRegisterRead (addr : Nat) (s : State) : Host.Outcome State Fault Refusal :=
  .next (s.onAccess addr (fun s => s.readReg addr))

end Sys2Proof.Machine
end

