-- ==== Sys2Proof/Machine/Write.lean ====
section
/-! DEFINITION. A host write of a BAR0 register: what is refused and recorded, what the access types store, and the actions that
single registers start (00_scope.md R4-R9; 03 R54; 06 registers; 12 registers; 15 R288; 18 R333, R340; 19 R353). The same writes come
from CONFIG entries (16_bring_up_and_image.md R304). -/
namespace Sys2Proof.Machine

/-! ### Writes that are refused -/

/-- A write of OPT_FADE_THR whose thresholds are not in ascending order is discarded. -/
def State.writeFadeThr (s : State) (q : Nat) (value : Word) : State :=
  let a := A.optFadeThr q
  let v := match regAt a with
    | some (r, _, _) => r.clampAll value
    | none => value
  if fld v 0 8 < fld v 8 8 ∧ fld v 8 8 < fld v 16 8 ∧ fld v 16 8 < fld v 24 8 then s.writeFields a value else s.accessError 7 a

/-- A write of QUE_Q_BASE is discarded while the queue is active (R54). -/
def State.writeQBase (s : State) (q a : Nat) (value : Word) : State :=
  if s.qActive q then s.accessError 3 a else s.writeFields a value

/-- A write to a running refill set is discarded. -/
def State.writeRefillReg (s : State) (n a : Nat) (value : Word) : State := if (s.refill n).isSome then s else s.writeFields a value

/-! ### Registers with an effect of their own -/

/-- OPT_LASER_CMD: SWITCH, RETURN and RELEASE. -/
def State.writeLaserCmd (s : State) (q : Nat) (value : Word) : State :=
  ((s.cmdSwitch q value).cmdReturn q value).cmdRelease q value

/-- The MSI-X mask of a vector. -/
def State.writeVctrl (s : State) (v : Nat) (value : Word) : State :=
  let s := s.writeFields (A.topMsixVctrl v) value
  if bit value 0 then s else s.unmaskVector v

/-- ERR_VEC_MASK: a set bit that is no longer masked raises the error vector. -/
def State.writeVecMask (s : State) (value : Word) : State :=
  let old := s.reg A.errVecMask
  let s := s.writeFields A.errVecMask value
  if (List.range 6).any (fun k => s.b A.errVecStatus k && bit old k && !bit value k) then s.raiseVector (s.f A.topIrqCtrl 0 9) else s

/-- ERR_ACCESS_INFO: clearing VALID clears KIND. -/
def State.writeAccessInfo (s : State) (value : Word) : State := if bit value 31 then s.setReg A.errAccessInfo 0 else s

/-- DFL_LINK_CTRL: a link whose ENABLE is cleared goes DOWN. -/
def State.writeLinkCtrl (s : State) (f : Nat) (value : Word) : State :=
  let was := s.fibreOn f
  let s := s.writeFields (A.dflLinkCtrl f) value
  if was && !bit value 0 then s.linkDown f else s

/-- LINE_MOD_CTRL: the management core drives LPMode as it now brings the module up. -/
def State.writeModCtrl (s : State) (p : Nat) (value : Word) : State := (s.writeFields (A.lineModCtrl p) value).driveLp p

/-- LINE_CMIS_CTRL from a write that carries no reply: what the module answers is a free value. -/
def State.writeCmis (s : State) (p : Nat) (value : Word) : State :=
  let (n, s) := s.draw
  s.cmis p value (if Config.outside n % 2 = 0 then none else some (BitVec.ofNat 8 (Config.outside n / 2)))

/-- CLE_MAP_CTRL.RELEASE. -/
def State.writeMapCtrl (s : State) (n : Nat) (value : Word) : State := if bit value 31 then s.releaseMap n else s

/-- BOOT_REC_WIN: the selected page of boot memory. -/
def State.writeRecWin (s : State) (i : Nat) (value : Word) : State := s.bootWrite (s.recWindow i) (leBytes 4 value.toNat)

/-- BOOT_REC_CTRL from a write that does not say whether the flash takes the bytes: a free value. -/
def State.writeRec (s : State) (value : Word) : State := s.draw.2.writeRecCtrl value (decide (Config.outside s.draw.1 % 2 = 0))

/-- GO of a block's COMMIT. -/
def State.writeCommit (s : State) (b : Block) (value : Word) : State := if bit value 0 then s.commitGo b else s

/-- A write that wakes the compute domain (R288). -/
def State.wakeWrite (s : State) (a : Nat) : State :=
  if [0x8, 0xA, 0xB, 0xC, 0xF].contains (a / 0x100000) then s.wakeEvent else s

/-! ### One write, by block -/

def State.writeTop (s : State) (a i : Nat) (value : Word) : State :=
  if a = A.topLcCtrl then s.writeLcCtrl value
  else if a = A.topDbgCtrl then s.writeDbgCtrl value
  else if a = A.topMsixVctrl i then s.writeVctrl i value
  else s.writeFields a value

def State.writePwr (s : State) (a i : Nat) (value : Word) : State :=
  if a = A.pwrCtrl then s.safeWrite value
  else if a = A.pwrPhaseCfg i then s.phaseClear i value
  else s.writeFields a value

def State.writeSec (s : State) (a : Nat) (value : Word) : State :=
  if a = A.secSaCmd then s.writeSaCmd value
  else if a = A.secAlarmLatch then s.clearLatch value
  else if a = A.secEraseCtrl then s.writeErase value
  else s.writeFields a value

def State.writeLine (s : State) (a p : Nat) (value : Word) : State :=
  if a = A.lineCtrl p then s.writeLineCtrl p value
  else if a = A.lineModCtrl p then s.writeModCtrl p value
  else if a = A.lineCmisCtrl p then s.writeCmis p value
  else (s.writeFields a value).refreshIds p

def State.writeGal (s : State) (a i : Nat) (value : Word) : State :=
  if a = A.galCommit then s.writeCommit .gal value
  else if a = A.galRefillCtrl i then s.writeRefillCtrl i value
  else if 0x900400 ≤ a ∧ a < 0x900500 then s.wakeEvent.writeRefillReg i a value
  else s.writeFields a value

def State.writeCle (s : State) (a i : Nat) (value : Word) : State :=
  if a = A.cleCommit then s.writeCommit .cle value
  else if a = A.cleAbortCtrl then s.writeAbortCtrl value
  else if a = A.cleMapCtrl i then s.writeMapCtrl i value
  else s.writeFields a value

def State.writeOpt (s : State) (a q k : Nat) (value : Word) : State :=
  if a = A.optCtrl q then s.fibreEnable q value
  else if a = A.optFadeThr q then s.writeFadeThr q value
  else if a = A.optLaserCmd q then s.writeLaserCmd q value
  else if a = A.optMonSel q then s.monGo q value
  else if a = A.concSchedCtrl q k then s.concArm q k value
  else if a = A.optCommit q then s.writeCommit (.opt (Fin.ofNat 8 q)) value
  else s.writeFields a value

def State.writeDfl (s : State) (a i j : Nat) (value : Word) : State :=
  if a = A.dflCommit then s.writeCommit .dfl value
  else if a = A.dflLinkCtrl i then s.writeLinkCtrl i value
  else if a = A.dflCircHostPtr i j then s.writeHostPtr i j value
  else s.writeFields a value

def State.writeQue (s : State) (a i : Nat) (value : Word) : State :=
  if a = A.queQCtrl i then s.writeQCtrl i value
  else if a = A.queQBaseLo i ∨ a = A.queQBaseHi i then s.writeQBase i a value
  else s.writeFields a value

def State.writeErr (s : State) (a : Nat) (value : Word) : State :=
  if a = A.errCtrl then s.writeErrCtrl value
  else if a = A.errAccessInfo then s.writeAccessInfo value
  else if a = A.errVecMask then s.writeVecMask value
  else s.writeFields a value

def State.writeBoot (s : State) (a i : Nat) (value : Word) : State :=
  if a = A.bootCtrl then s.svnBurn value
  else if a = A.bootLicCtrl then s.installLicence value
  else if a = A.bootUpdCtrl then s.updateGo value
  else if a = A.bootRecCtrl then s.writeRec value
  else if a = A.bootRecWin i then s.writeRecWin i value
  else s.writeFields a value

/-- A write of a whole register: where no register lies it is recorded (kind 0x2). -/
def State.writeWord (s : State) (a : Nat) (value : Word) : State :=
  match regAt a with
  | none => s.accessError 2 a
  | some (_, i, j) =>
    let s := s.wakeWrite a
    match a / 0x100000 with
    | 0x0 => s.writeTop a i value
    | 0x1 => s.writePwr a i value
    | 0x2 => if a = A.timeCtrl then s.writeTimeCtrl value else s.writeFields a value
    | 0x3 => s.writeSec a value
    | 0x4 => s.writeLine a i value
    | 0x5 => s.writeLine a i value
    | 0x6 => if a = A.routeCommit then s.writeCommit .route value else if a = A.routeDownCtrl then s.startDown value else s.writeFields a value
    | 0x8 => if a = A.lndCommit then s.writeCommit .lnd value else s.writeFields a value
    | 0x9 => s.writeGal a i value
    | 0xA => if a = A.rueShadowCtrl then s.writeShadowCtrl value else s.writeFields a value
    | 0xB => s.writeCle a i value
    | 0xC => if a = A.cmpCommit then s.writeCommit .cmp value else s.writeFields a value
    | 0xD => s.writeOpt a i j value
    | 0xE => s.writeDfl a i j value
    | 0xF => s.writeQue a i value
    | 0x10 => s.writeErr a value
    | 0x11 => s.writeBoot a i value
    | _ => s.writeFields a value

/-- A host write to BAR0: poisoned ones (kind 0x6) and those that are not 32 bits wide and aligned (kind 0x1) are discarded and
recorded. -/
def State.hostWord (s : State) (addr size : Nat) (value : Word) (poisoned : Bool) : State :=
  if poisoned then s.accessError 6 addr
  else if size ≠ 4 ∨ addr % 4 ≠ 0 then s.accessError 1 addr
  else s.writeWord addr value

/-- REGISTER_WRITE. -/
def execRegisterWrite (addr size : Nat) (value : Word) (poisoned : Bool) (s : State) : Host.Outcome State Fault Refusal :=
  .next (s.onAccess addr (fun s => s.hostWord addr size value poisoned))

end Sys2Proof.Machine
end

