-- ==== Sys2Proof/Machine/BringUp.lean ====
section
/-! DEFINITION. The beginning of a bring-up step with its CONFIG entries (16_bring_up_and_image.md R296, R304, R308, R314, R316). -/
namespace Sys2Proof.Machine

/-! ### CONFIG entries (R304) -/

/-- The 12-byte entries of every CONFIG record, in image order. -/
def configEntries (img : List Byte) : List (List Byte) :=
  (recordsOf img 2).flatMap (fun e => (List.range (recLength e / 12)).map (fun i => bytesAt (recData img e) (12 * i) 12))

/-- The block whose base an offset is. -/
def blockAt (a : Nat) : Option Block :=
  if a = 0xB00000 then some .cle
  else if a = 0x800000 then some .lnd
  else if a = 0x900000 then some .gal
  else if a = 0xC00000 then some .cmp
  else if a = 0x600000 then some .route
  else if a = 0xE00000 then some .dfl
  else if 0xD00000 ≤ a ∧ a < 0xE00000 ∧ a % 0x20000 = 0 then some (.opt (Fin.ofNat 8 ((a - 0xD00000) / 0x20000)))
  else none

/-- CONFIG_FAULT of entry `k`: shown, counted and logged; bring-up continues. -/
def State.configFault (s : State) (k : Nat) : State :=
  ((s.setB A.bootStatus 16 true).bump (A.bootCnt 5)).logEvent { code := 0x0A02, cls := .info, reason := k }

/-- A block's set is submitted and its check ends before the next entry. -/
def State.configCommit (s : State) (b : Block) (k : Nat) : State :=
  let t := (s.submit b).checkDone b
  if t.f (commitStatus b) 0 2 = 2 then t.configFault k else t

/-- CONFIG_ENTRY_APPLY: entry number `k`. -/
def State.applyEntry (s : State) (k : Nat) (e : List Byte) : State :=
  let a := leAt e 4 4
  match leAt e 0 1 with
  | 1 =>
    let t := s.hostWord a 4 (BitVec.ofNat 32 (leAt e 8 4)) false
    if t.reg A.errAccessCount ≠ s.reg A.errAccessCount ∧ a ≠ A.errAccessCount then t.configFault k else t
  | 2 =>
    match blockAt a with
    | some b => s.configCommit b k
    | none => s.configFault k
  | _ => s.configFault k

/-- Applies the entries of a step in record order. -/
def State.applyConfig (s : State) (step : Nat) : State :=
  (configEntries s.boot.image).zipIdx.foldl (fun s e => if leAt e.1 1 1 = step then s.applyEntry e.2 e.1 else s) s

/-- Writes a CMP_TABLES record to slot 0 and commits it; what R146 asks of a sender's tables (reason 0x05) does not apply yet. -/
def State.bootTables (s : State) (e : List Byte) : State :=
  let d := recData s.boot.image e
  let s := (List.range 1024).foldl (fun s i => s.writeFields (0xC10000 + 4 * i) (BitVec.ofNat 32 (leAt d (4 * i) 4))) s
  let s := (s.setSreg (A.cmpSlot 0) (BitVec.ofNat 32 (0x100 + nfld (recParam e) 0 8))).setSreg A.cmpCtrl (setBit (s.sreg A.cmpCtrl) 1 false)
  let x := s.snapshot .cmp
  let r := lowestRefusal ((s.refuseCmp x).filter (fun r => decide (r.1 ≠ 5)))
  if r.1 = 0 then (s.setF (commitStatus .cmp) 0 2 3).accept .cmp x
  else (s.showOutcome .cmp 2 r.1 r.2).configFault 0

/-! ### The steps (R296) -/

/-- Whether step `n` may begin: the step before it is complete; step 4 once step 3 has started its trainings. -/
def State.stepBegins (s : State) (n : Nat) : Bool :=
  decide (s.power.state = .bringup) && decide (s.bootFail = 0) && decide (s.bootStep + 1 = n) && (decide (n = 4) || s.stepDone (n - 1))

/-- The work that a step starts once its entries have been applied. -/
def State.stepWork (s : State) (n : Nat) : State :=
  match n with
  | 1 => s.loadClasses
  | 3 =>
    let s := (recordsOf s.boot.image 3).foldl State.bootTables s
    let s := { s with boot := { s.boot with step3At := some s.mono } }
    (((List.range 32).filter s.fibreEnabled).foldl State.sweepFibre s).progress
  | 4 => { s with power := { s.power with wanted := 0xFFFFFF } }
  | _ => s

/-- BRINGUP_STEP_BEGIN. -/
def State.beginStep (s : State) (n : Nat) : State :=
  if n = 0 then s.bootRom
  else if s.stepBegins n then ((s.setF A.bootStatus 0 3 n).applyConfig n).stepWork n
  else s

def execBringupStepBegin (step : Fin 5) (s : State) : Host.Outcome State Fault Refusal := .next (s.beginStep step)

end Sys2Proof.Machine
end

