-- ==== Sys2Proof/Machine/Queues.lean ====
section
/-! DEFINITION. Commands of the queues and tokens (03_command_lists_and_step_programs.md R53-R65). -/
namespace Sys2Proof.Machine

/-- QUEUE_ENABLE: the host writes QUE_Q_CTRL_n with ENABLE rising (R54, R55). -/
def execQueueEnable (q : Fin 64) (value : Word) (s : State) : Host.Outcome State Fault Refusal := .next (s.onAccess (A.queQCtrl q) (fun s => s.writeQCtrl q value))

/-- QUEUE_DISABLE: the host writes QUE_Q_CTRL_n with ENABLE falling (R54, R62). -/
def execQueueDisable (q : Fin 64) (value : Word) (s : State) : Host.Outcome State Fault Refusal := .next (s.onAccess (A.queQCtrl q) (fun s => s.writeQCtrl q value))

/-- QUEUE_CANCEL: the host writes QUE_Q_CTRL_n with CANCEL set (R54, R62). -/
def execQueueCancel (q : Fin 64) (value : Word) (s : State) : Host.Outcome State Fault Refusal := .next (s.onAccess (A.queQCtrl q) (fun s => s.writeQCtrl q value))

/-- Host writes of queue memory: offsets within the region and their bytes. -/
def State.queueWrites (s : State) (q : Nat) (ws : List (Nat × List Byte)) : State :=
  ws.foldl (fun s w => if w.1 + w.2.length ≤ s.qBytes q then s.qWrite q w.1 w.2 else s) s

/-- A new tail: the memory it covers, the tail itself, and its being noticed (R58, R59, R288). -/
def State.writeTail (s : State) (q : Nat) (tail : Word) (before : List (Nat × List Byte)) : State :=
  (((s.queueWrites q before).qWrite q 0 (leBytes 4 tail.toNat)).wakeEvent).notice q

/-- SQ_TAIL_WRITE: the host has written descriptors and advances SQ_TAIL; the queue is examined (R56, R59). -/
def execSqTailWrite (q : Fin 64) (tail : Word) (before : List (Nat × List Byte)) (s : State) : Host.Outcome State Fault Refusal :=
  .next (s.writeTail q tail before)

/-- A new CQ_HEAD: while the queue stalls it is examined again (R57, R59). -/
def State.writeHead (s : State) (q : Nat) (head : Word) : State :=
  let s := s.qWrite q 0x0C (leBytes 4 head.toNat)
  if (s.queue q).stall then s.wakeEvent.notice q else s

/-- CQ_HEAD_WRITE. -/
def execCqHeadWrite (q : Fin 64) (head : Word) (s : State) : Host.Outcome State Fault Refusal := .next (s.writeHead q head)

/-- Whether the next entry of a queue may be fetched (R53, R57, R59). -/
def State.mayFetch (s : State) (q : Nat) : Bool :=
  let x := s.queue q
  s.serving && s.watched q && s.qEnabled q && decide (x.halt = 0) && decide (x.fetch ≠ x.tail) &&
    decide ((x.fetch + 0x100000000 - x.cqHead) % 0x100000000 < s.qSize q) && decide (x.started.length < s.qInflight q + 1)

/-- Fetches one entry: its snapshot, FETCH and SQ_HEAD (R57, R58). -/
def State.fetchEntry (s : State) (q : Nat) : State :=
  let i := (s.queue q).fetch
  match s.entryBytes q i with
  | none => s.qMemoryError q (0x1000 + 64 * (i % s.qSize q)) 64
  | some bs =>
    let s := s.advanceFetch q
    let s := s.setQueue q { s.queue q with fetched := (s.queue q).fetched ++ [{ index := i, desc := bs }] }
    s.setQueue q { s.queue q with stall := s.stalled q }

/-- An uncorrectable 64-bit word of BAR4 at `a` halts every queue whose region holds it (18_host_interface.md R338). -/
def State.bar4Failed (s : State) (a : Nat) : State :=
  (List.range 64).foldl (fun s q =>
    if s.qEnabled q && decide (s.qLoc q = 0) && rangesMeet (s.qBase q) (s.qBytes q) a 8 && decide ((s.queue q).halt = 0) then s.qHalt q 3
    else s) s

/-- DESCRIPTOR_FETCH: the next entry is fetched when it may be; where it lies in BAR4, one of its words may be uncorrectable. -/
def State.fetchNext (s : State) (q : Nat) (bad : Option (Fin 8)) : State :=
  if s.mayFetch q then
    match (if s.qLoc q = 0 then bad else none) with
    | some k => s.bar4Failed (s.qBase q + (0x1000 + 64 * ((s.queue q).fetch % s.qSize q)) + 8 * k)
    | none => s.fetchEntry q
  else s

def execDescriptorFetch (q : Fin 64) (bad : Option (Fin 8)) (s : State) : Host.Outcome State Fault Refusal := .next (s.fetchNext q bad)

/-- TOKEN_COUNT_WRITE: the host writes a token's COUNT (R65). -/
def execTokenCountWrite (n : Fin 256) (value : Word) (s : State) : Host.Outcome State Fault Refusal :=
  .next (s.onAccess (A.queToken n) (fun s => (s.setReg (A.queToken n) value).wakeEvent))

end Sys2Proof.Machine
end

