-- ==== Sys2Proof/Machine/Dispatch.lean ====
section
/-! DEFINITION. One arm per command: the meaning that carries it out. -/
namespace Sys2Proof.Machine

/-- The effect of a command on everything but the queue of commands. -/
def exec (i : Instr) (s : State) : Host.Outcome State Fault Refusal :=
  match i with
  | .registerWrite addr size value poisoned => Sys2Proof.Machine.execRegisterWrite addr size value poisoned s
  | .latchingRegisterRead addr => Sys2Proof.Machine.execLatchingRegisterRead addr s
  | .commitGo blk => Sys2Proof.Machine.execCommitGo blk s
  | .commitCheckDone blk => Sys2Proof.Machine.execCommitCheckDone blk s
  | .commitTakesEffect blk => Sys2Proof.Machine.execCommitTakesEffect blk s
  | .queueEnable q value => Sys2Proof.Machine.execQueueEnable q value s
  | .queueDisable q value => Sys2Proof.Machine.execQueueDisable q value s
  | .queueCancel q value => Sys2Proof.Machine.execQueueCancel q value s
  | .sqTailWrite q tail before => Sys2Proof.Machine.execSqTailWrite q tail before s
  | .cqHeadWrite q head => Sys2Proof.Machine.execCqHeadWrite q head s
  | .descriptorFetch q bad => Sys2Proof.Machine.execDescriptorFetch q bad s
  | .tokenCountWrite n value => Sys2Proof.Machine.execTokenCountWrite n value s
  | .allreduce q => Sys2Proof.Machine.execAllreduce q s
  | .reduceScatter q => Sys2Proof.Machine.execReduceScatter q s
  | .allgather q => Sys2Proof.Machine.execAllgather q s
  | .broadcast q => Sys2Proof.Machine.execBroadcast q s
  | .reduce q => Sys2Proof.Machine.execReduce q s
  | .step q => Sys2Proof.Machine.execStep q s
  | .norm q => Sys2Proof.Machine.execNorm q s
  | .send q => Sys2Proof.Machine.execSend q s
  | .recv q => Sys2Proof.Machine.execRecv q s
  | .barrier q => Sys2Proof.Machine.execBarrier q s
  | .vstep q => Sys2Proof.Machine.execVstep q s
  | .vstepChunkDone q index chunk samples faults => Sys2Proof.Machine.execVstepChunkDone q index chunk samples faults s
  | .copy q => Sys2Proof.Machine.execCopy q s
  | .fill q => Sys2Proof.Machine.execFill q s
  | .xfeTransferDone q index hostFail => Sys2Proof.Machine.execXfeTransferDone q index hostFail s
  | .chunkReceive src => Sys2Proof.Machine.execChunkReceive src s
  | .chunkArithmeticDone group chunk samples faults ecc => Sys2Proof.Machine.execChunkArithmeticDone group chunk samples faults ecc s
  | .shadowCompareDone n result => Sys2Proof.Machine.execShadowCompareDone n result s
  | .chunkRecomputeDone n agree => Sys2Proof.Machine.execChunkRecomputeDone n agree s
  | .laneRetire => Sys2Proof.Machine.execLaneRetire s
  | .rueShadowCtrlWrite value => Sys2Proof.Machine.execRueShadowCtrlWrite value s
  | .openReceive line msg => Sys2Proof.Machine.execOpenReceive line msg s
  | .resendReceive line msg => Sys2Proof.Machine.execResendReceive line msg s
  | .notRetainedReceive line msg => Sys2Proof.Machine.execNotRetainedReceive line msg s
  | .abortReceive line msg => Sys2Proof.Machine.execAbortReceive line msg s
  | .arriveReceive line msg => Sys2Proof.Machine.execArriveReceive line msg s
  | .normSumReceive line msg => Sys2Proof.Machine.execNormSumReceive line msg s
  | .creditReceive node body => Sys2Proof.Machine.execCreditReceive node body s
  | .creditRefresh group => Sys2Proof.Machine.execCreditRefresh group s
  | .resendTimeout group chunk slot => Sys2Proof.Machine.execResendTimeout group chunk slot s
  | .progressTimeout group => Sys2Proof.Machine.execProgressTimeout group s
  | .routeLossHoldExpire group => Sys2Proof.Machine.execRouteLossHoldExpire group s
  | .keyLossHoldExpire group => Sys2Proof.Machine.execKeyLossHoldExpire group s
  | .cleAbortGo value => Sys2Proof.Machine.execCleAbortGo value s
  | .mapRelease n => Sys2Proof.Machine.execMapRelease n s
  | .keepExpire => Sys2Proof.Machine.execKeepExpire s
  | .retentionExpire => Sys2Proof.Machine.execRetentionExpire s
  | .retentionRoomFreed => Sys2Proof.Machine.execRetentionRoomFreed s
  | .allocRetry => Sys2Proof.Machine.execAllocRetry s
  | .scrubPatrolRead addr symbols bank row => Sys2Proof.Machine.execScrubPatrolRead addr symbols bank row s
  | .rowRepairDone => Sys2Proof.Machine.execRowRepairDone s
  | .channelRetireDone chan => Sys2Proof.Machine.execChannelRetireDone chan s
  | .refillStart n value => Sys2Proof.Machine.execRefillStart n value s
  | .refillStop n value => Sys2Proof.Machine.execRefillStop n value s
  | .refillRequestReceive node msg => Sys2Proof.Machine.execRefillRequestReceive node msg s
  | .refillUnitReceive node msg => Sys2Proof.Machine.execRefillUnitReceive node msg s
  | .refillAckReceive node msg => Sys2Proof.Machine.execRefillAckReceive node msg s
  | .refillEndReceive node msg => Sys2Proof.Machine.execRefillEndReceive node msg s
  | .refillRequestTimer n => Sys2Proof.Machine.execRefillRequestTimer n s
  | .refillAckTimer n => Sys2Proof.Machine.execRefillAckTimer n s
  | .refillPeerLost n => Sys2Proof.Machine.execRefillPeerLost n s
  | .refillKeyTimeout n => Sys2Proof.Machine.execRefillKeyTimeout n s
  | .bar2Read offset len => Sys2Proof.Machine.execBar2Read offset len s
  | .bar2Write offset bytes poisoned => Sys2Proof.Machine.execBar2Write offset bytes poisoned s
  | .bar2BaseWrite value => Sys2Proof.Machine.execBar2BaseWrite value s
  | .spanFrameReceive port frame fec => Sys2Proof.Machine.execSpanFrameReceive port frame fec s
  | .spanFrameTransmit port => Sys2Proof.Machine.execSpanFrameTransmit port s
  | .lineSignalLoss port => Sys2Proof.Machine.execLineSignalLoss port s
  | .lineSignalRestore port => Sys2Proof.Machine.execLineSignalRestore port s
  | .dlofDeclareTimer port => Sys2Proof.Machine.execDlofDeclareTimer port s
  | .dlofClearTimer port => Sys2Proof.Machine.execDlofClearTimer port s
  | .modrefLoss port => Sys2Proof.Machine.execModrefLoss port s
  | .modrefReturn port => Sys2Proof.Machine.execModrefReturn port s
  | .linePmLatch port => Sys2Proof.Machine.execLinePmLatch port s
  | .lineCpmAdd port => Sys2Proof.Machine.execLineCpmAdd port s
  | .moduleInsert port => Sys2Proof.Machine.execModuleInsert port s
  | .moduleRemove port => Sys2Proof.Machine.execModuleRemove port s
  | .moduleInterrupt port flags => Sys2Proof.Machine.execModuleInterrupt port flags s
  | .modulePoll port flags => Sys2Proof.Machine.execModulePoll port flags s
  | .moduleReady port advertised => Sys2Proof.Machine.execModuleReady port advertised s
  | .moduleDatapathActivated port => Sys2Proof.Machine.execModuleDatapathActivated port s
  | .moduleResetPulseEnd port => Sys2Proof.Machine.execModuleResetPulseEnd port s
  | .lineEnable port value => Sys2Proof.Machine.execLineEnable port value s
  | .lineDisable port value => Sys2Proof.Machine.execLineDisable port value s
  | .cmisGo port value reply => Sys2Proof.Machine.execCmisGo port value reply s
  | .cellReceive port coresAgree retryAgrees => Sys2Proof.Machine.execCellReceive port coresAgree retryAgrees s
  | .nakReceive node msg => Sys2Proof.Machine.execNakReceive node msg s
  | .goneReceive node msg => Sys2Proof.Machine.execGoneReceive node msg s
  | .reportReceive node msg => Sys2Proof.Machine.execReportReceive node msg s
  | .goingDownReceive node port msg => Sys2Proof.Machine.execGoingDownReceive node port msg s
  | .stripeDeadline node vc seq => Sys2Proof.Machine.execStripeDeadline node vc seq s
  | .nakRepeatTimer node vc seq => Sys2Proof.Machine.execNakRepeatTimer node vc seq s
  | .stripeFillTimeout node vc => Sys2Proof.Machine.execStripeFillTimeout node vc s
  | .stripeQueueRoom route queue => Sys2Proof.Machine.execStripeQueueRoom route queue s
  | .reportTimer => Sys2Proof.Machine.execReportTimer s
  | .delayIntervalEnd => Sys2Proof.Machine.execDelayIntervalEnd s
  | .drefExpire node route => Sys2Proof.Machine.execDrefExpire node route s
  | .orderlyResetGo value => Sys2Proof.Machine.execOrderlyResetGo value s
  | .goingDownNoticeExpire => Sys2Proof.Machine.execGoingDownNoticeExpire s
  | .portMarkClear port => Sys2Proof.Machine.execPortMarkClear port s
  | .portCellSelect port mismatches => Sys2Proof.Machine.execPortCellSelect port mismatches s
  | .schedDepthSample => Sys2Proof.Machine.execSchedDepthSample s
  | .schedPmLatch => Sys2Proof.Machine.execSchedPmLatch s
  | .saLoad value => Sys2Proof.Machine.execSaLoad value s
  | .saSchedule value => Sys2Proof.Machine.execSaSchedule value s
  | .saClear value => Sys2Proof.Machine.execSaClear value s
  | .epochSwitch sa => Sys2Proof.Machine.execEpochSwitch sa s
  | .rxHolddownExpire sa => Sys2Proof.Machine.execRxHolddownExpire sa s
  | .alarmAssert asserted => Sys2Proof.Machine.execAlarmAssert asserted s
  | .keyEraseComplete ok => Sys2Proof.Machine.execKeyEraseComplete ok s
  | .eraseGo value => Sys2Proof.Machine.execEraseGo value s
  | .alarmLatchClear value => Sys2Proof.Machine.execAlarmLatchClear value s
  | .pegUpdate quad ring error inLock => Sys2Proof.Machine.execPegUpdate quad ring error inLock s
  | .pegFineTrim quad ring error => Sys2Proof.Machine.execPegFineTrim quad ring error s
  | .pegSweepStep quad ring crossing => Sys2Proof.Machine.execPegSweepStep quad ring crossing s
  | .localRelockDone quad ring ok => Sys2Proof.Machine.execLocalRelockDone quad ring ok s
  | .spareRingJumpDone quad ring ok => Sys2Proof.Machine.execSpareRingJumpDone quad ring ok s
  | .heaterReasonClear quad => Sys2Proof.Machine.execHeaterReasonClear quad s
  | .laserLightLoss quad => Sys2Proof.Machine.execLaserLightLoss quad s
  | .laserLightReturn quad => Sys2Proof.Machine.execLaserLightReturn quad s
  | .heaterGrant quad => Sys2Proof.Machine.execHeaterGrant quad s
  | .fadeMeasure quad powers => Sys2Proof.Machine.execFadeMeasure quad powers s
  | .spareSourceReady quad => Sys2Proof.Machine.execSpareSourceReady quad s
  | .laserSwitch quad => Sys2Proof.Machine.execLaserSwitch quad s
  | .laserSwitchRelockDone quad => Sys2Proof.Machine.execLaserSwitchRelockDone quad s
  | .laserSwitchStable quad => Sys2Proof.Machine.execLaserSwitchStable quad s
  | .laserReferenceCapture quad powers => Sys2Proof.Machine.execLaserReferenceCapture quad powers s
  | .laserSwitchCmd quad value => Sys2Proof.Machine.execLaserSwitchCmd quad value s
  | .laserReturnCmd quad value => Sys2Proof.Machine.execLaserReturnCmd quad value s
  | .laserReleaseCmd quad value => Sys2Proof.Machine.execLaserReleaseCmd quad value s
  | .returnPrimaryTimeout quad => Sys2Proof.Machine.execReturnPrimaryTimeout quad s
  | .monitorGo quad value => Sys2Proof.Machine.execMonitorGo quad value s
  | .monitorReadingDone quad reading => Sys2Proof.Machine.execMonitorReadingDone quad reading s
  | .optFibreEnable quad value => Sys2Proof.Machine.execOptFibreEnable quad value s
  | .lcbStatusPoll source reply => Sys2Proof.Machine.execLcbStatusPoll source reply s
  | .dflMarkerReceive fibre lane marker => Sys2Proof.Machine.execDflMarkerReceive fibre lane marker s
  | .dflMarkerSend fibre => Sys2Proof.Machine.execDflMarkerSend fibre s
  | .flitReceive fibre lane slot => Sys2Proof.Machine.execFlitReceive fibre lane slot s
  | .flitSend fibre => Sys2Proof.Machine.execFlitSend fibre s
  | .replayTimeout fibre => Sys2Proof.Machine.execReplayTimeout fibre s
  | .laneErrorWindow fibre lane => Sys2Proof.Machine.execLaneErrorWindow fibre lane s
  | .laneReadmit fibre lane => Sys2Proof.Machine.execLaneReadmit fibre lane s
  | .linkHoldExpire fibre => Sys2Proof.Machine.execLinkHoldExpire fibre s
  | .linkTrainingDone fibre => Sys2Proof.Machine.execLinkTrainingDone fibre s
  | .circuitHostPtrWrite fibre circ value => Sys2Proof.Machine.execCircuitHostPtrWrite fibre circ value s
  | .slotEntryBoundary fibre => Sys2Proof.Machine.execSlotEntryBoundary fibre s
  | .dflPmLatch => Sys2Proof.Machine.execDflPmLatch s
  | .concSchedArm quad k value => Sys2Proof.Machine.execConcSchedArm quad k value s
  | .concourseSwitchStart quad k => Sys2Proof.Machine.execConcourseSwitchStart quad k s
  | .concourseRingSettled quad ring => Sys2Proof.Machine.execConcourseRingSettled quad ring s
  | .concourseRingTimeout quad ring => Sys2Proof.Machine.execConcourseRingTimeout quad ring s
  | .syncSend => Sys2Proof.Machine.execSyncSend s
  | .syncReceive line msg => Sys2Proof.Machine.execSyncReceive line msg s
  | .probeTimer => Sys2Proof.Machine.execProbeTimer s
  | .probeReceive line port msg => Sys2Proof.Machine.execProbeReceive line port msg s
  | .echoReceive port node msg => Sys2Proof.Machine.execEchoReceive port node msg s
  | .ppsEdge => Sys2Proof.Machine.execPpsEdge s
  | .todMessageReceive msg => Sys2Proof.Machine.execTodMessageReceive msg s
  | .holdoverTimeout => Sys2Proof.Machine.execHoldoverTimeout s
  | .timeSet value => Sys2Proof.Machine.execTimeSet value s
  | .ref10mChange present => Sys2Proof.Machine.execRef10mChange present s
  | .powerControlTick sample => Sys2Proof.Machine.execPowerControlTick sample s
  | .pmbusRead readings => Sys2Proof.Machine.execPmbusRead readings s
  | .pmbusStaleTimeout => Sys2Proof.Machine.execPmbusStaleTimeout s
  | .oppStepDown => Sys2Proof.Machine.execOppStepDown s
  | .oppStepUp => Sys2Proof.Machine.execOppStepUp s
  | .oppTransitionDone => Sys2Proof.Machine.execOppTransitionDone s
  | .capUnmetDetect => Sys2Proof.Machine.execCapUnmetDetect s
  | .droopDetect => Sys2Proof.Machine.execDroopDetect s
  | .droopRestore => Sys2Proof.Machine.execDroopRestore s
  | .ilimAssert => Sys2Proof.Machine.execIlimAssert s
  | .ilimRelease => Sys2Proof.Machine.execIlimRelease s
  | .pwrbrkAssert => Sys2Proof.Machine.execPwrbrkAssert s
  | .pwrbrkRelease => Sys2Proof.Machine.execPwrbrkRelease s
  | .thermalStep => Sys2Proof.Machine.execThermalStep s
  | .overtempSafe => Sys2Proof.Machine.execOvertempSafe s
  | .idleEntry => Sys2Proof.Machine.execIdleEntry s
  | .computeWake => Sys2Proof.Machine.execComputeWake s
  | .staggerGroupStart => Sys2Proof.Machine.execStaggerGroupStart s
  | .prestartWake q => Sys2Proof.Machine.execPrestartWake q s
  | .phaseClear phase value => Sys2Proof.Machine.execPhaseClear phase value s
  | .heatForecastSend => Sys2Proof.Machine.execHeatForecastSend s
  | .tecSetpointSend source => Sys2Proof.Machine.execTecSetpointSend source s
  | .safeWrite value => Sys2Proof.Machine.execSafeWrite value s
  | .resetRelease => Sys2Proof.Machine.execResetRelease s
  | .bringupStepBegin step => Sys2Proof.Machine.execBringupStepBegin step s
  | .firmwarePollRound cls missing => Sys2Proof.Machine.execFirmwarePollRound cls missing s
  | .galleryTrainingDone failed => Sys2Proof.Machine.execGalleryTrainingDone failed s
  | .landingTestDone failed => Sys2Proof.Machine.execLandingTestDone failed s
  | .linkQualified link pass => Sys2Proof.Machine.execLinkQualified link pass s
  | .qualWaitTimeout link => Sys2Proof.Machine.execQualWaitTimeout link s
  | .txSpareReadmitTimeout fibre lane => Sys2Proof.Machine.execTxSpareReadmitTimeout fibre lane s
  | .vectorUnitTestDone cc pass => Sys2Proof.Machine.execVectorUnitTestDone cc pass s
  | .rueSetTestDone rue failed => Sys2Proof.Machine.execRueSetTestDone rue failed s
  | .recoveryGo value => Sys2Proof.Machine.execRecoveryGo value s
  | .recoveryFlashWrite value flashOk => Sys2Proof.Machine.execRecoveryFlashWrite value flashOk s
  | .licenceInstall value => Sys2Proof.Machine.execLicenceInstall value s
  | .firmwareUpdateGo value => Sys2Proof.Machine.execFirmwareUpdateGo value s
  | .controllerBankSwitch cls n => Sys2Proof.Machine.execControllerBankSwitch cls n s
  | .ccBankSwitchTimeout => Sys2Proof.Machine.execCcBankSwitchTimeout s
  | .svnBurn value => Sys2Proof.Machine.execSvnBurn value s
  | .lifecycleAdvance value => Sys2Proof.Machine.execLifecycleAdvance value s
  | .returnEraseDone => Sys2Proof.Machine.execReturnEraseDone s
  | .debugTokenPresent value => Sys2Proof.Machine.execDebugTokenPresent value s
  | .debugOpen value => Sys2Proof.Machine.execDebugOpen value s
  | .debugClose value => Sys2Proof.Machine.execDebugClose value s
  | .debugExpire => Sys2Proof.Machine.execDebugExpire s
  | .attestGetKey request => Sys2Proof.Machine.execAttestGetKey request s
  | .attest request => Sys2Proof.Machine.execAttest request s
  | .attestBucketRefill => Sys2Proof.Machine.execAttestBucketRefill s
  | .doeDiscovery request => Sys2Proof.Machine.execDoeDiscovery request s
  | .doeAbort => Sys2Proof.Machine.execDoeAbort s
  | .hostReset => Sys2Proof.Machine.execHostReset s
  | .busMasterEnable => Sys2Proof.Machine.execBusMasterEnable s
  | .msixUnmask vector => Sys2Proof.Machine.execMsixUnmask vector s
  | .ccHeartbeatTimeout cc => Sys2Proof.Machine.execCcHeartbeatTimeout cc s
  | .ccRestartDone cc => Sys2Proof.Machine.execCcRestartDone cc s
  | .suspectClear value => Sys2Proof.Machine.execSuspectClear value s
  | .fibreArrayDetach quad => Sys2Proof.Machine.execFibreArrayDetach quad s
  | .powerFail => Sys2Proof.Machine.execPowerFail s
  | .meshCheck fault => Sys2Proof.Machine.execMeshCheck fault s
  | .pmbusAlert low => Sys2Proof.Machine.execPmbusAlert low s
  | .alwaysOnPowerUp => Sys2Proof.Machine.execAlwaysOnPowerUp s
  | .fundamentalResetAssert => Sys2Proof.Machine.execFundamentalResetAssert s
  | .fibreArrayAttach quad => Sys2Proof.Machine.execFibreArrayAttach quad s
  | .markerLockLoss fibre lane => Sys2Proof.Machine.execMarkerLockLoss fibre lane s

end Sys2Proof.Machine
end

