-- ==== Sys2Proof/Safety.lean ====
section
/-! DEFINITION. The terms in which claims about the block are stated: single bytes of each memory, what a command leaves
unchanged, the canonical form of memories and register maps, and the legal ranges of what the step carries along. -/
namespace Sys2Proof.Machine

/-! ### One byte of each memory -/

/-- The byte of the Gallery at an offset (06_gallery.md R117). -/
def State.galByte (s : State) (a : Nat) : Byte := s.gallery.get zeroByte a

/-- The byte of BAR4 at an offset (18_host_interface.md R338). -/
def State.bar4Byte (s : State) (a : Nat) : Byte := s.bar4.get zeroByte a

/-- The byte of host memory at an address. -/
def State.hostByte (s : State) (a : Nat) : Byte := s.hostMem.get zeroByte a

/-- The byte of the flash at an offset (16_bring_up_and_image.md R309). -/
def State.flashByte (s : State) (a : Nat) : Byte := s.flash.get erasedByte a

/-- The byte of the management core's boot memory at an offset (16_bring_up_and_image.md R303). -/
def State.bootByte (s : State) (a : Nat) : Byte := s.bootMem.get zeroByte a

/-! ### Frames: what a command leaves as it was -/

/-- Every byte of every memory reads as before. -/
def SameBytes (s t : State) : Prop :=
  (∀ a, t.galByte a = s.galByte a) ∧ (∀ a, t.bar4Byte a = s.bar4Byte a) ∧ (∀ a, t.hostByte a = s.hostByte a) ∧
    (∀ a, t.flashByte a = s.flashByte a) ∧ (∀ a, t.bootByte a = s.bootByte a)

/-- Every register, effective and staged, reads as before but those that `p` names. -/
def SameRegsBut (p : Nat → Bool) (s t : State) : Prop :=
  ∀ a, p a = false → t.reg a = s.reg a ∧ t.sreg a = s.sreg a

/-- Every register reads as before but those of a list. -/
def SameRegs (except : List Nat) (s t : State) : Prop := SameRegsBut (fun a => except.contains a) s t

/-- Queues, collectives, reduction engines, Landing and the Gallery's bookkeeping stay. -/
def SameEngines (s t : State) : Prop :=
  t.que = s.que ∧ t.cle = s.cle ∧ t.rue = s.rue ∧ t.lnd = s.lnd ∧ t.gal = s.gal ∧ t.delivered = s.delivered

/-- Line ports, routes, scheduler and cipher stay. -/
def SameLines (s t : State) : Prop :=
  t.ports = s.ports ∧ t.rte = s.rte ∧ t.sched = s.sched ∧ t.sec = s.sec

/-- Rings, lasers and fabric links stay. -/
def SameLight (s t : State) : Prop := t.opt = s.opt ∧ t.dfl = s.dfl

/-- Power, time, bring-up, lifecycle, pins and suspicion stay. -/
def SameBase (s t : State) : Prop :=
  t.power = s.power ∧ t.time = s.time ∧ t.boot = s.boot ∧ t.life = s.life ∧ t.pins = s.pins ∧ t.faults = s.faults

/-- The host function, the error log, latched reads and the COMMITs stay. -/
def SameHost (s t : State) : Prop :=
  t.host = s.host ∧ t.log = s.log ∧ t.rlatch = s.rlatch ∧ t.commits = s.commits

/-- The registers that an entry of the error log may change beside its own: ERR's (block 0x10) and the pending bits of
MSI-X (19_faults_and_spares.md R345-R347; 18_host_interface.md R340). -/
def isReportReg (a : Nat) : Bool :=
  decide (a / 0x100000 = 0x10) || (decide (0xA000 ≤ a) && decide (a < 0xA040))

/-- The registers of one BAR0 block (00_scope.md R4). -/
def ofBlock (b : Nat) (a : Nat) : Bool := decide (a / 0x100000 = b)

/-! ### The start of an entry -/

/-- The oldest entry of a queue may start, is of an opcode, is not withdrawn by its guard and passes check 1
(03_command_lists_and_step_programs.md R60, R66, R73). -/
def State.startsAs (s : State) (q op : Nat) (e : QEntry) : Prop :=
  s.startable q = some e ∧ Desc.opcode e.desc = op ∧
    (Desc.guard e.desc && Desc.waitEn e.desc && s.tokenFail (Desc.waitToken e.desc)) = false ∧ check1 (s.qClass q) e.desc = none

/-- A CLE entry passes checks 2 to 6, its group and this gateway's slot are these, it has elements, and no state that it needs
is lost (R73, R82, R127). -/
def State.opensAs (s : State) (e : QEntry) (gr : Group) (me : Nat) : Prop :=
  s.check2 e.desc = false ∧ s.check3 e.desc = none ∧ s.groupPoison areaEffective (Desc.group e.desc) = none ∧
    s.effectiveGroup (Desc.group e.desc) = some gr ∧ s.mySlot gr = some me ∧ (s.badGroup e.desc gr me).min? = none ∧
    (Desc.elements e.desc ≠ 0 ∨ Desc.opcode e.desc = 0x0A) ∧
    (Desc.opcode e.desc = 0x06 → s.lostChunks e.desc ((s.programOf (Desc.prog e.desc)).getD []) = none)

/-- An open instance with chunks still to come and no chunk finished: no event but its own end completes it. -/
def Inst.staysOpen (x : Inst) : Prop := x.done.length < x.chunkTotal ∧ ∀ e ∈ x.chunks, e.2.finished = false

/-! ### Canonical forms and legal ranges -/

/-- Every memory and register map has its canonical form: keys rising, nothing listed that an unlisted key reads as. -/
def State.memoryForm (s : State) : Bool :=
  s.gallery.wf zeroByte && s.bar4.wf zeroByte && s.hostMem.wf zeroByte && s.flash.wf erasedByte && s.bootMem.wf zeroByte

/-- The register maps have their canonical form. -/
def State.registerForm (s : State) : Bool := s.regs.wf regReset && s.staged.wf regReset

end Sys2Proof.Machine
end

