-- ==== Sys2Proof/WellFormed.lean ====
section
/-! DEFINITION. Which terms of the syntax are commands that can be sent: the operands lie in the ranges that the wire
structures, the address windows and the sensors of the spec give them. A meaning is total on every term; this check says
which terms stand for something that can happen. -/
namespace Sys2Proof

/-- A lane is numbered in the form of its KIND, an INDEX of 16 bits (19_faults_and_spares.md R349). -/
def LaneMismatch.wellFormed (m : LaneMismatch) : Bool :=
  decide (m.lane < 65536) && decide (m.hash < 0x100000000)

/-- A packet's content is not empty, and a line chunk has a header of 64 bytes (04_collectives_and_flights.md R85). -/
def ChunkSource.wellFormed (c : ChunkSource) : Bool :=
  match c with
  | .fabric _ bytes => decide (0 < bytes.length)
  | .line bytes => decide (0 < bytes.length)
  | .own _ _ => true

/-- Whether the operands of a command lie in their ranges. -/
def Instr.wellFormed (i : Instr) : Bool :=
  match i with
  | .registerWrite addr size _ _ => decide (addr < 0x4000000) && decide (0 < size)
  | .latchingRegisterRead addr => decide (addr < 0x4000000)
  | .commitGo _ => true
  | .commitCheckDone _ => true
  | .commitTakesEffect _ => true
  | .queueEnable _ _ => true
  | .queueDisable _ _ => true
  | .queueCancel _ _ => true
  | .sqTailWrite _ _ before => before.all (fun w => decide (w.1 + w.2.length ≤ 0x1000000))
  | .cqHeadWrite _ _ => true
  | .descriptorFetch _ _ => true
  | .tokenCountWrite _ _ => true
  | .allreduce _ => true
  | .reduceScatter _ => true
  | .allgather _ => true
  | .broadcast _ => true
  | .reduce _ => true
  | .step _ => true
  | .norm _ => true
  | .send _ => true
  | .recv _ => true
  | .barrier _ => true
  | .vstep _ => true
  | .vstepChunkDone _ _ _ samples _ => decide (samples ≤ 64)
  | .copy _ => true
  | .fill _ => true
  | .xfeTransferDone _ _ _ => true
  | .chunkReceive src => src.wellFormed
  | .chunkArithmeticDone _ _ samples _ _ => decide (samples ≤ 64)
  | .shadowCompareDone _ result => result.all LaneMismatch.wellFormed
  | .chunkRecomputeDone _ _ => true
  | .laneRetire => true
  | .rueShadowCtrlWrite _ => true
  | .openReceive _ _ => true
  | .resendReceive _ _ => true
  | .notRetainedReceive _ _ => true
  | .abortReceive _ _ => true
  | .arriveReceive _ _ => true
  | .normSumReceive _ _ => true
  | .creditReceive node _ => decide (node < 0x100000000)
  | .creditRefresh _ => true
  | .resendTimeout _ _ _ => true
  | .progressTimeout _ => true
  | .routeLossHoldExpire _ => true
  | .keyLossHoldExpire _ => true
  | .cleAbortGo _ => true
  | .mapRelease _ => true
  | .keepExpire => true
  | .retentionExpire => true
  | .retentionRoomFreed => true
  | .allocRetry => true
  | .scrubPatrolRead addr symbols _ _ => decide (addr % 64 = 0) && decide (symbols ≤ 72)
  | .rowRepairDone => true
  | .channelRetireDone _ => true
  | .refillStart _ _ => true
  | .refillStop _ _ => true
  | .refillRequestReceive node _ => decide (node < 0x100000000)
  | .refillUnitReceive node _ => decide (node < 0x100000000)
  | .refillAckReceive node _ => decide (node < 0x100000000)
  | .refillEndReceive node _ => decide (node < 0x100000000)
  | .refillRequestTimer _ => true
  | .refillAckTimer _ => true
  | .refillPeerLost _ => true
  | .refillKeyTimeout _ => true
  | .bar2Read offset len => decide (offset + len ≤ 0x100000000) && decide (0 < len)
  | .bar2Write offset bytes _ => decide (offset + bytes.length ≤ 0x100000000) && decide (0 < bytes.length)
  | .bar2BaseWrite _ => true
  | .spanFrameReceive _ frame fec => decide (frame.length = 16384) && fec.badBytes.all (fun i => decide (i < 16384))
  | .spanFrameTransmit _ => true
  | .lineSignalLoss _ => true
  | .lineSignalRestore _ => true
  | .dlofDeclareTimer _ => true
  | .dlofClearTimer _ => true
  | .modrefLoss _ => true
  | .modrefReturn _ => true
  | .linePmLatch _ => true
  | .lineCpmAdd _ => true
  | .moduleInsert _ => true
  | .moduleRemove _ => true
  | .moduleInterrupt _ flags => decide (flags.state < 8)
  | .modulePoll _ flags => decide (flags.state < 8)
  | .moduleReady _ _ => true
  | .moduleDatapathActivated _ => true
  | .moduleResetPulseEnd _ => true
  | .lineEnable _ _ => true
  | .lineDisable _ _ => true
  | .cmisGo _ _ _ => true
  | .cellReceive _ _ _ => true
  | .nakReceive node _ => decide (node < 0x100000000)
  | .goneReceive node _ => decide (node < 0x100000000)
  | .reportReceive node _ => decide (node < 0x100000000)
  | .goingDownReceive node _ _ => decide (node < 0x100000000)
  | .stripeDeadline node vc _ => decide (node < 0x100000000) && decide (vc < 8)
  | .nakRepeatTimer node vc _ => decide (node < 0x100000000) && decide (vc < 8)
  | .stripeFillTimeout node vc => decide (node < 0x100000000) && decide (vc < 8)
  | .stripeQueueRoom route queue => decide (route < 8) && decide (queue < 64)
  | .reportTimer => true
  | .delayIntervalEnd => true
  | .drefExpire node route => decide (node < 0x100000000) && decide (route < 8)
  | .orderlyResetGo _ => true
  | .goingDownNoticeExpire => true
  | .portMarkClear _ => true
  | .portCellSelect _ _ => true
  | .schedDepthSample => true
  | .schedPmLatch => true
  | .saLoad _ => true
  | .saSchedule _ => true
  | .saClear _ => true
  | .epochSwitch _ => true
  | .rxHolddownExpire _ => true
  | .alarmAssert _ => true
  | .keyEraseComplete _ => true
  | .eraseGo _ => true
  | .alarmLatchClear _ => true
  | .pegUpdate _ _ _ _ => true
  | .pegFineTrim _ _ _ => true
  | .pegSweepStep _ _ _ => true
  | .localRelockDone _ _ _ => true
  | .spareRingJumpDone _ _ _ => true
  | .heaterReasonClear _ => true
  | .laserLightLoss _ => true
  | .laserLightReturn _ => true
  | .heaterGrant _ => true
  | .fadeMeasure _ powers => decide (powers.length = 16)
  | .spareSourceReady _ => true
  | .laserSwitch _ => true
  | .laserSwitchRelockDone _ => true
  | .laserSwitchStable _ => true
  | .laserReferenceCapture _ powers => decide (powers.length = 16)
  | .laserSwitchCmd _ _ => true
  | .laserReturnCmd _ _ => true
  | .laserReleaseCmd _ _ => true
  | .returnPrimaryTimeout _ => true
  | .monitorGo _ _ => true
  | .monitorReadingDone _ reading => decide (reading < 4096)
  | .optFibreEnable _ _ => true
  | .lcbStatusPoll _ reply => reply.all (fun r => decide (r.serial < 0x10000000000000000))
  | .dflMarkerReceive _ _ marker => decide (marker.length = 256)
  | .dflMarkerSend _ => true
  | .flitReceive _ _ slot => decide (slot.length = 256)
  | .flitSend _ => true
  | .replayTimeout _ => true
  | .laneErrorWindow _ _ => true
  | .laneReadmit _ _ => true
  | .linkHoldExpire _ => true
  | .linkTrainingDone _ => true
  | .circuitHostPtrWrite _ _ _ => true
  | .slotEntryBoundary _ => true
  | .dflPmLatch => true
  | .concSchedArm _ _ _ => true
  | .concourseSwitchStart _ _ => true
  | .concourseRingSettled _ _ => true
  | .concourseRingTimeout _ _ => true
  | .syncSend => true
  | .syncReceive _ _ => true
  | .probeTimer => true
  | .probeReceive _ _ _ => true
  | .echoReceive _ node _ => decide (node < 0x100000000)
  | .ppsEdge => true
  | .todMessageReceive _ => true
  | .holdoverTimeout => true
  | .timeSet _ => true
  | .ref10mChange _ => true
  | .powerControlTick sample => decide (sample.tj < 256) && sample.phaseMw.all (fun p => decide (p.1 < 16))
  | .pmbusRead _ => true
  | .pmbusStaleTimeout => true
  | .oppStepDown => true
  | .oppStepUp => true
  | .oppTransitionDone => true
  | .capUnmetDetect => true
  | .droopDetect => true
  | .droopRestore => true
  | .ilimAssert => true
  | .ilimRelease => true
  | .pwrbrkAssert => true
  | .pwrbrkRelease => true
  | .thermalStep => true
  | .overtempSafe => true
  | .idleEntry => true
  | .computeWake => true
  | .staggerGroupStart => true
  | .prestartWake _ => true
  | .phaseClear _ _ => true
  | .heatForecastSend => true
  | .tecSetpointSend _ => true
  | .safeWrite _ => true
  | .resetRelease => true
  | .bringupStepBegin _ => true
  | .firmwarePollRound _ missing => missing.all (fun m => decide (m.1 < 65536))
  | .galleryTrainingDone failed => failed.all (fun n => decide (n < 192))
  | .landingTestDone failed => failed.all (fun n => decide (n < 192))
  | .linkQualified _ _ => true
  | .qualWaitTimeout _ => true
  | .txSpareReadmitTimeout _ _ => true
  | .vectorUnitTestDone _ _ => true
  | .rueSetTestDone _ _ => true
  | .recoveryGo _ => true
  | .recoveryFlashWrite _ _ => true
  | .licenceInstall _ => true
  | .firmwareUpdateGo _ => true
  | .controllerBankSwitch _ n => decide (n < 65536)
  | .ccBankSwitchTimeout => true
  | .svnBurn _ => true
  | .lifecycleAdvance _ => true
  | .returnEraseDone => true
  | .debugTokenPresent _ => true
  | .debugOpen _ => true
  | .debugClose _ => true
  | .debugExpire => true
  | .attestGetKey request => decide (request.length % 4 = 0)
  | .attest request => decide (request.length % 4 = 0)
  | .attestBucketRefill => true
  | .doeDiscovery request => decide (request.length % 4 = 0)
  | .doeAbort => true
  | .hostReset => true
  | .busMasterEnable => true
  | .msixUnmask _ => true
  | .ccHeartbeatTimeout _ => true
  | .ccRestartDone _ => true
  | .suspectClear _ => true
  | .fibreArrayDetach _ => true
  | .powerFail => true
  | .meshCheck _ => true
  | .pmbusAlert _ => true
  | .alwaysOnPowerUp => true
  | .fundamentalResetAssert => true
  | .fibreArrayAttach _ => true
  | .markerLockLoss _ _ => true

end Sys2Proof
end

