-- ==== Sys2Proof/Certificates/Slice0/Obligations.lean ====
section
/-! DEFINITION. The statements for the provers, from the numbered rules of spec/. Each says that a command answers a next state
and what that state holds, and what the command leaves as it was. -/
open Sys2Proof Sys2Proof.Machine

/-- R278, R279, R283: the estimate, Tj and the cap's bubble fraction after one microsecond of the controller, with the frame. How
a power in mW is shown in W is the model's open rounding (log 7). -/
def Obligations.PowerTickSetsEstimateAndBubble : Prop :=
  ∀ (s : State) (x : PowerSample), ∃ t, exec (.powerControlTick x) s = .next t ∧
    t.f A.pwrEst 0 10 = min 1023 (openDiv (s.scaled ((x.phaseMw.map (·.2)).sum + x.computeMw + x.otherMw)) 1000) ∧
    t.f A.pwrTemp 0 8 = x.tj % 256 ∧
    (t.f A.pwrEst 0 10 ≤ s.capW.1 → t.power.bNum = 0 ∧ t.power.bDen = 1) ∧
    (s.capW.1 < t.f A.pwrEst 0 10 → 7 * s.capW.1 ≤ 8 * (s.f A.pwrCtrl 12 4 * (t.f A.pwrEst 0 10 - s.capW.1)) →
      t.power.bNum = 7 ∧ t.power.bDen = 8) ∧
    (s.capW.1 < t.f A.pwrEst 0 10 → 8 * (s.f A.pwrCtrl 12 4 * (t.f A.pwrEst 0 10 - s.capW.1)) < 7 * s.capW.1 →
      t.power.bNum = s.f A.pwrCtrl 12 4 * (t.f A.pwrEst 0 10 - s.capW.1) ∧ t.power.bDen = s.capW.1) ∧
    SameBytes s t ∧ SameEngines s t ∧ SameLines s t ∧ SameLight s t ∧ SameHost s t ∧ t.time = s.time ∧ t.boot = s.boot ∧
    SameRegsBut (ofBlock 0x1) s t

/-- R276, R280, R283: OPP_STEP_DOWN, OPP_STEP_UP, THERMAL_STEP and OPP_TRANSITION_DONE where they take effect. -/
def Obligations.OperatingPointMovesByOne : Prop :=
  (∀ s : State, s.elapsedSince s.power.overSince 1000000 = true → s.power.moving = none → s.opp < 7 →
    s.power.fitPoint ≤ s.opp + 1 → s.power.thermPoint ≤ s.opp + 1 →
    ∃ t, exec .oppStepDown s = .next t ∧ t.power.moving = some (s.opp + 1) ∧ t.opp = s.opp ∧ t.outbox = s.outbox ∧
      SameBytes s t ∧ SameEngines s t ∧ SameLines s t ∧ SameLight s t ∧ SameRegs [A.pwrStatus] s t) ∧
  (∀ s : State, s.elapsedSince s.power.zeroSince 10000000 = true → s.power.moving = none → s.power.hot = false → 0 < s.opp →
    s.preferredOpp ≤ s.opp - 1 → s.preferredOpp ≤ s.power.fitPoint → s.power.demanded = s.opp →
    s.fits s.heldPhases (s.opp - 1) = true →
    ∃ t, exec .oppStepUp s = .next t ∧ t.power.moving = some (s.opp - 1) ∧ t.opp = s.opp ∧
      t.outbox = s.outbox ++ [.avs 0 (oppMillivolt (s.opp - 1))] ∧
      SameBytes s t ∧ SameEngines s t ∧ SameLines s t ∧ SameLight s t ∧ SameRegs [A.pwrStatus] s t) ∧
  (∀ s : State, s.power.hot = true → s.elapsed s.power.lastThermStep 1000000 = true → s.power.moving = none →
    s.power.fitPoint ≤ s.opp + 1 → s.power.capPoint ≤ s.opp + 1 →
    ∃ t, exec .thermalStep s = .next t ∧
      (s.opp < 7 → t.power.moving = some (s.opp + 1) ∧ t.power.thermTenths = s.power.thermTenths) ∧
      (s.opp = 7 → t.power.thermTenths = min 9 (s.power.thermTenths + 1)) ∧
      SameBytes s t ∧ SameEngines s t ∧ SameLines s t ∧ SameLight s t ∧ SameRegs [A.pwrStatus] s t) ∧
  (∀ (s : State) (p : Nat), s.power.moving = some p → p < 8 → s.power.demanded = p →
    ∃ t, exec .oppTransitionDone s = .next t ∧ t.opp = p ∧ t.power.moving = none ∧
      t.outbox = (if s.opp < p then s.outbox ++ [.avs 0 (oppMillivolt p)] else s.outbox) ∧
      SameBytes s t ∧ SameEngines s t ∧ SameLines s t ∧ SameLight s t ∧ SameRegs [A.pwrStatus] s t)

/-- R279-R282, R285, R368: the board's inputs and the two detectors. -/
def Obligations.BoardInputsActOnTheCompute : Prop :=
  (∀ s : State, ∃ t, exec .droopDetect s = .next t ∧ t.power.droop = true ∧ t.b A.pwrStatus 9 = true ∧
      SameBytes s t ∧ SameEngines s t ∧ SameLines s t ∧ SameLight s t ∧ SameHost s t ∧ SameRegs [A.pwrStatus] s t) ∧
  (∀ s : State, ∃ t, exec .droopRestore s = .next t ∧ t.power.droop = false ∧ t.b A.pwrStatus 9 = false ∧
      SameBytes s t ∧ SameEngines s t ∧ SameLines s t ∧ SameLight s t ∧ SameHost s t ∧ SameRegs [A.pwrStatus] s t) ∧
  (∀ s : State, s.pinsSampled = true → ∃ t, exec .ilimAssert s = .next t ∧ t.b A.pinInStatus 24 = true ∧
      t.b A.pwrStatus 10 = true ∧ t.bubble.2 ≤ 2 * t.bubble.1 ∧
      SameBytes s t ∧ SameEngines s t ∧ SameLines s t ∧ SameLight s t ∧ SameHost s t ∧ SameRegs [A.pwrStatus, A.pinInStatus] s t) ∧
  (∀ s : State, s.pinsSampled = true → ∃ t, exec .ilimRelease s = .next t ∧ t.b A.pinInStatus 24 = false ∧
      t.b A.pwrStatus 10 = false ∧ t.power.ilimHold = false ∧
      SameBytes s t ∧ SameEngines s t ∧ SameLines s t ∧ SameLight s t ∧ SameHost s t ∧ SameRegs [A.pwrStatus, A.pinInStatus] s t) ∧
  (∀ s : State, s.pinsSampled = true → ∃ t, exec .pwrbrkAssert s = .next t ∧ t.b A.pinInStatus 25 = true ∧
      t.capW.1 = min s.capW.1 200 ∧
      SameBytes s t ∧ SameEngines s t ∧ SameLines s t ∧ SameLight s t ∧ SameHost s t ∧ SameRegs [A.pwrStatus, A.pinInStatus] s t) ∧
  (∀ s : State, s.pinsSampled = true → s.f A.pwrCtrl 0 10 ≤ 480 → ∃ t, exec .pwrbrkRelease s = .next t ∧ t.b A.pinInStatus 25 = false ∧
      t.capW.1 = min (s.f A.pwrCtrl 0 10) (if s.b A.pwrExtCap 31 then s.f A.pwrExtCap 0 10 else 480) ∧
      SameBytes s t ∧ SameEngines s t ∧ SameLines s t ∧ SameLight s t ∧ SameHost s t ∧ SameRegs [A.pwrStatus, A.pinInStatus] s t) ∧
  (∀ s : State, s.elapsedSince s.power.maxSince 1000000 = true → s.capW.1 < s.f A.pwrEst 0 10 →
    ∃ t, exec .capUnmetDetect s = .next t ∧ t.b A.pwrStatus 14 = true ∧ t.power = s.power ∧
      SameBytes s t ∧ SameEngines s t ∧ SameLines s t ∧ SameLight s t ∧ SameHost s t ∧ SameRegs [A.pwrStatus] s t) ∧
  (∀ s : State, s.elapsed s.power.lastPmbus 100000000 = true →
    ∃ t, exec .pmbusStaleTimeout s = .next t ∧ t.b A.pwrStatus 15 = true ∧ t.power = s.power ∧
      SameBytes s t ∧ SameEngines s t ∧ SameLines s t ∧ SameLight s t ∧ SameHost s t ∧ SameRegs [A.pwrStatus] s t)

/-- R287-R289, R291: IDLE_ENTRY, COMPUTE_WAKE, PRESTART_WAKE and STAGGER_GROUP_START where they take effect. -/
def Obligations.ComputeDomainSleepsWakesAndStaggers : Prop :=
  (∀ s : State, s.power.state = .service → s.power.idle = false → s.quiet = true →
    s.elapsedSince s.power.quietSince (s.f A.pwrIdleCtrl 0 16 * 1000) = true →
    ∃ t, exec .idleEntry s = .next t ∧ t.power.idle = true ∧ t.computeRuns = false ∧ t.serving = false ∧
      SameBytes s t ∧ SameEngines s t ∧ SameLines s t ∧ SameLight s t ∧ SameHost s t ∧ SameRegs [A.pwrStatus] s t) ∧
  (∀ s : State, s.power.state = .service → s.power.idle = true → s.power.wake = true →
    ∃ t, exec .computeWake s = .next t ∧ t.power.idle = false ∧ t.power.wake = false ∧ t.computeRuns = true ∧
      nfld t.power.wanted 0 2 = 3 ∧
      SameBytes s t ∧ SameEngines s t ∧ SameLines s t ∧ SameLight s t ∧ SameHost s t ∧ SameRegs [A.pwrStatus] s t) ∧
  (∀ (s : State) (q : Fin 64) (e : QEntry) (r : List QEntry), (s.queue q).fetched = e :: r → s.power.idle = true →
    Desc.timed e.desc = true → reached 64 (s.now + s.wakeLead (Desc.phaseId e.desc)) (Desc.startTime e.desc) = true →
    ∃ t, exec (.prestartWake q) s = .next t ∧ t.power.wake = true ∧
      t.power.wanted = Nat.lor s.power.wanted (s.phaseMask (Desc.phaseId e.desc)) ∧ t.outbox = s.outbox ∧
      SameBytes s t ∧ SameEngines s t ∧ SameLines s t ∧ SameLight s t ∧ SameHost s t ∧ SameRegs [] s t) ∧
  (∀ (s : State) (g : Nat), g < 24 → s.computeRuns = true → nfld s.power.wanted g 1 = 1 → nfld s.power.started g 1 = 0 →
    (∀ k, k < g → nfld s.power.wanted k 1 = 1 → nfld s.power.started k 1 = 1) →
    (∀ l, s.power.lastGroup = some l → l + 4000 ≤ s.mono ∧ l + s.f A.pwrStagger 0 12 ≤ s.mono) →
    ∃ t, exec .staggerGroupStart s = .next t ∧ nfld t.power.started g 1 = 1 ∧ t.power.lastGroup = some s.mono ∧
      (∀ k, k ≠ g → nfld t.power.started k 1 = nfld s.power.started k 1) ∧
      SameBytes s t ∧ SameEngines s t ∧ SameLines s t ∧ SameLight s t ∧ SameHost s t ∧ SameRegs [] s t)

/-- R278, R290, R293, R294, R366: PMBUS_READ, PMBUS_ALERT, PHASE_CLEAR, HEAT_FORECAST_SEND and TEC_SETPOINT_SEND. The rounding of
a measured power to W is open (log 7). -/
def Obligations.PowerReportsAndSetPoints : Prop :=
  (∀ (s : State) (rs : List (Option Nat)), (∃ n, n < 16 ∧ s.b (A.pinPmbDev n) 31 = true) →
    (∀ n, n < 16 → s.b (A.pinPmbDev n) 31 = true → (rs.getD n none).isSome = true) →
    ∃ t, exec (.pmbusRead rs) s = .next t ∧ t.b A.pwrStatus 15 = false ∧ t.power.lastPmbus = s.mono ∧ t.power.estCount = 0 ∧
      t.f A.pwrEst 16 10 = min 1023 (openDiv (((List.range 16).filter (fun n => s.b (A.pinPmbDev n) 31)).map
        (fun n => linear11 ((rs.getD n none).getD 0))).sum 65536) ∧
      (∀ n, n < 16 → s.b (A.pinPmbDev n) 31 = true → t.b (A.pinPmbPout n) 31 = true) ∧
      SameBytes s t ∧ SameEngines s t ∧ SameLines s t ∧ SameLight s t ∧ SameHost s t ∧
      SameRegsBut (fun a => a == A.pwrEst || a == A.pwrStatus || (List.range 16).any (fun n => a == A.pinPmbPout n)) s t) ∧
  (∀ (s : State) (low : Bool), ∃ t, exec (.pmbusAlert low) s = .next t ∧ t.b A.pinInStatus 26 = low ∧
      ((low = false ∨ s.b A.pinInStatus 26 = true) → t.log = s.log) ∧
      (low = true → s.b A.pinInStatus 26 = false → t.log.seq = (s.log.seq + 1) % 0x100000000) ∧
      SameBytes s t ∧ SameEngines s t ∧ SameLines s t ∧ SameLight s t ∧ SameBase s t ∧
      SameRegsBut (fun a => isReportReg a || a == A.pinInStatus) s t) ∧
  (∀ (s : State) (n : Fin 16) (v : Word), s.accepts (A.pwrPhaseCfg n) = true → bit v 31 = true →
    ∃ t, exec (.phaseClear n v) s = .next t ∧ t.reg (A.pwrPhaseEnv n) = 0 ∧ t.reg (A.pwrPhaseDur n) = 0 ∧
      t.reg (A.pwrPhaseUnits n) = 0 ∧ t.f (A.pwrPhaseCfg n) 0 3 = fld v 0 3 ∧ t.phaseCount n = 0 ∧
      SameBytes s t ∧ SameEngines s t ∧ SameLines s t ∧ SameLight s t ∧ SameHost s t ∧
      SameRegs [A.pwrPhaseCfg n, A.pwrPhaseEnv n, A.pwrPhaseDur n, A.pwrPhaseUnits n, A.pwrStatus] s t) ∧
  (∀ s : State, s.b A.pwrFcCtrl 0 = true → s.pinsSampled = true →
    ∃ t m, exec .heatForecastSend s = .next t ∧ t.outbox = s.outbox ++ [.heat m] ∧ m.length = 16 ∧
      m.take 2 = [0xA5#8, BitVec.ofNat 8 s.power.fcSeq] ∧ beAt m 14 2 = crc16 (m.take 14) ∧
      beAt m 12 1 = s.tj ∧ beAt m 13 1 = s.f A.pwrStatus 0 4 ∧ t.power.fcSeq = (s.power.fcSeq + 1) % 256 ∧
      SameBytes s t ∧ SameEngines s t ∧ SameLines s t ∧ SameLight s t ∧ SameHost s t ∧ SameRegs [] s t) ∧
  (∀ (s : State) (e : Fin 10), (∀ x ∈ s.power.tecSent, x.1 ≠ e.val) →
    ∃ t, exec (.tecSetpointSend e) s = .next t ∧
      t.f (A.pwrTecAct e) 0 16 = min 0xFFFF ((s.f (A.pwrTec e) 0 16 : Int) + s.power.trim.get (fun _ => 0) e).toNat ∧
      t.outbox = s.outbox ++ [.tecSet e (t.f (A.pwrTecAct e) 0 16)] ∧
      SameBytes s t ∧ SameEngines s t ∧ SameLines s t ∧ SameLight s t ∧ SameHost s t ∧ SameRegs [A.pwrTecAct e] s t)

/-- R283, R295: OVERTEMP_SAFE and SAFE_WRITE enter SAFE. -/
def Obligations.SafeIsEnteredAndStopsTheCompute : Prop :=
  (∀ s : State, s.elapsedSince s.power.overTempSince 1000000 = true → s.power.state = .service →
    ∃ t, exec .overtempSafe s = .next t ∧ t.power.state = .safe ∧ t.f A.pwrStatus 0 4 = 8 ∧ t.computeRuns = false ∧
      t.serving = false ∧ t.cle.insts = [] ∧ t.cle.vsteps = [] ∧ t.cle.xfers = [] ∧ t.sec.sas = [] ∧
      (∀ n, n < 10 → (t.source n).en = false)) ∧
  (∀ (s : State) (v : Word), s.accepts A.pwrCtrl = true → s.power.state = .service → bit v 31 = true →
    ∃ t, exec (.safeWrite v) s = .next t ∧ t.power.state = .safe ∧ t.f A.pwrStatus 0 4 = 8 ∧ t.computeRuns = false ∧
      t.serving = false ∧ t.cle.insts = [] ∧ t.cle.vsteps = [] ∧ t.cle.xfers = [] ∧ t.sec.sas = [] ∧
      (∀ n, n < 10 → (t.source n).en = false))

/-- R265, R266: PPS_EDGE, TOD_MESSAGE_RECEIVE and HOLDOVER_TIMEOUT. -/
def Obligations.TimeFollowsEdgesAndMessages : Prop :=
  (∀ s : State, s.ppsValid = true → s.time.stepNext = false →
    ∃ t, exec .ppsEdge s = .next t ∧ t.time.lastEdge = some s.mono ∧ t.time.edgeReading = some s.time.dev ∧
      t.time.dev = s.time.dev ∧ t.timeState = s.timeState ∧
      SameBytes s t ∧ SameEngines s t ∧ SameLines s t ∧ SameLight s t ∧ SameHost s t ∧ SameRegs [] s t) ∧
  (∀ (s : State) (sec edge : Nat), s.ppsValid = true → s.time.stepNext = true → s.time.named = some (sec, edge) →
    ∃ t, exec .ppsEdge s = .next t ∧ t.time.dev = (sec + nearSeconds (s.mono - edge)) * secUnits ∧
      t.time.stepNext = false ∧ t.time.lastEdge = some s.mono ∧ t.time.edgeReading = some t.time.dev ∧
      t.reg (A.timeCnt 2) = BitVec.ofNat 32 (min 0xFFFFFFFF ((s.reg (A.timeCnt 2)).toNat + 1)) ∧
      t.log.seq = (s.log.seq + 1) % 0x100000000 ∧
      SameBytes s t ∧ SameEngines s t ∧ SameLines s t ∧ SameLight s t) ∧
  (∀ s : State, s.ppsValid = false →
    ∃ t, exec .ppsEdge s = .next t ∧ t.time = s.time ∧
      t.reg (A.timeCnt 0) = BitVec.ofNat 32 (min 0xFFFFFFFF ((s.reg (A.timeCnt 0)).toNat + 1)) ∧
      SameBytes s t ∧ SameEngines s t ∧ SameLines s t ∧ SameLight s t ∧ SameHost s t ∧ SameRegs [A.timeCnt 0] s t) ∧
  (∀ (s : State) (msg : List Byte) (e sec r : Nat), s.time.lastEdge = some e → s.readTod msg = .time sec →
    e + 100000000 ≤ s.mono → s.mono ≤ e + 900000000 → s.time.edgeReading = some r →
    ∃ t, exec (.todMessageReceive msg) s = .next t ∧
      t.reg A.timePhaseErr = satWord ((r : Int) - ((sec * secUnits : Nat) : Int)) ∧
      t.time.lastTod = some s.mono ∧ t.time.lastGood = some e ∧ t.time.edgeReading = none ∧ t.time.dev = s.time.dev ∧
      (s.timeState = 0 → t.timeState = 1 ∧ t.time.stepNext = true) ∧
      (s.timeState = 1 → s.time.stepNext = false → ((r : Int) - ((sec * secUnits : Nat) : Int)).natAbs ≤ 100 * 0x10000 →
        t.timeState = if 15 ≤ s.time.goodRun then 2 else 1) ∧
      (s.timeState = 2 → ((r : Int) - ((sec * secUnits : Nat) : Int)).natAbs ≤ 1000 * 0x10000 → t.timeState = 2 ∧ t.time.badRun = 0) ∧
      (s.timeState = 3 → t.timeState = if ((r : Int) - ((sec * secUnits : Nat) : Int)).natAbs ≤ 1000 * 0x10000 then 2 else 1) ∧
      SameBytes s t ∧ SameEngines s t ∧ SameLines s t ∧ SameLight s t ∧ SameHost s t ∧
      SameRegs [A.timePhaseErr, A.timeStatus] s t) ∧
  (∀ (s : State) (msg : List Byte), s.readTod msg = .bad →
    ∃ t, exec (.todMessageReceive msg) s = .next t ∧ t.time = s.time ∧
      t.reg (A.timeCnt 1) = BitVec.ofNat 32 (min 0xFFFFFFFF ((s.reg (A.timeCnt 1)).toNat + 1)) ∧
      SameBytes s t ∧ SameEngines s t ∧ SameLines s t ∧ SameLight s t ∧ SameHost s t ∧ SameRegs [A.timeCnt 1] s t) ∧
  (∀ s : State, s.timeState = 2 → s.elapsedSince s.time.lastGood 2000000000 = true →
    ∃ t, exec .holdoverTimeout s = .next t ∧ t.timeState = 3 ∧ t.time = s.time ∧
      t.reg (A.timeCnt 3) = BitVec.ofNat 32 (min 0xFFFFFFFF ((s.reg (A.timeCnt 3)).toNat + 1)) ∧
      t.log.seq = (s.log.seq + 1) % 0x100000000 ∧
      SameBytes s t ∧ SameEngines s t ∧ SameLines s t ∧ SameLight s t)

/-- R264, R266: TIME_SET, REF10M_CHANGE and the idle step (log 2). -/
def Obligations.TimeIsSetOnlyInFree : Prop :=
  (∀ (s : State) (v : Word), s.accepts A.timeCtrl = true → bit v 16 = true → s.timeState = 0 →
    ∃ t, exec (.timeSet v) s = .next t ∧
      t.time.dev = ((s.reg A.timeSetSecLo).toNat + 0x100000000 * s.f A.timeSetSecHi 0 16) * secUnits +
        (s.reg A.timeSetNs).toNat * 0x10000 ∧
      t.time.mono = s.time.mono ∧
      t.reg (A.timeCnt 2) = BitVec.ofNat 32 (min 0xFFFFFFFF ((s.reg (A.timeCnt 2)).toNat + 1)) ∧
      t.log.seq = (s.log.seq + 1) % 0x100000000 ∧
      SameBytes s t ∧ SameEngines s t ∧ SameLines s t ∧ SameLight s t) ∧
  (∀ (s : State) (v : Word), s.accepts A.timeCtrl = true → s.timeState ≠ 0 →
    ∃ t, exec (.timeSet v) s = .next t ∧ t.time = s.time ∧ t.log = s.log ∧
      SameBytes s t ∧ SameEngines s t ∧ SameLines s t ∧ SameLight s t ∧ SameRegs [A.timeCtrl] s t) ∧
  (∀ (s : State) (p : Bool), ∃ t, exec (.ref10mChange p) s = .next t ∧ t.time.tenMHz = p ∧ t.time.dev = s.time.dev ∧
      SameBytes s t ∧ SameEngines s t ∧ SameLines s t ∧ SameLight s t ∧ SameHost s t ∧ SameRegs [] s t) ∧
  (∀ s : State, s.pending = [] → ∃ t, step s = .next t ∧ t.time.mono = s.time.mono + 1 ∧
      (s.timeState = 0 → s.time.slew = 0 → t.time.dev = s.time.dev + 0x10000) ∧
      SameBytes s t ∧ SameEngines s t ∧ SameLines s t ∧ SameLight s t)

/-- R268-R270, R272: SYNC_SEND, PROBE_TIMER, PROBE_RECEIVE, ECHO_RECEIVE and SYNC_RECEIVE. -/
def Obligations.TimingMessagesMeasurePeers : Prop :=
  (∀ (s : State) (f : Nat), f < 32 → s.linkUp f = true → (s.fib f).waiting.get (fun _ => []) 0 = [] → (s.fib f).depth 0 < 4096 →
    ∃ t y tag, exec .syncSend s = .next t ∧
      ((t.fib f).queues.get noFlits 0).items = ((s.fib f).queues.get noFlits 0).items ++ [(y, tag, s.mono)] ∧
      y.dst = (s.fib f).farNode ∧ beAt (y.payload.drop 24) 0 1 = 0x40 ∧ hcrcOk (y.payload.drop 24) = true ∧
      SameBytes s t ∧ SameEngines s t ∧ SameLines s t ∧ SameBase s t ∧ SameHost s t ∧ SameRegs [] s t) ∧
  (∀ s : State, ∃ t, exec .probeTimer s = .next t ∧
      (∀ e, e < 64 → s.peerValid e = true → (t.peerTime e).sent = true ∧
        (t.peerTime e).seq = (if (s.peerTime e).sent then ((s.peerTime e).seq + 1) % 0x10000 else (s.peerTime e).seq)) ∧
      (∀ e p, e < 64 → s.peerValid e = true → s.msgPort e = some p → ∃ c ∈ t.ctrlQueue p, c.peer = e ∧
        beAt c.msg 0 1 = 0x41 ∧ beAt c.msg 2 2 = (t.peerTime e).seq % 0x10000) ∧
      SameBytes s t ∧ SameEngines s t ∧ SameLight s t ∧ t.ports = s.ports ∧ t.rte = s.rte ∧ t.sec = s.sec ∧ SameHost s t ∧
      SameRegs [] s t) ∧
  (∀ (s : State) (port : Fin 32) (msg : List Byte) (e p : Nat), hcrcOk msg = true → isTiming msg = true → beAt msg 0 1 = 0x41 →
    s.peerOf (beAt msg 4 4) = some e → s.msgPort e = some p →
    ∃ t c, exec (.probeReceive true port msg) s = .next t ∧ t.ctrlQueue p = s.ctrlQueue p ++ [c] ∧ c.peer = e ∧
      beAt c.msg 0 1 = 0x42 ∧ beAt c.msg 2 2 = beAt msg 2 2 ∧ beAt c.msg 8 12 = beAt msg 8 12 ∧
      beAt c.msg 20 12 = time96 (s.rxStamp true port) % 2 ^ 96 ∧ hcrcOk c.msg = true ∧
      t.reg (A.timeCnt 6) = BitVec.ofNat 32 (min 0xFFFFFFFF ((s.reg (A.timeCnt 6)).toNat + 1)) ∧
      SameBytes s t ∧ SameLight s t ∧ t.time = s.time ∧ SameRegs [A.timeCnt 6] s t) ∧
  (∀ (s : State) (port : Fin 16) (node e : Nat) (msg : List Byte), hcrcOk msg = true → isTiming msg = true → beAt msg 0 1 = 0x42 →
    s.peerOf node = some e → (s.peerTime e).sent = true → beAt msg 2 2 = (s.peerTime e).seq →
    ∃ t, exec (.echoReceive port node msg) s = .next t ∧
      (t.peerTime e).delay = (s.rxStamp true port : Int) - (untime96 (beAt msg 8 12) : Int) - sgn 64 (beAt msg 32 8) ∧
      (t.peerTime e).offset = 2 * ((untime96 (beAt msg 20 12) : Int) - (untime96 (beAt msg 8 12) : Int)) - (t.peerTime e).delay ∧
      (t.peerTime e).farState = nfld (beAt msg 1 1) 0 2 ∧ (t.peerTime e).seq = (s.peerTime e).seq ∧
      (∀ k, k ≠ e → t.peerTime k = s.peerTime k) ∧ t.time.dev = s.time.dev ∧ SameBytes s t ∧ SameLines s t ∧ SameLight s t) ∧
  (∀ (s : State) (line : Bool) (msg : List Byte), (hcrcOk msg = false ∨ isTiming msg = false ∨ beAt msg 0 1 = 0x40) →
    ∃ t, exec (.syncReceive line msg) s = .next t ∧
      t.reg (A.timeCnt 5) = BitVec.ofNat 32 (min 0xFFFFFFFF ((s.reg (A.timeCnt 5)).toNat + 1)) ∧ t.time = s.time ∧
      SameBytes s t ∧ SameLines s t ∧ SameLight s t ∧ SameHost s t ∧ SameRegs [A.timeCnt 5] s t)

/-- R271: the alarm at an ECHO (TIME_CNT 4; bit 0 of ERR_VEC_STATUS). -/
def Obligations.LargePeerOffsetsRaiseTheAlarm : Prop :=
  ∀ (s : State) (port : Fin 16) (node e : Nat) (msg : List Byte) (off : Int), hcrcOk msg = true → isTiming msg = true → beAt msg 0 1 = 0x42 →
    s.peerOf node = some e → (s.peerTime e).sent = true → beAt msg 2 2 = (s.peerTime e).seq →
    off = halfNs (2 * ((untime96 (beAt msg 20 12) : Int) - (untime96 (beAt msg 8 12) : Int)) -
      ((s.rxStamp true port : Int) - (untime96 (beAt msg 8 12) : Int) - sgn 64 (beAt msg 32 8))) →
    (s.f A.timeProbeCtrl 12 20 < off.natAbs → s.timeState = 2 → nfld (beAt msg 1 1) 0 2 = 2 →
      ∃ t le, exec (.echoReceive port node msg) s = .next t ∧
        t.reg (A.timeCnt 4) = BitVec.ofNat 32 (min 0xFFFFFFFF ((s.reg (A.timeCnt 4)).toNat + 1)) ∧
        t.log.entries.getLast? = some le ∧ le.code = 0x0902 ∧ le.arg0 = e ∧ le.arg1 = (satWord off).toNat ∧
        t.b A.errVecStatus 0 = true ∧
        (s.b A.errVecMask 0 = false → t.b (A.topMsixPba (s.f A.topIrqCtrl 0 9 / 32)) (s.f A.topIrqCtrl 0 9 % 32) = true ∨
          t.outbox = s.outbox ++ [.msix (s.f A.topIrqCtrl 0 9)
            (s.reg64 (A.topMsixAddrLo (s.f A.topIrqCtrl 0 9)) (A.topMsixAddrHi (s.f A.topIrqCtrl 0 9)))
            (s.reg (A.topMsixData (s.f A.topIrqCtrl 0 9))).toNat]) ∧
        t.time.dev = s.time.dev ∧ t.time.slew = s.time.slew ∧ t.time.stepNext = s.time.stepNext ∧ t.timeState = s.timeState ∧
        SameBytes s t ∧ SameLines s t ∧ SameLight s t ∧ SameRegsBut (fun a => isReportReg a || decide (a = A.timeCnt 4)) s t) ∧
    ((off.natAbs ≤ s.f A.timeProbeCtrl 12 20 ∨ s.timeState ≠ 2 ∨ nfld (beAt msg 1 1) 0 2 ≠ 2) →
      ∃ t, exec (.echoReceive port node msg) s = .next t ∧ t.log = s.log ∧ t.outbox = s.outbox ∧ t.time.dev = s.time.dev ∧
        t.time.slew = s.time.slew ∧ SameBytes s t ∧ SameLines s t ∧ SameLight s t ∧ SameRegs [] s t)

/-- R53: a queue executes only opcodes of its class. -/
def Obligations.QueueExecutesOnlyItsClass : Prop :=
  ∀ (s : State) (q : Fin 64) (c : Instr) (e : QEntry),
    c ∈ [Instr.allreduce q, .reduceScatter q, .allgather q, .broadcast q, .reduce q, .step q, .norm q, .send q, .recv q, .barrier q,
      .vstep q, .copy q, .fill q] →
    s.startable q = some e → opClass (Desc.opcode e.desc) ≠ some (s.qClass q) →
    (Desc.guard e.desc && Desc.waitEn e.desc && s.tokenFail (Desc.waitToken e.desc)) = false →
    ∃ t, exec c s = .next t ∧ t = s.completeAtStart q e 0x10 0 ∧ (t.queue q).started = (s.queue q).started ∧ t.cle = s.cle ∧
      t.rue = s.rue ∧ SameLines s t ∧ SameLight s t

/-- R93: CHUNK_RECEIVE of a chunk with a bad header. -/
def Obligations.ChunksWithABadHeaderAreDiscarded : Prop :=
  ∀ (s : State) (line : Bool) (f : Fin 32) (bytes : List Byte), (bytes.length < 32 ∨ hcrcOk (bytes.take 32) = false) →
    ∃ t, exec (.chunkReceive (if line then .line bytes else .fabric f bytes)) s = .next t ∧
      t.reg (A.cleCnt 5) = BitVec.ofNat 32 (min 0xFFFFFFFF ((s.reg (A.cleCnt 5)).toNat + 1)) ∧ t.cle = s.cle ∧ t.outbox = s.outbox ∧
      SameBytes s t ∧ t.que = s.que ∧ t.rue = s.rue ∧ t.lnd = s.lnd ∧ t.gal = s.gal ∧ SameLines s t ∧ SameLight s t ∧ SameHost s t ∧
      SameRegs [A.cleCnt 5] s t

/-- R54, R55: QUEUE_ENABLE. R62: QUEUE_CANCEL and QUEUE_DISABLE. -/
def Obligations.QueuesAreEnabledAndWithdrawn : Prop :=
  (∀ (s s1 : State) (q : Fin 64) (v : Word), s.accepts (A.queQCtrl q) = true → s.qActive q = false → bit v 0 = true →
    s1 = s.setReg (A.queQCtrl q) (qCtrlStored v) → s1.regionFits q = true → s1.regionMeets q = false → s1.qLoc q = 0 →
    ∃ t, exec (.queueEnable q v) s = .next t ∧ t.qEnabled q = true ∧ (t.queue q).fetch = 0 ∧ (t.queue q).cqTail = 0 ∧
      (t.queue q).fetched = [] ∧ (t.queue q).started = (s.queue q).started ∧
      (∀ i, i < 8 → t.bar4Byte (s.qBase q + 4 + i) = 0) ∧
      (∀ i, i < 16 * s1.qSize q → t.bar4Byte (s.qBase q + 0x1000 + 64 * s1.qSize q + i) = 0) ∧
      (∀ a, (a < s.qBase q + 4 ∨ s.qBase q + 12 ≤ a) →
        (a < s.qBase q + 0x1000 + 64 * s1.qSize q ∨ s.qBase q + 0x1000 + 80 * s1.qSize q ≤ a) → t.bar4Byte a = s.bar4Byte a) ∧
      (∀ a, t.galByte a = s.galByte a) ∧ (∀ a, t.hostByte a = s.hostByte a) ∧ (∀ p, p ≠ q.val → t.queue p = s.queue p) ∧
      SameLines s t ∧ SameLight s t ∧ t.cle = s.cle ∧ t.rue = s.rue ∧ t.lnd = s.lnd ∧ SameRegs [A.queQCtrl q] s t) ∧
  (∀ (s s1 : State) (q : Fin 64) (v : Word), s.accepts (A.queQCtrl q) = true → s.qActive q = false → bit v 0 = true →
    s1 = s.setReg (A.queQCtrl q) (qCtrlStored v) → (s1.regionFits q = false ∨ s1.regionMeets q = true) →
    ∃ t, exec (.queueEnable q v) s = .next t ∧ t.qEnabled q = false ∧ (t.queue q).halt = 2 ∧
      SameBytes s t ∧ SameLines s t ∧ SameLight s t ∧ t.cle = s.cle ∧ t.rue = s.rue ∧ t.lnd = s.lnd ∧ SameHost s t ∧
      SameRegs [A.queQCtrl q] s t) ∧
  (∀ (s : State) (q : Fin 64) (v : Word), s.accepts (A.queQCtrl q) = true → s.qEnabled q = true →
    qCtrlStored v = s.reg (A.queQCtrl q) &&& 0x01FF7FFE#32 → bit v 25 = true → bit v 0 = true →
    ∃ t, exec (.queueCancel q v) s = .next t ∧ t.qEnabled q = true ∧ (t.queue q).fetched = [] ∧ (t.queue q).stall = false ∧
      (t.queue q).started = (s.queue q).started ∧ SameLines s t ∧ SameLight s t ∧ t.cle = s.cle ∧ t.rue = s.rue ∧ t.lnd = s.lnd) ∧
  (∀ (s : State) (q : Fin 64) (v : Word), s.accepts (A.queQCtrl q) = true → s.qEnabled q = true →
    qCtrlStored v = s.reg (A.queQCtrl q) &&& 0x01FF7FFE#32 → bit v 0 = false →
    ∃ t, exec (.queueDisable q v) s = .next t ∧ t.qEnabled q = false ∧ (t.queue q).fetched = [] ∧ (t.queue q).stall = false ∧
      (t.queue q).started = (s.queue q).started ∧ SameLines s t ∧ SameLight s t ∧ t.cle = s.cle ∧ t.rue = s.rue ∧ t.lnd = s.lnd)

/-- R61, R65, R75: what a completion does, for a queue whose region lies in BAR4. -/
def Obligations.CompletionRecordIsWrittenInOrder : Prop :=
  ∀ (s : State) (q : Fin 64) (e : QEntry) (status flags detail : Nat) (late : Bool), e.mute = false → s.qLoc q = 0 →
    let c := (s.queue q).cqTail
    let n := s.qSize q
    let a := s.qBase q + (0x1000 + 64 * n + 16 * (c % n))
    let t := s.completeEntry q e status flags late detail
    t.bar4Read a 16 = leBytes 4 e.index ++ leBytes 1 status ++ leBytes 1 (flags % 16 + 16 * b2n late + 128 * (1 - c / n % 2)) ++
      leBytes 2 (Desc.userTag e.desc) ++ leBytes 8 detail ∧
    (t.queue q).cqTail = (c + 1) % 0x100000000 ∧ t.bar4Read (s.qBase q + 8) 4 = leBytes 4 ((c + 1) % 0x100000000) ∧
    (Desc.signalEn e.desc = true → t.tokenCount (Desc.signalToken e.desc) = (s.tokenCount (Desc.signalToken e.desc) + 1) % 0x100000000 ∧
      t.tokenFail (Desc.signalToken e.desc) =
        (s.tokenFail (Desc.signalToken e.desc) || !([0x00, 0x01, 0x02].contains status))) ∧
    (∀ b, (b < a ∨ a + 16 ≤ b) → (b < s.qBase q + 8 ∨ s.qBase q + 12 ≤ b) → t.bar4Byte b = s.bar4Byte b) ∧
    (∀ b, t.galByte b = s.galByte b) ∧ (∀ b, t.hostByte b = s.hostByte b) ∧ (t.queue q).started = (s.queue q).started ∧
    SameLines s t ∧ SameLight s t ∧ SameBase s t

/-- R57-R59, R65, R338: SQ_TAIL_WRITE, CQ_HEAD_WRITE, DESCRIPTOR_FETCH and TOKEN_COUNT_WRITE. -/
def Obligations.TailHeadFetchAndToken : Prop :=
  (∀ (s u : State) (q : Fin 64) (tail : Word) (ws : List (Nat × List Byte)), u = s.queueWrites q ws → s.qLoc q = 0 →
    s.qEnabled q = true → s.serving = true → (s.queue q).halt = 0 → reached 32 tail.toNat (s.queue q).tail = true →
    (tail.toNat + 0x100000000 - leNat (u.bar4Read (s.qBase q + 12) 4)) % 0x100000000 ≤ s.qSize q →
    ∃ t, exec (.sqTailWrite q tail ws) s = .next t ∧ t.bar4Read (s.qBase q) 4 = leBytes 4 tail.toNat ∧
      (t.queue q).tail = tail.toNat ∧ (t.queue q).halt = 0 ∧ (t.queue q).fetch = (s.queue q).fetch ∧
      (∀ a, (a < s.qBase q ∨ s.qBase q + 4 ≤ a) → t.bar4Byte a = u.bar4Byte a) ∧
      (∀ a, (a < s.qBase q ∨ s.qBase q + s.qBytes q ≤ a) → t.bar4Byte a = s.bar4Byte a) ∧ (∀ a, t.galByte a = s.galByte a) ∧
      (∀ a, t.hostByte a = s.hostByte a) ∧ SameLines s t ∧ SameLight s t ∧ SameHost s t ∧ SameRegs [] s t) ∧
  (∀ (s : State) (q : Fin 64) (head : Word), s.qLoc q = 0 → s.qEnabled q = true → s.serving = true → (s.queue q).halt = 0 →
    (s.queue q).stall = true → reached 32 (leNat (s.bar4Read (s.qBase q) 4)) (s.queue q).tail = true →
    (leNat (s.bar4Read (s.qBase q) 4) + 0x100000000 - head.toNat) % 0x100000000 ≤ s.qSize q →
    ∃ t, exec (.cqHeadWrite q head) s = .next t ∧ t.bar4Read (s.qBase q + 12) 4 = leBytes 4 head.toNat ∧
      (t.queue q).cqHead = head.toNat ∧ (t.queue q).halt = 0 ∧
      (∀ a, (a < s.qBase q + 12 ∨ s.qBase q + 16 ≤ a) → t.bar4Byte a = s.bar4Byte a) ∧ (∀ a, t.galByte a = s.galByte a) ∧
      (∀ a, t.hostByte a = s.hostByte a) ∧ SameLines s t ∧ SameLight s t ∧ SameHost s t ∧ SameRegs [] s t) ∧
  (∀ (s : State) (q : Fin 64), s.mayFetch q = true → s.qLoc q = 0 →
    let i := (s.queue q).fetch
    ∃ t, exec (.descriptorFetch q none) s = .next t ∧
      (t.queue q).fetched = (s.queue q).fetched ++
        [{ index := i, desc := s.bar4Read (s.qBase q + (0x1000 + 64 * (i % s.qSize q))) 64, mute := false }] ∧
      (t.queue q).fetch = (i + 1) % 0x100000000 ∧ t.bar4Read (s.qBase q + 4) 4 = leBytes 4 ((i + 1) % 0x100000000) ∧
      (t.queue q).started = (s.queue q).started ∧
      (∀ a, (a < s.qBase q + 4 ∨ s.qBase q + 8 ≤ a) → t.bar4Byte a = s.bar4Byte a) ∧ (∀ a, t.galByte a = s.galByte a) ∧
      (∀ a, t.hostByte a = s.hostByte a) ∧ SameLines s t ∧ SameLight s t ∧ SameBase s t ∧ SameHost s t ∧ SameRegs [] s t) ∧
  (∀ (s : State) (q : Fin 64) (k : Fin 8), s.mayFetch q = true → s.qLoc q = 0 →
    let a := s.qBase q + (0x1000 + 64 * ((s.queue q).fetch % s.qSize q)) + 8 * k
    ∃ t, exec (.descriptorFetch q (some k)) s = .next t ∧
      (∀ p, p < 64 → t.queue p =
        if (s.qEnabled p && decide (s.qLoc p = 0) && rangesMeet (s.qBase p) (s.qBytes p) a 8 && decide ((s.queue p).halt = 0)) = true
        then { s.queue p with halt := 3 } else s.queue p) ∧
      SameBytes s t ∧ t.cle = s.cle ∧ t.rue = s.rue ∧ t.lnd = s.lnd ∧ t.gal = s.gal ∧ SameLines s t ∧ SameLight s t ∧ SameBase s t ∧
      SameHost s t ∧ SameRegs [] s t) ∧
  (∀ (s : State) (n : Fin 256) (v : Word), s.accepts (A.queToken n) = true →
    ∃ t, exec (.tokenCountWrite n v) s = .next t ∧ t.reg (A.queToken n) = v ∧
      (∀ k, t.tokenFail k = s.tokenFail k) ∧ SameBytes s t ∧ SameEngines s t ∧ SameLines s t ∧ SameLight s t ∧ SameHost s t ∧
      SameRegs [A.queToken n] s t)

/-- R60, R73, R82, R90, R102: the start of a collective of each opcode. R60, R69, R73, R110: the starts of VSTEP, COPY and FILL. -/
def Obligations.EntriesStartInTheirOwnRow : Prop :=
  (∀ (s : State) (q : Fin 64) (op : Nat) (c : Instr) (e : QEntry) (gr : Group) (me : Nat),
     (op, c) ∈ [(1, Instr.allreduce q), (2, .reduceScatter q), (3, .allgather q), (4, .broadcast q), (5, .reduce q), (6, .step q),
       (7, .norm q), (8, .send q), (9, .recv q), (10, .barrier q)] →
     s.startsAs q op e → s.opensAs e gr me →
     ∃ t, exec c s = .next t ∧ (t.queue q).fetched = (s.queue q).fetched.drop 1 ∧
       t.cle.last.get (fun _ => 0) (Desc.group e.desc) = Desc.inst e.desc ∧
       ((∃ x, t.inst (Desc.group e.desc) = some x ∧ x.q = q.val ∧ x.entry = e ∧ x.group = gr ∧ x.self = me ∧
           x.mapSlot = (if op = 6 then s.freeMap else none)) ∨
         (t.inst (Desc.group e.desc) = none ∧ ∀ y ∈ (t.queue q).started, y.index ≠ e.index))) ∧
  (∀ (s : State) (q : Fin 64) (e : QEntry), s.startsAs q 0x20 e → s.check2 e.desc = false → s.check3 e.desc = none →
    Desc.elements e.desc ≠ 0 → s.lostChunks e.desc ((s.programOf (Desc.prog e.desc)).getD []) = none →
    ∃ t x, exec (.vstep q) s = .next t ∧ (t.queue q).fetched = (s.queue q).fetched.drop 1 ∧
      (t.queue q).started = (s.queue q).started ++ [e] ∧ t.cle.vsteps = s.cle.vsteps ++ [x] ∧ x.q = q.val ∧ x.entry = e ∧
      x.done = [] ∧ x.prog = s.progCopy e.desc ∧ t.cle.insts = s.cle.insts ∧ t.cle.xfers = s.cle.xfers ∧
      (∀ p, p ≠ q.val → t.queue p = s.queue p) ∧ SameBytes s t ∧ SameLines s t ∧ SameLight s t) ∧
  (∀ (s : State) (q : Fin 64) (e : QEntry) (op n : Nat) (c : Instr),
    (op, n, c) ∈ [(0x40, 2, Instr.copy q), (0x41, 1, .fill q)] → s.startsAs q op e → s.check3x e.desc = none →
    Desc.bytes e.desc ≠ 0 → s.lostSource e.desc = none → (s.takeXfer n).2.2 = true →
    ∃ t x, exec c s = .next t ∧ (t.queue q).fetched = (s.queue q).fetched.drop 1 ∧
      (t.queue q).started = (s.queue q).started ++ [e] ∧ t.cle.xfers = s.cle.xfers ++ [x] ∧ x.q = q.val ∧ x.entry = e ∧
      x.bufs = (s.takeXfer n).1 ∧ t.cle.insts = s.cle.insts ∧ t.cle.vsteps = s.cle.vsteps ∧
      (∀ p, p ≠ q.val → t.queue p = s.queue p) ∧ SameBytes s t ∧ SameLines s t ∧ SameLight s t) ∧
  (∀ (s : State) (q : Fin 64) (e : QEntry) (op n : Nat) (c : Instr),
    (op, n, c) ∈ [(0x40, 2, Instr.copy q), (0x41, 1, .fill q)] → s.startsAs q op e → s.check3x e.desc = none →
    Desc.bytes e.desc ≠ 0 → s.lostSource e.desc = none → (s.takeXfer n).2.2 = false → s.qLoc q = 0 →
    ∃ t, exec c s = .next t ∧ (t.queue q).fetched = (s.queue q).fetched.drop 1 ∧ (t.queue q).started = (s.queue q).started ∧
      t.cle = s.cle ∧ (∀ a, t.galByte a = s.galByte a) ∧ (∀ a, t.hostByte a = s.hostByte a) ∧ SameLines s t ∧ SameLight s t)

/-- R66, R67, R73: completions without a start. -/
def Obligations.RefusedEntriesCompleteAtTheirStart : Prop :=
  ∀ (s : State) (q : Fin 64) (op : Nat) (c : Instr) (e : QEntry),
    (op, c) ∈ [(1, Instr.allreduce q), (2, .reduceScatter q), (3, .allgather q), (4, .broadcast q), (5, .reduce q), (6, .step q),
      (7, .norm q), (8, .send q), (9, .recv q), (10, .barrier q), (0x20, .vstep q), (0x40, .copy q), (0x41, .fill q)] →
    s.startable q = some e → Desc.opcode e.desc = op →
    ((Desc.guard e.desc && Desc.waitEn e.desc && s.tokenFail (Desc.waitToken e.desc)) = true →
      exec c s = .next (s.completeAtStart q e 0x40 0)) ∧
    ((Desc.guard e.desc && Desc.waitEn e.desc && s.tokenFail (Desc.waitToken e.desc)) = false →
      (∀ off, check1 (s.qClass q) e.desc = some off → exec c s = .next (s.completeAtStart q e 0x10 off)) ∧
      (check1 (s.qClass q) e.desc = none →
        (op ≤ 10 → s.check2 e.desc = true → exec c s = .next (s.completeAtStart q e 0x12 (Desc.group e.desc))) ∧
        (op = 0x20 → s.check2 e.desc = true → exec c s = .next (s.completeAtStart q e 0x12 0)) ∧
        (∀ off, op ≤ 0x20 → s.check2 e.desc = false → s.check3 e.desc = some off → exec c s = .next (s.completeAtStart q e 0x10 off)) ∧
        (op ≤ 10 → s.check2 e.desc = false → s.check3 e.desc = none → s.groupPoison areaEffective (Desc.group e.desc) = none →
          s.effectiveGroup (Desc.group e.desc) = none → exec c s = .next (s.completeAtStart q e 0x11 (Desc.group e.desc))) ∧
        (op = 0x20 → s.check2 e.desc = false → s.check3 e.desc = none → Desc.elements e.desc = 0 →
          exec c s = .next (s.completeAtStart q e 0x01 0)) ∧
        (0x40 ≤ op → s.check3x e.desc = none → Desc.bytes e.desc = 0 → exec c s = .next (s.completeAtStart q e 0x01 0)))) ∧
    (∀ st detail, ((s.completeAtStart q e st detail).queue q).started = (s.queue q).started ∧
      (s.completeAtStart q e st detail).cle = s.cle ∧ (s.completeAtStart q e st detail).rue = s.rue ∧
      SameLines s (s.completeAtStart q e st detail) ∧ SameLight s (s.completeAtStart q e st detail))

/-- R5, R353: REGISTER_WRITE that is refused. -/
def Obligations.BadRegisterAccessesAreOnlyRecorded : Prop :=
  ∀ (s : State) (a size kind : Nat) (v : Word) (poisoned : Bool), s.accepts a = true →
    (kind = if poisoned = true then 6 else if size ≠ 4 ∨ a % 4 ≠ 0 then 1 else 2) →
    (poisoned = true ∨ size ≠ 4 ∨ a % 4 ≠ 0 ∨ regAt a = none) →
    ∃ t, exec (.registerWrite a size v poisoned) s = .next t ∧
      t.reg A.errAccessCount = BitVec.ofNat 32 (min 0xFFFFFFFF ((s.reg A.errAccessCount).toNat + 1)) ∧
      (s.b A.errAccessInfo 31 = false → t.reg A.errAccessAddr = BitVec.ofNat 32 a ∧
        t.reg A.errAccessInfo = BitVec.ofNat 32 (0x80000000 + kind) ∧ t.log.seq = (s.log.seq + 1) % 0x100000000) ∧
      (s.b A.errAccessInfo 31 = true → t.log = s.log ∧ t.reg A.errAccessAddr = s.reg A.errAccessAddr ∧
        t.reg A.errAccessInfo = s.reg A.errAccessInfo) ∧
      SameBytes s t ∧ SameEngines s t ∧ SameLines s t ∧ SameLight s t ∧ SameBase s t ∧ SameRegsBut isReportReg s t

/-- R8, R9: REGISTER_WRITE that is stored. R8: LATCHING_REGISTER_READ. -/
def Obligations.RegistersAreWrittenAndRead : Prop :=
  (∀ (s : State) (a i j : Nat) (v : Word) (r : RegRow), s.accepts a = true → a % 4 = 0 → regAt a = some (r, i, j) →
    a / 0x100000 ∈ [0x12, 0xC, 0xA, 0x8, 0x2, 0x6] →
    a ∉ [A.cmpCommit, A.rueShadowCtrl, A.lndCommit, A.timeCtrl, A.routeCommit, A.routeDownCtrl] →
    ∃ t, exec (.registerWrite a 4 v false) s = .next t ∧
      (∀ k, k < 32 → Nat.testBit (Nat.lor r.rw r.wo) k = true → r.clamps = [] → (t.reg a).getLsbD k = v.getLsbD k) ∧
      (∀ k, k < 32 → Nat.testBit (Nat.lor r.rw r.wo) k = false → Nat.testBit r.w1c k = true →
        (t.reg a).getLsbD k = ((s.reg a).getLsbD k && !v.getLsbD k)) ∧
      (∀ k, k < 32 → Nat.testBit (Nat.lor r.rw r.wo) k = false → Nat.testBit r.w1c k = false →
        (t.reg a).getLsbD k = (s.reg a).getLsbD k) ∧
      (∀ k, k < 32 → Nat.testBit r.st k = true → r.clamps = [] → (t.sreg a).getLsbD k = v.getLsbD k) ∧
      (∀ k, k < 32 → Nat.testBit r.st k = false → (t.sreg a).getLsbD k = (s.sreg a).getLsbD k) ∧
      SameBytes s t ∧ SameEngines s t ∧ SameLines s t ∧ SameLight s t ∧ SameHost s t ∧ SameRegs [a] s t) ∧
  (∀ (s : State) (a size : Nat) (v : Word) (poisoned : Bool), s.accepts a = false → exec (.registerWrite a size v poisoned) s = .next s) ∧
  (∀ (s : State) (a : Nat), s.accepts a = true → ∃ t, exec (.latchingRegisterRead a) s = .next t ∧
      t.outbox = s.outbox ++ [.readData a (s.readWord (a / 4 * 4))] ∧ t.commits = s.commits ∧ t.log = s.log ∧ t.host = s.host ∧
      SameBytes s t ∧ SameEngines s t ∧ SameLines s t ∧ SameLight s t ∧ SameBase s t ∧ SameRegs [] s t) ∧
  (∀ s : State, s.accepts A.timeNowSubns = true → ∃ t, exec (.latchingRegisterRead A.timeNowSubns) s = .next t ∧
      t.outbox = s.outbox ++ [.readData A.timeNowSubns (BitVec.ofNat 32 (s.time.dev % 0x10000))] ∧
      t.readWord A.timeNowNs = BitVec.ofNat 32 (s.time.dev / 0x10000 % 1000000000) ∧
      t.readWord A.timeNowSecLo = BitVec.ofNat 32 (s.time.dev / 0x10000 / 1000000000) ∧
      t.readWord A.timeNowSecHi = BitVec.ofNat 32 (s.time.dev / 0x10000 / 1000000000 / 0x100000000 % 0x10000)) ∧
  (∀ s : State, s.accepts A.timeNow64Lo = true → ∃ t, exec (.latchingRegisterRead A.timeNow64Lo) s = .next t ∧
      t.outbox = s.outbox ++ [.readData A.timeNow64Lo (BitVec.ofNat 32 s.now)] ∧
      t.readWord A.timeNow64Hi = BitVec.ofNat 32 (s.now / 0x100000000))

/-- R332: HOST_RESET. R331, R340: BUS_MASTER_ENABLE and MSIX_UNMASK. -/
def Obligations.HostResetAndMessages : Prop :=
  (∀ s : State, s.held = false → ∃ t, exec .hostReset s = .next t ∧
     (∀ q, q < 64 → t.qEnabled q = false ∧ (t.queue q).fetched = [] ∧
       (t.queue q).started = (s.queue q).started.map (fun e => { e with mute := true })) ∧
     (∀ a, t.bar4Byte a = 0) ∧ t.reg A.topBar2Base = regReset A.topBar2Base ∧ t.busMaster = false ∧
     (∀ v, v < 512 → t.reg (A.topMsixVctrl v) = regReset (A.topMsixVctrl v)) ∧
     (∀ a, t.galByte a = s.galByte a) ∧ (∀ a, t.hostByte a = s.hostByte a) ∧ (∀ a, t.flashByte a = s.flashByte a) ∧
     (∀ a, t.bootByte a = s.bootByte a) ∧ t.cle = s.cle ∧ t.rue = s.rue ∧ t.lnd = s.lnd ∧ t.gal = s.gal ∧
     SameLines s t ∧ SameLight s t ∧ SameBase s t ∧ t.log = s.log) ∧
  (∀ s : State, ∃ t, exec .busMasterEnable s = .next t ∧ t.busMaster = true ∧
      (∀ v, v < 512 → t.vectorMasked v = false → t.b (A.topMsixPba (v / 32)) (v % 32) = false) ∧
      SameBytes s t ∧ SameEngines s t ∧ SameLines s t ∧ SameLight s t ∧ SameBase s t ∧ t.log = s.log ∧
      SameRegsBut (fun a => decide (0xA000 ≤ a) && decide (a < 0xA040)) s t) ∧
  (∀ (s : State) (v : Fin 512), s.host.fnMask = false → s.busMaster = true → s.b (A.topMsixPba (v / 32)) (v % 32) = true →
    ∃ t, exec (.msixUnmask v) s = .next t ∧ t.b (A.topMsixVctrl v) 0 = false ∧ t.b (A.topMsixPba (v / 32)) (v % 32) = false ∧
      t.outbox = s.outbox ++ [.msix v (s.reg64 (A.topMsixAddrLo v) (A.topMsixAddrHi v)) (s.reg (A.topMsixData v)).toNat] ∧
      SameBytes s t ∧ SameEngines s t ∧ SameLines s t ∧ SameLight s t ∧ SameBase s t ∧ SameHost s t ∧
      SameRegs [A.topMsixVctrl v, A.topMsixPba (v / 32)] s t) ∧
  (∀ (s : State) (v : Fin 512), s.b (A.topMsixPba (v / 32)) (v % 32) = false →
    ∃ t, exec (.msixUnmask v) s = .next t ∧ t.b (A.topMsixVctrl v) 0 = false ∧ t.outbox = s.outbox ∧
      SameBytes s t ∧ SameEngines s t ∧ SameLines s t ∧ SameLight s t ∧ SameBase s t ∧ SameHost s t ∧
      SameRegs [A.topMsixVctrl v] s t)

/-- R350, R351, R370: CC_HEARTBEAT_TIMEOUT, CC_RESTART_DONE, SUSPECT_CLEAR and MESH_CHECK. -/
def Obligations.CoresSuspicionAndMesh : Prop :=
  (∀ (s : State) (c : Fin 8), s.ccRetired c = false → s.ccRestarting c = false → s.stepDone 1 = true → s.held = false →
    (∀ m ∈ s.que.misses, m.1 ≠ c.val) →
    ∃ t, exec (.ccHeartbeatTimeout c) s = .next t ∧ t.ccRestarting c = true ∧ t.ccRetired c = false ∧
      (c.val, s.mono) ∈ t.que.misses ∧ (∀ i ∈ t.cle.insts, s.watcher i.2.q ≠ some c.val)) ∧
  (∀ (s : State) (c : Fin 8), s.ccRestarting c = true →
    ∃ t, exec (.ccRestartDone c) s = .next t ∧ t.ccRestarting c = false ∧
      (∀ k : Fin 8, k ≠ c → t.ccRestarting k = s.ccRestarting k) ∧ SameBytes s t ∧ SameLines s t ∧ SameLight s t ∧
      t.cle = s.cle ∧ t.rue = s.rue ∧ t.lnd = s.lnd) ∧
  (∀ (s : State) (v : Word), s.accepts A.errCtrl = true → bit v 9 = true →
    ∃ t, exec (.suspectClear v) s = .next t ∧ t.f A.errHealth 0 2 = 0 ∧ t.f A.errHealth 8 5 = 0 ∧ t.reg A.errPattern = 0 ∧
      t.faults.history = [] ∧ t.faults.patPhases = [] ∧
      SameBytes s t ∧ SameEngines s t ∧ SameLines s t ∧ SameLight s t ∧ SameHost s t ∧
      SameRegs [A.errCtrl, A.errHealth, A.errPattern] s t) ∧
  (∀ s : State, s.power.state ≠ .off → s.elapsed s.pins.lastMesh 100000 = true → s.f A.secAlarmStatus 1 8 = 0 →
    ∃ t, exec (.meshCheck false) s = .next t ∧ t.pins.lastMesh = s.mono ∧ t.f A.secAlarmStatus 0 9 = 0 ∧
      t.f A.secAlarmLatch 0 9 = s.f A.secAlarmLatch 0 9 ∧
      SameBytes s t ∧ SameEngines s t ∧ SameLines s t ∧ SameLight s t ∧ SameHost s t ∧ SameRegs [A.secAlarmStatus] s t) ∧
  (∀ s : State, s.power.state ≠ .off → s.elapsed s.pins.lastMesh 100000 = true → nfld s.alarmArmed 0 1 = 1 →
    ∃ t, exec (.meshCheck true) s = .next t ∧ t.b A.secAlarmStatus 0 = true ∧ t.b A.secAlarmLatch 0 = true ∧ t.sec.sas = [])

/-- R7, R63, R126, R332, R377, R378: entry to RESET and its release. -/
def Obligations.ResetIsEnteredAndLeft : Prop :=
  (∀ (s : State) (c : Instr), (c = .powerFail ∨ c = .fundamentalResetAssert) ∧ s.held = false ∨
      (c = .goingDownNoticeExpire ∧ ∃ n, s.rte.downAt = some n ∧ n ≤ s.mono) →
    ∃ t, exec c s = .next t ∧ t.power.state = .reset ∧ t.cle = {} ∧ t.que = {} ∧ t.sec.sas = [] ∧
      (∀ u, t.unitValid u = false) ∧ (∀ a, t.bar4Byte a = 0) ∧ (∀ a, t.galByte a = s.galByte a) ∧
      (∀ a, t.hostByte a = s.hostByte a) ∧ (∀ a, t.flashByte a = s.flashByte a) ∧ t.log.seq = s.log.seq ∧
      t.log.entries.length ≤ 64 ∧ (∀ e ∈ t.log.entries, e ∈ s.log.entries ∧ 3 ≤ e.cls) ∧
      t.boot.fuses = s.boot.fuses ∧ t.boot.record = s.boot.record ∧ t.pending = s.pending) ∧
  (∀ s : State, ∃ t, exec .alwaysOnPowerUp s = .next t ∧ t.power.state = .ao ∧ t.log = { entries := [], seq := 0 } ∧
      t.pins.mainPg = false ∧ t.pins.perst = true ∧ t.sec.sas = [] ∧ t.boot.fuses = s.boot.fuses ∧
      (∀ a, t.galByte a = 0) ∧ (∀ a, t.flashByte a = s.flashByte a)) ∧
  (∀ s : State, s.power.state = .reset → s.stepDone 0 = false → s.bootFail = 0 → s.life.erasing = false →
    ∃ t, exec .resetRelease s = .next t ∧ t.power.state ≠ .reset ∧ t.pins.mainPg = true ∧ t.pins.perst = false ∧
      t.rte.incarnation ≠ 0)

/-- R296, R308, R313, R316: the commands of bring-up steps 1, 2 and 4. -/
def Obligations.BringupStepsAdvance : Prop :=
  (∀ (s : State) (n : Fin 5), s.stepBegins n = true → configEntries s.boot.image = [] → n.val ≠ 3 → n.val ≠ 0 →
    ∃ t, exec (.bringupStepBegin n) s = .next t ∧ t.bootStep = n.val ∧ t.power.state = .bringup ∧ t.bootFail = 0 ∧
      SameBytes s t ∧ SameLines s t ∧ SameLight s t ∧ t.que = s.que ∧ t.cle = s.cle ∧ t.log = s.log) ∧
  (∀ (s : State) (c : Fin 6), s.fwLoading c = true → s.boot.update = none →
    ∃ t, exec (.firmwarePollRound c []) s = .next t ∧ nfld t.boot.fwComplete c 1 = 1 ∧
      t.boot.firmware.get (fun _ => []) c = s.bundleBytes c ∧ SameBytes s t) ∧
  (∀ (s : State) (failed : List Nat), s.inStep 2 = true → s.boot.galleryDone = false →
    ∃ t, exec (.galleryTrainingDone failed) s = .next t ∧ t.boot.galleryDone = true ∧ t.boot.landingDone = s.boot.landingDone ∧
      (∀ a, t.galByte a = s.galByte a) ∧ (∀ a, t.bar4Byte a = s.bar4Byte a)) ∧
  (∀ (s : State) (failed : List Nat), s.inStep 2 = true → s.boot.landingDone = false →
    ∃ t, exec (.landingTestDone failed) s = .next t ∧ t.boot.landingDone = true ∧ t.lnd.banks.length = 192 ∧
      (∀ n, n < 192 → n ∈ failed → (t.lnd.banks.getD n {}).pool = none) ∧ (∀ a, t.galByte a = s.galByte a)) ∧
  (∀ (s : State) (c : Fin 8) (pass : Bool), s.inStep 4 = true → nfld s.boot.vectorDone c 1 = 0 → s.ccRetired c = false →
    ∃ t, exec (.vectorUnitTestDone c pass) s = .next t ∧ nfld t.boot.vectorDone c 1 = 1 ∧
      (pass = false → nfld s.boot.vectorBad c 1 = 0 → nfld t.boot.vectorBad c 1 = 1) ∧
      (pass = true → t.boot.vectorBad = s.boot.vectorBad) ∧ (∀ a, t.galByte a = s.galByte a)) ∧
  (∀ (s : State) (n : Fin 4) (failed : List (Bool × Nat)), s.inStep 4 = true → nfld s.boot.rueDone n 1 = 0 →
    ∃ t, exec (.rueSetTestDone n failed) s = .next t ∧ nfld t.boot.rueDone n 1 = 1 ∧ t.rueIn n = true ∧
      (∀ a, t.galByte a = s.galByte a))

/-- R305, R314, R315: LINK_QUALIFIED, QUAL_WAIT_TIMEOUT and TX_SPARE_READMIT_TIMEOUT. -/
def Obligations.LinksQualifyOrAreLeftOut : Prop :=
  (∀ (s : State) (p : Fin 16) (l : Fin 4), s.portQualifies p = true → Nat.lor (s.boot.hostLanes.get (fun _ => 0) p) (2 ^ l.val) = 15 →
    ∃ t, exec (.linkQualified (.lane p l) true) s = .next t ∧ (t.portQualOf p).passed = true ∧ t.b A.bootLinkQual p = true ∧
      (∀ a, t.galByte a = s.galByte a)) ∧
  (∀ (s : State) (f : Fin 32) (tx : Bool) (w : Fin 16), s.waveWaits f tx w = true → ((s.fib f).lane w).locked = true →
    (s.waveQualOf f tx w).readmitSince = none →
    ∃ t, exec (.linkQualified (.wave f tx w) true) s = .next t ∧ (t.waveQualOf f tx w).passed = true ∧
      t.b (A.optWlOut (f / 4) (f % 4)) ((if tx then 0 else 16) + w) = false ∧ (∀ a, t.galByte a = s.galByte a)) ∧
  (∀ (s : State) (p : Fin 16) (l : Fin 4), s.portEnabled p = true → s.framersOn p = false → (s.portQualOf p).passed = false →
    (s.portQualOf p).leftOut = false → s.qualLate (s.portQualOf p).since = true →
    ∃ t, exec (.qualWaitTimeout (.lane p l)) s = .next t ∧ (t.portQualOf p).leftOut = true ∧ (∀ a, t.galByte a = s.galByte a)) ∧
  (∀ (s : State) (f : Fin 32) (w : Fin 16), s.elapsedSince (s.waveQualOf f true w).readmitSince 2000000000 = true →
    ∃ t, exec (.txSpareReadmitTimeout f w) s = .next t ∧ t.b (A.optWlOut (f / 4) (f % 4)) w = true ∧
      (∀ a, t.galByte a = s.galByte a))

/-- R302, R303, R307, R310: the image commands where they take effect. -/
def Obligations.ImagesLicencesAndUpdates : Prop :=
  (∀ (s : State) (v : Word), s.accepts A.bootRecCtrl = true → bit v 31 = true → bit v 8 = false → s.imageOk s.bootImage false = false →
    ∃ t, exec (.recoveryGo v) s = .next t ∧ t.f A.bootRecCtrl 12 4 = 1 ∧ t.boot = s.boot ∧ SameBytes s t ∧ SameLines s t ∧
      SameLight s t ∧ SameEngines s t ∧ SameRegs [A.bootRecCtrl] s t) ∧
  (∀ (s : State) (v : Word), s.accepts A.bootRecCtrl = true → bit v 31 = true → bit v 8 = false → s.bootFail = 1 → s.stepDone 0 = false →
    ∃ t, exec (.recoveryGo v) s = .next t ∧ (∀ a, t.galByte a = s.galByte a) ∧
      (s.imageOk s.bootImage false = true → t.stepDone 0 = true ∧ t.f A.bootRecCtrl 12 4 = 0 ∧ t.boot.image = s.bootImage) ∧
      (s.imageOk s.bootImage false = false → t.stepDone 0 = false ∧ t.f A.bootRecCtrl 12 4 = 1)) ∧
  (∀ (s : State) (v : Word), s.accepts A.bootRecCtrl = true → bit v 31 = true → bit v 8 = true → s.f A.bootStatus 8 2 = 2 →
    ∃ t, exec (.recoveryFlashWrite v true) s = .next t ∧ t.f A.bootRecCtrl 12 4 = 0 ∧
      (∀ i, i < imageMax → t.flashByte ((b2n (bit v 9)) * 0x1000000 + i) = s.bootByte i) ∧
      (∀ a, (a < (b2n (bit v 9)) * 0x1000000 ∨ (b2n (bit v 9)) * 0x1000000 + imageMax ≤ a) → t.flashByte a = s.flashByte a) ∧
      (∀ a, t.galByte a = s.galByte a) ∧ (∀ a, t.bootByte a = s.bootByte a) ∧ SameEngines s t ∧ SameLines s t ∧ SameLight s t ∧
      SameBase s t ∧ SameRegs [A.bootRecCtrl] s t) ∧
  (∀ (s : State) (v : Word), s.accepts A.bootLicCtrl = true → bit v 0 = true →
    (∀ x ∈ s.boot.licences, x.serial ≠ leAt s.licWindow 24 8) →
    ∃ t, exec (.licenceInstall v) s = .next t ∧ SameBytes s t ∧ SameEngines s t ∧ SameLines s t ∧ SameLight s t ∧
      (s.licenceOk s.licWindow = true → SameRegs [A.bootLicCtrl, A.bootFeatures] s t ∧ t.f A.bootLicCtrl 8 4 = 0 ∧
        t.reg A.bootFeatures = BitVec.ofNat 32 (Nat.lor (s.reg A.bootFeatures).toNat (leAt s.licWindow 32 4)) ∧
        (∃ x ∈ t.boot.licences, x.serial = leAt s.licWindow 24 8) ∧ (∀ x ∈ s.boot.licences, x ∈ t.boot.licences)) ∧
      (s.licenceOk s.licWindow = false → t.f A.bootLicCtrl 8 4 = 1 ∧ t.reg A.bootFeatures = s.reg A.bootFeatures ∧
        t.boot.licences = s.boot.licences)) ∧
  (∀ (s : State) (v : Word), s.accepts A.bootUpdCtrl = true → bit v 0 = true → s.boot.update = none →
    let a := s.reg64 A.bootUpdAddrLo A.bootUpdAddrHi
    let n := (s.reg A.bootUpdLen).toNat
    s.inService = true → n ≤ imageMax → s.inWorking a n = true → s.firstPoison a n = none → 256 ≤ n →
    imgLength (s.galRead a n) ≤ n → imgSeq s.boot.image < imgSeq (s.galRead a n) →
    ∃ t, exec (.firmwareUpdateGo v) s = .next t ∧ SameBytes s t ∧ SameEngines s t ∧ SameLines s t ∧ SameLight s t ∧
      SameRegs [A.bootUpdCtrl] s t ∧
      (s.imageOk (s.galRead a n) true = true → t.f A.bootUpdCtrl 8 4 = 3 ∧ t.boot.update = some (s.galRead a n) ∧
        t.boot.switched = 0) ∧
      (s.imageOk (s.galRead a n) true = false → t.f A.bootUpdCtrl 8 4 = 1 ∧ t.boot = s.boot)) ∧
  (∀ (s : State) (c : Fin 6) (n : Nat), s.awaitsSwitch c = true → c.val ≠ 1 → c.val ≠ 0 → nfld s.boot.switched 0 1 = 0 →
    recordsOf s.fwImage 5 ≠ [] →
    ∃ t, exec (.controllerBankSwitch c n) s = .next t ∧ nfld t.boot.switched c 1 = 1 ∧
      nfld t.boot.banks c 1 = 1 - nfld s.boot.banks c 1 ∧ t.boot.firmware.get (fun _ => []) c = s.bundleBytes c ∧
      SameBytes s t ∧ SameEngines s t ∧ SameLines s t ∧ SameLight s t) ∧
  (∀ s : State, s.awaitsSwitch 1 = true → s.elapsed s.boot.updateAt 10000000000 = true →
    ∃ t, exec .ccBankSwitchTimeout s = .next t ∧ nfld t.boot.switched 1 1 = 1 ∧
      (∀ c, c < 8 → nfld (t.f A.bootUpdCtrl 16 8) c 1 = b2n (s.oldCores.contains c)) ∧ SameBytes s t ∧ SameEngines s t) ∧
  (∀ (s : State) (v : Word), s.accepts A.bootCtrl = true → bit v 16 = true →
    ∃ t, exec (.svnBurn v) s = .next t ∧ t.boot.fuses.svn = max s.boot.fuses.svn (imgSvn s.boot.image) ∧
      t.boot.fuses.lifecycle = s.boot.fuses.lifecycle ∧ SameBytes s t ∧ SameEngines s t ∧ SameLines s t ∧ SameLight s t ∧
      SameRegs [A.bootCtrl] s t)

/-- R318, R319, R322-R324: LIFECYCLE_ADVANCE, RETURN_ERASE_DONE and the debug commands. -/
def Obligations.LifecycleAndDebugLevels : Prop :=
  (∀ (s : State) (v : Word), s.accepts A.topLcCtrl = true → bit v 8 = true → s.life.erasing = false → fld v 0 2 = s.lcState + 1 →
    fld v 0 2 ≠ 3 → s.dbgLevel = 2 → s.boot.fuses.lifecycle.length = 8 →
    ∃ t, exec (.lifecycleAdvance v) s = .next t ∧ t.power.state = .reset ∧ t.sec.sas = [] ∧ t.lcState = fld v 0 2 ∧ t.cle = {}) ∧
  (∀ (s : State) (v : Word), s.accepts A.topLcCtrl = true → bit v 8 = true → s.life.erasing = false → fld v 0 2 ≠ s.lcState + 1 →
    ∃ t, exec (.lifecycleAdvance v) s = .next t ∧ t.f A.topLcCtrl 12 4 = 1 ∧ SameBytes s t ∧ SameEngines s t ∧ SameLines s t ∧
      SameLight s t ∧ SameBase s t ∧ SameHost s t ∧ SameRegs [A.topLcCtrl] s t) ∧
  (∀ s : State, s.life.erasing = true → s.power.state = .safe →
    ∃ t, exec .returnEraseDone s = .next t ∧ t.boot.fuses.returnClean = true ∧ t.life.erasing = false ∧ (∀ a, t.galByte a = 0) ∧
      (∀ a, a < 0x2000000 → t.flashByte a = 0xFF#8) ∧ (∀ a, 0x2000000 ≤ a → t.flashByte a = s.flashByte a)) ∧
  (∀ (s : State) (v : Word), s.accepts A.topDbgCtrl = true → fld v 0 3 = 1 → fld v 3 1 = b2n (s.b A.topDbgCtrl 3) →
    s.tokenCheck s.dbgWindow ≠ 0 →
    ∃ t, exec (.debugTokenPresent v) s = .next t ∧ t.f A.topDbgStatus 8 4 = s.tokenCheck s.dbgWindow ∧ t.dbgLevel = s.dbgLevel ∧
      SameBytes s t ∧ SameEngines s t ∧ SameLines s t ∧ SameLight s t ∧ SameBase s t ∧
      SameRegs [A.topDbgCtrl, A.topDbgStatus, A.topDbgNonceLo, A.topDbgNonceHi] s t) ∧
  (∀ (s : State) (v : Word), s.accepts A.topDbgCtrl = true → fld v 0 3 = 1 → fld v 3 1 = b2n (s.b A.topDbgCtrl 3) →
    s.dbgLevel ≠ 2 →
    ∃ t, exec (.debugTokenPresent v) s = .next t ∧ t.f A.topDbgStatus 8 4 = s.tokenCheck s.dbgWindow ∧
      (∀ a, t.galByte a = s.galByte a) ∧
      (s.tokenCheck s.dbgWindow = 0 → t.dbgLevel = tokLevel s.dbgWindow ∧ t.life.notAfter = tokNotAfter s.dbgWindow ∧ t.sec.sas = [])) ∧
  (∀ (s : State) (v : Word), s.accepts A.topDbgCtrl = true → fld v 0 3 = 4 → s.lcState = 0 →
    ∃ t, exec (.debugOpen v) s = .next t ∧ t.dbgLevel = 2 ∧ t.b A.topDbgStatus 3 = true ∧ t.sec.sas = [] ∧
      (∀ a, t.galByte a = s.galByte a)) ∧
  (∀ (s : State) (v : Word), s.accepts A.topDbgCtrl = true → fld v 0 3 = 2 → s.dbgLevel = 1 →
    ∃ t, exec (.debugClose v) s = .next t ∧ t.dbgLevel = 0 ∧ t.life.notAfter = 0 ∧ (∀ a, t.galByte a = s.galByte a)) ∧
  (∀ s : State, s.life.notAfter ≠ 0 → s.life.notAfter * 1000000000 ≤ s.time.dev / 0x10000 → s.dbgLevel = 1 →
    ∃ t, exec .debugExpire s = .next t ∧ t.dbgLevel = 0 ∧ t.life.notAfter = 0 ∧ (∀ a, t.galByte a = s.galByte a))

/-- R328, R329, R334: the DOE mailbox. The discovery layout is presumed (log 9). -/
def Obligations.AttestationAnswersAndItsBucket : Prop :=
  (∀ (s : State) (r : List Byte), s.doeServed = true → s.boot.fuses.attKey = true → r = [0x01#8, 0, 0, 0] →
    ∃ t k, exec (.attestGetKey r) s = .next t ∧ t.host.doeResponse = some ([0x01#8, 0, 0, 0] ++ k) ∧ k.length = 60 ∧
      SameBytes s t ∧ SameEngines s t ∧ SameLines s t ∧ SameLight s t ∧ SameBase s t ∧ SameRegs [] s t) ∧
  (∀ (s : State) (n : List Byte), s.doeServed = true → s.boot.fuses.attKey = true → n.length = 32 → s.f A.topAttStatus 16 4 = 0 →
    s.life.attIndex < 0x40000 →
    ∃ t, exec (.attest ([0x02#8, 0, 0, 0] ++ n)) s = .next t ∧ t.host.doeResponse = some [0x02#8, 0x01#8, 0, 0] ∧
      SameBytes s t ∧ SameEngines s t ∧ SameLines s t ∧ SameLight s t ∧ SameBase s t ∧ SameRegs [] s t) ∧
  (∀ (s : State) (n : List Byte), s.doeServed = true → s.boot.fuses.attKey = true → n.length = 32 → s.f A.topAttStatus 16 4 ≠ 0 →
    s.life.attIndex < 0x40000 →
    ∃ t m, exec (.attest ([0x02#8, 0, 0, 0] ++ n)) s = .next t ∧ t.host.doeResponse = some ([0x02#8, 0x00#8, 0, 0] ++ m) ∧
      leAt m 0 4 = 0x54505441 ∧ (m.drop 32).take 32 = n ∧
      t.f A.topAttStatus 16 4 = s.f A.topAttStatus 16 4 - 1 ∧ t.life.attIndex = s.life.attIndex + 1 ∧ t.boot = s.boot ∧
      SameBytes s t ∧ SameEngines s t ∧ SameLines s t ∧ SameLight s t ∧ SameRegs [A.topAttStatus] s t) ∧
  (∀ s : State, s.f A.topAttStatus 16 4 < 8 → s.elapsed s.life.refilledAt 1000000000 = true →
    ∃ t, exec .attestBucketRefill s = .next t ∧ t.f A.topAttStatus 16 4 = s.f A.topAttStatus 16 4 + 1 ∧
      t.life.refilledAt = s.life.refilledAt + 1000000000 ∧
      SameBytes s t ∧ SameEngines s t ∧ SameLines s t ∧ SameLight s t ∧ SameRegs [A.topAttStatus] s t) ∧
  (∀ (s : State) (r : List Byte), s.doeServed = true → leAt r 0 1 = 1 →
    ∃ t, exec (.doeDiscovery r) s = .next t ∧ t.host.doeResponse = some (leBytes 2 Config.vendorId ++ [0x01#8, 0x00#8]) ∧
      SameBytes s t ∧ SameEngines s t ∧ SameLines s t ∧ SameLight s t ∧ SameBase s t ∧ SameRegs [] s t) ∧
  (∀ s : State, ∃ t, exec .doeAbort s = .next t ∧ t.host.doeResponse = none ∧ t.host.bme = s.host.bme ∧ t.outbox = s.outbox ∧
      SameBytes s t ∧ SameEngines s t ∧ SameLines s t ∧ SameLight s t ∧ SameBase s t ∧ SameRegs [] s t)

/-- R121-R123, R125: SCRUB_PATROL_READ. -/
def Obligations.PatrolReadsAreSortedByWhatTheyFind : Prop :=
  (∀ (s : State) (addr bank row : Nat), s.poisoned (addr / 64) = false →
    exec (.scrubPatrolRead addr 0 bank row) s = .next s) ∧
  (∀ (s : State) (addr symbols bank row : Nat) (r : Row), s.b A.galScrubCtrl 8 = true → addr < galBytes → s.poisoned (addr / 64) = false →
    (symbols = 1 ∨ symbols = 2) → r = { chan := s.servingChannel (addr / 64 * 64), bank := bank, row := row } →
    (∀ e ∈ s.gal.corrected, e.1 ≠ r) → (s.gal.rates.get (fun _ => {}) r.chan).run < 8 →
    ∃ t, exec (.scrubPatrolRead addr symbols bank row) s = .next t ∧ (r, s.mono) ∈ t.gal.corrected ∧
      t.reg (A.galCnt 0) = BitVec.ofNat 32 (min 0xFFFFFFFF ((s.reg (A.galCnt 0)).toNat + 1)) ∧
      (symbols = 1 → t.gal.rowCopies = s.gal.rowCopies ∧ t.gal.chanCopies = s.gal.chanCopies) ∧
      (symbols = 2 → s.gal.spares.get (fun _ => 0) (r.chan * 65536 + bank) < 8 → (∀ x ∈ s.gal.rowCopies, x.1 ≠ r) →
        t.gal.rowCopies = s.gal.rowCopies ++ [(r, s.mono)] ∧ t.gal.chanCopies = s.gal.chanCopies) ∧
      t.gal.poison = s.gal.poison ∧ t.gal.valid = s.gal.valid ∧
      SameBytes s t ∧ SameLines s t ∧ SameLight s t ∧ t.que = s.que ∧ t.cle = s.cle ∧ t.rue = s.rue ∧ t.lnd = s.lnd) ∧
  (∀ (s : State) (addr symbols bank row : Nat) (r : Row), s.b A.galScrubCtrl 8 = true → addr < galBytes → s.poisoned (addr / 64) = false →
    3 ≤ symbols → r = { chan := s.servingChannel (addr / 64 * 64), bank := bank, row := row } →
    s.queueAt (addr / 64 * 64) = none → s.locate (addr / 64 * 64) = .state →
    s.gal.spares.get (fun _ => 0) (r.chan * 65536 + bank) < 8 → (∀ x ∈ s.gal.rowCopies, x.1 ≠ r) →
    ∃ t, exec (.scrubPatrolRead addr symbols bank row) s = .next t ∧ t.poisoned (addr / 64) = true ∧
      t.unitValid (s.unitOf (addr / 64 * 64)) = false ∧ t.gal.rowCopies = s.gal.rowCopies ++ [(r, s.mono)] ∧
      t.reg (A.galCnt 1) = BitVec.ofNat 32 (min 0xFFFFFFFF ((s.reg (A.galCnt 1)).toNat + 1)) ∧
      t.log.seq = (s.log.seq + 1) % 0x100000000 ∧
      SameBytes s t ∧ SameLines s t ∧ SameLight s t ∧ t.que = s.que ∧ t.cle = s.cle ∧ t.rue = s.rue ∧ t.lnd = s.lnd ∧
      SameRegsBut (fun a => isReportReg a || decide (a = A.galCnt 1)) s t)

/-- R123, R124, R312: ROW_REPAIR_DONE and CHANNEL_RETIRE_DONE. -/
def Obligations.RepairsEndAndAreRecorded : Prop :=
  (∀ (s : State) (r : Row) (t0 : Nat) (rest : List (Row × Nat)), s.gal.rowCopies = (r, t0) :: rest →
    s.gal.rows.get (fun _ => 0) r.chan < 63 → s.boot.recordBytes ≤ 0x80000 →
    ∃ t e, exec .rowRepairDone s = .next t ∧ t.gal.rowCopies = rest ∧ t.gal.chanCopies = s.gal.chanCopies ∧
      t.gal.rows.get (fun _ => 0) r.chan = s.gal.rows.get (fun _ => 0) r.chan + 1 ∧
      t.gal.spares.get (fun _ => 0) (r.chan * 65536 + r.bank) = s.gal.spares.get (fun _ => 0) (r.chan * 65536 + r.bank) + 1 ∧
      t.gal.poison = s.gal.poison ∧ t.gal.valid = s.gal.valid ∧ t.boot.record = s.boot.record ++ [e] ∧ e.kind = 5 ∧
      e.payload.take 4 = leBytes 4 (s.gal.spares.get (fun _ => 0) (r.chan * 65536 + r.bank)) ∧
      t.reg (A.galCnt 2) = BitVec.ofNat 32 (min 0xFFFFFFFF ((s.reg (A.galCnt 2)).toNat + 1)) ∧
      SameBytes s t ∧ SameLines s t ∧ SameLight s t ∧ t.que = s.que ∧ t.cle = s.cle ∧ t.rue = s.rue ∧ t.lnd = s.lnd ∧
      SameRegsBut (fun a => isReportReg a || decide (a = A.galCnt 2)) s t) ∧
  (∀ (s : State) (c : Fin 192), (∃ x ∈ s.gal.chanCopies, x.chan = c.val) → s.boot.recordBytes ≤ 0x80000 →
    s.f A.galRegionStatus 8 8 < 255 →
    ∃ t e, exec (.channelRetireDone c) s = .next t ∧ t.chanRetired c = true ∧ (∀ x ∈ t.gal.chanCopies, x.chan ≠ c.val) ∧
      t.f A.galRegionStatus 8 8 = s.f A.galRegionStatus 8 8 + 1 ∧ t.reserveFree = s.reserveFree ∧
      (∀ k, k < 192 → k ≠ c.val → t.chanRetired k = s.chanRetired k) ∧ t.boot.record = s.boot.record ++ [e] ∧ e.kind = 6 ∧
      e.index = c.val ∧ t.reg (A.galCnt 3) = BitVec.ofNat 32 (min 0xFFFFFFFF ((s.reg (A.galCnt 3)).toNat + 1)) ∧
      SameBytes s t ∧ SameLines s t ∧ SameLight s t ∧ t.que = s.que ∧ t.cle = s.cle ∧ t.rue = s.rue ∧ t.lnd = s.lnd ∧
      SameRegsBut (fun a => isReportReg a || [A.galCnt 3, A.galRegionStatus, A.galChanRetired (c / 32)].contains a) s t)

/-- R126, R129, R131: REFILL_START and REFILL_STOP. -/
def Obligations.RefillsStartAndStop : Prop :=
  (∀ (s : State) (n : Fin 4) (v : Word) (r : Refill), s.accepts (A.galRefillCtrl n) = true → s.refill n = none → bit v 1 = true →
    r = s.refillOf n (bit v 0) → r.units ≠ 0 → s.stateBase ≤ r.base → r.base + r.units * 0x10000 ≤ s.workBase →
    s.refillBusy r.base (r.units * 0x10000) = false → s.meetsState r.base (r.units * 0x10000) = false →
    ∃ t, exec (.refillStart n v) s = .next t ∧ t.refill n = some r ∧ t.reg (A.galRefillStatus n) = 0x100#32 ∧
      t.reg (A.galRefillDone n) = 0 ∧ t.reg (A.galRefillLostFirst n) = 0 ∧ t.reg (A.galRefillLostCount n) = 0 ∧
      (bit v 0 = true → t.gal.valid = s.gal.valid ∧ SameLines s t) ∧
      (bit v 0 = false → (∀ u, s.refillUnit r ≤ u → u < s.refillUnit r + r.units → t.unitValid u = false) ∧
        (∀ u, (u < s.refillUnit r ∨ s.refillUnit r + r.units ≤ u) → t.unitValid u = s.unitValid u)) ∧
      t.gal.poison = s.gal.poison ∧ SameBytes s t ∧ SameLight s t ∧ SameHost s t ∧ t.que = s.que ∧ t.cle = s.cle ∧ t.rue = s.rue ∧
      t.lnd = s.lnd) ∧
  (∀ (s : State) (n : Fin 4) (v : Word) (r : Refill), s.accepts (A.galRefillCtrl n) = true → s.refill n = none → bit v 1 = true →
    r = s.refillOf n (bit v 0) → (r.units = 0 ∨ r.base < s.stateBase ∨ s.workBase < r.base + r.units * 0x10000) →
    ∃ t, exec (.refillStart n v) s = .next t ∧ t.refill n = none ∧
      t.reg (A.galRefillStatus n) = (if r.units = 0 then 0x01#32 else 0x10#32) ∧ t.gal = s.gal ∧
      SameBytes s t ∧ SameLines s t ∧ SameLight s t ∧ SameHost s t ∧ t.que = s.que ∧ t.cle = s.cle ∧ t.rue = s.rue ∧ t.lnd = s.lnd) ∧
  (∀ (s : State) (n : Fin 4) (v : Word) (r : Refill), s.accepts (A.galRefillCtrl n) = true → s.refill n = some r → bit v 2 = true →
    ∃ t, exec (.refillStop n v) s = .next t ∧ t.refill n = none ∧ t.reg (A.galRefillStatus n) = 0x40#32 ∧
      (∀ k, k ≠ n.val → t.refill k = s.refill k) ∧ t.gal.valid = s.gal.valid ∧ t.gal.poison = s.gal.poison ∧
      SameBytes s t ∧ SameLight s t ∧ SameHost s t ∧ t.que = s.que ∧ t.cle = s.cle ∧ t.rue = s.rue ∧ t.lnd = s.lnd)

/-- R129, R130: REFILL_REQUEST_RECEIVE, REFILL_UNIT_RECEIVE, REFILL_ACK_RECEIVE and REFILL_END_RECEIVE. R129, R130: the refill timers. -/
def Obligations.RefillsMoveUnitsUntilTheyEnd : Prop :=
  (∀ (s : State) (node n : Nat) (msg : List Byte) (r : Refill), n < 4 → refillOk 0x21 msg = true →
    s.refillFor true node (rfId msg) = some (n, r) → r.units = rfUnits msg →
    ∃ t r', exec (.refillRequestReceive node msg) s = .next t ∧ t.refill n = some r' ∧ r'.ack = rfUnit msg ∧
      r'.next = max (rfUnit msg) (min r.units (rfUnit msg + 524288)) ∧ r'.id = r.id ∧ r'.base = r.base ∧ r'.units = r.units ∧
      SameBytes s t ∧ SameLight s t ∧ t.que = s.que ∧ t.cle = s.cle ∧ t.rue = s.rue ∧ t.lnd = s.lnd) ∧
  (∀ (s : State) (node n : Nat) (msg : List Byte) (r : Refill), n < 4 → refillOk 0x20 msg = true →
    s.refillFor false node (rfId msg) = some (n, r) → rfUnit msg = r.next → rfStatus msg ≠ 0x50 →
    (msg.drop 28).length = 0x10000 → crc64 (msg.drop 28) = rfCrc msg → r.next < r.units → r.lost = none →
    s.unitValid (s.refillUnit r + r.next + 1) = false →
    ∃ t, exec (.refillUnitReceive node msg) s = .next t ∧
      (∀ i, i < 0x10000 → t.galByte (r.base + r.next * 0x10000 + i) = msg.getD (28 + i) 0) ∧
      (∀ a, (a < r.base + r.next * 0x10000 ∨ r.base + r.next * 0x10000 + 0x10000 ≤ a) → t.galByte a = s.galByte a) ∧
      t.unitValid (s.refillUnit r + r.next) = true ∧
      (∀ u, u ≠ s.refillUnit r + r.next → t.unitValid u = s.unitValid u) ∧
      t.reg (A.galRefillDone n) = BitVec.ofNat 32 (r.done + 1) ∧
      (r.next + 1 < r.units → ∃ r', t.refill n = some r' ∧ r'.next = r.next + 1 ∧ r'.done = r.done + 1 ∧ r'.fails = 0 ∧ SameLines s t) ∧
      (r.next + 1 = r.units → t.refill n = none ∧ t.reg (A.galRefillStatus n) = 0) ∧
      (∀ a, t.bar4Byte a = s.bar4Byte a) ∧ (∀ a, t.hostByte a = s.hostByte a) ∧ SameLight s t ∧ t.que = s.que ∧ t.cle = s.cle ∧
      t.rue = s.rue ∧ t.lnd = s.lnd) ∧
  (∀ (s : State) (node n : Nat) (msg : List Byte) (r : Refill), n < 4 → refillOk 0x22 msg = true →
    s.refillFor true node (rfId msg) = some (n, r) → r.units ≤ rfUnit msg → r.lost = none →
    ∃ t, exec (.refillAckReceive node msg) s = .next t ∧ t.refill n = none ∧ t.reg (A.galRefillStatus n) = 0 ∧
      t.gal.valid = s.gal.valid ∧ t.gal.poison = s.gal.poison ∧
      SameBytes s t ∧ SameLines s t ∧ SameLight s t ∧ t.que = s.que ∧ t.cle = s.cle ∧ t.rue = s.rue ∧ t.lnd = s.lnd) ∧
  (∀ (s : State) (node n : Nat) (msg : List Byte) (r : Refill), n < 4 → refillOk 0x23 msg = true →
    s.gal.refills.find? (fun e => decide (e.2.peer = node) && decide (e.2.id = rfId msg)) = some (n, r) →
    ∃ t, exec (.refillEndReceive node msg) s = .next t ∧ t.refill n = none ∧
      t.reg (A.galRefillStatus n) = BitVec.ofNat 32 (rfStatus msg) ∧ t.gal.valid = s.gal.valid ∧ t.gal.poison = s.gal.poison ∧
      SameBytes s t ∧ SameLines s t ∧ SameLight s t ∧ t.que = s.que ∧ t.cle = s.cle ∧ t.rue = s.rue ∧ t.lnd = s.lnd) ∧
  (∀ (s : State) (n : Fin 4) (r : Refill), s.refill n = some r → r.source = false → r.seen = false →
    s.elapsed r.lastSent 10000000 = true →
    ∃ t, exec (.refillRequestTimer n) s = .next t ∧ t.refill n = some { r with lastSent := s.mono } ∧ t.gal.valid = s.gal.valid ∧
      SameBytes s t ∧ SameLight s t ∧ SameBase s t ∧ SameHost s t ∧ t.que = s.que ∧ t.cle = s.cle ∧ t.rue = s.rue ∧ t.lnd = s.lnd) ∧
  (∀ (s : State) (n : Fin 4) (r : Refill), s.refill n = some r → r.source = false → r.seen = true →
    s.elapsed r.lastSent 1000000 = true →
    ∃ t, exec (.refillAckTimer n) s = .next t ∧ t.refill n = some { r with lastSent := s.mono } ∧ t.gal.valid = s.gal.valid ∧
      SameBytes s t ∧ SameLight s t ∧ SameBase s t ∧ SameHost s t ∧ t.que = s.que ∧ t.cle = s.cle ∧ t.rue = s.rue ∧ t.lnd = s.lnd) ∧
  (∀ (s : State) (n : Fin 4) (r : Refill), s.refill n = some r → s.refillSilent r = true →
    ∃ t, exec (.refillPeerLost n) s = .next t ∧ t.refill n = none ∧
      t.reg (A.galRefillStatus n) = (if r.source then 0x40#32 else 0x50#32) ∧ t.gal.valid = s.gal.valid ∧
      SameBytes s t ∧ SameLines s t ∧ SameLight s t ∧ SameBase s t ∧ t.que = s.que ∧ t.cle = s.cle ∧ t.rue = s.rue ∧ t.lnd = s.lnd) ∧
  (∀ (s : State) (n : Fin 4) (r : Refill), s.refill n = some r → s.refillUnkeyed r = true →
    ∃ t, exec (.refillKeyTimeout n) s = .next t ∧ t.refill n = none ∧
      t.reg (A.galRefillStatus n) = BitVec.ofNat 32 stKeyAbsent ∧ t.gal.valid = s.gal.valid ∧
      SameBytes s t ∧ SameLines s t ∧ SameLight s t ∧ SameBase s t ∧ t.que = s.que ∧ t.cle = s.cle ∧ t.rue = s.rue ∧ t.lnd = s.lnd)

/-- R127, R336, R337: BAR2_READ, BAR2_WRITE and BAR2_BASE_WRITE. -/
def Obligations.Bar2ReachesWhatItMay : Prop :=
  (∀ (s : State) (offset len : Nat), (∀ i, i < len → s.barRead (s.barBase offset + i) = .data ∨ s.barRead (s.barBase offset + i) = .zero) →
    ∃ t bytes, exec (.bar2Read offset len) s = .next t ∧ t.outbox = s.outbox ++ [.bar2Data offset bytes false] ∧ bytes.length = len ∧
      (∀ i, i < len → bytes.getD i 0 = if s.barRead (s.barBase offset + i) = .data then s.galByte (s.barBase offset + i) else 0) ∧
      SameBytes s t ∧ SameEngines s t ∧ SameLines s t ∧ SameLight s t ∧ SameBase s t ∧ SameHost s t ∧ SameRegs [] s t) ∧
  (∀ (s : State) (offset len i : Nat), i < len → s.barRead (s.barBase offset + i) = .invalid →
    (∀ j, j < len → s.barRead (s.barBase offset + j) ≠ .poison) →
    ∃ t bytes, exec (.bar2Read offset len) s = .next t ∧ t.outbox = s.outbox ++ [.aer 1, .bar2Data offset bytes true] ∧
      t.reg (A.galCnt 7) = BitVec.ofNat 32 (min 0xFFFFFFFF ((s.reg (A.galCnt 7)).toNat + 1)) ∧
      SameBytes s t ∧ SameEngines s t ∧ SameLines s t ∧ SameLight s t ∧ SameBase s t ∧ SameHost s t ∧ SameRegs [A.galCnt 7] s t) ∧
  (∀ (s : State) (offset : Nat) (bytes : List Byte),
    ∃ t, exec (.bar2Write offset bytes false) s = .next t ∧
      (∀ i, i < bytes.length → t.galByte (s.barBase offset + i) =
        if s.barWritable (s.barBase offset + i) then bytes.getD i 0 else s.galByte (s.barBase offset + i)) ∧
      (∀ a, (a < s.barBase offset ∨ s.barBase offset + bytes.length ≤ a) → t.galByte a = s.galByte a) ∧
      ((∀ i, i < bytes.length → s.barWritable (s.barBase offset + i) = true) → SameHost s t ∧ SameRegs [] s t ∧ t.outbox = s.outbox) ∧
      (∀ a, t.bar4Byte a = s.bar4Byte a) ∧ (∀ a, t.hostByte a = s.hostByte a) ∧ SameLines s t ∧ SameLight s t ∧ SameBase s t ∧
      t.que = s.que ∧ t.cle = s.cle ∧ t.rue = s.rue ∧ t.lnd = s.lnd ∧ t.gal.valid = s.gal.valid ∧ SameRegsBut isReportReg s t) ∧
  (∀ (s : State) (offset : Nat) (bytes : List Byte),
    ∃ t, exec (.bar2Write offset bytes true) s = .next t ∧
      t.reg A.errAccessCount = BitVec.ofNat 32 (min 0xFFFFFFFF ((s.reg A.errAccessCount).toNat + 1)) ∧
      SameBytes s t ∧ SameEngines s t ∧ SameLines s t ∧ SameLight s t ∧ SameBase s t ∧ SameRegsBut isReportReg s t) ∧
  (∀ (s : State) (v : Word), s.accepts A.topBar2Base = true →
    ∃ t, exec (.bar2BaseWrite v) s = .next t ∧ t.f A.topBar2Base 0 10 = min 572 (fld v 0 10) ∧
      SameBytes s t ∧ SameEngines s t ∧ SameLines s t ∧ SameLight s t ∧ SameBase s t ∧ SameHost s t ∧ SameRegs [A.topBar2Base] s t)

/-- R74, R121, R126: XFE_TRANSFER_DONE. -/
def Obligations.TransfersMoveTheirBytes : Prop :=
  (∀ (s : State) (q : Fin 64) (i : Word) (x : Xfer), s.memoryForm = true → s.cle.xfers.find? (fun x => x.q = q.val ∧ x.entry.index = i.toNat) = some x →
    Desc.opcode x.entry.desc = 0x40 → s.busMaster = true → s.computeRuns = true → s.qLoc q = 0 →
    (addrGallery (Desc.src x.entry.desc) = true → s.firstPoison (addrOffset (Desc.src x.entry.desc)) (Desc.bytes x.entry.desc) = none) →
    let d := x.entry.desc
    ∃ t, exec (.xfeTransferDone q i none) s = .next t ∧
      (∀ j, j < Desc.bytes d → (t.memOf (Desc.dst d)).get zeroByte (placeOf (Desc.dst d) + j) =
        (s.memOf (Desc.src d)).get zeroByte (placeOf (Desc.src d) + j)) ∧
      (∀ a, (a < placeOf (Desc.dst d) ∨ placeOf (Desc.dst d) + Desc.bytes d ≤ a) →
        (t.memOf (Desc.dst d)).get zeroByte a = (s.memOf (Desc.dst d)).get zeroByte a) ∧
      (addrGallery (Desc.dst d) = false → ∀ a, t.galByte a = s.galByte a) ∧
      (addrGallery (Desc.dst d) = true → (∀ a, t.hostByte a = s.hostByte a) ∧
        ∀ u ∈ s.unitsCovered (addrOffset (Desc.dst d)) (Desc.bytes d), t.unitValid u = true) ∧
      (∀ y ∈ t.cle.xfers, ¬ (y.q = q.val ∧ y.entry.index = i.toNat)) ∧ (∀ y ∈ (t.queue q).started, y.index ≠ i.toNat) ∧
      t.cle.insts = s.cle.insts ∧ t.cle.vsteps = s.cle.vsteps ∧ SameLines s t ∧ SameLight s t) ∧
  (∀ (s : State) (q : Fin 64) (i : Word) (x : Xfer) (hf : Option Nat),
    s.cle.xfers.find? (fun x => x.q = q.val ∧ x.entry.index = i.toNat) = some x →
    Desc.opcode x.entry.desc = 0x41 → Desc.bytes x.entry.desc % 4 = 0 → s.busMaster = true → s.computeRuns = true → s.qLoc q = 0 →
    let d := x.entry.desc
    ∃ t, exec (.xfeTransferDone q i hf) s = .next t ∧
      (∀ j, j < Desc.bytes d → (t.memOf (Desc.dst d)).get zeroByte (placeOf (Desc.dst d) + j) =
        BitVec.ofNat 8 (Desc.pattern d / 256 ^ (j % 4))) ∧
      (∀ a, (a < placeOf (Desc.dst d) ∨ placeOf (Desc.dst d) + Desc.bytes d ≤ a) →
        (t.memOf (Desc.dst d)).get zeroByte a = (s.memOf (Desc.dst d)).get zeroByte a) ∧
      (∀ y ∈ t.cle.xfers, ¬ (y.q = q.val ∧ y.entry.index = i.toNat)) ∧ (∀ y ∈ (t.queue q).started, y.index ≠ i.toNat) ∧
      t.cle.insts = s.cle.insts ∧ t.cle.vsteps = s.cle.vsteps ∧ t.gal.valid = s.gal.valid ∧ SameLines s t ∧ SameLight s t)

/-- R24, R85, R95, R385: CHUNK_RECEIVE. -/
def Obligations.ReceivedChunksEnterOrAreDiscarded : Prop :=
  (∀ (s : State) (g : Fin 4096) (c : Nat) (x : Inst), s.inst g = some x → opCarries x.op = false → x.op ≠ 0x0A → x.staysOpen →
    c < x.chunkTotal → x.readsLocal c = true → (x.chunk c).got.contains x.self = false → (x.chunk c).carried = none →
    s.localReady x = true → addrGallery x.desc.localAddr = true →
    s.firstPoison (addrOffset x.desc.localAddr + c * 65536) (chunkBytes x.desc.inFmt (x.elems c)) = none →
    ∃ t y, exec (.chunkReceive (.own g c)) s = .next t ∧ t.inst g = some y ∧
      y.chunk c = (x.accumulate c x.self 1 (s.galRead (addrOffset x.desc.localAddr + c * 65536) (chunkBytes x.desc.inFmt (x.elems c)))).chunk c ∧
      (∀ k, k ≠ c → y.chunk k = x.chunk k) ∧ SameBytes s t ∧ t.que = s.que ∧ t.lnd = s.lnd ∧ t.opt = s.opt ∧ t.sec = s.sec) ∧
  (∀ (s : State) (f : Fin 32) (bytes : List Byte) (x : Inst),
    let h := bytes.take 32
    let c := hChunk h
    let slot := hSlot h
    32 ≤ bytes.length → hcrcOk h = true → s.inst (hGroup h) = some x → x.number = hInst h → s.localReady x = true →
    opCarries x.op = false → x.op ≠ 0x0A → x.staysOpen → x.expects false (hType h) c slot = true → (x.plan c).wait ≠ some slot →
    (x.plan c).ins2.contains slot = false → c < x.granted.get (fun _ => 0) slot → hFmt h = (x.expectFmt c slot).1 →
    (∀ w ∈ x.winners, w.1 ≠ c * 1024 + slot) → hCoded h = false → (bytes.drop 32).length = hLen h →
    crc64 (bytes.drop 32) = hCrc h → hLen h = (x.expectFmt c slot).2 →
    ∃ t y, exec (.chunkReceive (.fabric f bytes)) s = .next t ∧ t.inst (hGroup h) = some y ∧
      y.chunk c = (x.accumulate c slot (hLeaves h) (bytes.drop 32)).chunk c ∧ (c * 1024 + slot, hCrc h) ∈ y.winners ∧
      (∀ k, k ≠ c → y.chunk k = x.chunk k) ∧ SameBytes s t ∧ t.que = s.que ∧ t.lnd = s.lnd ∧ t.opt = s.opt ∧ t.sec = s.sec) ∧
  (∀ (s : State) (f : Fin 32) (bytes : List Byte) (x : Inst),
    let h := bytes.take 32
    let c := hChunk h
    let slot := hSlot h
    32 ≤ bytes.length → hcrcOk h = true → s.inst (hGroup h) = some x → x.number = hInst h → s.localReady x = true →
    x.expects false (hType h) c slot = true → (x.plan c).wait ≠ some slot →
    (x.granted.get (fun _ => 0) slot ≤ c → ∃ t y, exec (.chunkReceive (.fabric f bytes)) s = .next t ∧
      t.inst (hGroup h) = some y ∧ (∀ k, y.chunk k = x.chunk k) ∧
      t.reg (A.dflFCnt f 9) = BitVec.ofNat 32 (min 0xFFFFFFFF ((s.reg (A.dflFCnt f 9)).toNat + 1)) ∧
      SameBytes s t ∧ t.que = s.que ∧ t.lnd = s.lnd ∧ SameLines s t ∧ SameLight s t ∧ SameRegs [A.dflFCnt f 9] s t) ∧
    (∀ w, c < x.granted.get (fun _ => 0) slot → hFmt h = (x.expectFmt c slot).1 →
      x.winners.find? (fun w => w.1 = c * 1024 + slot) = some w → ∃ t y, exec (.chunkReceive (.fabric f bytes)) s = .next t ∧
      t.inst (hGroup h) = some y ∧ (∀ k, y.chunk k = x.chunk k) ∧
      t.reg (A.cleCnt 0) = BitVec.ofNat 32 (min 0xFFFFFFFF ((s.reg (A.cleCnt 0)).toNat + 1)) ∧
      (w.2 ≠ hCrc h → t.reg (A.cleCnt 1) = BitVec.ofNat 32 (min 0xFFFFFFFF ((s.reg (A.cleCnt 1)).toNat + 1))) ∧
      (w.2 = hCrc h → t.reg (A.cleCnt 1) = s.reg (A.cleCnt 1)) ∧
      SameBytes s t ∧ t.que = s.que ∧ t.lnd = s.lnd ∧ SameLines s t ∧ SameLight s t ∧ SameRegs [A.cleCnt 0, A.cleCnt 1] s t))

/-- R33, R37, R50, R91, R102: CHUNK_ARITHMETIC_DONE with a clean Landing and no samples. -/
def Obligations.ArithmeticReleasesPartialsAndResults : Prop :=
  (∀ (s : State) (g : Fin 4096) (c : Nat) (faults : List (Nat × Nat)) (x : Inst) (o : OutSet), s.inst g = some x →
    x.stage c = .part → s.localReady x = true → s.computeRuns = true → x.staysOpen → (x.plan c).final = true →
    (∀ y ∈ (x.plan c).out1, x.overLine y = true) → o = (x.partialOut c (x.chunk c).leaves (withFaults faults (x.chunk c).acc)).1 →
    s.pinnedFull (o.data.length * ((x.plan c).out1.filter x.overLine).length) = false →
    ∃ t y, exec (.chunkArithmeticDone g c 0 faults .clean) s = .next t ∧ t.inst g = some y ∧ (y.chunk c).sent = true ∧
      (y.chunk c).own = some (o.leaves, o.data) ∧ (y.chunk c).finished = false ∧ (∀ k, k ≠ c → y.chunk k = x.chunk k) ∧
      SameBytes s t ∧ t.que = s.que ∧ t.lnd = s.lnd ∧ t.opt = s.opt ∧ t.sec = s.sec) ∧
  (∀ (s b : State) (g : Fin 4096) (c : Nat) (faults : List (Nat × Nat)) (x : Inst) (o : OutSet), s.inst g = some x →
    x.stage c = .final → s.localReady x = true → s.computeRuns = true → (x.chunk c).ownLost = false →
    b = (s.chunkBoundary (Desc.phaseId x.entry.desc)).draw.2 → s.statePoison x c = none →
    (∀ n, x.mapSlot = some n → s.firstPoison (s.workBase + areaMaps + n * 0x100000 + c / 8) 1 = none) →
    (x.reduced c s.freeCtr).1 = x.finalLeaves →
    o = (b.finalOut x c x.finalLeaves (withFaults faults (x.reduced c s.freeCtr).2.1)).1 →
    ∃ t, exec (.chunkArithmeticDone g c 0 faults .clean) s = .next t ∧
      (t.inst g = none ∨ ∃ y, t.inst g = some y ∧ (y.chunk c).finished = true ∧ y.applied = x.applied + b2n (decide (x.op = 0x06))) ∧
      (s.qLoc x.q = 0 → ∀ a, (∀ n, x.mapSlot = some n → a ≠ s.workBase + areaMaps + n * 0x100000 + c / 8) →
        (addrGallery x.desc.localAddr = true →
          a < addrOffset x.desc.localAddr + c * 65536 ∨ addrOffset x.desc.localAddr + c * 65536 + o.data.length ≤ a) →
        t.galByte a = (o.writes.foldl (fun s w => s.galStore w.1 w.2) s).galByte a) ∧
      t.opt = s.opt ∧ t.sec = s.sec)

/-- R73, R128, R382: VSTEP_CHUNK_DONE. -/
def Obligations.VstepChunksWriteTheirOutputs : Prop :=
  ∀ (s b : State) (q : Fin 64) (i : Word) (c : Nat) (faults : List (Nat × Nat)) (x : Inst) (o : OutSet),
    s.vstep q i.toNat = some x → c < x.chunkTotal → x.isDone c = false → (x.chunk c).held = none → x.spilled = false →
    s.computeRuns = true → x.done.length + 1 < x.chunkTotal →
    s.firstPoison (addrOffset x.desc.localAddr + c * 65536) (chunkBytes x.desc.inFmt (x.elems c)) = none → s.statePoison x c = none →
    b = s.chunkBoundary (Desc.phaseId x.entry.desc) →
    o = (b.vstepOut x c (withFaults faults
      (decodeElems x.wide x.desc.inFmt (x.elems c) (s.galRead (addrOffset x.desc.localAddr + c * 65536) (chunkBytes x.desc.inFmt (x.elems c)))).1)).1 →
    ∃ t y, exec (.vstepChunkDone q i c 0 faults) s = .next t ∧ t.vstep q i.toNat = some y ∧ y.done = x.done ++ [c] ∧
      y.applied = x.applied + 1 ∧ (∀ a, t.galByte a = (o.writes.foldl (fun s w => s.galStore w.1 w.2) s).galByte a) ∧
      (∀ a, (∀ w ∈ o.writes, a < w.1 ∨ w.1 + w.2.length ≤ a) → t.galByte a = s.galByte a) ∧
      (∀ a, t.bar4Byte a = s.bar4Byte a) ∧ (∀ a, t.hostByte a = s.hostByte a) ∧ t.que = s.que ∧ t.cle.insts = s.cle.insts ∧
      t.lnd = s.lnd ∧ SameLines s t ∧ SameLight s t ∧ SameRegs [A.errHealth] s t

/-- R25, R49, R51, R349: SHADOW_COMPARE_DONE, CHUNK_RECOMPUTE_DONE, LANE_RETIRE and RUE_SHADOW_CTRL_WRITE. -/
def Obligations.ComparesRecomputesAndLanes : Prop :=
  (∀ (s : State) (n : Nat) (m : Compare) (result : Option LaneMismatch), s.rue.compares[n]? = some m →
    (1 < m.left ∨ (m.left = 1 ∧ (m.bad ≠ [] ∨ result ≠ none))) →
    ∃ t, exec (.shadowCompareDone n result) s = .next t ∧
      t.rue.compares[n]? = some { m with left := m.left - 1, bad := m.bad ++ result.toList } ∧
      (∀ k, k ≠ n → t.rue.compares[k]? = s.rue.compares[k]?) ∧
      SameBytes s t ∧ t.que = s.que ∧ t.cle = s.cle ∧ t.lnd = s.lnd ∧ t.gal = s.gal ∧ SameLines s t ∧ SameLight s t ∧ SameHost s t ∧
      SameRegs [] s t) ∧
  (∀ (s : State) (n : Nat) (m : Compare) (b : LaneMismatch), s.rue.compares[n]? = some m → m.left = 0 → m.bad = [b] → m.held = false →
    ∃ t, exec (.chunkRecomputeDone n .lane) s = .next t ∧ t.rue.compares = s.rue.compares.eraseIdx n ∧
      (false, s.shadowOf b, s.mono) ∈ t.rue.mismatches ∧ t.log.seq = (s.log.seq + 1) % 0x100000000 ∧
      SameBytes s t ∧ t.que = s.que ∧ t.cle = s.cle ∧ t.lnd = s.lnd ∧ t.gal = s.gal ∧ SameLines s t ∧ SameLight s t ∧
      SameRegsBut isReportReg s t) ∧
  (∀ (s : State) (lane reason : Nat) (rest : List LaneOut), s.rue.retiring = { f64 := false, index := lane, reason := reason } :: rest →
    lane < 16384 → lane % 128 < 64 → lane / 128 % 32 < 16 → s.rue.lanesOut.contains (false, lane / 128 * 128 + 64) = false →
    s.b (A.rueLaneStatus (lane / 4096)) (lane / 128 % 32) = false → s.b (A.rueLaneStatus (lane / 4096)) (16 + lane / 128 % 32) = false →
    s.boot.recordBytes ≤ 0x80000 →
    ∃ t e, exec .laneRetire s = .next t ∧ t.b (A.rueLaneStatus (lane / 4096)) (lane / 128 % 32) = true ∧
      t.b (A.rueLaneStatus (lane / 4096)) (16 + lane / 128 % 32) = false ∧ t.rue.retiring = rest ∧
      t.rue.lanesOut = s.rue.lanesOut ++ [(false, lane)] ∧ t.boot.record = s.boot.record ++ [e] ∧ e.kind = 1 ∧ e.index = lane ∧
      SameBytes s t ∧ t.que = s.que ∧ t.cle = s.cle ∧ t.lnd = s.lnd ∧ t.gal = s.gal ∧ SameLines s t ∧ SameLight s t ∧
      SameRegsBut (fun a => isReportReg a || decide (a = A.rueLaneStatus (lane / 4096))) s t) ∧
  (∀ (s : State) (v : Word), s.accepts A.rueShadowCtrl = true →
    ∃ t, exec (.rueShadowCtrlWrite v) s = .next t ∧ t.f A.rueShadowCtrl 0 5 = max 6 (min 16 (fld v 0 5)) ∧
      t.f A.rueShadowCtrl 8 1 = fld v 8 1 ∧ t.f A.rueShadowCtrl 16 1 = fld v 16 1 ∧
      (bit v 16 = true → t.log = s.log) ∧ (bit v 16 = false → t.log.seq = (s.log.seq + 1) % 0x100000000) ∧ t.rue = s.rue ∧
      SameBytes s t ∧ t.que = s.que ∧ t.cle = s.cle ∧ t.lnd = s.lnd ∧ t.gal = s.gal ∧ SameLines s t ∧ SameLight s t ∧
      SameRegsBut (fun a => isReportReg a || decide (a = A.rueShadowCtrl)) s t)

/-- R85, R87, R90, R251: OPEN_RECEIVE, ARRIVE_RECEIVE, NORM_SUM_RECEIVE and CREDIT_RECEIVE. -/
def Obligations.MessagesMoveInstances : Prop :=
  (∀ (s : State) (line : Bool) (msg : List Byte) (x : Inst), msg.length = 24 → hcrcOk msg = true → s.msgInst msg = some x →
    x.op ≠ 0x0A → x.staysOpen →
    ∃ t y, exec (.openReceive line msg) s = .next t ∧ t.inst (mGroup msg) = some y ∧ mOrigin msg ∈ y.opened ∧
      (mOrigin msg, s.mono) ∈ y.heard ∧ (∀ k, y.chunk k = x.chunk k) ∧
      SameBytes s t ∧ t.que = s.que ∧ t.lnd = s.lnd ∧ t.opt = s.opt ∧ SameLines s t) ∧
  (∀ (s : State) (line : Bool) (msg : List Byte) (x : Inst), msg.length = 24 → hcrcOk msg = true → s.msgInst msg = some x →
    x.op = 0x0A → mOrigin msg ∉ x.arrived →
    (∃ y ∈ x.group.gateways, y ≠ mOrigin msg ∧ y ∉ x.arrived) →
    ∃ t y, exec (.arriveReceive line msg) s = .next t ∧ t.inst (mGroup msg) = some y ∧ y.arrived = x.arrived ++ [mOrigin msg] ∧
      SameBytes s t ∧ t.que = s.que ∧ t.lnd = s.lnd ∧ t.opt = s.opt ∧ SameLines s t) ∧
  (∀ (s : State) (line : Bool) (msg : List Byte) (x : Inst), msg.length = 24 → hcrcOk msg = true → s.msgInst msg = some x →
    x.op = 0x0A → mOrigin msg ∉ x.arrived → (∀ y ∈ x.group.gateways, y = mOrigin msg ∨ y ∈ x.arrived) →
    ∃ t, exec (.arriveReceive line msg) s = .next t ∧ t.inst (mGroup msg) = none ∧
      (∀ y ∈ (t.queue x.q).started, y.index ≠ x.entry.index) ∧ SameLines s t ∧ t.opt = s.opt) ∧
  (∀ (s : State) (line : Bool) (msg : List Byte) (x : Inst), msg.length = 24 → hcrcOk msg = true → s.msgInst msg = some x →
    x.op = 0x07 → mOrigin msg ∈ x.group.peers x.self → (∀ e ∈ x.scalars, e.1 ≠ mOrigin msg) →
    (∃ y ∈ x.group.atSite x.mySite, y ≠ mOrigin msg ∧ ∀ e ∈ x.scalars, e.1 ≠ y) →
    ∃ t y, exec (.normSumReceive line msg) s = .next t ∧ t.inst (mGroup msg) = some y ∧
      (mOrigin msg, mChunk msg * 0x100000000 + mValue msg) ∈ y.scalars ∧
      SameBytes s t ∧ t.que = s.que ∧ t.lnd = s.lnd ∧ SameLines s t ∧ SameLight s t ∧ SameRegs [] s t) ∧
  (∀ (s : State) (node slot : Nat) (body : List Byte) (x : Inst), s.inst (nfld (beAt body 0 2) 0 12) = some x →
    x.number = beAt body 4 4 → nfld (beAt body 2 2) 0 10 = x.self → (x.group.peers x.self).find? (fun y => x.nodeOf y = node) = some slot →
    x.op ≠ 0x0A → x.staysOpen →
    ∃ t y, exec (.creditReceive node body) s = .next t ∧ t.inst (nfld (beAt body 0 2) 0 12) = some y ∧
      (slot, max (x.limits.get (fun _ => 0) slot) (beAt body 8 4)) ∈ y.limits ∧ slot ∈ y.opened ∧ (∀ k, y.chunk k = x.chunk k) ∧
      SameBytes s t ∧ t.que = s.que ∧ t.lnd = s.lnd ∧ t.opt = s.opt ∧ SameLines s t) ∧
  (∀ (s : State) (line : Bool) (msg : List Byte) (c : Instr),
    c ∈ [Instr.openReceive line msg, .resendReceive line msg, .notRetainedReceive line msg, .abortReceive line msg,
      .arriveReceive line msg, .normSumReceive line msg] → (msg.length ≠ 24 ∨ hcrcOk msg = false) →
    ∃ t, exec c s = .next t ∧ t.reg (A.cleCnt 5) = BitVec.ofNat 32 (min 0xFFFFFFFF ((s.reg (A.cleCnt 5)).toNat + 1)) ∧
      SameBytes s t ∧ t.que = s.que ∧ t.cle = s.cle ∧ t.lnd = s.lnd ∧ SameLines s t ∧ SameLight s t ∧ SameHost s t ∧
      SameRegs [A.cleCnt 5] s t)

/-- R98, R99, R101: the commands that end an instance. -/
def Obligations.AbortsEndTheInstance : Prop :=
  (∀ (s : State) (line : Bool) (msg : List Byte) (x : Inst), msg.length = 24 → hcrcOk msg = true → s.msgInst msg = some x →
    s.cle.passed.contains (mGroup msg, mInst msg, mReason msg, mOrigin msg) = false →
    ∃ t, exec (.abortReceive line msg) s = .next t ∧ t.inst (mGroup msg) = none ∧
      (∀ y ∈ (t.queue x.q).started, y.index ≠ x.entry.index) ∧ (mGroup msg, mInst msg, mReason msg, mOrigin msg) ∈ t.cle.passed ∧
      t.ports = s.ports ∧ t.sec = s.sec ∧ t.opt = s.opt) ∧
  (∀ (s : State) (c : Instr) (g : Fin 4096) (x : Inst), s.inst g = some x →
    ((∃ line msg, ∃ r ∈ x.resends, c = .notRetainedReceive line msg ∧ msg.length = 24 ∧ hcrcOk msg = true ∧ mGroup msg = g.val ∧
        mInst msg = x.number ∧ r.chunk = mChunk msg ∧ r.slot = mSlot msg) ∨
      (∃ v, c = .cleAbortGo v ∧ s.accepts A.cleAbortCtrl = true ∧ bit v 31 = true ∧ fld v 0 12 = g.val ∧
        x.number = (s.reg A.cleAbortInst).toNat) ∨
      (c = .progressTimeout g ∧ s.noProgress x = true) ∨
      (c = .routeLossHoldExpire g ∧ x.farSites.any (s.siteLost x) = true) ∨
      (c = .keyLossHoldExpire g ∧ ((x.group.counterparts x.self).map x.group.site).any (s.siteUnkeyed x) = true) ∨
      (∃ ch slot r, c = .resendTimeout g ch slot ∧
        x.resends.find? (fun r => decide (r.chunk = ch) && decide (r.slot = slot) && decide (r.due ≤ s.mono)) = some r ∧
        (∀ r' ∈ x.resends, r'.chunk = ch → r'.slot = slot → r' = r) ∧ x.group.resendMax ≤ r.count)) →
    ∃ t, exec c s = .next t ∧ t.inst g = none ∧ (∀ y ∈ (t.queue x.q).started, y.index ≠ x.entry.index) ∧
      t.reg (A.cleCnt 12) = BitVec.ofNat 32 (min 0xFFFFFFFF ((s.reg (A.cleCnt 12)).toNat + 1)) ∧
      t.ports = s.ports ∧ t.sec = s.sec ∧ t.opt = s.opt)

/-- R91, R96-R98, R102, R251. R90, R110: ALLOC_RETRY. -/
def Obligations.KeepingAndAskingAgain : Prop :=
  (∀ (s : State) (line : Bool) (msg : List Byte) (gr : Group), msg.length = 24 → hcrcOk msg = true →
    ((s.inst (mGroup msg)).isNone && s.isNewer (mGroup msg) (mInst msg)) = false → s.msgGroup msg = some gr →
    ∃ t, exec (.resendReceive line msg) s = .next t ∧
      (∀ k, s.cle.kept.find? (fun k => k.named line (gr.member (mOrigin msg)).node msg) = some k →
        t.cle.kept = s.cle.kept.erase k ++ [{ k with expiry := s.keepEnd line (gr.member (mOrigin msg)).node }] ∧
        t.reg (A.cleCnt 8) = BitVec.ofNat 32 (min 0xFFFFFFFF ((s.reg (A.cleCnt 8)).toNat + 1))) ∧
      (s.cle.kept.find? (fun k => k.named line (gr.member (mOrigin msg)).node msg) = none → t.cle.kept = s.cle.kept ∧
        t.reg (A.cleCnt 9) = BitVec.ofNat 32 (min 0xFFFFFFFF ((s.reg (A.cleCnt 9)).toNat + 1))) ∧
      (∀ x, s.msgInst msg = some x → t.inst (mGroup msg) = some { x with heard := x.heard.insert (mOrigin msg) s.mono }) ∧
      (∀ g, (t.inst g).map (fun x => { x with heard := [] }) = (s.inst g).map (fun x => { x with heard := [] })) ∧
      SameBytes s t ∧ t.que = s.que ∧ t.lnd = s.lnd ∧ t.opt = s.opt ∧ t.sec = s.sec) ∧
  (∀ (s : State) (g : Fin 4096) (ch slot : Nat) (x : Inst) (r : Resend), s.inst g = some x → x.resends = [r] → r.chunk = ch →
    r.slot = slot → r.due ≤ s.mono → r.count < x.group.resendMax →
    ∃ t y r', exec (.resendTimeout g ch slot) s = .next t ∧ t.inst g = some y ∧ y.resends = [r'] ∧ r'.count = r.count + 1 ∧
      r'.chunk = ch ∧ r'.slot = slot ∧ r'.line = r.line ∧ (∀ k, y.chunk k = x.chunk k) ∧
      SameBytes s t ∧ t.que = s.que ∧ t.lnd = s.lnd ∧ t.opt = s.opt ∧ t.sec = s.sec) ∧
  (∀ (s : State) (g : Fin 4096) (x : Inst), s.inst g = some x →
    ∃ t y, exec (.creditRefresh g) s = .next t ∧ t.inst g = some y ∧
      (∀ slot ∈ x.fabricSources, x.outstanding slot ≠ [] → s.elapsed (x.creditAt.get (fun _ => 0) slot) 20000 = true →
        y.creditAt.get (fun _ => 0) slot = s.mono) ∧ (∀ k, y.chunk k = x.chunk k) ∧
      SameBytes s t ∧ t.que = s.que ∧ t.lnd = s.lnd ∧ SameLines s t ∧ t.opt = s.opt ∧ SameRegs [] s t) ∧
  (∀ s : State, ∃ t, exec .keepExpire s = .next t ∧ t.cle.kept = s.cle.kept.filter (fun k => k.line || decide (s.mono < k.expiry)) ∧
      t.cle.insts = s.cle.insts ∧ SameBytes s t ∧ t.que = s.que ∧ t.rue = s.rue ∧ t.lnd = s.lnd ∧ t.gal = s.gal ∧
      SameLines s t ∧ SameLight s t ∧ SameBase s t ∧ SameHost s t ∧ SameRegs [] s t) ∧
  (∀ s : State, ∃ t, exec .retentionExpire s = .next t ∧
      (∀ k, k ∈ t.cle.kept ↔ k ∈ s.cle.kept ∧ ¬ (k.line = true ∧ k.pinned = false ∧ k.expiry ≤ s.mono)) ∧
      t.rte.retained = s.rte.retained.filter (fun r => decide (s.mono < r.holdEnd)) ∧ t.rte.txs = s.rte.txs ∧ t.rte.rxs = s.rte.rxs ∧
      t.cle.insts = s.cle.insts ∧ SameBytes s t ∧ t.que = s.que ∧ t.rue = s.rue ∧ t.lnd = s.lnd ∧ t.gal = s.gal ∧
      SameLight s t ∧ SameBase s t ∧ SameHost s t ∧ SameRegs [A.galCnt 5] s t) ∧
  (∀ (s : State) (g c : Nat) (x : Inst) (k : Chunk) (o : OutSet), s.cle.insts = [(g, x)] → x.chunks = [(c, k)] → x.staysOpen →
    x.op ≠ 0x0A → k.blocked = some o → (x.plan c).final = true → (∀ y ∈ (x.plan c).out1, x.overLine y = true) →
    s.pinnedFull (o.data.length * ((x.plan c).out1.filter x.overLine).length) = false →
    ∃ t y, exec .retentionRoomFreed s = .next t ∧ t.inst g = some y ∧ (y.chunk c).blocked = none ∧ (y.chunk c).sent = true ∧
      (y.chunk c).own = some (o.leaves, o.data) ∧ SameBytes s t ∧ t.que = s.que ∧ t.lnd = s.lnd ∧ t.opt = s.opt ∧ t.sec = s.sec) ∧
  (∀ (s : State) (n : Fin 16), s.accepts (A.cleMapCtrl n) = true → s.f (A.cleMapCtrl n) 28 2 = 2 →
    ∃ t, exec (.mapRelease n) s = .next t ∧ t.reg (A.cleMapCtrl n) = 0 ∧ SameBytes s t ∧ SameEngines s t ∧ SameLines s t ∧
      SameLight s t ∧ SameHost s t ∧ SameRegs [A.cleMapCtrl n] s t) ∧
  (∀ s : State, (∀ w ∈ s.lnd.waiting, s.mono < w.due) → exec .allocRetry s = .next s) ∧
  (∀ (s s' : State) (w : Waiting) (b : Nat), s.lnd.waiting = [w] → w.due ≤ s.mono → w.cls = clsMsg → s.msgInst w.msg = none →
    s.isNewer (mGroup w.msg) (mInst w.msg) = true → s' = { s with lnd := { s.lnd with waiting := [] } } →
    (s'.alloc clsMsg w.msg.length).1 = some b →
    ∃ t, exec .allocRetry s = .next t ∧ t.lnd.waiting = [] ∧ t.cle.heldMsgs = s.cle.heldMsgs ++ [{ msg := w.msg, buf := b }] ∧
      t.cle.insts = s.cle.insts ∧ SameBytes s t ∧ t.que = s.que ∧ SameLines s t ∧ SameLight s t ∧ SameHost s t ∧
      SameRegs [A.lndCnt 0] s t)

/-- R9, R342-R344: COMMIT_GO, COMMIT_CHECK_DONE and COMMIT_TAKES_EFFECT. -/
def Obligations.CommitsAreCheckedAndTakeEffect : Prop :=
  (∀ (s : State) (b : Block), s.power.state = .service → s.commitOf b = {} → (b = .cle → s.stagedPoison = none) →
    ∃ t, exec (.commitGo b) s = .next t ∧
      (t.commitOf b).checking = some (s.snapshot b, lowestRefusal (s.refusals b (s.snapshot b))) ∧ (t.commitOf b).accepted = none ∧
      t.f (commitStatus b) 0 2 = 1 ∧ SameBytes s t ∧ t.que = s.que ∧ t.cle = s.cle ∧ t.gal = s.gal ∧ SameLines s t ∧ SameLight s t ∧
      t.log = s.log ∧ SameRegs [commitStatus b] s t) ∧
  (∀ (s : State) (b : Block), s.power.state = .service → ((s.commitOf b).checking.isSome || (s.commitOf b).accepted.isSome) = true →
    ∃ t, exec (.commitGo b) s = .next t ∧ t.f (commitStatus b) 0 2 = 2 ∧ t.f (commitStatus b) 16 8 = busyReason b ∧
      t.commits = s.commits ∧ SameBytes s t ∧ SameEngines s t ∧ SameLines s t ∧ SameLight s t ∧ SameHost s t ∧
      SameRegs [commitStatus b, commitDetail b] s t) ∧
  (∀ (s : State) (b : Block) (x : StagedSet) (reason item : Nat), (s.commitOf b).checking = some (x, reason, item) → 0 < reason →
    reason < 256 →
    ∃ t, exec (.commitCheckDone b) s = .next t ∧ t.f (commitStatus b) 0 2 = 2 ∧ t.f (commitStatus b) 16 8 = reason ∧
      t.reg (commitDetail b) = BitVec.ofNat 32 item ∧ (t.commitOf b).checking = none ∧ (t.commitOf b).accepted = (s.commitOf b).accepted ∧
      SameBytes s t ∧ SameEngines s t ∧ SameLines s t ∧ SameLight s t ∧ t.log = s.log ∧
      SameRegs [commitStatus b, commitDetail b] s t) ∧
  (∀ (s : State) (q : Fin 8) (x : StagedSet) (item : Nat), (s.commitOf (.opt q)).checking = some (x, 0, item) → x.regs.wf regReset = true →
    (∀ e ∈ x.regs, inBlock (.opt q) e.1 = true ∧ isStaged e.1 = true) →
    ∃ t, exec (.commitCheckDone (.opt q)) s = .next t ∧ t.f (commitStatus (.opt q)) 0 2 = 3 ∧ t.b (commitStatus (.opt q)) 8 = false ∧
      t.f (commitSeq (.opt q)) 0 16 = (s.f (commitSeq (.opt q)) 0 16 + 1) % 65536 ∧
      t.f (commitSeq (.opt q)) 16 16 = t.f (commitSeq (.opt q)) 0 16 ∧ t.commitOf (.opt q) = {} ∧
      (∀ a, inBlock (.opt q) a = true → isStaged a = true → t.reg a = x.rd a) ∧
      SameBytes s t ∧ SameEngines s t ∧ SameLines s t ∧ SameLight s t ∧ t.log = s.log) ∧
  (∀ (s : State) (b : Block) (x : StagedSet), (s.commitOf b).accepted = some x → x.regs.wf regReset = true →
    (∀ e ∈ x.regs, inBlock b e.1 = true ∧ isStaged e.1 = true) → b ≠ .gal → (s.atBoundary b x = true ∨ b = .dfl) →
    ∃ t, exec (.commitTakesEffect b) s = .next t ∧ (t.commitOf b).accepted = none ∧ t.b (commitStatus b) 8 = false ∧
      t.f (commitSeq b) 16 16 = s.f (commitSeq b) 0 16 ∧ t.f (commitSeq b) 0 16 = s.f (commitSeq b) 0 16 ∧
      (∀ a, inBlock b a = true → isStaged a = true → t.reg a = x.rd a))

/-- R148, R150, R153, R154: SPAN_FRAME_RECEIVE and SPAN_FRAME_TRANSMIT. -/
def Obligations.SpanFramesAlignDeliverAndGo : Prop :=
  (∀ (s : State) (p : Fin 16) (frame : List Byte) (fec : FecCounts), s.framersOn p = true → s.linkRuns = true → frame.length = 16384 →
    ∃ t, exec (.spanFrameReceive p frame fec) s = .next t ∧
      (s.align p = 0 → fasErrors frame = 0 → t.align p = 1) ∧
      (s.align p = 1 → fasErrors frame = 0 → s.f (A.lineCtrl p) 4 4 ≤ (s.port p).preCount + 1 → t.align p = 2) ∧
      (s.align p = 1 → fasErrors frame ≠ 0 → t.align p = 0) ∧
      (s.align p = 2 → 3 < fasErrors frame → s.f (A.lineCtrl p) 8 4 ≤ (s.port p).fasRun + 1 → t.align p = 0) ∧
      (s.align p = 2 → fasErrors frame ≤ 3 → s.portRole p = 1 → s.portOpen p = true → t.pathFail p = false → t.align p = 2 ∧
        (t.port p).rx = (s.port p).rx ++
          dataBytes (jcOf (scramble frame)) ((scramble frame).zipIdx.map (fun b => (b.1, fec.badBytes.contains b.2)))) ∧
      SameBytes s t ∧ t.que = s.que ∧ t.cle = s.cle ∧ t.rue = s.rue ∧ t.lnd = s.lnd ∧ t.gal = s.gal ∧ t.sec = s.sec ∧ SameLight s t ∧
      SameBase s t ∧ SameHost s t) ∧
  (∀ (s : State) (p : Fin 16), s.framersOn p = true → s.linkRuns = true →
    ∃ t frame, exec (.spanFrameTransmit p) s = .next t ∧ t.outbox = s.outbox ++ [.frame p frame] ∧ frame.length = 16384 ∧
      frame.take 8 = fas ∧ (t.port p).mfasTx = ((s.port p).mfasTx + 1) % 256 ∧ (∀ r, r ≠ p.val → t.port r = s.port r) ∧
      SameBytes s t ∧ SameEngines s t ∧ t.rte = s.rte ∧ t.sched = s.sched ∧ t.sec = s.sec ∧ SameLight s t ∧ SameBase s t ∧
      SameHost s t ∧ SameRegs [] s t)

/-- R152, R153, R158: the signal, frame and reference events of a line port. R167-R169: LINE_PM_LATCH and LINE_CPM_ADD. -/
def Obligations.PortDefectsAndCountsFollowTheirTimers : Prop :=
  (∀ (s : State) (p : Fin 16), s.portEnabled p = true →
    ∃ t, exec (.lineSignalLoss p) s = .next t ∧ t.defect p dLOS = true ∧ t.align p = 0 ∧ (t.port p).sigLost = true ∧
      SameBytes s t ∧ SameEngines s t ∧ t.sec = s.sec ∧ SameLight s t ∧ SameBase s t ∧ SameHost s t) ∧
  (∀ (s : State) (p : Fin 16), s.b (A.lineModStatus p) 6 = false → s.b (A.lineModStatus p) 0 = true →
    ∃ t, exec (.lineSignalRestore p) s = .next t ∧ t.defect p dLOS = false ∧ t.align p = s.align p ∧ (t.port p).sigLost = false ∧
      SameBytes s t ∧ SameEngines s t ∧ t.sec = s.sec ∧ SameLight s t ∧ SameBase s t ∧ SameHost s t) ∧
  (∀ (s : State) (p : Fin 16), s.portEnabled p = true → s.align p ≠ 2 → s.elapsedSince (s.port p).outSince 100000 = true →
    ∃ t, exec (.dlofDeclareTimer p) s = .next t ∧ t.defect p dLOF = true ∧ t.align p = s.align p ∧
      SameBytes s t ∧ SameEngines s t ∧ t.sec = s.sec ∧ SameLight s t ∧ SameBase s t ∧ SameHost s t) ∧
  (∀ (s : State) (p : Fin 16), s.elapsedSince (s.port p).inSince 1000000 = true →
    ∃ t, exec (.dlofClearTimer p) s = .next t ∧ t.defect p dLOF = false ∧ t.align p = s.align p ∧
      SameBytes s t ∧ SameEngines s t ∧ t.sec = s.sec ∧ SameLight s t ∧ SameBase s t ∧ SameHost s t) ∧
  (∀ (s : State) (p : Fin 16) (c : Instr) (lost : Bool), (lost, c) ∈ [(true, Instr.modrefLoss p), (false, .modrefReturn p)] →
    s.portEnabled p = true → s.b (A.lineStatus p) 12 = !lost →
    ∃ t, exec c s = .next t ∧ t.b (A.lineStatus p) 12 = lost ∧ t.align p = s.align p ∧
      (t.port p).tx.length ≤ (s.port p).tx.length + 4096 ∧ (s.port p).tx.length ≤ (t.port p).tx.length + 4096 ∧
      (∀ r, r ≠ p.val → t.port r = s.port r) ∧ SameBytes s t ∧ SameEngines s t ∧ t.rte = s.rte ∧ t.sched = s.sched ∧ t.sec = s.sec ∧
      SameLight s t ∧ SameBase s t ∧ SameHost s t ∧ SameRegs [A.lineStatus p, A.lineDefectLatch p] s t) ∧
  (∀ (s : State) (p : Fin 16),
    ∃ t, exec (.linePmLatch p) s = .next t ∧
      (∀ k, k < 15 → t.reg (A.linePm p k) = BitVec.ofNat 32 ((s.port p).pm.getD k 0) ∧ (t.port p).pm.getD k 0 = 0) ∧
      t.reg (A.linePmSeq p) = s.reg (A.linePmSeq p) + 1 ∧ (t.port p).lastLatch = s.mono ∧
      (s.portEnabled p = false → (t.port p).history = (s.port p).history ++ [[]]) ∧
      (s.portEnabled p = true → ∃ cls, cls.length = 4 ∧ (t.port p).history = (s.port p).history ++ [cls]) ∧
      (∀ r, r ≠ p.val → t.port r = s.port r) ∧
      SameBytes s t ∧ SameEngines s t ∧ t.rte = s.rte ∧ t.sched = s.sched ∧ t.sec = s.sec ∧ SameLight s t ∧ SameBase s t ∧ SameHost s t) ∧
  (∀ (s : State) (p : Fin 16) (c : List SecondClass) (rest : List (List SecondClass)), (s.port p).history = c :: rest → 10 ≤ rest.length →
    c.length = 4 →
    ∃ t, exec (.lineCpmAdd p) s = .next t ∧ (t.port p).history = rest ∧
      (∀ i, i < 4 → unavailableNow ((s.port p).unavailable.getD i false) i (s.port p).history = true →
        t.reg (A.lineCpm p (3 * i + 2)) = BitVec.ofNat 32 (min 0xFFFFFFFF ((s.reg (A.lineCpm p (3 * i + 2))).toNat + 1)) ∧
        t.reg (A.lineCpm p (3 * i)) = s.reg (A.lineCpm p (3 * i)) ∧ t.reg (A.lineCpm p (3 * i + 1)) = s.reg (A.lineCpm p (3 * i + 1))) ∧
      (∀ i, i < 4 → unavailableNow ((s.port p).unavailable.getD i false) i (s.port p).history = false →
        t.reg (A.lineCpm p (3 * i + 2)) = s.reg (A.lineCpm p (3 * i + 2)) ∧
        t.reg (A.lineCpm p (3 * i)) = BitVec.ofNat 32 (min 0xFFFFFFFF ((s.reg (A.lineCpm p (3 * i))).toNat +
          b2n (c.getD i { es := false, ses := false }).es)) ∧
        t.reg (A.lineCpm p (3 * i + 1)) = BitVec.ofNat 32 (min 0xFFFFFFFF ((s.reg (A.lineCpm p (3 * i + 1))).toNat +
          b2n (c.getD i { es := false, ses := false }).ses))) ∧
      (∀ r, r ≠ p.val → t.port r = s.port r) ∧
      SameBytes s t ∧ SameEngines s t ∧ t.rte = s.rte ∧ t.sched = s.sched ∧ t.sec = s.sec ∧ SameLight s t ∧ SameBase s t ∧ SameHost s t ∧
      SameRegs ((List.range 12).map (fun k => A.lineCpm p k)) s t)

/-- R171; 20 R360, R366: the events of a line module. -/
def Obligations.ModulesComeUpByTheirSequence : Prop :=
  (∀ (s : State) (p : Fin 16), s.modPresent p = false →
    ∃ t, exec (.moduleInsert p) s = .next t ∧ t.modPresent p = true ∧ t.b A.pinInStatus p = true ∧
      (s.portEnabled p = true → (t.port p).resetPulse = some s.mono ∧ nfld t.pins.modResetLow p 1 = 1) ∧
      SameBytes s t ∧ SameEngines s t ∧ t.sec = s.sec ∧ SameLight s t ∧ t.power = s.power ∧ t.boot = s.boot) ∧
  (∀ (s : State) (p : Fin 16), s.modPresent p = true →
    ∃ t, exec (.moduleRemove p) s = .next t ∧ t.modPresent p = false ∧ t.b A.pinInStatus p = false ∧ (t.port p).resetPulse = none ∧
      (t.port p).framerOn = false ∧ (s.portEnabled p = true → t.defect p dLOS = true) ∧
      SameBytes s t ∧ SameEngines s t ∧ t.sec = s.sec ∧ SameLight s t ∧ t.power = s.power ∧ t.boot = s.boot) ∧
  (∀ (s : State) (p : Fin 16) (m : ModuleFlags) (c : Instr), c ∈ [Instr.moduleInterrupt p m, .modulePoll p m] →
    s.modPresent p = true → s.modAuto p = true →
    ∃ t, exec c s = .next t ∧ t.f (A.lineModStatus p) 1 3 = m.state % 8 ∧ t.b (A.lineModStatus p) 5 = m.txFault ∧
      t.b (A.lineModStatus p) 6 = m.rxLos ∧ t.modPresent p = true ∧ (s.portEnabled p = true → m.rxLos = true → t.defect p dLOS = true) ∧
      SameBytes s t ∧ SameEngines s t ∧ t.sec = s.sec ∧ SameLight s t ∧ SameBase s t) ∧
  (∀ (s : State) (p : Fin 16), s.bringsUp p = true → (s.port p).resetPulse = none →
    ∃ t, exec (.moduleReady p true) s = .next t ∧ t.f (A.lineModStatus p) 1 3 = 3 ∧ t.b (A.lineModStatus p) 7 = false ∧
      t.b (A.lineModStatus p) 4 = false ∧ (t.port p).framerOn = false ∧
      t.outbox = s.outbox ++ [.cmisWrite p 0x10 128 0x0F] ++
        (List.range 4).map (fun l => .cmisWrite p 0x10 (145 + l) (s.appSel p * 16)) ++ [.cmisWrite p 0x10 143 0x0F] ∧
      (∀ r, r ≠ p.val → t.port r = s.port r) ∧ SameBytes s t ∧ SameEngines s t ∧ t.sec = s.sec ∧ SameLight s t ∧ SameBase s t ∧
      SameHost s t ∧ SameRegs [A.lineModStatus p] s t) ∧
  (∀ (s : State) (p : Fin 16), s.bringsUp p = true → (s.port p).resetPulse = none →
    ∃ t, exec (.moduleReady p false) s = .next t ∧ t.b (A.lineModStatus p) 7 = true ∧ t.f (A.lineModStatus p) 1 3 = 3 ∧
      SameBytes s t ∧ SameEngines s t ∧ SameLines s t ∧ SameLight s t ∧ SameBase s t ∧ SameHost s t ∧ SameRegs [A.lineModStatus p] s t) ∧
  (∀ (s : State) (p : Fin 16), s.bringsUp p = true → s.b (A.lineModStatus p) 7 = false →
    ∃ t, exec (.moduleDatapathActivated p) s = .next t ∧ t.b (A.lineModStatus p) 4 = true ∧ t.framersOn p = true ∧
      (∀ r, r ≠ p.val → t.port r = s.port r) ∧ SameBytes s t ∧ SameEngines s t ∧ t.sec = s.sec ∧ SameLight s t ∧ SameBase s t ∧
      SameHost s t ∧ SameRegs [A.lineModStatus p] s t) ∧
  (∀ (s : State) (p : Fin 16), s.elapsedSince (s.port p).resetPulse 10000000 = true →
    ∃ t, exec (.moduleResetPulseEnd p) s = .next t ∧ (t.port p).resetPulse = none ∧ nfld t.pins.modResetLow p 1 = 0 ∧
      (∀ r, r ≠ p.val → t.port r = s.port r) ∧ SameBytes s t ∧ SameEngines s t ∧ t.sec = s.sec ∧ SameLight s t ∧ SameHost s t ∧
      SameRegs [] s t)

/-- R1, R172, R305, R386: LINE_ENABLE, LINE_DISABLE and CMIS_GO. -/
def Obligations.PortsAreTurnedOnAndOff : Prop :=
  (∀ (s : State) (p : Fin 16) (v : Word), s.accepts (A.lineCtrl p) = true → (p.val < 8 ∨ s.licensed 0 = true) → s.portEnabled p = false →
    bit v 0 = true → s.serdesRetired p = false →
    ∃ t, exec (.lineEnable p v) s = .next t ∧ t.portEnabled p = true ∧ (t.portQualOf p).passed = false ∧
      (t.portQualOf p).leftOut = false ∧ t.b A.bootLinkQual p = false ∧ t.b A.bootLinkQual (16 + p) = false ∧
      SameBytes s t ∧ SameEngines s t ∧ t.sec = s.sec ∧ SameLight s t ∧ t.power = s.power ∧ SameHost s t) ∧
  (∀ (s : State) (p : Fin 16) (v : Word), s.accepts (A.lineCtrl p) = true → s.portEnabled p = true → bit v 0 = false →
    ∃ t, exec (.lineDisable p v) s = .next t ∧ t.portEnabled p = false ∧ t.reg (A.lineStatus p) = 0 ∧ (t.port p).tx = [] ∧ (t.port p).rx = [] ∧
      SameBytes s t ∧ SameEngines s t ∧ t.sec = s.sec ∧ SameLight s t ∧ t.power = s.power ∧ SameHost s t) ∧
  (∀ (s : State) (p : Fin 16) (v : Word), s.accepts (A.lineCtrl p) = true → 8 ≤ p.val → bit v 0 = true → s.licensed 0 = false →
    ∃ t, exec (.lineEnable p v) s = .next t ∧ t.reg (A.lineCtrl p) = s.reg (A.lineCtrl p) ∧
      t.reg A.errAccessCount = BitVec.ofNat 32 (min 0xFFFFFFFF ((s.reg A.errAccessCount).toNat + 1)) ∧
      SameBytes s t ∧ SameEngines s t ∧ SameLines s t ∧ SameLight s t ∧ SameBase s t ∧ SameRegsBut isReportReg s t) ∧
  (∀ (s : State) (p : Fin 16) (v : Word) (reply : Option Byte), s.accepts (A.lineCmisCtrl p) = true → bit v 31 = true →
    s.modPresent p = false →
    ∃ t, exec (.cmisGo p v reply) s = .next t ∧ t.f (A.lineCmisData p) 8 2 = 3 ∧ t.outbox = s.outbox ∧
      SameBytes s t ∧ SameEngines s t ∧ SameLines s t ∧ SameLight s t ∧ SameBase s t ∧ SameHost s t ∧
      SameRegs [A.lineCmisCtrl p, A.lineCmisData p] s t) ∧
  (∀ (s : State) (p : Fin 16) (v : Word) (reply : Option Byte), s.accepts (A.lineCmisCtrl p) = true → bit v 31 = true →
    s.modPresent p = true → bit v 24 = false →
    ∃ t, exec (.cmisGo p v reply) s = .next t ∧ t.f (A.lineCmisData p) 8 2 = (if reply = none then 1 else 0) ∧
      (∀ b, reply = some b → t.f (A.lineCmisData p) 0 8 = b.toNat ∧
        t.outbox = s.outbox ++ [.cmisRead p (fld v 0 8 + 256 * fld v 8 8) (fld v 16 8)]) ∧
      SameBytes s t ∧ SameEngines s t ∧ SameLines s t ∧ SameLight s t ∧ SameBase s t ∧ SameHost s t ∧
      SameRegs [A.lineCmisCtrl p, A.lineCmisData p] s t)

/-- R177, R184-R186, R208: CELL_RECEIVE. -/
def Obligations.CellsAreCheckedAndTaken : Prop :=
  ∀ (s s1 : State) (p : Fin 16) (retry : Bool) (cell : List (Byte × Bool)) (e : Nat), s.linkRuns = true → s.portRole p = 1 →
    s.nextCell p = (some cell, s1) →
    let bytes := cell.map (·.1)
    let node := beAt bytes 8 4
    let n := saNumber 1 e (s1.portRoute p)
    s1.peerOf node = some e →
    (∀ slot body, s1.checkCell n bytes false = .good slot body → beAt bytes 12 4 = s.nodeId → node = s.peerNode (s.portPeer p) →
      s.peerValid (s.portPeer p) = true → beAt bytes 4 1 = 2 → nfld (beAt bytes 5 1) 0 3 = 0 →
      msgLength (beAt body 0 1) = some body.length → hcrcOk body = true →
      ∃ t, exec (.cellReceive p true retry) s = .next t ∧
        t.delivered = s.delivered ++ [{ line := true, node := node, vc := 0, ptype := 2, bytes := body }] ∧
        (beAt bytes 20 8 ≤ ((t.sa n).slot slot).highest) ∧ SameBytes s t ∧ t.que = s.que ∧ t.cle = s.cle ∧ t.rue = s.rue ∧ t.lnd = s.lnd ∧
        t.gal = s.gal ∧ t.rte = s.rte ∧ t.sched = s.sched ∧ SameLight s t ∧ SameBase s t ∧ SameHost s t) ∧
    (∀ slot body, s1.checkCell n bytes false = .good slot body → beAt bytes 12 4 = s.nodeId → node = s.peerNode (s.portPeer p) →
      s.peerValid (s.portPeer p) = true → beAt bytes 4 1 = 1 → nfld (beAt bytes 5 1) 0 3 ≠ 0 → (∀ b ∈ cell, b.2 = false) →
      body.length = 8224 → beAt body 28 4 = crc32c (body.take 28 ++ body.drop 32) →
      2 ≤ nfld (beAt body 1 1) 0 4 → nfld (beAt body 1 1) 0 4 ≤ 8 → nfld (beAt body 1 1) 4 3 ≤ 4 →
      beAt body 2 1 < nfld (beAt body 1 1) 0 4 + nfld (beAt body 1 1) 4 3 →
      s.rte.farInc.get (fun _ => 0) node = beAt body 6 2 →
      beAt body 8 4 = (s.rx (streamKey node (nfld (beAt bytes 5 1) 0 3))).next →
      (∀ u ∈ (s.rx (streamKey node (nfld (beAt bytes 5 1) 0 3))).stripes, u.seq ≠ beAt body 8 4) →
      ∃ t u, exec (.cellReceive p true retry) s = .next t ∧ u ∈ (t.rx (streamKey node (nfld (beAt bytes 5 1) 0 3))).stripes ∧
        u.seq = beAt body 8 4 ∧ u.shards = [(beAt body 2 1, body.drop 32)] ∧
        (t.delay node (nfld (beAt body 3 1) 0 3)).lastSample = s.mono ∧ t.delivered = s.delivered ∧
        SameBytes s t ∧ t.que = s.que ∧ t.cle = s.cle ∧ t.rue = s.rue ∧ t.lnd = s.lnd ∧ t.gal = s.gal ∧ SameLight s t ∧ SameBase s t) ∧
    (s1.checkCell n bytes false = .tagFail →
      ∃ t, exec (.cellReceive p true retry) s = .next t ∧
        t.reg (A.secCnt 0) = BitVec.ofNat 32 (min 0xFFFFFFFF ((s.reg (A.secCnt 0)).toNat + 1)) ∧ t.sec = s.sec ∧ t.rte = s.rte ∧
        t.delivered = s.delivered ∧ SameBytes s t ∧ SameEngines s t ∧ SameLight s t ∧ SameBase s t ∧ SameHost s t)

/-- R186, R189-R191: NAK_RECEIVE, GONE_RECEIVE, STRIPE_DEADLINE and NAK_REPEAT_TIMER. -/
def Obligations.NaksAndLostStripes : Prop :=
  (∀ (s : State) (node : Nat) (msg : List Byte), beAt msg 0 1 = 0x30 → msg.length = 24 → hcrcOk msg = true → beAt msg 8 4 = 1 →
    seqBefore (beAt msg 4 4) (s.tx (streamKey node (beAt msg 1 1))).seq = true → (s.alloc clsArq 8192).1.isSome = true →
    ∃ t, exec (.nakReceive node msg) s = .next t ∧
      t.reg (A.routeCnt 5) = BitVec.ofNat 32 (min 0xFFFFFFFF ((s.reg (A.routeCnt 5)).toNat + 1)) ∧
      (∀ y, s.findStripe node (beAt msg 1 1) (beAt msg 4 4) = some y → ∃ y', t.findStripe node (beAt msg 1 1) (beAt msg 4 4) = some y' ∧
        y'.holdEnd = s.mono + (s.lineHold y.node).1 ∧ y'.data = y.data ∧ t.reg (A.routeCnt 8) = s.reg (A.routeCnt 8)) ∧
      (s.findStripe node (beAt msg 1 1) (beAt msg 4 4) = none → t.rte = s.rte ∧
        t.reg (A.routeCnt 8) = BitVec.ofNat 32 (min 0xFFFFFFFF ((s.reg (A.routeCnt 8)).toNat + 1))) ∧
      SameBytes s t ∧ t.que = s.que ∧ t.cle = s.cle ∧ t.rue = s.rue ∧ t.gal = s.gal ∧ t.ports = s.ports ∧ t.sec = s.sec ∧ SameLight s t) ∧
  (∀ (s : State) (node q key : Nat) (msg : List Byte), beAt msg 0 1 = 0x33 → msg.length = 24 → hcrcOk msg = true → beAt msg 8 4 = 1 →
    q = beAt msg 4 4 → key = streamKey node (beAt msg 1 1) → s.cle.insts = [] → seqBefore q (s.rx key).next = false →
    (∀ u ∈ (s.rx key).stripes, u.seq ≠ q) → q ≠ (s.rx key).next → (∀ u ∈ (s.rx key).stripes, u.seq ≠ (s.rx key).next) →
    ∃ t u, exec (.goneReceive node msg) s = .next t ∧ u ∈ (t.rx key).stripes ∧ u.seq = q ∧ u.lost = true ∧
      t.reg (A.routeCnt 7) = BitVec.ofNat 32 (min 0xFFFFFFFF ((s.reg (A.routeCnt 7)).toNat + 1)) ∧
      SameBytes s t ∧ t.que = s.que ∧ t.cle = s.cle ∧ t.rue = s.rue ∧ t.lnd = s.lnd ∧ t.gal = s.gal ∧ t.ports = s.ports ∧
      t.sched = s.sched ∧ t.sec = s.sec ∧ SameLight s t ∧ SameRegs [A.routeCnt 7] s t) ∧
  (∀ (s : State) (node vc seq : Nat) (y : RxStripe) (c : Instr), s.waitingStripe node vc seq = some y →
    ((c = .stripeDeadline node vc seq ∧ y.naks = 0 ∧ s.deadline node y ≤ s.mono) ∨
      (c = .nakRepeatTimer node vc seq ∧ ∃ d, y.nextNak = some d ∧ d ≤ s.mono ∧ y.naks < s.f A.routeRseqCtrl 28 4)) →
    ∃ t u, exec c s = .next t ∧ u ∈ (t.rx (streamKey node vc)).stripes ∧ u.seq = y.seq ∧ u.naks = y.naks + 1 ∧ u.shards = y.shards ∧
      u.nextNak = some (s.mono + s.rttNs node + s.guardNs) ∧
      t.reg (A.routeCnt 4) = BitVec.ofNat 32 (min 0xFFFFFFFF ((s.reg (A.routeCnt 4)).toNat + 1)) ∧
      SameBytes s t ∧ SameEngines s t ∧ t.ports = s.ports ∧ t.sec = s.sec ∧ SameLight s t ∧ SameBase s t ∧ SameHost s t ∧
      SameRegs [A.routeCnt 4] s t) ∧
  (∀ (s : State) (node vc seq d : Nat) (y : RxStripe), s.waitingStripe node vc seq = some y → y.nextNak = some d → d ≤ s.mono →
    s.f A.routeRseqCtrl 28 4 ≤ y.naks →
    ∃ t, exec (.nakRepeatTimer node vc seq) s = .next t ∧ t.ports = s.ports ∧ t.sec = s.sec ∧ t.opt = s.opt ∧
      t.reg (A.routeCnt 7) = BitVec.ofNat 32 (min 0xFFFFFFFF ((s.reg (A.routeCnt 7)).toNat + 1)))

/-- R179, R181, R185, R187. -/
def Obligations.StreamsReportsAndDelays : Prop :=
  (∀ (s : State) (node vc e : Nat) (x : TxStream), vc < 8 → x = s.tx (streamKey node vc) → s.peerOf node = some e → 0 < s.peerK e →
    x.area ≠ [] → x.area.length ≤ s.peerK e * 8192 → x.waiting = [] → s.elapsed x.openedAt (s.f A.routeTimerCtrl 0 16) = true →
    s.queueFull e vc = false →
    ∃ t y, exec (.stripeFillTimeout node vc) s = .next t ∧ t.rte.retained = s.rte.retained ++ [y] ∧ y.node = node ∧ y.vc = vc ∧
      y.seq = x.seq ∧ y.data.take x.area.length = x.area ∧ (t.tx (streamKey node vc)).seq = (x.seq + 1) % 0x100000000 ∧
      (t.tx (streamKey node vc)).area = [] ∧ t.rte.rxs = s.rte.rxs ∧
      SameBytes s t ∧ SameEngines s t ∧ t.ports = s.ports ∧ t.sec = s.sec ∧ SameLight s t ∧ SameBase s t ∧ SameHost s t) ∧
  (∀ (s : State) (r q key e : Nat) (x : TxStream), (s.wfq r q).items.length < 4096 → s.rte.txs = [(key, x)] → x.held = true →
    s.peerOf (key / 8) = some e → 0 < s.peerK e → x.area ≠ [] → x.area.length ≤ s.peerK e * 8192 →
    x.waiting = [] → s.elapsed x.openedAt (s.f A.routeTimerCtrl 0 16) = true → s.queueFull e (key % 8) = false →
    ∃ t y, exec (.stripeQueueRoom r q) s = .next t ∧ t.rte.retained = s.rte.retained ++ [y] ∧ y.seq = x.seq ∧ (t.tx key).held = false ∧
      SameBytes s t ∧ SameEngines s t ∧ t.ports = s.ports ∧ t.sec = s.sec ∧ SameLight s t ∧ SameBase s t ∧ SameHost s t) ∧
  (∀ (s : State) (node : Nat) (msg : List Byte), beAt msg 0 1 = 0x31 → msg.length = 48 → hcrcOk msg = true →
    ∃ t, exec (.reportReceive node msg) s = .next t ∧
      (∀ r, r < 8 → (t.delay node r).fwd = (if beAt msg (4 + 4 * r) 4 = 0xFFFFFFFF then none else some (beAt msg (4 + 4 * r) 4)) ∧
        (t.delay node r).dref = (s.delay node r).dref) ∧ t.rte.txs = s.rte.txs ∧ t.rte.rxs = s.rte.rxs ∧
      SameBytes s t ∧ t.que = s.que ∧ t.cle = s.cle ∧ t.rue = s.rue ∧ t.lnd = s.lnd ∧ t.gal = s.gal ∧ t.ports = s.ports ∧
      t.sched = s.sched ∧ t.sec = s.sec ∧ SameLight s t ∧ SameBase s t ∧ SameHost s t ∧ SameRegs [] s t) ∧
  (∀ s : State, s.elapsed s.rte.lastReport 1000000 = true →
    ∃ t, exec .reportTimer s = .next t ∧ t.rte.lastReport = s.mono ∧
      (∀ e p, e < 64 → s.peerValid e = true → s.msgPort e = some p →
        { peer := e, node := s.peerNode e, msg := s.reportFor (s.peerNode e) } ∈ t.ctrlQueue p) ∧
      SameBytes s t ∧ SameEngines s t ∧ t.ports = s.ports ∧ t.sec = s.sec ∧ SameLight s t ∧ SameBase s t ∧ SameHost s t ∧
      SameRegs [] s t) ∧
  (∀ (s : State) (key : Nat) (d : RouteDelay) (m : Int), s.now / 1000000 ≠ s.rte.lastInterval / 1000000 → s.rte.delays = [(key, d)] → d.intMin = some m → d.dref = none →
    ∃ t, exec .delayIntervalEnd s = .next t ∧ (t.delay (key / 8) (key % 8)).dref = some m ∧ (t.delay (key / 8) (key % 8)).intMin = none ∧
      t.reg (A.routeCnt 10) = BitVec.ofNat 32 (min 0xFFFFFFFF ((s.reg (A.routeCnt 10)).toNat + 1)) ∧
      SameBytes s t ∧ SameEngines s t ∧ t.ports = s.ports ∧ t.sched = s.sched ∧ t.sec = s.sec ∧ SameLight s t ∧ SameBase s t) ∧
  (∀ (s : State) (node r : Nat), (s.delay node r).dref ≠ none → s.elapsed (s.delay node r).lastSample 1000000000 = true →
    ∃ t, exec (.drefExpire node r) s = .next t ∧ (t.delay node r).dref = none ∧
      t.reg (A.routeCnt 10) = BitVec.ofNat 32 (min 0xFFFFFFFF ((s.reg (A.routeCnt 10)).toNat + 1)) ∧
      SameBytes s t ∧ SameEngines s t ∧ t.ports = s.ports ∧ t.sched = s.sched ∧ t.sec = s.sec ∧ SameLight s t ∧ SameBase s t)

/-- R175, R179, R192; 06 R130. -/
def Obligations.GoingDownIsToldAndTaken : Prop :=
  (∀ (s : State) (v : Word), s.accepts A.routeDownCtrl = true → bit v 0 = true → s.rte.downAt = none →
    ∃ t, exec (.orderlyResetGo v) s = .next t ∧ t.rte.downAt = some (s.mono + s.f A.routeTimerCtrl 16 8 * 1000000) ∧
      SameBytes s t ∧ SameEngines s t ∧ t.ports = s.ports ∧ t.sec = s.sec ∧ SameLight s t ∧ SameBase s t ∧ SameHost s t ∧
      SameRegs [] s t) ∧
  (∀ (s : State) (node : Nat) (p : Fin 16) (msg : List Byte), beAt msg 0 1 = 0x32 → msg.length = 24 → hcrcOk msg = true → beAt msg 2 1 = 1 →
    ∃ t, exec (.goingDownReceive node p msg) s = .next t ∧ (t.port p).downMark = true ∧ t.portUsable p = false ∧
      SameBytes s t ∧ t.que = s.que ∧ t.cle = s.cle ∧ t.rue = s.rue ∧ t.lnd = s.lnd ∧ t.gal = s.gal ∧ t.sec = s.sec ∧ SameLight s t ∧
      SameBase s t ∧ SameHost s t) ∧
  (∀ (s : State) (node : Nat) (p : Fin 16) (msg : List Byte), beAt msg 0 1 = 0x32 → msg.length = 24 → hcrcOk msg = true → beAt msg 2 1 ≠ 1 →
    ∃ t, exec (.goingDownReceive node p msg) s = .next t ∧
      (∀ g x, s.inst g = some x → (∃ y ∈ x.group.gateways, y ≠ x.self ∧ x.nodeOf y = beAt msg 12 4) → t.inst g = none) ∧
      t.ports = s.ports ∧ t.sec = s.sec ∧ t.opt = s.opt) ∧
  (∀ (s : State) (p : Fin 16), (s.port p).downMark = true → s.elapsedSince (s.port p).clearSince 1000000 = true →
    ∃ t, exec (.portMarkClear p) s = .next t ∧ (t.port p).downMark = false ∧
      SameBytes s t ∧ SameEngines s t ∧ t.sec = s.sec ∧ SameLight s t ∧ SameBase s t ∧ SameHost s t)

/-- R195-R197, R202, R203, R206: PORT_CELL_SELECT, SCHED_DEPTH_SAMPLE and SCHED_PM_LATCH. -/
def Obligations.TheSchedulerSendsTheRightCell : Prop :=
  (∀ (s : State) (p : Fin 16) (c : CtrlCell) (rest : List CtrlCell) (n i : Nat) (k : KeySlot), s.portSends p = true → s.portRole p = 1 →
    (s.sa (saNumber 0 (s.portPeer p) (s.portRoute p))).switchAt = none → s.ctrlQueue p = c :: rest → c.peer ≠ 64 →
    n = saNumber 0 c.peer (s.portRoute p) → (s.sa n).inState .txCurrent = some i → k = (s.sa n).slot i → k.ctr < 2 ^ 47 →
    ∃ t, exec (.portCellSelect p 0) s = .next t ∧ t.ctrlQueue p = rest ∧
      (t.port p).tx = (s.port p).tx ++ sealCell k k.ctr
        (plainCell 2 0 s.nodeId c.node k.epoch k.ctr (fixTiming (s.txStamp true p) c.msg)) ∧
      ((t.sa n).slot i).ctr = k.ctr + 1 ∧ t.reg (A.schedCnt 3) = BitVec.ofNat 32 (min 0xFFFFFFFF ((s.reg (A.schedCnt 3)).toNat + 1)) ∧
      (∀ r, r ≠ p.val → t.port r = s.port r) ∧ SameBytes s t ∧ SameEngines s t ∧ t.rte = s.rte ∧ SameLight s t ∧ SameBase s t ∧
      SameHost s t ∧ SameRegs [A.schedCnt 3] s t) ∧
  (∀ (s : State) (p : Fin 16) (q f tm n i : Nat) (x : ShardCell) (k : KeySlot), s.portSends p = true → s.portRole p = 1 →
    (s.sa (saNumber 0 (s.portPeer p) (s.portRoute p))).switchAt = none → s.ctrlQueue p = [] → s.bestQueue p = some (q, x, f, tm) →
    n = saNumber 0 x.peer (s.portRoute p) → (s.sa n).inState .txCurrent = some i → k = (s.sa n).slot i → k.ctr < 2 ^ 47 →
    ∃ t, exec (.portCellSelect p 0) s = .next t ∧ (t.wfq (s.portRoute p) q).items = (s.wfq (s.portRoute p) q).items.drop 1 ∧
      (t.port p).tx = (s.port p).tx ++ sealCell k k.ctr (plainCell 1 x.vc s.nodeId x.node k.epoch k.ctr
        (shardBody x s.rte.incarnation (s.txStamp true p / 0x10000))) ∧
      ((t.sa n).slot i).ctr = k.ctr + 1 ∧ (tagBefore (s.vtime (s.portRoute p)) f = true → t.vtime (s.portRoute p) = f) ∧
      (∀ r, r ≠ p.val → t.port r = s.port r) ∧ SameBytes s t ∧ SameEngines s t ∧ SameLight s t ∧ SameBase s t ∧ SameHost s t ∧
      SameRegs [] s t) ∧
  (∀ s : State, s.now / max 1 s.sched.period ≠ s.sched.lastSample / max 1 s.sched.period →
    ∃ t, exec .schedDepthSample s = .next t ∧
      (∀ k, k < 512 → t.qstat k = (s.qstat k).sampled (s.wfq (k / 64) (k % 64)).items.length) ∧ t.sched.queues = s.sched.queues ∧
      SameBytes s t ∧ SameEngines s t ∧ t.ports = s.ports ∧ t.rte = s.rte ∧ t.sec = s.sec ∧ t.opt = s.opt ∧ SameBase s t ∧ SameHost s t ∧
      SameRegs [] s t) ∧
  (∀ s : State,
    ∃ t, exec .schedPmLatch s = .next t ∧ t.sched.latched = s.sched.stat ∧ t.sched.stat = [] ∧ t.sched.lastLatch = s.mono ∧
      t.sched.period = s.f A.schedSampleCtrl 0 17 ∧ t.reg A.schedPmSeq = s.reg A.schedPmSeq + 1 ∧ t.sched.queues = s.sched.queues ∧
      SameBytes s t ∧ SameEngines s t ∧ t.ports = s.ports ∧ t.rte = s.rte ∧ t.sec = s.sec ∧ SameLight s t ∧ SameBase s t ∧ SameHost s t ∧
      SameRegs [A.schedPmSeq, A.schedPmLen] s t)

/-- R209, R211-R213: SA_LOAD, SA_SCHEDULE, SA_CLEAR, EPOCH_SWITCH and RX_HOLDDOWN_EXPIRE. -/
def Obligations.KeysAreLoadedScheduledAndCleared : Prop :=
  (∀ (s : State) (v : Word), s.accepts A.secSaCmd = true → bit v 0 = true → bit v 1 = false → bit v 2 = false →
    ∃ t, exec (.saLoad v) s = .next t ∧ t.f A.secSaCmd 8 4 = s.loadCheck ∧ (∀ k, k < 8 → t.reg (A.secKey k) = 0) ∧ t.reg A.secSalt = 0 ∧
      (s.loadCheck = 0 → ((t.sa s.saSel).slot s.slotSel).key = s.stagedKey ∧
        ((t.sa s.saSel).slot s.slotSel).salt = (s.reg A.secSalt).toNat ∧ ((t.sa s.saSel).slot s.slotSel).epoch = (s.reg A.secEpoch).toNat ∧
        ((t.sa s.saSel).slot s.slotSel).state = (if s.f A.secSaSel 12 1 = 0 then .txArmed else .rxValid) ∧
        (∀ n, n ≠ s.saSel → t.sa n = s.sa n)) ∧
      (s.loadCheck ≠ 0 → t.sec = s.sec) ∧ SameBytes s t ∧ SameEngines s t ∧ t.ports = s.ports ∧ t.rte = s.rte ∧ t.sched = s.sched ∧
      SameLight s t ∧ SameBase s t ∧ SameHost s t) ∧
  (∀ (s : State) (v : Word) (i : Nat), s.accepts A.secSaCmd = true → bit v 0 = false → bit v 1 = true → bit v 2 = false →
    s.scheduleCheck = 0 → (s.sa s.saSel).inState .txArmed = some i →
    ∃ t, exec (.saSchedule v) s = .next t ∧ t.f A.secSaCmd 8 4 = 0 ∧
      ((s.sa s.saSel).inState .txCurrent = none → ((t.sa s.saSel).slot i).state = .txCurrent ∧ (t.sa s.saSel).switchAt = none) ∧
      ((s.sa s.saSel).inState .txCurrent ≠ none → s.hasReached (s.reg64 A.secSwitchTimeLo A.secSwitchTimeHi) = false →
        t.sa s.saSel = { s.sa s.saSel with switchAt := some (s.reg64 A.secSwitchTimeLo A.secSwitchTimeHi) }) ∧
      (∀ n, n ≠ s.saSel → t.sa n = s.sa n) ∧ SameBytes s t ∧ SameEngines s t ∧ t.ports = s.ports ∧ SameLight s t ∧ SameBase s t ∧ SameHost s t) ∧
  (∀ (s : State) (v : Word), s.accepts A.secSaCmd = true → bit v 0 = false → bit v 1 = false → bit v 2 = true →
    ∃ t, exec (.saClear v) s = .next t ∧ (t.sa s.saSel).slot s.slotSel = {} ∧ (t.sa s.saSel).switchAt = none ∧
      (t.sa s.saSel).slot (1 - s.slotSel) = (s.sa s.saSel).slot (1 - s.slotSel) ∧ t.f A.secSaCmd 8 4 = 0 ∧
      (∀ n, n ≠ s.saSel → t.sa n = s.sa n) ∧ SameBytes s t ∧ SameEngines s t ∧ t.ports = s.ports ∧ SameLight s t ∧ SameBase s t ∧ SameHost s t) ∧
  (∀ (s : State) (n : Fin 512) (at' i : Nat), (s.sa n).switchAt = some at' → s.hasReached at' = true → (s.sa n).inState .txArmed = some i → i < 2 →
    ∃ t, exec (.epochSwitch n) s = .next t ∧ ((t.sa n).slot i).state = .txCurrent ∧ ((t.sa n).slot i).key = ((s.sa n).slot i).key ∧
      (((s.sa n).slot (1 - i)).state = .txCurrent → (t.sa n).slot (1 - i) = {}) ∧ (t.sa n).switchAt = none ∧
      t.reg (A.secCnt 5) = BitVec.ofNat 32 (min 0xFFFFFFFF ((s.reg (A.secCnt 5)).toNat + 1)) ∧
      (∀ m, m ≠ n.val → t.sa m = s.sa m) ∧ SameBytes s t ∧ SameEngines s t ∧ t.ports = s.ports ∧ SameLight s t ∧ SameBase s t ∧ SameHost s t) ∧
  (∀ (s : State) (n : Fin 512),
    ∃ t, exec (.rxHolddownExpire n) s = .next t ∧
      (∀ i, i < 2 → (t.sa (512 + n)).slot i =
        if ((s.sa (512 + n)).slot i).state = .rxHold ∧ ((s.sa (512 + n)).slot i).holdEnd ≤ s.mono then {} else (s.sa (512 + n)).slot i) ∧
      (∀ m, m ≠ 512 + n.val → t.sa m = s.sa m) ∧ SameBytes s t ∧ SameEngines s t ∧ t.ports = s.ports ∧ t.rte = s.rte ∧ t.sched = s.sched ∧
      SameLight s t ∧ SameBase s t ∧ SameHost s t ∧ SameRegs [] s t)

/-- R217-R219: ALARM_ASSERT, ERASE_GO, KEY_ERASE_COMPLETE and ALARM_LATCH_CLEAR. -/
def Obligations.AlarmsEraseEveryKey : Prop :=
  (∀ (s : State) (a : Fin 512), Nat.land a s.alarmArmed ≠ 0 →
    ∃ t, exec (.alarmAssert a) s = .next t ∧ t.f A.secAlarmStatus 0 9 = a ∧
      t.f A.secAlarmLatch 0 9 = Nat.lor (s.f A.secAlarmLatch 0 9) (Nat.land a s.alarmArmed) % 512 ∧
      t.sec.sas = [] ∧ t.sec.erasing = true ∧ (∀ k, k < 8 → t.reg (A.secKey k) = 0) ∧
      SameBytes s t ∧ SameEngines s t ∧ t.ports = s.ports ∧ SameLight s t ∧ SameHost s t) ∧
  (∀ (s : State) (a : Fin 512), Nat.land a s.alarmArmed = 0 →
    ∃ t, exec (.alarmAssert a) s = .next t ∧ t.f A.secAlarmStatus 0 9 = a ∧
      SameBytes s t ∧ SameEngines s t ∧ SameLines s t ∧ SameLight s t ∧ SameBase s t ∧ SameHost s t ∧ SameRegs [A.secAlarmStatus] s t) ∧
  (∀ (s : State) (v : Word), s.accepts A.secEraseCtrl = true → bit v 0 = true → nfld s.alarmArmed 8 1 = 1 →
    ∃ t, exec (.eraseGo v) s = .next t ∧ t.b A.secAlarmLatch 8 = true ∧ t.sec.sas = [] ∧ t.sec.erasing = true ∧
      SameBytes s t ∧ SameEngines s t ∧ t.ports = s.ports ∧ SameLight s t ∧ SameHost s t) ∧
  (∀ s : State, s.sec.erasing = true →
    ∃ t, exec (.keyEraseComplete true) s = .next t ∧ t.sec.erasing = false ∧ t.sec.sas = s.sec.sas ∧ t.b A.secEraseCtrl 8 = true ∧
      t.reg (A.secCnt 7) = BitVec.ofNat 32 (min 0xFFFFFFFF ((s.reg (A.secCnt 7)).toNat + 1)) ∧ t.log.seq = (s.log.seq + 1) % 0x100000000 ∧
      SameBytes s t ∧ SameEngines s t ∧ t.ports = s.ports ∧ t.rte = s.rte ∧ t.sched = s.sched ∧ SameLight s t ∧ SameBase s t ∧
      SameRegsBut (fun a => isReportReg a || [A.secEraseCtrl, A.secCnt 7].contains a) s t) ∧
  (∀ s : State, s.sec.erasing = true → s.sec.retried = false →
    ∃ t, exec (.keyEraseComplete false) s = .next t ∧ t.sec.erasing = true ∧ t.sec.retried = true ∧ t.sec.sas = s.sec.sas ∧ t.log = s.log ∧
      SameBytes s t ∧ SameEngines s t ∧ t.ports = s.ports ∧ t.rte = s.rte ∧ t.sched = s.sched ∧ SameLight s t ∧ SameBase s t ∧
      SameRegs [A.secEraseCtrl] s t) ∧
  (∀ (s : State) (v : Word), s.accepts A.secAlarmLatch = true → s.f A.secAlarmStatus 0 9 = 0 →
    ∃ t, exec (.alarmLatchClear v) s = .next t ∧ (∀ k, k < 9 → t.b A.secAlarmLatch k = (s.b A.secAlarmLatch k && !bit v k)) ∧
      SameBytes s t ∧ SameEngines s t ∧ SameLines s t ∧ SameLight s t ∧ t.power = s.power ∧ t.boot = s.boot ∧ SameHost s t ∧
      SameRegs [A.secAlarmLatch] s t)

/-- R224-R229: the events of one ring. -/
def Obligations.RingsTrackRelockAndAreSpared : Prop :=
  (∀ (s : State) (q : Fin 8) (r : Fin 136) (err : Int) (g : Ring), g = (s.quad q).ring r → g.mode = .locked → (s.quad q).light = true →
    err.natAbs ≤ 500 →
    (∃ t, exec (.pegUpdate q r err true) s = .next t ∧
      ((g.heater : Int) + Config.heaterMove s.freeCtr ≤ 34000 → (t.quad q).ring r = { g with trackRun := 0, outRun := 0 } ∧
        (∀ k, k ≠ q.val → t.quad k = s.quad k) ∧ SameBytes s t ∧ SameEngines s t ∧ SameLines s t ∧ t.dfl = s.dfl ∧ SameBase s t ∧
        SameHost s t ∧ SameRegs [] s t) ∧
      (¬ (g.heater : Int) + Config.heaterMove s.freeCtr ≤ 34000 → ((t.quad q).ring r).mode = .failed ∧ ∀ a, t.galByte a = s.galByte a)) ∧
    (4 ≤ g.outRun → ∃ t, exec (.pegUpdate q r err false) s = .next t ∧
      ((g.heater : Int) + Config.heaterMove s.freeCtr ≤ 34000 →
        (t.quad q).ring r = { g with mode := .relock, trackRun := 0, outRun := 0 } ∧
        (∀ w, w < 32 → g.wave r = some w → t.b (ringStatus q r) w = false) ∧ (∀ k, k ≠ q.val → t.quad k = s.quad k) ∧
        SameBytes s t ∧ SameEngines s t ∧ SameLines s t ∧ t.dfl = s.dfl ∧ SameBase s t ∧ SameHost s t ∧ SameRegs [ringStatus q r] s t))) ∧
  (∀ (s : State) (q : Fin 8) (r : Fin 136) (err : Int) (g : Ring), g = (s.quad q).ring r → g.mode = .locked → (s.quad q).light = true →
    500 < err.natAbs → g.trackRun = 1 →
    ∃ t, exec (.pegUpdate q r err true) s = .next t ∧
      ((g.heater : Int) + Config.heaterMove s.freeCtr ≤ 34000 → (t.quad q).ring r = { g with trackRun := 2, outRun := 0 } ∧
        (t.quad q).heaterReason = true ∧ t.power.heater = true ∧ t.b A.pwrStatus 12 = true ∧
        t.reg (A.optCnt q 8) = BitVec.ofNat 32 (min 0xFFFFFFFF ((s.reg (A.optCnt q 8)).toNat + 1)) ∧
        SameBytes s t ∧ SameEngines s t ∧ SameLines s t ∧ t.dfl = s.dfl ∧ SameHost s t ∧
        SameRegs ([A.optCnt q 8, A.pwrStatus] ++ (List.range 16).map A.pwrPhaseCfg) s t)) ∧
  (∀ (s : State) (q : Fin 8) (r : Fin 136) (err : Int) (g : Ring), g = (s.quad q).ring r → g.mode = .locked → (s.quad q).light = true →
    (∀ i, i < 34 → ((s.quad q).ring (r.val / 34 * 34 + i)).mode.unsettled = false) →
    ∃ t, exec (.pegFineTrim q r err) s = .next t ∧ (t.quad q).ring r = { g with trimmed := true, setPoint := g.setPoint - err } ∧
      SameBytes s t ∧ SameEngines s t ∧ SameLines s t ∧ t.dfl = s.dfl ∧ SameBase s t ∧ SameHost s t ∧ SameRegs [] s t) ∧
  (∀ (s : State) (q : Fin 8) (r : Fin 136) (crossing : Bool) (g : Ring) (xs : List Nat), g = (s.quad q).ring r →
    (g.mode = .sweep ∨ g.mode = .resweep) → (s.quad q).light = true → g.heater = g.h →
    (crossing = true → ∀ y, g.xs.getLast? = some y → y + 500 ≤ g.h) → xs = (if crossing then g.xs ++ [g.h] else g.xs) →
    xs.length < 16 → g.h + 20 ≤ 34000 →
    ∃ t, exec (.pegSweepStep q r crossing) s = .next t ∧ ((t.quad q).ring r).h = g.h + 20 ∧ ((t.quad q).ring r).xs = xs ∧
      ((t.quad q).ring r).mode = g.mode ∧
      (t.quad q).backlog = (s.quad q).backlog.filter (fun e => decide (e.ring ≠ r.val)) ++
        [{ cls := .sweep, ring := r, target := g.h + 20, size := 20 }] ∧
      SameBytes s t ∧ SameEngines s t ∧ SameLines s t ∧ t.dfl = s.dfl ∧ SameBase s t ∧ SameHost s t ∧ SameRegs [] s t) ∧
  (∀ (s : State) (q : Fin 8) (r : Fin 136) (g : Ring) (n : Nat), g = (s.quad q).ring r → g.mode = .sweep → (s.quad q).light = true →
    g.heater = g.h → (∀ y, g.xs.getLast? = some y → y + 500 ≤ g.h) → g.xs.length = 15 → g.gap = some n → ringPos r ≠ 16 →
    ∃ t, exec (.pegSweepStep q r true) s = .next t ∧ ((t.quad q).ring r).mode = .locked ∧ ((t.quad q).ring r).recXs = g.xs ++ [g.h] ∧
      ((t.quad q).ring r).recGap = some n ∧ t.b (ringStatus q r) (ringPos r) = true ∧
      SameBytes s t ∧ SameEngines s t ∧ SameLines s t ∧ t.dfl = s.dfl ∧ SameBase s t ∧ SameHost s t ∧ SameRegs [ringStatus q r] s t) ∧
  (∀ (s : State) (q : Fin 8) (r : Fin 136) (g : Ring), g = (s.quad q).ring r → g.mode = .relock →
    (∃ t, exec (.localRelockDone q r true) s = .next t ∧ (t.quad q).ring r = { g with mode := .locked } ∧
      t.reg (A.optCnt q 0) = BitVec.ofNat 32 (min 0xFFFFFFFF ((s.reg (A.optCnt q 0)).toNat + 1)) ∧
      (∀ w, w < 32 → g.wave r = some w → t.b (ringStatus q r) w = true) ∧
      SameBytes s t ∧ SameEngines s t ∧ SameLines s t ∧ t.dfl = s.dfl ∧ SameBase s t ∧ SameHost s t ∧
      SameRegs [A.optCnt q 0, ringStatus q r] s t) ∧
    (∃ t, exec (.localRelockDone q r false) s = .next t ∧ ((t.quad q).ring r).mode = .resweep ∧ ((t.quad q).ring r).h = 0 ∧
      ((t.quad q).ring r).xs = [] ∧ (∀ w, w < 32 → g.wave r = some w → t.b (ringStatus q r) w = false) ∧
      SameBytes s t ∧ SameEngines s t ∧ SameLines s t ∧ t.dfl = s.dfl ∧ SameBase s t ∧ SameHost s t ∧
      SameRegs [ringStatus q r] s t)) ∧
  (∀ (s : State) (q : Fin 8) (r : Fin 136) (g : Ring) (w : Nat), g = (s.quad q).ring r → g.mode = .jump → g.carries = some w → w < 16 →
    ringPos r = 16 →
    ∃ t e, exec (.spareRingJumpDone q r true) s = .next t ∧ (t.quad q).ring r = { g with mode := .locked } ∧
      t.f (ringStatus q r) 16 5 = 1 + 2 * w ∧ t.b (ringStatus q r) w = true ∧
      t.reg (A.optCnt q 2) = BitVec.ofNat 32 (min 0xFFFFFFFF ((s.reg (A.optCnt q 2)).toNat + 1)) ∧
      t.log.entries.getLast? = some e ∧ e.code = 0x0501 ∧ e.reason = w ∧
      SameBytes s t ∧ SameEngines s t ∧ SameLines s t ∧ t.dfl = s.dfl ∧ SameBase s t ∧ t.host = s.host ∧
      SameRegsBut (fun a => isReportReg a || [A.optCnt q 2, ringStatus q r].contains a) s t) ∧
  (∀ (s : State) (q : Fin 8), (s.quad q).heaterReason = true → s.elapsedSince (s.quad q).trackOkSince 1000000 = true →
    (∀ k, k < 8 → k ≠ q.val → (s.quad k).heaterReason = false) →
    ∃ t, exec (.heaterReasonClear q) s = .next t ∧ t.quad q = { s.quad q with heaterReason := false } ∧ t.power.heater = false ∧
      t.b A.pwrStatus 12 = false ∧ SameBytes s t ∧ SameEngines s t ∧ SameLines s t ∧ t.dfl = s.dfl ∧ SameHost s t ∧
      SameRegs [A.pwrStatus] s t) ∧
  (∀ (s : State) (q : Fin 8) (on : Bool) (c : Instr), (on, c) ∈ [(false, Instr.laserLightLoss q), (true, .laserLightReturn q)] →
    ∃ t, exec c s = .next t ∧ t.quad q = { s.quad q with light := on } ∧ (∀ k, k ≠ q.val → t.quad k = s.quad k) ∧
      SameBytes s t ∧ SameEngines s t ∧ SameLines s t ∧ t.dfl = s.dfl ∧ SameBase s t ∧ SameHost s t ∧ SameRegs [] s t) ∧
  (∀ (s : State) (q : Fin 8) (r : HeatReq) (d : Int), ((s.quad q).grantAt = none ∨ s.elapsedSince (s.quad q).grantAt 1000 = true) →
    (s.quad q).backlog = [r] → r.cls = .tracking → r.due ≤ s.mono → d = (r.target : Int) - ((s.quad q).ring r.ring).heater →
    (s.quad q).comps r.ring d = [] →
    ∃ t, exec (.heaterGrant q) s = .next t ∧ (t.quad q).grantAt = some s.mono ∧
      (d.natAbs ≤ 200000 → ((t.quad q).ring r.ring).heater = r.target ∧ (t.quad q).backlog = []) ∧
      (200000 < d.natAbs → ((t.quad q).ring r.ring).heater = ((s.quad q).ring r.ring).heater ∧
        (t.quad q).backlog = [{ r with counted := true }]) ∧
      (∀ k, k ≠ q.val → t.quad k = s.quad k) ∧ SameBytes s t ∧ SameEngines s t ∧ SameLines s t ∧ t.dfl = s.dfl ∧ SameBase s t ∧
      SameHost s t ∧ SameRegs [A.optHtrPower q, A.optCnt q 7] s t)

/-- R231-R236: laser sources. -/
def Obligations.LasersFadeSwitchAndReturn : Prop :=
  (∀ (s : State) (q : Fin 8) (powers refs : List Int) (serial : Nat) (fade : Int), (s.source (s.feed4 q)).serial = some serial →
    s.reference serial = some refs → powers.length = 16 → (s.quad q).switch = none →
    fade = (List.zipWith (fun p r => p - r) powers refs).foldl (fun a b => if b < a then b else a) 32767 → -32768 ≤ fade →
    ∃ t, exec (.fadeMeasure q powers) s = .next t ∧ t.fadeCdb q = fade ∧
      (s.fadeState q = 0 → (∀ k, k < 4 → -(10 * s.f (A.optFadeThr q) (8 * k) 8 : Nat) < fade) → t.fadeState q = 0 ∧ t.log = s.log) ∧
      (s.fadeState q = 0 → fade ≤ -(10 * s.f (A.optFadeThr q) 0 8 : Nat) →
        (∀ k, 0 < k → k < 4 → -(10 * s.f (A.optFadeThr q) (8 * k) 8 : Nat) < fade) → t.fadeState q = 1 ∧
        t.reg (A.optCnt q 4) = BitVec.ofNat 32 (min 0xFFFFFFFF ((s.reg (A.optCnt q 4)).toNat + 1)) ∧
        ∃ e, t.log.entries.getLast? = some e ∧ e.code = 0x0503 ∧ e.reason = q.val) ∧
      SameBytes s t ∧ SameEngines s t ∧ SameLines s t ∧ t.dfl = s.dfl ∧ t.time = s.time ∧ t.boot = s.boot ∧ t.life = s.life) ∧
  (∀ (s : State) (q : Fin 8) (e : Nat), s.matching q = some e → (s.source e).en = true → (s.source e).stable = true →
    (s.source e).matched = false →
    ∃ t, exec (.spareSourceReady q) s = .next t ∧ t.source e = { s.source e with matched := true } ∧
      (∀ k, k ≠ e → t.source k = s.source k) ∧ t.power.trim.get (fun _ => 0) e = Config.trim s.freeCtr ∧
      SameBytes s t ∧ SameEngines s t ∧ SameLines s t ∧ t.dfl = s.dfl ∧ SameHost s t ∧ SameRegs [A.optLaserCmd q] s t) ∧
  (∀ (s : State) (q : Fin 8) (sw : LaserSwitch), (s.quad q).switch = some sw → sw.moved = false →
    ∃ t, exec (.laserSwitch q) s = .next t ∧
      t.quad q = { s.quad q with switch := some { sw with moved := true }, light := true, stableSince := some s.mono } ∧
      SameBytes s t ∧ SameEngines s t ∧ SameLines s t ∧ t.dfl = s.dfl ∧ SameBase s t ∧ SameHost s t ∧ SameRegs [] s t) ∧
  (∀ (s : State) (q : Fin 8) (sw : LaserSwitch), (s.quad q).switch = some sw → sw.moved = true → sw.relocked = false → sw.target < 10 →
    ∃ t, exec (.laserSwitchRelockDone q) s = .next t ∧
      (t.quad q).switch = some { sw with relocked := true, relockedAt := s.mono } ∧ t.feed4 q = sw.target ∧
      t.reg (A.optCnt q 5) = BitVec.ofNat 32 (min 0xFFFFFFFF ((s.reg (A.optCnt q 5)).toNat + 1)) ∧
      (sw.back = true → t.log = s.log) ∧
      (sw.back = false → ∃ e, t.log.entries.getLast? = some e ∧ e.code = 0x0501 ∧ e.reason = sw.target) ∧
      SameBytes s t ∧ SameEngines s t ∧ SameLines s t ∧ t.dfl = s.dfl ∧ SameBase s t) ∧
  (∀ (s : State) (q : Fin 8) (sw : LaserSwitch), (s.quad q).switch = some sw → sw.relocked = true → s.elapsed sw.decided 10000000 = true →
    ∃ t, exec (.laserSwitchStable q) s = .next t ∧ (t.quad q).switch = none ∧ t.fadeState q = 0 ∧ t.noSpare q = false ∧
      (sw.back = true → t.claimed q = 0xF) ∧ (sw.back = false → (t.source q).en = false ∧ t.claimed q = s.claimed q) ∧
      SameBytes s t ∧ SameEngines s t ∧ SameLines s t ∧ t.dfl = s.dfl ∧ t.time = s.time ∧ t.boot = s.boot) ∧
  (∀ (s : State) (q : Fin 8) (powers : List Int) (serial : Nat), (s.source (s.feed4 q)).serial = some serial →
    s.reference serial = none → s.elapsedSince (s.quad q).stableSince 10000000 = true → powers.length = 16 →
    s.boot.recordBytes + 4160 ≤ 0x100000 →
    ∃ t e, exec (.laserReferenceCapture q powers) s = .next t ∧ t.boot.record = s.boot.record ++ [e] ∧ e.kind = 0x0B ∧ e.index = q.val ∧
      e.payload = beBytes 16 serial ++ powers.flatMap (fun p => leBytes 2 (unsgn 16 p)) ∧
      SameBytes s t ∧ SameEngines s t ∧ SameLines s t ∧ SameLight s t ∧ SameHost s t ∧ SameRegs [] s t) ∧
  (∀ (s : State) (q : Fin 8) (v : Word), s.accepts (A.optLaserCmd q) = true → bit v 0 = true →
    (((s.quad q).switch.isSome = true ∨ (s.quad q).pendingCmd ≠ .none) →
      ∃ t, exec (.laserSwitchCmd q v) s = .next t ∧ t.f (A.optLaserCmd q) 8 4 = 4 ∧ t.opt = s.opt ∧ SameRegs [A.optLaserCmd q] s t) ∧
    ((s.quad q).switch = none → (s.quad q).pendingCmd = .none →
      (8 ≤ s.feed4 q → ∃ t, exec (.laserSwitchCmd q v) s = .next t ∧ t.f (A.optLaserCmd q) 8 4 = 0 ∧ t.opt = s.opt ∧
        SameRegs [A.optLaserCmd q] s t) ∧
      (s.feed4 q < 8 → s.claimed q ≠ 0xF → (s.source (s.claimed q)).stable = true → (s.source (s.claimed q)).matched = true → bit v 2 = false →
        ∃ t, exec (.laserSwitchCmd q v) s = .next t ∧ t.f (A.optLaserCmd q) 8 4 = 0 ∧
          (t.quad q).switch = some { target := s.claimed q, back := false, decided := s.mono } ∧ (t.quad q).pendingCmd = .none ∧
          t.opt.sources = s.opt.sources ∧ SameBytes s t ∧ SameEngines s t ∧ SameLines s t ∧ SameRegs [A.optLaserCmd q] s t) ∧
      (s.feed4 q < 8 → s.claimed q ≠ 0xF → (s.source (s.claimed q)).stable = false →
        ∃ t, exec (.laserSwitchCmd q v) s = .next t ∧ t.f (A.optLaserCmd q) 8 4 = 1 ∧ (t.quad q).switch = none ∧
          (t.quad q).pendingCmd = .switch (bit v 2) ∧ t.opt.sources = s.opt.sources ∧ SameBytes s t ∧ SameEngines s t ∧
          SameLines s t ∧ SameRegs [A.optLaserCmd q] s t) ∧
      (s.feed4 q < 8 → s.claimed q = 0xF → (∀ e, (e = 8 ∨ e = 9) → s.spareAbsent e = true ∨ (s.holder e).isSome = true) →
        ∃ t, exec (.laserSwitchCmd q v) s = .next t ∧ t.f (A.optLaserCmd q) 8 4 = 5 ∧ t.noSpare q = true ∧
          (t.quad q).pendingCmd = .switch (bit v 2) ∧ t.opt.sources = s.opt.sources ∧ SameBytes s t ∧ SameEngines s t ∧
          SameLines s t ∧ SameRegs [A.optLaserCmd q, A.optLaserStatus q] s t))) ∧
  (∀ (s : State) (q : Fin 8) (v : Word), s.accepts (A.optLaserCmd q) = true → bit v 1 = true → (s.quad q).switch = none →
    (s.quad q).pendingCmd = .none →
    (s.feed4 q < 8 → ∃ t, exec (.laserReturnCmd q v) s = .next t ∧ t.f (A.optLaserCmd q) 8 4 = 2 ∧ t.opt = s.opt ∧
      SameRegs [A.optLaserCmd q] s t) ∧
    (8 ≤ s.feed4 q → (s.source q).stable = false → ∃ t, exec (.laserReturnCmd q v) s = .next t ∧ t.f (A.optLaserCmd q) 8 4 = 1 ∧
      (t.quad q).pendingCmd = .back (bit v 2) s.mono ∧ (s.latched q = true → (t.source q).en = true) ∧
      (∀ k, k ≠ q.val → t.source k = s.source k) ∧ SameBytes s t ∧ SameEngines s t ∧ SameLines s t ∧ SameRegs [A.optLaserCmd q] s t)) ∧
  (∀ (s : State) (q : Fin 8) (v : Word), s.accepts (A.optLaserCmd q) = true → bit v 3 = true → (s.quad q).switch = none →
    ((s.claimed q = 0xF ∨ 8 ≤ s.feed4 q) → ∃ t, exec (.laserReleaseCmd q v) s = .next t ∧ t.f (A.optLaserCmd q) 8 4 = 2 ∧ t.opt = s.opt ∧
      SameRegs [A.optLaserCmd q] s t) ∧
    (s.claimed q ≠ 0xF → s.feed4 q < 8 → s.noSpare q = false → ∃ t, exec (.laserReleaseCmd q v) s = .next t ∧ t.claimed q = 0xF ∧
      t.f (A.optLaserCmd q) 8 4 = 0 ∧ (t.quad q).pendingCmd = .none ∧
      t.fadeState q = (if s.fadeState q = 2 ∨ s.fadeState q = 3 then 1 else s.fadeState q) ∧
      SameBytes s t ∧ SameEngines s t ∧ SameLines s t)) ∧
  (∀ (s : State) (q : Fin 8) (timed : Bool) (since : Nat), (s.quad q).pendingCmd = .back timed since → s.elapsed since 2000000000 = true →
    (s.source q).stable = false →
    ∃ t, exec (.returnPrimaryTimeout q) s = .next t ∧ (t.quad q).pendingCmd = .none ∧ (t.source q).en = false ∧
      t.f (A.optLaserCmd q) 8 4 = 3 ∧ (∀ k, k ≠ q.val → t.source k = s.source k ∧ t.quad k = s.quad k) ∧
      SameBytes s t ∧ SameEngines s t ∧ SameLines s t ∧ t.dfl = s.dfl ∧ SameHost s t ∧ SameRegs [A.optLaserCmd q] s t)

/-- R223, R233, R237, R258-R260; 20 R363, R365. -/
def Obligations.MonitorsFibresAndConcourse : Prop :=
  (∀ (s : State) (q : Fin 8) (v : Word), s.accepts (A.optMonSel q) = true → bit v 31 = true →
    ∃ t, exec (.monitorGo q v) s = .next t ∧ t.quad q = { s.quad q with mon := some v } ∧ (∀ k, k ≠ q.val → t.quad k = s.quad k) ∧
      SameBytes s t ∧ SameEngines s t ∧ SameLines s t ∧ t.dfl = s.dfl ∧ SameBase s t ∧ SameHost s t ∧ SameRegs [A.optMonSel q] s t) ∧
  (∀ (s : State) (q : Fin 8) (reading : Nat) (v : Word), (s.quad q).mon = some v →
    ∃ t, exec (.monitorReadingDone q reading) s = .next t ∧ t.quad q = { s.quad q with mon := none } ∧
      (16 < fld v 3 5 → t.reg (A.optMonData q) = 0) ∧ (fld v 3 5 ≤ 16 → t.f (A.optMonData q) 0 12 = reading % 4096) ∧
      SameBytes s t ∧ SameEngines s t ∧ SameLines s t ∧ t.dfl = s.dfl ∧ SameBase s t ∧ SameHost s t ∧ SameRegs [A.optMonData q] s t) ∧
  (∀ (s : State) (q : Fin 8) (v : Word), s.accepts (A.optCtrl q) = true → (s.f A.bootStatus 0 3 < 3 ∨ fld v 0 4 = 0) →
    ∃ t, exec (.optFibreEnable q v) s = .next t ∧ t.f (A.optCtrl q) 0 4 = fld v 0 4 ∧
      (fld v 0 4 ≠ 0 → s.feed4 q < 8 → t.feed4 q = q) ∧
      (fld v 0 4 = 0 → (t.source q).en = false) ∧ (fld v 0 4 ≠ 0 → s.feed4 q < 8 → s.latched q = true → (t.source q).en = true) ∧
      (∀ k, k ≠ q.val → t.source k = s.source k) ∧ t.opt.quads = s.opt.quads ∧
      SameBytes s t ∧ SameEngines s t ∧ SameLines s t ∧ t.dfl = s.dfl ∧ SameHost s t ∧
      SameRegs [A.optCtrl q, A.optLaserStatus q] s t) ∧
  (∀ (s : State) (e : Fin 10) (x : Source), x = s.source e →
    (∀ r : LaserStatus, ∃ t, exec (.lcbStatusPoll e (some r)) s = .next t ∧ (t.source e).badRun = 0 ∧ (t.source e).stable = r.stable ∧
      (t.source e).goodRun = (if r.fault then 0 else x.goodRun + 1) ∧ (r.fault = true → (t.source e).faulted = true) ∧
      (r.fault = false → 2 ≤ x.goodRun → (t.source e).faulted = false) ∧
      SameBytes s t ∧ SameEngines s t ∧ SameLines s t ∧ t.dfl = s.dfl ∧ t.time = s.time ∧ t.boot = s.boot) ∧
    (∃ t, exec (.lcbStatusPoll e none) s = .next t ∧ (t.source e).badRun = x.badRun + 1 ∧ (t.source e).stable = x.stable ∧
      (2 ≤ x.badRun → (t.source e).faulted = true) ∧ (x.badRun < 2 → (t.source e).faulted = x.faulted) ∧
      SameBytes s t ∧ SameEngines s t ∧ SameLines s t ∧ t.dfl = s.dfl ∧ t.time = s.time ∧ t.boot = s.boot)) ∧
  (∀ (s : State) (q : Fin 8),
    (∃ t, exec (.fibreArrayDetach q) s = .next t ∧ t.latched q = false ∧
      (∀ e, e < 10 → carrierOf e = q.val → (t.source e).en = false) ∧
      (∀ i, i < 4 → s.b (A.optCtrl q) i = true → t.reg (A.optWlOut q i) = 0xFFFFFFFF#32 ∧ t.b A.bootFibQual (4 * q.val + i) = false) ∧
      SameBytes s t ∧ SameEngines s t ∧ SameLines s t ∧ t.dfl = s.dfl ∧ t.time = s.time) ∧
    (∃ t, exec (.fibreArrayAttach q) s = .next t ∧ t.latched q = true ∧ SameBytes s t ∧ SameEngines s t ∧ SameLines s t ∧ t.dfl = s.dfl ∧
      (q ≠ 0 → q ≠ 4 → t.opt = s.opt ∧ SameBase s t ∧ SameHost s t ∧ SameRegs [A.pinInStatus] s t))) ∧
  (∀ (s : State) (q k : Fin 8) (v : Word), s.accepts (A.concSchedCtrl q k) = true → bit v 8 = true →
    s.hasReached (s.concTime q k) = false → reached 64 (s.concTime q k) (s.now + 1000) = true →
    ∃ t, exec (.concSchedArm q k v) s = .next t ∧ t.b (A.concSchedCtrl q k) 8 = true ∧ t.f (A.concSchedCtrl q k) 0 4 = fld v 0 4 ∧
      SameBytes s t ∧ SameEngines s t ∧ SameLines s t ∧ SameLight s t ∧ SameBase s t ∧ SameHost s t ∧
      SameRegs [A.concSchedCtrl q k] s t) ∧
  (∀ (s : State) (q k : Fin 8) (c : Nat) (changed : List Nat), c = s.f (A.concSchedCtrl q k) 0 4 → s.b (A.concSchedCtrl q k) 8 = true →
    reached 64 (s.now + 1000) (s.concTime q k) = true → (s.quad q).concSwitch = none → s.laserHolds q = false →
    changed = (List.range 256).filter (fun n => decide (s.concWants q c n ≠ (s.quad q).concOn.contains n) && !s.concRingBad q n) →
    changed ≠ [] →
    ∃ t, exec (.concourseSwitchStart q k) s = .next t ∧ t.b (A.concSchedCtrl q k) 8 = false ∧ t.b (A.concStatus q) 4 = true ∧
      (t.quad q).concSwitch = some { config := c, started := s.mono, waiting := changed.map (fun n => (n, s.concWants q c n, none)) } ∧
      (t.quad q).concOn = (s.quad q).concOn ∧ SameBytes s t ∧ SameEngines s t ∧ SameLines s t ∧ t.dfl = s.dfl ∧ SameBase s t ∧ SameHost s t) ∧
  (∀ (s : State) (q : Fin 8) (n : Fin 256) (sw : ConcSwitch) (on : Bool) (at_ : Nat), (s.quad q).concSwitch = some sw →
    sw.waiting.find? (fun e => decide (e.1 = n.val)) = some (n.val, on, some at_) → sw.config < 16 → (s.quad q).concDue = [] →
    (∃ t, exec (.concourseRingSettled q n) s = .next t ∧ ((t.quad q).concOn.contains n.val) = on ∧
      t.reg (A.concCnt q 1) = BitVec.ofNat 32 (min 0xFFFFFFFF ((s.reg (A.concCnt q 1)).toNat + 1)) ∧
      (sw.waiting.filter (fun e => decide (e.1 ≠ n.val)) = [] → (t.quad q).concSwitch = none ∧ t.f (A.concStatus q) 0 5 = sw.config) ∧
      (sw.waiting.filter (fun e => decide (e.1 ≠ n.val)) ≠ [] →
        (t.quad q).concSwitch = some { sw with waiting := sw.waiting.filter (fun e => decide (e.1 ≠ n.val)) }) ∧
      SameBytes s t ∧ SameEngines s t ∧ SameLines s t ∧ t.dfl = s.dfl ∧ SameBase s t ∧ SameHost s t) ∧
    (s.elapsed at_ 24000 = true → ∃ t, exec (.concourseRingTimeout q n) s = .next t ∧ t.concRingBad q n = true ∧
      ((t.quad q).concOn.contains n.val) = false ∧
      t.reg (A.concCnt q 2) = BitVec.ofNat 32 (min 0xFFFFFFFF ((s.reg (A.concCnt q 2)).toNat + 1)) ∧
      (∃ e, t.log.entries.getLast? = some e ∧ e.code = 0x0502 ∧ e.kind = 9) ∧
      SameBytes s t ∧ SameEngines s t ∧ SameLines s t ∧ t.dfl = s.dfl ∧ t.time = s.time))

/-- R238-R241, R252, R255, R256. -/
def Obligations.FabricMarkersLanesAndCircuits : Prop :=
  (∀ (s : State) (f : Fin 32), s.fibreOn f = true → s.linkRuns = true →
    ∃ t, exec (.dflMarkerSend f) s = .next t ∧
      t.outbox = s.outbox ++ (List.range 16).map (fun w => .marker f w (markerBytes w ((s.fib f).lane w).mseq (s.nextTxMask f) (s.nextRxOut f)
        ((s.fib f).lane w).txBip s.nodeId f)) ∧
      t.f (A.dflLane f) 0 16 = s.nextTxMask f ∧ t.f (A.dflLane f) 16 16 = s.f (A.dflLane f) 16 16 ∧
      (∀ w, w < 16 → ((t.fib f).lane w).mseq = (((s.fib f).lane w).mseq + 1) % 256 ∧ ((t.fib f).lane w).txBip = 0 ∧
        ((t.fib f).lane w).txScr = dflSeed) ∧ (t.fib f).slotPos = 0 ∧ (t.fib f).nextLane = 0 ∧
      (∀ k, k ≠ f.val → t.fib k = s.fib k) ∧ SameBytes s t ∧ SameEngines s t ∧ SameLines s t ∧ t.opt = s.opt ∧ SameBase s t ∧
      SameHost s t ∧ SameRegs [A.dflLane f] s t) ∧
  (∀ (s : State) (f : Fin 32) (w : Fin 16) (m : List Byte), s.fibreOn f = true → s.linkRuns = true → markerGood w m = true →
    ((s.fib f).lane w).good = 1 → beAt m 9 1 = (((s.fib f).lane w).farMseq + 1) % 256 →
    (∀ k, k < 16 → (s.waveQualOf f true k).readmitSince = none) →
    ∃ t, exec (.dflMarkerReceive f w m) s = .next t ∧ ((t.fib f).lane w).locked = true ∧ ((t.fib f).lane w).farMseq = beAt m 9 1 ∧
      ((t.fib f).lane w).rxBip = 0 ∧ ((t.fib f).lane w).missed = 0 ∧ (t.fib f).farNode = beAt m 18 4 ∧ (t.fib f).farRxOut = beAt m 12 2 ∧
      (t.fib f).lastHeard = s.mono ∧ t.f (A.dflLane f) 16 16 = beAt m 10 2 ∧ t.f (A.dflLane f) 0 16 = s.f (A.dflLane f) 0 16 ∧
      (∀ k, k ≠ w.val → (t.fib f).lane k = (s.fib f).lane k) ∧ (∀ k, k ≠ f.val → t.fib k = s.fib k) ∧
      SameBytes s t ∧ SameEngines s t ∧ SameLines s t ∧ t.opt = s.opt ∧ SameBase s t ∧ SameHost s t ∧
      SameRegs [A.dflLane f, A.dflLinkStatus f] s t) ∧
  (∀ (s : State) (f : Fin 32) (w : Fin 16) (m : List Byte) (c : Instr), s.fibreOn f = true → ((s.fib f).lane w).locked = true →
    (c = .markerLockLoss f w ∨ (c = .dflMarkerReceive f w m ∧ s.linkRuns = true ∧ markerGood w m = false ∧ 3 ≤ ((s.fib f).lane w).missed)) →
    ∃ t, exec c s = .next t ∧ ((t.fib f).lane w).locked = false ∧ t.errOut f w = true ∧
      t.reg (A.dflFCnt f 4) = (if s.errOut f w then s.reg (A.dflFCnt f 4) else
        BitVec.ofNat 32 (min 0xFFFFFFFF ((s.reg (A.dflFCnt f 4)).toNat + 1))) ∧
      (∀ k, k ≠ w.val → (t.fib f).lane k = (s.fib f).lane k) ∧ (∀ k, k ≠ f.val → t.fib k = s.fib k) ∧
      SameBytes s t ∧ SameEngines s t ∧ SameLines s t ∧ t.opt = s.opt ∧ SameBase s t ∧ SameHost s t ∧
      SameRegs [A.dflLaneOut f, A.dflFCnt f 4] s t) ∧
  (∀ (s : State) (f : Fin 32) (w : Fin 16) (l : Lane), l = (s.fib f).lane w →
    (∃ t, exec (.laneErrorWindow f w) s = .next t ∧ ((t.fib f).lane w).errs = 0 ∧
      (s.f A.dflLaneThr 0 16 < l.errs → t.errOut f w = true ∧ ((t.fib f).lane w).cleanMs = 0) ∧
      (l.locked = true → l.errs * 10 < s.f A.dflLaneThr 0 16 → ((t.fib f).lane w).cleanMs = l.cleanMs + 1 ∧ t.errOut f w = s.errOut f w) ∧
      ((t.fib f).lane w).locked = l.locked ∧ (∀ k, k ≠ f.val → t.fib k = s.fib k) ∧ SameBytes s t ∧ SameEngines s t ∧ SameLines s t ∧
      t.opt = s.opt ∧ SameBase s t ∧ SameHost s t ∧ SameRegs [A.dflLaneOut f, A.dflFCnt f 4] s t) ∧
    (s.errOut f w = true → l.locked = true → 1000 ≤ l.cleanMs → ∃ t, exec (.laneReadmit f w) s = .next t ∧ t.errOut f w = false ∧
      t.reg (A.dflFCnt f 5) = BitVec.ofNat 32 (min 0xFFFFFFFF ((s.reg (A.dflFCnt f 5)).toNat + 1)) ∧
      SameBytes s t ∧ SameEngines s t ∧ SameLines s t ∧ SameLight s t ∧ SameBase s t ∧ SameHost s t ∧
      SameRegs [A.dflLaneOut f, A.dflFCnt f 5] s t)) ∧
  (∀ (s : State) (f c : Fin 32) (v : Word), s.accepts (A.dflCircHostPtr f c) = true →
    ((s.circValid f c = false ∨ (s.circTx f c = false ∧ ∀ h ∈ (s.fib f).circHeld, h.2.1 ≠ c.val)) →
      ∃ t, exec (.circuitHostPtrWrite f c v) s = .next t ∧ t.hostPtr f c = v.toNat ∧
      SameBytes s t ∧ SameEngines s t ∧ SameLines s t ∧ SameLight s t ∧ SameBase s t ∧ SameHost s t ∧
      SameRegs [A.dflCircHostPtr f c] s t) ∧
    (∀ n, s.circValid f c = true → s.circTx f c = true → n = (v.toNat + 0x100000000 - s.devPtr f c) % 0x100000000 → 0 < n → n ≤ 240 →
      s.mayInject (s.fib f) (s.circVc f c) 1 = true →
      ∃ t y tag, exec (.circuitHostPtrWrite f c v) s = .next t ∧ t.hostPtr f c = v.toNat ∧ t.devPtr f c = v.toNat ∧
        ((t.fib f).queues.get noFlits (s.circVc f c)).items = ((s.fib f).queues.get noFlits (s.circVc f c)).items ++ [(y, tag, s.mono)] ∧
        y.ftype = 2 ∧ y.circ = c.val ∧ y.payload = s.ringRead f c (s.devPtr f c) n ∧
        SameBytes s t ∧ SameEngines s t ∧ SameLines s t ∧ t.opt = s.opt ∧ SameBase s t ∧ SameHost s t ∧
        SameRegs [A.dflCircHostPtr f c, A.dflCircDevPtr f c] s t)) ∧
  (∀ (s : State) (f : Fin 32), ∃ t, exec (.slotEntryBoundary f) s = .next t ∧ t.fib f = { s.fib f with slotEntry := s.slotNow } ∧
      (∀ k, k ≠ f.val → t.fib k = s.fib k) ∧ SameBytes s t ∧ SameEngines s t ∧ SameLines s t ∧ t.opt = s.opt ∧ SameBase s t ∧ SameHost s t ∧
      SameRegs [] s t) ∧
  (∀ s : State, ∃ t, exec .dflPmLatch s = .next t ∧ t.reg A.dflPmSeq = s.reg A.dflPmSeq + 1 ∧
      (∀ f, t.fib f = { s.fib f with latched := (s.fib f).stat, stat := [] }) ∧ t.dfl.lastLatch = s.mono ∧
      SameBytes s t ∧ SameEngines s t ∧ SameLines s t ∧ t.opt = s.opt ∧ SameBase s t ∧ SameHost s t ∧
      SameRegs [A.dflPmSeq, A.dflPmLen] s t)

/-- R243, R244, R246, R248, R250. -/
def Obligations.FabricFlitsAreSentTakenAndReplayed : Prop :=
  (∀ (s : State) (f : Fin 32) (w : Nat), s.fibreOn f = true → s.linkRuns = true → s.linkUp f = false → w < 16 →
    ((s.fib f).lane w).locked = true → s.b (A.dflLane f) (16 + w) = true → s.f (A.dflLane f) 0 16 ≠ 0 →
    ∃ t, exec (.linkTrainingDone f) s = .next t ∧ t.linkUp f = true ∧ (t.fib f).seq = 1 ∧ (t.fib f).ackOut = 0 ∧ (t.fib f).held = [] ∧
      (∀ v, v < 8 → (t.fib f).credits.get (fun _ => 0) v = s.allotment v) ∧ (∀ k, k ≠ f.val → t.fib k = s.fib k) ∧
      SameBytes s t ∧ SameEngines s t ∧ SameLines s t ∧ t.opt = s.opt ∧ SameBase s t ∧ SameHost s t ∧ SameRegs [A.dflLinkStatus f] s t) ∧
  (∀ (s : State) (f : Fin 32), s.linkUp f = true → s.linkRuns = true → (s.fib f).slotPos < 15 → s.f (A.dflLane f) 0 16 ≠ 0 →
    (s.fib f).replaying = [] →
    (s.bestVc f = none → (s.fib f).freed = [] → ∃ t w scr, exec (.flitSend f) s = .next t ∧
      w = ((List.range 16).filter (fun w => s.b (A.dflLane f) w)).getD (s.fib f).nextLane 0 ∧ scr = ((s.fib f).lane w).txScr ∧
      t.outbox = s.outbox ++ [.flit f w (dflScramble scr (flitBytes idleFlit (s.fib f).seq (s.fib f).ackOut (s.fib f).nakDue 0 0)).2] ∧
      (t.fib f).seq = (s.fib f).seq ∧ (t.fib f).held = (s.fib f).held ∧ (t.fib f).nakDue = false ∧ (t.fib f).credits = (s.fib f).credits ∧
      SameBytes s t ∧ SameEngines s t ∧ SameLines s t ∧ t.opt = s.opt ∧ SameBase s t ∧ SameHost s t ∧ SameRegs [] s t) ∧
    (∀ v y tag at_, s.bestVc f = some (v, y, tag, at_) → (y.sop = false ∨ y.eop = false) → (s.fib f).freed = [] →
      (s.fib f).held.length < 256 →
      ∃ t w, exec (.flitSend f) s = .next t ∧ w = ((List.range 16).filter (fun w => s.b (A.dflLane f) w)).getD (s.fib f).nextLane 0 ∧
      t.outbox = s.outbox ++ [.flit f w (dflScramble ((s.fib f).lane w).txScr
        (flitBytes y (s.fib f).seq (s.fib f).ackOut (s.fib f).nakDue 0 0)).2] ∧
      (t.fib f).seq = ((s.fib f).seq + 1) % 4096 ∧
      (t.fib f).held = (s.fib f).held ++ [{ seq := (s.fib f).seq, req := y, cvc := 0, credit := 0 }] ∧
      (t.fib f).credits.get (fun _ => 0) v = (s.fib f).credits.get (fun _ => 0) v - 1 ∧
      SameBytes s t ∧ SameEngines s t ∧ SameLines s t ∧ t.opt = s.opt ∧ SameBase s t ∧ SameHost s t ∧
      SameRegs ((List.range 32).map (fun c => A.dflCircDevPtr f c)) s t)) ∧
  (∀ (s : State) (f : Fin 32) (w : Fin 16) (slot b : List Byte), s.fibreOn f = true → s.linkRuns = true → slot.length = 256 →
    ((s.fib f).lane w).locked = true → s.b (A.dflLane f) (16 + w.val) = true → s.linkUp f = true →
    b = (dflScramble ((s.fib f).lane w).rxScr slot).2 →
    (beAt b 8 8 ≠ crc64 (b.take 8 ++ b.drop 16) → (s.fib f).nakSent = false → ∃ t, exec (.flitReceive f w slot) s = .next t ∧
      (t.fib f).nakSent = true ∧ (t.fib f).nakDue = true ∧ (t.fib f).ackOut = (s.fib f).ackOut ∧
      t.reg (A.dflFCnt f 0) = BitVec.ofNat 32 (min 0xFFFFFFFF ((s.reg (A.dflFCnt f 0)).toNat + 1)) ∧
      t.reg (A.dflFCnt f 1) = BitVec.ofNat 32 (min 0xFFFFFFFF ((s.reg (A.dflFCnt f 1)).toNat + 1)) ∧
      SameBytes s t ∧ SameEngines s t ∧ SameLines s t ∧ t.opt = s.opt ∧ SameBase s t ∧ SameHost s t ∧
      SameRegs [A.dflFCnt f 0, A.dflFCnt f 1] s t) ∧
    (beAt b 8 8 = crc64 (b.take 8 ++ b.drop 16) → flSeq b ≠ ((s.fib f).ackOut + 1) % 4096 → ∃ t, exec (.flitReceive f w slot) s = .next t ∧
      (t.fib f).ackOut = (s.fib f).ackOut ∧ (t.fib f).credits = (s.fib f).credits ∧ (t.fib f).partials = (s.fib f).partials ∧
      SameBytes s t ∧ SameEngines s t ∧ SameLines s t ∧ t.opt = s.opt ∧ SameBase s t ∧ SameHost s t ∧ SameRegs [A.dflFCnt f 1] s t) ∧
    (beAt b 8 8 = crc64 (b.take 8 ++ b.drop 16) → flSeq b = ((s.fib f).ackOut + 1) % 4096 → flType b = 0 → flNak b = false →
      ∃ t, exec (.flitReceive f w slot) s = .next t ∧ (t.fib f).ackOut = (s.fib f).ackOut ∧ (t.fib f).ackIn = flAck b ∧
      (t.fib f).credits.get (fun _ => 0) (flCvc b) = (s.fib f).credits.get (fun _ => 0) (flCvc b) + flCredit b ∧
      (∀ h ∈ (t.fib f).held, sgn 12 (flAck b + 4096 - h.seq) < 0) ∧ (t.fib f).nakSent = false ∧ (t.fib f).lastHeard = s.mono ∧
      SameBytes s t ∧ SameEngines s t ∧ SameLines s t ∧ t.opt = s.opt ∧ SameBase s t ∧ SameHost s t ∧ SameRegs [A.dflLinkRtt f] s t) ∧
    (∀ (v : Nat) (p : List Byte), beAt b 8 8 = crc64 (b.take 8 ++ b.drop 16) → flSeq b = ((s.fib f).ackOut + 1) % 4096 → flType b = 1 →
      flNak b = false → flSop b = true → flEop b = true → v = flVc b → s.scheduledVc v = false → 0 < flLen b → flLen b ≤ 240 →
      p = (b.drop 16).take (flLen b) → (s.fib f).partials.get (fun _ => []) v = [] →
      ((s.fib f).circHeld.filter (fun h => decide (h.1 = v))).length < s.allotment v → packetGood v p = true → beAt p 4 4 = s.nodeId →
      ((beAt p 0 1 ≠ 3 ∧ beAt p 0 1 ≠ 4) ∨ beAt p 12 4 = 0) →
      ∃ t, exec (.flitReceive f w slot) s = .next t ∧ (t.fib f).ackOut = flSeq b ∧
        t.delivered = s.delivered ++ [{ line := false, node := beAt p 8 4, vc := v, ptype := beAt p 0 1, bytes := p.drop 24 }] ∧
        (t.fib f).partials.get (fun _ => []) v = [] ∧
        (t.fib f).freed.get (fun _ => 0) v = (s.fib f).freed.get (fun _ => 0) v + 1 ∧
        SameBytes s t ∧ t.que = s.que ∧ t.cle = s.cle ∧ t.rue = s.rue ∧ t.lnd = s.lnd ∧ t.gal = s.gal ∧ SameLines s t ∧ t.opt = s.opt ∧
        SameBase s t ∧ SameHost s t ∧ SameRegs [A.dflLinkRtt f] s t)) ∧
  (∀ (s : State) (f : Fin 32), s.linkUp f = true → (s.fib f).held ≠ [] → s.elapsed (s.fib f).ackAt (s.f (A.dflLinkCtrl f) 11 16) = true →
    ∃ t, exec (.replayTimeout f) s = .next t ∧ (t.fib f).replaying = (s.fib f).held.map (·.seq) ∧ (t.fib f).ackAt = s.mono ∧
      (t.fib f).held.map (·.req) = (s.fib f).held.map (·.req) ∧
      t.reg (A.dflFCnt f 2) = BitVec.ofNat 32 (min 0xFFFFFFFF ((s.reg (A.dflFCnt f 2)).toNat + 1)) ∧
      (∀ k, k ≠ f.val → t.fib k = s.fib k) ∧ SameBytes s t ∧ SameEngines s t ∧ SameLines s t ∧ t.opt = s.opt ∧ SameBase s t ∧ SameHost s t ∧
      SameRegs [A.dflFCnt f 2] s t) ∧
  (∀ (s : State) (f : Fin 32), s.linkUp f = true → s.elapsed (s.fib f).lastHeard (s.f (A.dflLinkCtrl f) 1 10 * 1000) = true →
    ∃ t, exec (.linkHoldExpire f) s = .next t ∧ t.linkUp f = false ∧ t.reg (A.dflLane f) = 0 ∧ (t.fib f).held = [] ∧
      (t.fib f).partials = [] ∧ (∀ w, ((t.fib f).lane w).locked = false) ∧
      t.reg (A.dflFCnt f 3) = BitVec.ofNat 32 (min 0xFFFFFFFF ((s.reg (A.dflFCnt f 3)).toNat + 1)) ∧
      (∀ k, k ≠ f.val → t.fib k = s.fib k) ∧ SameBytes s t ∧ SameEngines s t ∧ SameLines s t ∧ t.opt = s.opt ∧ SameBase s t ∧ SameHost s t ∧
      SameRegs [A.dflLinkStatus f, A.dflLane f, A.dflFCnt f 3] s t)

/-- The step law; commands act in the order in which they arrive (16_bring_up_and_image.md R297). -/
def Obligations.StepTakesTheFrontCommand : Prop :=
  ∀ (s : State) (c : Instr) (rest : List Instr), s.pending = c :: rest → step s = exec c { s with pending := rest }

/-- R7, R338: the machine after reset. -/
def Obligations.ResetMeetsTheInvariant : Prop :=
  State.reset.memoryForm = true ∧ State.reset.registerForm = true ∧ State.reset.pending = [] ∧ (∀ a, State.reset.bar4Byte a = 0) ∧
    (∀ a, State.reset.reg a = regReset a ∧ State.reset.sreg a = regReset a)

/-- The invariant that every step keeps: the canonical form of every memory and register map. -/
def Obligations.EveryStepKeepsTheCanonicalForm : Prop :=
  ∀ s t : State, s.memoryForm = true → s.registerForm = true → step s = .next t → t.memoryForm = true ∧ t.registerForm = true
end

