-- ==== Sys2Proof/Laws/Bits.lean ====
section
/-! SUPPORT. Bit fields read back what was set in them and keep every other field; bytes read back the number they hold. -/
namespace Sys2Proof.Machine

/-! ### Fields of a register -/

theorem fld_testBit (w : Word) (lo n i : Nat) : (fld w lo n).testBit i = (decide (i < n) && w.getLsbD (lo + i)) := by
  simp [fld, Nat.testBit_mod_two_pow, Nat.testBit_div_two_pow, BitVec.testBit_toNat, Nat.add_comm]

theorem setFld_getLsbD (w : Word) (lo n v i : Nat) (h : lo + n ≤ 32) :
    (setFld w lo n v).getLsbD i = if lo ≤ i ∧ i < lo + n then v.testBit (i - lo) else w.getLsbD i := by
  by_cases hi : i < 32
  · simp only [setFld, mask, BitVec.getLsbD_or, BitVec.getLsbD_and, BitVec.getLsbD_not, BitVec.getLsbD_ofNat, hi, decide_true,
      Bool.true_and, Nat.testBit_mul_two_pow, Nat.testBit_two_pow_sub_one, Nat.testBit_mod_two_pow]
    by_cases h1 : lo ≤ i
    · by_cases h2 : i < lo + n
      · have : i - lo < n := by omega
        simp [h1, h2, this]
      · have : ¬ i - lo < n := by omega
        simp [h1, h2, this]
    · simp [h1]
  · have h1 : ¬ (lo ≤ i ∧ i < lo + n) := by omega
    rw [if_neg h1, BitVec.getLsbD_of_ge _ _ (by omega), BitVec.getLsbD_of_ge _ _ (by omega)]

/-- A field that has been set reads the value, cut to its width. -/
theorem fld_setFld_same (w : Word) (lo n v : Nat) (h : lo + n ≤ 32) : fld (setFld w lo n v) lo n = v % 2 ^ n := by
  apply Nat.eq_of_testBit_eq
  intro i
  rw [fld_testBit, setFld_getLsbD _ _ _ _ _ h, Nat.testBit_mod_two_pow]
  by_cases hi : i < n
  · simp [hi]
  · simp [hi]

/-- Setting a field leaves every field that it does not meet. -/
theorem fld_setFld_ne (w : Word) (lo n v lo' n' : Nat) (h : lo + n ≤ 32) (hd : lo' + n' ≤ lo ∨ lo + n ≤ lo') :
    fld (setFld w lo n v) lo' n' = fld w lo' n' := by
  apply Nat.eq_of_testBit_eq
  intro i
  rw [fld_testBit, fld_testBit, setFld_getLsbD _ _ _ _ _ h]
  by_cases hi : i < n'
  · have : ¬ (lo ≤ lo' + i ∧ lo' + i < lo + n) := by omega
    simp [hi, this]
  · simp [hi]

/-- A field inside one that has been set reads its part of the value. -/
theorem fld_setFld_in (w : Word) (lo n v lo' n' : Nat) (h : lo + n ≤ 32) (h1 : lo ≤ lo') (h2 : lo' + n' ≤ lo + n) :
    fld (setFld w lo n v) lo' n' = nfld v (lo' - lo) n' := by
  apply Nat.eq_of_testBit_eq
  intro i
  rw [fld_testBit, setFld_getLsbD _ _ _ _ _ h, nfld, Nat.testBit_mod_two_pow, Nat.testBit_div_two_pow]
  by_cases hi : i < n'
  · have h3 : lo ≤ lo' + i ∧ lo' + i < lo + n := by omega
    have h4 : lo' + i - lo = i + (lo' - lo) := by omega
    simp [hi, h3, h4]
  · simp [hi]

theorem fld_lt (w : Word) (lo n : Nat) : fld w lo n < 2 ^ n := Nat.mod_lt _ (Nat.two_pow_pos n)

theorem fld_zero (lo n : Nat) : fld 0#32 lo n = 0 := by simp [fld]

theorem bit_eq_getLsbD (w : Word) (lo : Nat) : bit w lo = w.getLsbD lo := by
  have h := fld_testBit w lo 1 0
  simp only [Nat.zero_lt_one, decide_true, Bool.true_and, Nat.add_zero] at h
  have h2 := fld_lt w lo 1
  rw [← h, bit]
  generalize fld w lo 1 = x at *
  interval_cases x <;> simp

theorem bit_setFld_same (w : Word) (lo : Nat) (b : Bool) (h : lo < 32) : bit (setFld w lo 1 (b2n b)) lo = b := by
  rw [bit, fld_setFld_same _ _ _ _ (by omega)]
  cases b <;> simp [b2n]

theorem bit_setFld_ne (w : Word) (lo n v i : Nat) (h : lo + n ≤ 32) (hd : i < lo ∨ lo + n ≤ i) : bit (setFld w lo n v) i = bit w i := by
  rw [bit, bit, fld_setFld_ne _ _ _ _ _ _ h (by omega)]

theorem b2n_le (b : Bool) : b2n b ≤ 1 := by cases b <;> simp [b2n]

@[simp] theorem b2n_true : b2n true = 1 := rfl
@[simp] theorem b2n_false : b2n false = 0 := rfl

/-- A field of a word given as a number. -/
theorem fld_ofNat (v lo n : Nat) (h : lo + n ≤ 32) : fld (BitVec.ofNat 32 v) lo n = nfld v lo n := by
  apply Nat.eq_of_testBit_eq
  intro i
  rw [fld_testBit, nfld, Nat.testBit_mod_two_pow, Nat.testBit_div_two_pow, BitVec.getLsbD_ofNat]
  by_cases hi : i < n
  · have : lo + i < 32 := by omega
    simp [hi, this, Nat.add_comm]
  · simp [hi]

/-! ### Bytes -/

@[simp] theorem leBytes_length (n v : Nat) : (leBytes n v).length = n := by
  induction n generalizing v with
  | zero => rfl
  | succ n ih => simp [leBytes, ih]

@[simp] theorem beBytes_length (n v : Nat) : (beBytes n v).length = n := by simp [beBytes]

/-- Little-endian bytes hold the number, cut to their width. -/
theorem leNat_leBytes (n v : Nat) : leNat (leBytes n v) = v % 256 ^ n := by
  induction n generalizing v with
  | zero => simp [leBytes, leNat, Nat.mod_one]
  | succ n ih =>
    simp only [leBytes, leNat, ih, BitVec.toNat_ofNat]
    have h : (256 : Nat) ^ (n + 1) = 256 * 256 ^ n := by rw [pow_succ, Nat.mul_comm]
    rw [h, Nat.mod_mul]

theorem leNat_lt (bs : List Byte) : leNat bs < 256 ^ bs.length := by
  induction bs with
  | nil => simp [leNat]
  | cons b r ih =>
    have := b.isLt
    simp only [leNat, List.length_cons, pow_succ]
    omega

theorem beNat_append (a b : List Byte) : beNat (a ++ b) = beNat a * 256 ^ b.length + beNat b := by
  have go : ∀ (b : List Byte) (x : Nat), b.foldl (fun a c => a * 256 + c.toNat) x = x * 256 ^ b.length + b.foldl (fun a c => a * 256 + c.toNat) 0 := by
    intro b
    induction b with
    | nil => intro x; simp
    | cons c r ih =>
      intro x
      simp only [List.foldl_cons, List.length_cons, Nat.zero_mul, Nat.zero_add, pow_succ]
      rw [ih (x * 256 + c.toNat), ih c.toNat]
      ring
  unfold beNat
  rw [List.foldl_append, go b]

theorem beNat_reverse (bs : List Byte) : beNat bs.reverse = leNat bs := by
  induction bs with
  | nil => rfl
  | cons b r ih =>
    rw [List.reverse_cons, beNat_append, ih]
    simp [beNat, leNat]
    omega

/-- Most-significant-first bytes hold the number, cut to their width. -/
theorem beNat_beBytes (n v : Nat) : beNat (beBytes n v) = v % 256 ^ n := by
  rw [beBytes, beNat_reverse, leNat_leBytes]

theorem bytesAt_length (bs : List Byte) (k n : Nat) : (bytesAt bs k n).length = n := by
  simp [bytesAt]

/-- Bytes that lie whole inside a structure. -/
theorem bytesAt_in (bs : List Byte) (k n : Nat) (h : k + n ≤ bs.length) : bytesAt bs k n = (bs.drop k).take n := by
  have : ((bs.drop k).take n).length = n := by simp; omega
  simp [bytesAt, this]

/-- A field reads past what precedes it. -/
theorem bytesAt_append_right (a b : List Byte) (k n : Nat) (h : a.length ≤ k) : bytesAt (a ++ b) k n = bytesAt b (k - a.length) n := by
  simp [bytesAt, List.drop_append, List.drop_eq_nil_of_le h]

/-- A field that lies before what follows. -/
theorem bytesAt_append_left (a b : List Byte) (k n : Nat) (h : k + n ≤ a.length) : bytesAt (a ++ b) k n = bytesAt a k n := by
  rw [bytesAt_in _ _ _ (by simp; omega), bytesAt_in _ _ _ h]
  rw [List.drop_append_of_le_length (by omega), List.take_append_of_le_length (by simp; omega)]

end Sys2Proof.Machine
end

