-- ==== Sys2Proof/Laws/Sparse.lean ====
section
/-! SUPPORT. What a sparse map reads as after each of its operations, and that every operation keeps its canonical form. -/
namespace Sys2Proof.Machine

variable {V : Type} (d : Nat → V)

/-! ### Reading -/

theorem Sparse.get_insert (m : Sparse V) (k : Nat) (v : V) (j : Nat) :
    Sparse.get d (Sparse.insert m k v) j = if j = k then v else Sparse.get d m j := by
  induction m with
  | nil => by_cases h : k = j <;> simp [Sparse.insert, Sparse.get, h, eq_comm]
  | cons e r ih =>
    obtain ⟨a, w⟩ := e
    simp only [Sparse.insert]
    split
    · simp only [Sparse.get, ih]
      by_cases h1 : a = j <;> by_cases h2 : j = k <;> simp_all
    · split
      · subst_vars
        by_cases h : a = j
        · subst h; simp [Sparse.get]
        · have h' : j ≠ a := fun x => h x.symm
          simp [Sparse.get, h, h']
      · by_cases h : k = j
        · subst h; simp [Sparse.get]
        · have h' : j ≠ k := fun x => h x.symm
          simp [Sparse.get, h, h']

theorem Sparse.get_erase (m : Sparse V) (k j : Nat) :
    Sparse.get d (Sparse.erase m k) j = if j = k then d j else Sparse.get d m j := by
  induction m with
  | nil => by_cases h : j = k <;> simp [Sparse.erase, Sparse.get]
  | cons e r ih =>
    obtain ⟨a, w⟩ := e
    simp only [Sparse.erase] at ih
    by_cases ha : a = k
    · subst ha
      by_cases h : j = a
      · subst h; simp_all [Sparse.erase]
      · have : a ≠ j := fun x => h x.symm
        simp_all [Sparse.erase, Sparse.get]
    · by_cases h : j = k
      · subst h; simp_all [Sparse.erase, Sparse.get]
      · simp_all [Sparse.erase, Sparse.get]

/-- A write is read back at its key, and at no other. -/
theorem Sparse.get_put [DecidableEq V] (m : Sparse V) (k : Nat) (v : V) (j : Nat) :
    Sparse.get d (Sparse.put d m k v) j = if j = k then v else Sparse.get d m j := by
  unfold Sparse.put
  split
  · rename_i h
    rw [Sparse.get_erase]
    split
    · rename_i hj; subst hj; exact h.symm
    · rfl
  · exact Sparse.get_insert d m k v j

@[simp] theorem Sparse.get_put_same [DecidableEq V] (m : Sparse V) (k : Nat) (v : V) :
    Sparse.get d (Sparse.put d m k v) k = v := by simp [Sparse.get_put]

theorem Sparse.get_put_ne [DecidableEq V] (m : Sparse V) {k j : Nat} (v : V) (h : j ≠ k) :
    Sparse.get d (Sparse.put d m k v) j = Sparse.get d m j := by simp [Sparse.get_put, h]

theorem Sparse.get_nil (k : Nat) : Sparse.get d [] k = d k := rfl

/-- Consecutive writes are read back, and every other key reads as before. -/
theorem Sparse.get_putList [DecidableEq V] (vs : List V) (m : Sparse V) (k j : Nat) :
    Sparse.get d (Sparse.putList d m k vs) j =
      if h : k ≤ j ∧ j < k + vs.length then vs[j - k]'(by omega) else Sparse.get d m j := by
  induction vs generalizing m k with
  | nil => simp [Sparse.putList]
  | cons v r ih =>
    simp only [Sparse.putList, ih, List.length_cons]
    by_cases h1 : j = k
    · subst h1; simp [Sparse.get_put_same]
    · rw [Sparse.get_put_ne d m v h1]
      by_cases h2 : k + 1 ≤ j ∧ j < k + 1 + r.length
      · have h3 : k ≤ j ∧ j < k + (r.length + 1) := by omega
        rw [dif_pos h2, dif_pos h3, List.getElem_cons]
        have h4 : j - k ≠ 0 := by omega
        rw [dif_neg h4]
        congr 1
      · have h3 : ¬ (k ≤ j ∧ j < k + (r.length + 1)) := by omega
        rw [dif_neg h2, dif_neg h3]

theorem Sparse.get_putList_out [DecidableEq V] (vs : List V) (m : Sparse V) (k j : Nat) (h : j < k ∨ k + vs.length ≤ j) :
    Sparse.get d (Sparse.putList d m k vs) j = Sparse.get d m j := by
  rw [Sparse.get_putList, dif_neg (by omega)]

/-- The bytes that a write stores are read back as they were given. -/
theorem Sparse.getList_putList_same [DecidableEq V] (vs : List V) (m : Sparse V) (k : Nat) :
    Sparse.getList d (Sparse.putList d m k vs) k vs.length = vs := by
  apply List.ext_getElem
  · simp [Sparse.getList]
  · intro i h1 h2
    simp [Sparse.getList, Sparse.get_putList, h2]

theorem Sparse.getList_putList_out [DecidableEq V] (vs : List V) (m : Sparse V) (k a n : Nat) (h : a + n ≤ k ∨ k + vs.length ≤ a) :
    Sparse.getList d (Sparse.putList d m k vs) a n = Sparse.getList d m a n := by
  unfold Sparse.getList
  apply List.map_congr_left
  intro i hi
  have := List.mem_range.mp hi
  exact Sparse.get_putList_out d vs m k (a + i) (by omega)

/-! ### The canonical form -/

theorem Sparse.wfFrom_mono [DecidableEq V] {m : Sparse V} {lo hi : Nat} (h : Sparse.wfFrom d hi m = true) (hl : lo ≤ hi) :
    Sparse.wfFrom d lo m = true := by
  cases m with
  | nil => rfl
  | cons e r =>
    obtain ⟨a, v⟩ := e
    simp only [Sparse.wfFrom, Bool.and_eq_true, decide_eq_true_eq] at h ⊢
    exact ⟨⟨by omega, h.1.2⟩, h.2⟩

theorem Sparse.wfFrom_filter [DecidableEq V] (p : Nat × V → Bool) {m : Sparse V} {lo : Nat} (h : Sparse.wfFrom d lo m = true) :
    Sparse.wfFrom d lo (m.filter p) = true := by
  induction m generalizing lo with
  | nil => rfl
  | cons e r ih =>
    obtain ⟨a, v⟩ := e
    simp only [Sparse.wfFrom, Bool.and_eq_true, decide_eq_true_eq] at h
    cases hp : p (a, v)
    · rw [List.filter_cons_of_neg (by simp [hp])]
      exact Sparse.wfFrom_mono d (ih h.2) (by omega)
    · rw [List.filter_cons_of_pos hp]
      simp only [Sparse.wfFrom, Bool.and_eq_true, decide_eq_true_eq]
      exact ⟨h.1, ih h.2⟩

theorem Sparse.wfFrom_insert [DecidableEq V] {m : Sparse V} {lo k : Nat} {v : V} (h : Sparse.wfFrom d lo m = true) (hk : lo ≤ k)
    (hv : v ≠ d k) : Sparse.wfFrom d lo (Sparse.insert m k v) = true := by
  induction m generalizing lo with
  | nil => simp [Sparse.insert, Sparse.wfFrom, hk, hv]
  | cons e r ih =>
    obtain ⟨a, w⟩ := e
    simp only [Sparse.wfFrom, Bool.and_eq_true, decide_eq_true_eq] at h
    simp only [Sparse.insert]
    split
    · simp only [Sparse.wfFrom, Bool.and_eq_true, decide_eq_true_eq]
      exact ⟨h.1, ih h.2 (by omega)⟩
    · split
      · subst_vars
        simp only [Sparse.wfFrom, Bool.and_eq_true, decide_eq_true_eq]
        exact ⟨⟨hk, hv⟩, h.2⟩
      · simp only [Sparse.wfFrom, Bool.and_eq_true, decide_eq_true_eq]
        exact ⟨⟨hk, hv⟩, ⟨by omega, h.1.2⟩, h.2⟩

theorem Sparse.wf_nil [DecidableEq V] : Sparse.wf d ([] : Sparse V) = true := rfl

theorem Sparse.wf_filter [DecidableEq V] (p : Nat × V → Bool) {m : Sparse V} (h : Sparse.wf d m = true) :
    Sparse.wf d (m.filter p) = true := Sparse.wfFrom_filter d p h

theorem Sparse.wf_insert [DecidableEq V] {m : Sparse V} {k : Nat} {v : V} (h : Sparse.wf d m = true) (hv : v ≠ d k) :
    Sparse.wf d (Sparse.insert m k v) = true := Sparse.wfFrom_insert d h (Nat.zero_le k) hv

theorem Sparse.wf_erase [DecidableEq V] {m : Sparse V} (k : Nat) (h : Sparse.wf d m = true) : Sparse.wf d (Sparse.erase m k) = true :=
  Sparse.wf_filter d _ h

/-- Every write keeps the canonical form. -/
theorem Sparse.wf_put [DecidableEq V] {m : Sparse V} (k : Nat) (v : V) (h : Sparse.wf d m = true) :
    Sparse.wf d (Sparse.put d m k v) = true := by
  unfold Sparse.put
  split
  · exact Sparse.wf_erase d k h
  · rename_i hv; exact Sparse.wf_insert d h hv

theorem Sparse.wf_putList [DecidableEq V] (vs : List V) {m : Sparse V} (k : Nat) (h : Sparse.wf d m = true) :
    Sparse.wf d (Sparse.putList d m k vs) = true := by
  induction vs generalizing m k with
  | nil => exact h
  | cons v r ih => exact ih (k + 1) (Sparse.wf_put d k v h)

theorem Sparse.wf_foldl_put [DecidableEq V] {β : Type} (key : β → Nat) (val : β → V) (es : List β) {m : Sparse V}
    (h : Sparse.wf d m = true) : Sparse.wf d (es.foldl (fun m e => Sparse.put d m (key e) (val e)) m) = true := by
  induction es generalizing m with
  | nil => exact h
  | cons e r ih => exact ih (Sparse.wf_put d (key e) (val e) h)

/-- Every entry of a canonical list is read at its key, and is not what an unlisted key reads as. -/
theorem Sparse.ne_of_mem [DecidableEq V] {m : Sparse V} {lo : Nat} (h : Sparse.wfFrom d lo m = true) {e : Nat × V} (he : e ∈ m) :
    lo ≤ e.1 ∧ e.2 ≠ d e.1 ∧ Sparse.get d m e.1 = e.2 := by
  induction m generalizing lo with
  | nil => cases he
  | cons f r ih =>
    obtain ⟨a, v⟩ := f
    simp only [Sparse.wfFrom, Bool.and_eq_true, decide_eq_true_eq] at h
    rcases List.mem_cons.mp he with rfl | hr
    · exact ⟨h.1.1, h.1.2, by simp [Sparse.get]⟩
    · obtain ⟨h1, h2, h3⟩ := ih h.2 hr
      refine ⟨by omega, h2, ?_⟩
      have : a ≠ e.1 := by omega
      simp [Sparse.get, this, h3]

/-- Two canonical maps that read alike at every key are equal lists. -/
theorem Sparse.ext [DecidableEq V] {m n : Sparse V} {lo : Nat} (hm : Sparse.wfFrom d lo m = true) (hn : Sparse.wfFrom d lo n = true)
    (h : ∀ k, Sparse.get d m k = Sparse.get d n k) : m = n := by
  induction m generalizing n lo with
  | nil =>
    cases n with
    | nil => rfl
    | cons e r =>
      obtain ⟨_, h2, h3⟩ := Sparse.ne_of_mem d hn (List.mem_cons_self (a := e) (l := r))
      exact absurd (h3.symm.trans (h e.1).symm) h2
  | cons e r ih =>
    cases n with
    | nil =>
      obtain ⟨_, h2, h3⟩ := Sparse.ne_of_mem d hm (List.mem_cons_self (a := e) (l := r))
      exact absurd (h3.symm.trans (h e.1)) h2
    | cons f q =>
      obtain ⟨a, v⟩ := e
      obtain ⟨b, w⟩ := f
      have hm' := hm
      have hn' := hn
      simp only [Sparse.wfFrom, Bool.and_eq_true, decide_eq_true_eq] at hm hn
      have below : ∀ (l : Sparse V) (c k : Nat), Sparse.wfFrom d c l = true → k < c → Sparse.get d l k = d k := by
        intro l
        induction l with
        | nil => intros; rfl
        | cons g l' ihl =>
          obtain ⟨x, y⟩ := g
          intro c k hw hk
          simp only [Sparse.wfFrom, Bool.and_eq_true, decide_eq_true_eq] at hw
          have : x ≠ k := by omega
          simp [Sparse.get, this, ihl (x + 1) k hw.2 (by omega)]
      have hab : a = b := by
        rcases Nat.lt_trichotomy a b with hlt | heq | hgt
        · have h1 := h a
          have : b ≠ a := by omega
          simp [Sparse.get, this, below q (b + 1) a hn.2 (by omega)] at h1
          exact absurd h1 hm.1.2
        · exact heq
        · have h1 := h b
          have : a ≠ b := by omega
          simp [Sparse.get, this, below r (a + 1) b hm.2 (by omega)] at h1
          exact absurd h1.symm hn.1.2
      subst hab
      have hvw : v = w := by simpa [Sparse.get] using h a
      subst hvw
      congr 1
      apply ih hm.2 hn.2
      intro k
      by_cases hk : a = k
      · subst hk
        rw [below r (a + 1) a hm.2 (by omega), below q (a + 1) a hn.2 (by omega)]
      · simpa [Sparse.get, hk] using h k

end Sys2Proof.Machine
end

