-- ==== Sys2Proof/Laws/State.lean ====
section
/-! SUPPORT. What the operations that set one field of State leave as it was, one lemma for each field and operation. -/
namespace Sys2Proof.Machine

/-! ### setReg -/
@[simp] theorem State.setReg_pending (s : State) (a : Nat) (v : Word) : (s.setReg a v).pending = s.pending := rfl
@[simp] theorem State.setReg_freeCtr (s : State) (a : Nat) (v : Word) : (s.setReg a v).freeCtr = s.freeCtr := rfl
@[simp] theorem State.setReg_outbox (s : State) (a : Nat) (v : Word) : (s.setReg a v).outbox = s.outbox := rfl
@[simp] theorem State.setReg_staged (s : State) (a : Nat) (v : Word) : (s.setReg a v).staged = s.staged := rfl
@[simp] theorem State.setReg_rlatch (s : State) (a : Nat) (v : Word) : (s.setReg a v).rlatch = s.rlatch := rfl
@[simp] theorem State.setReg_commits (s : State) (a : Nat) (v : Word) : (s.setReg a v).commits = s.commits := rfl
@[simp] theorem State.setReg_power (s : State) (a : Nat) (v : Word) : (s.setReg a v).power = s.power := rfl
@[simp] theorem State.setReg_time (s : State) (a : Nat) (v : Word) : (s.setReg a v).time = s.time := rfl
@[simp] theorem State.setReg_host (s : State) (a : Nat) (v : Word) : (s.setReg a v).host = s.host := rfl
@[simp] theorem State.setReg_log (s : State) (a : Nat) (v : Word) : (s.setReg a v).log = s.log := rfl
@[simp] theorem State.setReg_gallery (s : State) (a : Nat) (v : Word) : (s.setReg a v).gallery = s.gallery := rfl
@[simp] theorem State.setReg_bar4 (s : State) (a : Nat) (v : Word) : (s.setReg a v).bar4 = s.bar4 := rfl
@[simp] theorem State.setReg_hostMem (s : State) (a : Nat) (v : Word) : (s.setReg a v).hostMem = s.hostMem := rfl
@[simp] theorem State.setReg_flash (s : State) (a : Nat) (v : Word) : (s.setReg a v).flash = s.flash := rfl
@[simp] theorem State.setReg_bootMem (s : State) (a : Nat) (v : Word) : (s.setReg a v).bootMem = s.bootMem := rfl
@[simp] theorem State.setReg_gal (s : State) (a : Nat) (v : Word) : (s.setReg a v).gal = s.gal := rfl
@[simp] theorem State.setReg_lnd (s : State) (a : Nat) (v : Word) : (s.setReg a v).lnd = s.lnd := rfl
@[simp] theorem State.setReg_que (s : State) (a : Nat) (v : Word) : (s.setReg a v).que = s.que := rfl
@[simp] theorem State.setReg_cle (s : State) (a : Nat) (v : Word) : (s.setReg a v).cle = s.cle := rfl
@[simp] theorem State.setReg_rue (s : State) (a : Nat) (v : Word) : (s.setReg a v).rue = s.rue := rfl
@[simp] theorem State.setReg_ports (s : State) (a : Nat) (v : Word) : (s.setReg a v).ports = s.ports := rfl
@[simp] theorem State.setReg_rte (s : State) (a : Nat) (v : Word) : (s.setReg a v).rte = s.rte := rfl
@[simp] theorem State.setReg_sched (s : State) (a : Nat) (v : Word) : (s.setReg a v).sched = s.sched := rfl
@[simp] theorem State.setReg_sec (s : State) (a : Nat) (v : Word) : (s.setReg a v).sec = s.sec := rfl
@[simp] theorem State.setReg_opt (s : State) (a : Nat) (v : Word) : (s.setReg a v).opt = s.opt := rfl
@[simp] theorem State.setReg_dfl (s : State) (a : Nat) (v : Word) : (s.setReg a v).dfl = s.dfl := rfl
@[simp] theorem State.setReg_boot (s : State) (a : Nat) (v : Word) : (s.setReg a v).boot = s.boot := rfl
@[simp] theorem State.setReg_life (s : State) (a : Nat) (v : Word) : (s.setReg a v).life = s.life := rfl
@[simp] theorem State.setReg_pins (s : State) (a : Nat) (v : Word) : (s.setReg a v).pins = s.pins := rfl
@[simp] theorem State.setReg_faults (s : State) (a : Nat) (v : Word) : (s.setReg a v).faults = s.faults := rfl
@[simp] theorem State.setReg_delivered (s : State) (a : Nat) (v : Word) : (s.setReg a v).delivered = s.delivered := rfl
@[simp] theorem State.setReg_sreg (s : State) (a : Nat) (v : Word) (a' : Nat) : (s.setReg a v).sreg a' = s.sreg a' := rfl
@[simp] theorem State.setReg_now (s : State) (a : Nat) (v : Word) : (s.setReg a v).now = s.now := rfl
@[simp] theorem State.setReg_mono (s : State) (a : Nat) (v : Word) : (s.setReg a v).mono = s.mono := rfl

/-! ### setSreg -/
@[simp] theorem State.setSreg_pending (s : State) (a : Nat) (v : Word) : (s.setSreg a v).pending = s.pending := rfl
@[simp] theorem State.setSreg_freeCtr (s : State) (a : Nat) (v : Word) : (s.setSreg a v).freeCtr = s.freeCtr := rfl
@[simp] theorem State.setSreg_outbox (s : State) (a : Nat) (v : Word) : (s.setSreg a v).outbox = s.outbox := rfl
@[simp] theorem State.setSreg_regs (s : State) (a : Nat) (v : Word) : (s.setSreg a v).regs = s.regs := rfl
@[simp] theorem State.setSreg_rlatch (s : State) (a : Nat) (v : Word) : (s.setSreg a v).rlatch = s.rlatch := rfl
@[simp] theorem State.setSreg_commits (s : State) (a : Nat) (v : Word) : (s.setSreg a v).commits = s.commits := rfl
@[simp] theorem State.setSreg_power (s : State) (a : Nat) (v : Word) : (s.setSreg a v).power = s.power := rfl
@[simp] theorem State.setSreg_time (s : State) (a : Nat) (v : Word) : (s.setSreg a v).time = s.time := rfl
@[simp] theorem State.setSreg_host (s : State) (a : Nat) (v : Word) : (s.setSreg a v).host = s.host := rfl
@[simp] theorem State.setSreg_log (s : State) (a : Nat) (v : Word) : (s.setSreg a v).log = s.log := rfl
@[simp] theorem State.setSreg_gallery (s : State) (a : Nat) (v : Word) : (s.setSreg a v).gallery = s.gallery := rfl
@[simp] theorem State.setSreg_bar4 (s : State) (a : Nat) (v : Word) : (s.setSreg a v).bar4 = s.bar4 := rfl
@[simp] theorem State.setSreg_hostMem (s : State) (a : Nat) (v : Word) : (s.setSreg a v).hostMem = s.hostMem := rfl
@[simp] theorem State.setSreg_flash (s : State) (a : Nat) (v : Word) : (s.setSreg a v).flash = s.flash := rfl
@[simp] theorem State.setSreg_bootMem (s : State) (a : Nat) (v : Word) : (s.setSreg a v).bootMem = s.bootMem := rfl
@[simp] theorem State.setSreg_gal (s : State) (a : Nat) (v : Word) : (s.setSreg a v).gal = s.gal := rfl
@[simp] theorem State.setSreg_lnd (s : State) (a : Nat) (v : Word) : (s.setSreg a v).lnd = s.lnd := rfl
@[simp] theorem State.setSreg_que (s : State) (a : Nat) (v : Word) : (s.setSreg a v).que = s.que := rfl
@[simp] theorem State.setSreg_cle (s : State) (a : Nat) (v : Word) : (s.setSreg a v).cle = s.cle := rfl
@[simp] theorem State.setSreg_rue (s : State) (a : Nat) (v : Word) : (s.setSreg a v).rue = s.rue := rfl
@[simp] theorem State.setSreg_ports (s : State) (a : Nat) (v : Word) : (s.setSreg a v).ports = s.ports := rfl
@[simp] theorem State.setSreg_rte (s : State) (a : Nat) (v : Word) : (s.setSreg a v).rte = s.rte := rfl
@[simp] theorem State.setSreg_sched (s : State) (a : Nat) (v : Word) : (s.setSreg a v).sched = s.sched := rfl
@[simp] theorem State.setSreg_sec (s : State) (a : Nat) (v : Word) : (s.setSreg a v).sec = s.sec := rfl
@[simp] theorem State.setSreg_opt (s : State) (a : Nat) (v : Word) : (s.setSreg a v).opt = s.opt := rfl
@[simp] theorem State.setSreg_dfl (s : State) (a : Nat) (v : Word) : (s.setSreg a v).dfl = s.dfl := rfl
@[simp] theorem State.setSreg_boot (s : State) (a : Nat) (v : Word) : (s.setSreg a v).boot = s.boot := rfl
@[simp] theorem State.setSreg_life (s : State) (a : Nat) (v : Word) : (s.setSreg a v).life = s.life := rfl
@[simp] theorem State.setSreg_pins (s : State) (a : Nat) (v : Word) : (s.setSreg a v).pins = s.pins := rfl
@[simp] theorem State.setSreg_faults (s : State) (a : Nat) (v : Word) : (s.setSreg a v).faults = s.faults := rfl
@[simp] theorem State.setSreg_delivered (s : State) (a : Nat) (v : Word) : (s.setSreg a v).delivered = s.delivered := rfl
@[simp] theorem State.setSreg_reg (s : State) (a : Nat) (v : Word) (a' : Nat) : (s.setSreg a v).reg a' = s.reg a' := rfl
@[simp] theorem State.setSreg_f (s : State) (a : Nat) (v : Word) (a' lo' n' : Nat) : (s.setSreg a v).f a' lo' n' = s.f a' lo' n' := rfl
@[simp] theorem State.setSreg_b (s : State) (a : Nat) (v : Word) (a' lo' : Nat) : (s.setSreg a v).b a' lo' = s.b a' lo' := rfl
@[simp] theorem State.setSreg_reg64 (s : State) (a : Nat) (v : Word) (a' b' : Nat) : (s.setSreg a v).reg64 a' b' = s.reg64 a' b' := rfl
@[simp] theorem State.setSreg_now (s : State) (a : Nat) (v : Word) : (s.setSreg a v).now = s.now := rfl
@[simp] theorem State.setSreg_mono (s : State) (a : Nat) (v : Word) : (s.setSreg a v).mono = s.mono := rfl

/-! ### setF -/
@[simp] theorem State.setF_pending (s : State) (a lo n v : Nat) : (s.setF a lo n v).pending = s.pending := rfl
@[simp] theorem State.setF_freeCtr (s : State) (a lo n v : Nat) : (s.setF a lo n v).freeCtr = s.freeCtr := rfl
@[simp] theorem State.setF_outbox (s : State) (a lo n v : Nat) : (s.setF a lo n v).outbox = s.outbox := rfl
@[simp] theorem State.setF_staged (s : State) (a lo n v : Nat) : (s.setF a lo n v).staged = s.staged := rfl
@[simp] theorem State.setF_rlatch (s : State) (a lo n v : Nat) : (s.setF a lo n v).rlatch = s.rlatch := rfl
@[simp] theorem State.setF_commits (s : State) (a lo n v : Nat) : (s.setF a lo n v).commits = s.commits := rfl
@[simp] theorem State.setF_power (s : State) (a lo n v : Nat) : (s.setF a lo n v).power = s.power := rfl
@[simp] theorem State.setF_time (s : State) (a lo n v : Nat) : (s.setF a lo n v).time = s.time := rfl
@[simp] theorem State.setF_host (s : State) (a lo n v : Nat) : (s.setF a lo n v).host = s.host := rfl
@[simp] theorem State.setF_log (s : State) (a lo n v : Nat) : (s.setF a lo n v).log = s.log := rfl
@[simp] theorem State.setF_gallery (s : State) (a lo n v : Nat) : (s.setF a lo n v).gallery = s.gallery := rfl
@[simp] theorem State.setF_bar4 (s : State) (a lo n v : Nat) : (s.setF a lo n v).bar4 = s.bar4 := rfl
@[simp] theorem State.setF_hostMem (s : State) (a lo n v : Nat) : (s.setF a lo n v).hostMem = s.hostMem := rfl
@[simp] theorem State.setF_flash (s : State) (a lo n v : Nat) : (s.setF a lo n v).flash = s.flash := rfl
@[simp] theorem State.setF_bootMem (s : State) (a lo n v : Nat) : (s.setF a lo n v).bootMem = s.bootMem := rfl
@[simp] theorem State.setF_gal (s : State) (a lo n v : Nat) : (s.setF a lo n v).gal = s.gal := rfl
@[simp] theorem State.setF_lnd (s : State) (a lo n v : Nat) : (s.setF a lo n v).lnd = s.lnd := rfl
@[simp] theorem State.setF_que (s : State) (a lo n v : Nat) : (s.setF a lo n v).que = s.que := rfl
@[simp] theorem State.setF_cle (s : State) (a lo n v : Nat) : (s.setF a lo n v).cle = s.cle := rfl
@[simp] theorem State.setF_rue (s : State) (a lo n v : Nat) : (s.setF a lo n v).rue = s.rue := rfl
@[simp] theorem State.setF_ports (s : State) (a lo n v : Nat) : (s.setF a lo n v).ports = s.ports := rfl
@[simp] theorem State.setF_rte (s : State) (a lo n v : Nat) : (s.setF a lo n v).rte = s.rte := rfl
@[simp] theorem State.setF_sched (s : State) (a lo n v : Nat) : (s.setF a lo n v).sched = s.sched := rfl
@[simp] theorem State.setF_sec (s : State) (a lo n v : Nat) : (s.setF a lo n v).sec = s.sec := rfl
@[simp] theorem State.setF_opt (s : State) (a lo n v : Nat) : (s.setF a lo n v).opt = s.opt := rfl
@[simp] theorem State.setF_dfl (s : State) (a lo n v : Nat) : (s.setF a lo n v).dfl = s.dfl := rfl
@[simp] theorem State.setF_boot (s : State) (a lo n v : Nat) : (s.setF a lo n v).boot = s.boot := rfl
@[simp] theorem State.setF_life (s : State) (a lo n v : Nat) : (s.setF a lo n v).life = s.life := rfl
@[simp] theorem State.setF_pins (s : State) (a lo n v : Nat) : (s.setF a lo n v).pins = s.pins := rfl
@[simp] theorem State.setF_faults (s : State) (a lo n v : Nat) : (s.setF a lo n v).faults = s.faults := rfl
@[simp] theorem State.setF_delivered (s : State) (a lo n v : Nat) : (s.setF a lo n v).delivered = s.delivered := rfl
@[simp] theorem State.setF_sreg (s : State) (a lo n v : Nat) (a' : Nat) : (s.setF a lo n v).sreg a' = s.sreg a' := rfl
@[simp] theorem State.setF_now (s : State) (a lo n v : Nat) : (s.setF a lo n v).now = s.now := rfl
@[simp] theorem State.setF_mono (s : State) (a lo n v : Nat) : (s.setF a lo n v).mono = s.mono := rfl

/-! ### setB -/
@[simp] theorem State.setB_pending (s : State) (a lo : Nat) (v : Bool) : (s.setB a lo v).pending = s.pending := rfl
@[simp] theorem State.setB_freeCtr (s : State) (a lo : Nat) (v : Bool) : (s.setB a lo v).freeCtr = s.freeCtr := rfl
@[simp] theorem State.setB_outbox (s : State) (a lo : Nat) (v : Bool) : (s.setB a lo v).outbox = s.outbox := rfl
@[simp] theorem State.setB_staged (s : State) (a lo : Nat) (v : Bool) : (s.setB a lo v).staged = s.staged := rfl
@[simp] theorem State.setB_rlatch (s : State) (a lo : Nat) (v : Bool) : (s.setB a lo v).rlatch = s.rlatch := rfl
@[simp] theorem State.setB_commits (s : State) (a lo : Nat) (v : Bool) : (s.setB a lo v).commits = s.commits := rfl
@[simp] theorem State.setB_power (s : State) (a lo : Nat) (v : Bool) : (s.setB a lo v).power = s.power := rfl
@[simp] theorem State.setB_time (s : State) (a lo : Nat) (v : Bool) : (s.setB a lo v).time = s.time := rfl
@[simp] theorem State.setB_host (s : State) (a lo : Nat) (v : Bool) : (s.setB a lo v).host = s.host := rfl
@[simp] theorem State.setB_log (s : State) (a lo : Nat) (v : Bool) : (s.setB a lo v).log = s.log := rfl
@[simp] theorem State.setB_gallery (s : State) (a lo : Nat) (v : Bool) : (s.setB a lo v).gallery = s.gallery := rfl
@[simp] theorem State.setB_bar4 (s : State) (a lo : Nat) (v : Bool) : (s.setB a lo v).bar4 = s.bar4 := rfl
@[simp] theorem State.setB_hostMem (s : State) (a lo : Nat) (v : Bool) : (s.setB a lo v).hostMem = s.hostMem := rfl
@[simp] theorem State.setB_flash (s : State) (a lo : Nat) (v : Bool) : (s.setB a lo v).flash = s.flash := rfl
@[simp] theorem State.setB_bootMem (s : State) (a lo : Nat) (v : Bool) : (s.setB a lo v).bootMem = s.bootMem := rfl
@[simp] theorem State.setB_gal (s : State) (a lo : Nat) (v : Bool) : (s.setB a lo v).gal = s.gal := rfl
@[simp] theorem State.setB_lnd (s : State) (a lo : Nat) (v : Bool) : (s.setB a lo v).lnd = s.lnd := rfl
@[simp] theorem State.setB_que (s : State) (a lo : Nat) (v : Bool) : (s.setB a lo v).que = s.que := rfl
@[simp] theorem State.setB_cle (s : State) (a lo : Nat) (v : Bool) : (s.setB a lo v).cle = s.cle := rfl
@[simp] theorem State.setB_rue (s : State) (a lo : Nat) (v : Bool) : (s.setB a lo v).rue = s.rue := rfl
@[simp] theorem State.setB_ports (s : State) (a lo : Nat) (v : Bool) : (s.setB a lo v).ports = s.ports := rfl
@[simp] theorem State.setB_rte (s : State) (a lo : Nat) (v : Bool) : (s.setB a lo v).rte = s.rte := rfl
@[simp] theorem State.setB_sched (s : State) (a lo : Nat) (v : Bool) : (s.setB a lo v).sched = s.sched := rfl
@[simp] theorem State.setB_sec (s : State) (a lo : Nat) (v : Bool) : (s.setB a lo v).sec = s.sec := rfl
@[simp] theorem State.setB_opt (s : State) (a lo : Nat) (v : Bool) : (s.setB a lo v).opt = s.opt := rfl
@[simp] theorem State.setB_dfl (s : State) (a lo : Nat) (v : Bool) : (s.setB a lo v).dfl = s.dfl := rfl
@[simp] theorem State.setB_boot (s : State) (a lo : Nat) (v : Bool) : (s.setB a lo v).boot = s.boot := rfl
@[simp] theorem State.setB_life (s : State) (a lo : Nat) (v : Bool) : (s.setB a lo v).life = s.life := rfl
@[simp] theorem State.setB_pins (s : State) (a lo : Nat) (v : Bool) : (s.setB a lo v).pins = s.pins := rfl
@[simp] theorem State.setB_faults (s : State) (a lo : Nat) (v : Bool) : (s.setB a lo v).faults = s.faults := rfl
@[simp] theorem State.setB_delivered (s : State) (a lo : Nat) (v : Bool) : (s.setB a lo v).delivered = s.delivered := rfl
@[simp] theorem State.setB_sreg (s : State) (a lo : Nat) (v : Bool) (a' : Nat) : (s.setB a lo v).sreg a' = s.sreg a' := rfl
@[simp] theorem State.setB_now (s : State) (a lo : Nat) (v : Bool) : (s.setB a lo v).now = s.now := rfl
@[simp] theorem State.setB_mono (s : State) (a lo : Nat) (v : Bool) : (s.setB a lo v).mono = s.mono := rfl

/-! ### bumpBy -/
@[simp] theorem State.bumpBy_pending (s : State) (a n : Nat) : (s.bumpBy a n).pending = s.pending := rfl
@[simp] theorem State.bumpBy_freeCtr (s : State) (a n : Nat) : (s.bumpBy a n).freeCtr = s.freeCtr := rfl
@[simp] theorem State.bumpBy_outbox (s : State) (a n : Nat) : (s.bumpBy a n).outbox = s.outbox := rfl
@[simp] theorem State.bumpBy_staged (s : State) (a n : Nat) : (s.bumpBy a n).staged = s.staged := rfl
@[simp] theorem State.bumpBy_rlatch (s : State) (a n : Nat) : (s.bumpBy a n).rlatch = s.rlatch := rfl
@[simp] theorem State.bumpBy_commits (s : State) (a n : Nat) : (s.bumpBy a n).commits = s.commits := rfl
@[simp] theorem State.bumpBy_power (s : State) (a n : Nat) : (s.bumpBy a n).power = s.power := rfl
@[simp] theorem State.bumpBy_time (s : State) (a n : Nat) : (s.bumpBy a n).time = s.time := rfl
@[simp] theorem State.bumpBy_host (s : State) (a n : Nat) : (s.bumpBy a n).host = s.host := rfl
@[simp] theorem State.bumpBy_log (s : State) (a n : Nat) : (s.bumpBy a n).log = s.log := rfl
@[simp] theorem State.bumpBy_gallery (s : State) (a n : Nat) : (s.bumpBy a n).gallery = s.gallery := rfl
@[simp] theorem State.bumpBy_bar4 (s : State) (a n : Nat) : (s.bumpBy a n).bar4 = s.bar4 := rfl
@[simp] theorem State.bumpBy_hostMem (s : State) (a n : Nat) : (s.bumpBy a n).hostMem = s.hostMem := rfl
@[simp] theorem State.bumpBy_flash (s : State) (a n : Nat) : (s.bumpBy a n).flash = s.flash := rfl
@[simp] theorem State.bumpBy_bootMem (s : State) (a n : Nat) : (s.bumpBy a n).bootMem = s.bootMem := rfl
@[simp] theorem State.bumpBy_gal (s : State) (a n : Nat) : (s.bumpBy a n).gal = s.gal := rfl
@[simp] theorem State.bumpBy_lnd (s : State) (a n : Nat) : (s.bumpBy a n).lnd = s.lnd := rfl
@[simp] theorem State.bumpBy_que (s : State) (a n : Nat) : (s.bumpBy a n).que = s.que := rfl
@[simp] theorem State.bumpBy_cle (s : State) (a n : Nat) : (s.bumpBy a n).cle = s.cle := rfl
@[simp] theorem State.bumpBy_rue (s : State) (a n : Nat) : (s.bumpBy a n).rue = s.rue := rfl
@[simp] theorem State.bumpBy_ports (s : State) (a n : Nat) : (s.bumpBy a n).ports = s.ports := rfl
@[simp] theorem State.bumpBy_rte (s : State) (a n : Nat) : (s.bumpBy a n).rte = s.rte := rfl
@[simp] theorem State.bumpBy_sched (s : State) (a n : Nat) : (s.bumpBy a n).sched = s.sched := rfl
@[simp] theorem State.bumpBy_sec (s : State) (a n : Nat) : (s.bumpBy a n).sec = s.sec := rfl
@[simp] theorem State.bumpBy_opt (s : State) (a n : Nat) : (s.bumpBy a n).opt = s.opt := rfl
@[simp] theorem State.bumpBy_dfl (s : State) (a n : Nat) : (s.bumpBy a n).dfl = s.dfl := rfl
@[simp] theorem State.bumpBy_boot (s : State) (a n : Nat) : (s.bumpBy a n).boot = s.boot := rfl
@[simp] theorem State.bumpBy_life (s : State) (a n : Nat) : (s.bumpBy a n).life = s.life := rfl
@[simp] theorem State.bumpBy_pins (s : State) (a n : Nat) : (s.bumpBy a n).pins = s.pins := rfl
@[simp] theorem State.bumpBy_faults (s : State) (a n : Nat) : (s.bumpBy a n).faults = s.faults := rfl
@[simp] theorem State.bumpBy_delivered (s : State) (a n : Nat) : (s.bumpBy a n).delivered = s.delivered := rfl
@[simp] theorem State.bumpBy_sreg (s : State) (a n : Nat) (a' : Nat) : (s.bumpBy a n).sreg a' = s.sreg a' := rfl
@[simp] theorem State.bumpBy_now (s : State) (a n : Nat) : (s.bumpBy a n).now = s.now := rfl
@[simp] theorem State.bumpBy_mono (s : State) (a n : Nat) : (s.bumpBy a n).mono = s.mono := rfl

/-! ### bump -/
@[simp] theorem State.bump_pending (s : State) (a : Nat) : (s.bump a).pending = s.pending := rfl
@[simp] theorem State.bump_freeCtr (s : State) (a : Nat) : (s.bump a).freeCtr = s.freeCtr := rfl
@[simp] theorem State.bump_outbox (s : State) (a : Nat) : (s.bump a).outbox = s.outbox := rfl
@[simp] theorem State.bump_staged (s : State) (a : Nat) : (s.bump a).staged = s.staged := rfl
@[simp] theorem State.bump_rlatch (s : State) (a : Nat) : (s.bump a).rlatch = s.rlatch := rfl
@[simp] theorem State.bump_commits (s : State) (a : Nat) : (s.bump a).commits = s.commits := rfl
@[simp] theorem State.bump_power (s : State) (a : Nat) : (s.bump a).power = s.power := rfl
@[simp] theorem State.bump_time (s : State) (a : Nat) : (s.bump a).time = s.time := rfl
@[simp] theorem State.bump_host (s : State) (a : Nat) : (s.bump a).host = s.host := rfl
@[simp] theorem State.bump_log (s : State) (a : Nat) : (s.bump a).log = s.log := rfl
@[simp] theorem State.bump_gallery (s : State) (a : Nat) : (s.bump a).gallery = s.gallery := rfl
@[simp] theorem State.bump_bar4 (s : State) (a : Nat) : (s.bump a).bar4 = s.bar4 := rfl
@[simp] theorem State.bump_hostMem (s : State) (a : Nat) : (s.bump a).hostMem = s.hostMem := rfl
@[simp] theorem State.bump_flash (s : State) (a : Nat) : (s.bump a).flash = s.flash := rfl
@[simp] theorem State.bump_bootMem (s : State) (a : Nat) : (s.bump a).bootMem = s.bootMem := rfl
@[simp] theorem State.bump_gal (s : State) (a : Nat) : (s.bump a).gal = s.gal := rfl
@[simp] theorem State.bump_lnd (s : State) (a : Nat) : (s.bump a).lnd = s.lnd := rfl
@[simp] theorem State.bump_que (s : State) (a : Nat) : (s.bump a).que = s.que := rfl
@[simp] theorem State.bump_cle (s : State) (a : Nat) : (s.bump a).cle = s.cle := rfl
@[simp] theorem State.bump_rue (s : State) (a : Nat) : (s.bump a).rue = s.rue := rfl
@[simp] theorem State.bump_ports (s : State) (a : Nat) : (s.bump a).ports = s.ports := rfl
@[simp] theorem State.bump_rte (s : State) (a : Nat) : (s.bump a).rte = s.rte := rfl
@[simp] theorem State.bump_sched (s : State) (a : Nat) : (s.bump a).sched = s.sched := rfl
@[simp] theorem State.bump_sec (s : State) (a : Nat) : (s.bump a).sec = s.sec := rfl
@[simp] theorem State.bump_opt (s : State) (a : Nat) : (s.bump a).opt = s.opt := rfl
@[simp] theorem State.bump_dfl (s : State) (a : Nat) : (s.bump a).dfl = s.dfl := rfl
@[simp] theorem State.bump_boot (s : State) (a : Nat) : (s.bump a).boot = s.boot := rfl
@[simp] theorem State.bump_life (s : State) (a : Nat) : (s.bump a).life = s.life := rfl
@[simp] theorem State.bump_pins (s : State) (a : Nat) : (s.bump a).pins = s.pins := rfl
@[simp] theorem State.bump_faults (s : State) (a : Nat) : (s.bump a).faults = s.faults := rfl
@[simp] theorem State.bump_delivered (s : State) (a : Nat) : (s.bump a).delivered = s.delivered := rfl
@[simp] theorem State.bump_sreg (s : State) (a : Nat) (a' : Nat) : (s.bump a).sreg a' = s.sreg a' := rfl
@[simp] theorem State.bump_now (s : State) (a : Nat) : (s.bump a).now = s.now := rfl
@[simp] theorem State.bump_mono (s : State) (a : Nat) : (s.bump a).mono = s.mono := rfl

/-! ### setReg64 -/
@[simp] theorem State.setReg64_pending (s : State) (lo hi v : Nat) : (s.setReg64 lo hi v).pending = s.pending := rfl
@[simp] theorem State.setReg64_freeCtr (s : State) (lo hi v : Nat) : (s.setReg64 lo hi v).freeCtr = s.freeCtr := rfl
@[simp] theorem State.setReg64_outbox (s : State) (lo hi v : Nat) : (s.setReg64 lo hi v).outbox = s.outbox := rfl
@[simp] theorem State.setReg64_staged (s : State) (lo hi v : Nat) : (s.setReg64 lo hi v).staged = s.staged := rfl
@[simp] theorem State.setReg64_rlatch (s : State) (lo hi v : Nat) : (s.setReg64 lo hi v).rlatch = s.rlatch := rfl
@[simp] theorem State.setReg64_commits (s : State) (lo hi v : Nat) : (s.setReg64 lo hi v).commits = s.commits := rfl
@[simp] theorem State.setReg64_power (s : State) (lo hi v : Nat) : (s.setReg64 lo hi v).power = s.power := rfl
@[simp] theorem State.setReg64_time (s : State) (lo hi v : Nat) : (s.setReg64 lo hi v).time = s.time := rfl
@[simp] theorem State.setReg64_host (s : State) (lo hi v : Nat) : (s.setReg64 lo hi v).host = s.host := rfl
@[simp] theorem State.setReg64_log (s : State) (lo hi v : Nat) : (s.setReg64 lo hi v).log = s.log := rfl
@[simp] theorem State.setReg64_gallery (s : State) (lo hi v : Nat) : (s.setReg64 lo hi v).gallery = s.gallery := rfl
@[simp] theorem State.setReg64_bar4 (s : State) (lo hi v : Nat) : (s.setReg64 lo hi v).bar4 = s.bar4 := rfl
@[simp] theorem State.setReg64_hostMem (s : State) (lo hi v : Nat) : (s.setReg64 lo hi v).hostMem = s.hostMem := rfl
@[simp] theorem State.setReg64_flash (s : State) (lo hi v : Nat) : (s.setReg64 lo hi v).flash = s.flash := rfl
@[simp] theorem State.setReg64_bootMem (s : State) (lo hi v : Nat) : (s.setReg64 lo hi v).bootMem = s.bootMem := rfl
@[simp] theorem State.setReg64_gal (s : State) (lo hi v : Nat) : (s.setReg64 lo hi v).gal = s.gal := rfl
@[simp] theorem State.setReg64_lnd (s : State) (lo hi v : Nat) : (s.setReg64 lo hi v).lnd = s.lnd := rfl
@[simp] theorem State.setReg64_que (s : State) (lo hi v : Nat) : (s.setReg64 lo hi v).que = s.que := rfl
@[simp] theorem State.setReg64_cle (s : State) (lo hi v : Nat) : (s.setReg64 lo hi v).cle = s.cle := rfl
@[simp] theorem State.setReg64_rue (s : State) (lo hi v : Nat) : (s.setReg64 lo hi v).rue = s.rue := rfl
@[simp] theorem State.setReg64_ports (s : State) (lo hi v : Nat) : (s.setReg64 lo hi v).ports = s.ports := rfl
@[simp] theorem State.setReg64_rte (s : State) (lo hi v : Nat) : (s.setReg64 lo hi v).rte = s.rte := rfl
@[simp] theorem State.setReg64_sched (s : State) (lo hi v : Nat) : (s.setReg64 lo hi v).sched = s.sched := rfl
@[simp] theorem State.setReg64_sec (s : State) (lo hi v : Nat) : (s.setReg64 lo hi v).sec = s.sec := rfl
@[simp] theorem State.setReg64_opt (s : State) (lo hi v : Nat) : (s.setReg64 lo hi v).opt = s.opt := rfl
@[simp] theorem State.setReg64_dfl (s : State) (lo hi v : Nat) : (s.setReg64 lo hi v).dfl = s.dfl := rfl
@[simp] theorem State.setReg64_boot (s : State) (lo hi v : Nat) : (s.setReg64 lo hi v).boot = s.boot := rfl
@[simp] theorem State.setReg64_life (s : State) (lo hi v : Nat) : (s.setReg64 lo hi v).life = s.life := rfl
@[simp] theorem State.setReg64_pins (s : State) (lo hi v : Nat) : (s.setReg64 lo hi v).pins = s.pins := rfl
@[simp] theorem State.setReg64_faults (s : State) (lo hi v : Nat) : (s.setReg64 lo hi v).faults = s.faults := rfl
@[simp] theorem State.setReg64_delivered (s : State) (lo hi v : Nat) : (s.setReg64 lo hi v).delivered = s.delivered := rfl
@[simp] theorem State.setReg64_sreg (s : State) (lo hi v : Nat) (a' : Nat) : (s.setReg64 lo hi v).sreg a' = s.sreg a' := rfl
@[simp] theorem State.setReg64_now (s : State) (lo hi v : Nat) : (s.setReg64 lo hi v).now = s.now := rfl
@[simp] theorem State.setReg64_mono (s : State) (lo hi v : Nat) : (s.setReg64 lo hi v).mono = s.mono := rfl

/-! ### emit -/
@[simp] theorem State.emit_pending (s : State) (e : Sent) : (s.emit e).pending = s.pending := rfl
@[simp] theorem State.emit_freeCtr (s : State) (e : Sent) : (s.emit e).freeCtr = s.freeCtr := rfl
@[simp] theorem State.emit_regs (s : State) (e : Sent) : (s.emit e).regs = s.regs := rfl
@[simp] theorem State.emit_staged (s : State) (e : Sent) : (s.emit e).staged = s.staged := rfl
@[simp] theorem State.emit_rlatch (s : State) (e : Sent) : (s.emit e).rlatch = s.rlatch := rfl
@[simp] theorem State.emit_commits (s : State) (e : Sent) : (s.emit e).commits = s.commits := rfl
@[simp] theorem State.emit_power (s : State) (e : Sent) : (s.emit e).power = s.power := rfl
@[simp] theorem State.emit_time (s : State) (e : Sent) : (s.emit e).time = s.time := rfl
@[simp] theorem State.emit_host (s : State) (e : Sent) : (s.emit e).host = s.host := rfl
@[simp] theorem State.emit_log (s : State) (e : Sent) : (s.emit e).log = s.log := rfl
@[simp] theorem State.emit_gallery (s : State) (e : Sent) : (s.emit e).gallery = s.gallery := rfl
@[simp] theorem State.emit_bar4 (s : State) (e : Sent) : (s.emit e).bar4 = s.bar4 := rfl
@[simp] theorem State.emit_hostMem (s : State) (e : Sent) : (s.emit e).hostMem = s.hostMem := rfl
@[simp] theorem State.emit_flash (s : State) (e : Sent) : (s.emit e).flash = s.flash := rfl
@[simp] theorem State.emit_bootMem (s : State) (e : Sent) : (s.emit e).bootMem = s.bootMem := rfl
@[simp] theorem State.emit_gal (s : State) (e : Sent) : (s.emit e).gal = s.gal := rfl
@[simp] theorem State.emit_lnd (s : State) (e : Sent) : (s.emit e).lnd = s.lnd := rfl
@[simp] theorem State.emit_que (s : State) (e : Sent) : (s.emit e).que = s.que := rfl
@[simp] theorem State.emit_cle (s : State) (e : Sent) : (s.emit e).cle = s.cle := rfl
@[simp] theorem State.emit_rue (s : State) (e : Sent) : (s.emit e).rue = s.rue := rfl
@[simp] theorem State.emit_ports (s : State) (e : Sent) : (s.emit e).ports = s.ports := rfl
@[simp] theorem State.emit_rte (s : State) (e : Sent) : (s.emit e).rte = s.rte := rfl
@[simp] theorem State.emit_sched (s : State) (e : Sent) : (s.emit e).sched = s.sched := rfl
@[simp] theorem State.emit_sec (s : State) (e : Sent) : (s.emit e).sec = s.sec := rfl
@[simp] theorem State.emit_opt (s : State) (e : Sent) : (s.emit e).opt = s.opt := rfl
@[simp] theorem State.emit_dfl (s : State) (e : Sent) : (s.emit e).dfl = s.dfl := rfl
@[simp] theorem State.emit_boot (s : State) (e : Sent) : (s.emit e).boot = s.boot := rfl
@[simp] theorem State.emit_life (s : State) (e : Sent) : (s.emit e).life = s.life := rfl
@[simp] theorem State.emit_pins (s : State) (e : Sent) : (s.emit e).pins = s.pins := rfl
@[simp] theorem State.emit_faults (s : State) (e : Sent) : (s.emit e).faults = s.faults := rfl
@[simp] theorem State.emit_delivered (s : State) (e : Sent) : (s.emit e).delivered = s.delivered := rfl
@[simp] theorem State.emit_reg (s : State) (e : Sent) (a' : Nat) : (s.emit e).reg a' = s.reg a' := rfl
@[simp] theorem State.emit_sreg (s : State) (e : Sent) (a' : Nat) : (s.emit e).sreg a' = s.sreg a' := rfl
@[simp] theorem State.emit_f (s : State) (e : Sent) (a' lo' n' : Nat) : (s.emit e).f a' lo' n' = s.f a' lo' n' := rfl
@[simp] theorem State.emit_b (s : State) (e : Sent) (a' lo' : Nat) : (s.emit e).b a' lo' = s.b a' lo' := rfl
@[simp] theorem State.emit_reg64 (s : State) (e : Sent) (a' b' : Nat) : (s.emit e).reg64 a' b' = s.reg64 a' b' := rfl
@[simp] theorem State.emit_now (s : State) (e : Sent) : (s.emit e).now = s.now := rfl
@[simp] theorem State.emit_mono (s : State) (e : Sent) : (s.emit e).mono = s.mono := rfl

/-! ### galWrite -/
@[simp] theorem State.galWrite_pending (s : State) (a : Nat) (bs : List Byte) : (s.galWrite a bs).pending = s.pending := rfl
@[simp] theorem State.galWrite_freeCtr (s : State) (a : Nat) (bs : List Byte) : (s.galWrite a bs).freeCtr = s.freeCtr := rfl
@[simp] theorem State.galWrite_outbox (s : State) (a : Nat) (bs : List Byte) : (s.galWrite a bs).outbox = s.outbox := rfl
@[simp] theorem State.galWrite_regs (s : State) (a : Nat) (bs : List Byte) : (s.galWrite a bs).regs = s.regs := rfl
@[simp] theorem State.galWrite_staged (s : State) (a : Nat) (bs : List Byte) : (s.galWrite a bs).staged = s.staged := rfl
@[simp] theorem State.galWrite_rlatch (s : State) (a : Nat) (bs : List Byte) : (s.galWrite a bs).rlatch = s.rlatch := rfl
@[simp] theorem State.galWrite_commits (s : State) (a : Nat) (bs : List Byte) : (s.galWrite a bs).commits = s.commits := rfl
@[simp] theorem State.galWrite_power (s : State) (a : Nat) (bs : List Byte) : (s.galWrite a bs).power = s.power := rfl
@[simp] theorem State.galWrite_time (s : State) (a : Nat) (bs : List Byte) : (s.galWrite a bs).time = s.time := rfl
@[simp] theorem State.galWrite_host (s : State) (a : Nat) (bs : List Byte) : (s.galWrite a bs).host = s.host := rfl
@[simp] theorem State.galWrite_log (s : State) (a : Nat) (bs : List Byte) : (s.galWrite a bs).log = s.log := rfl
@[simp] theorem State.galWrite_bar4 (s : State) (a : Nat) (bs : List Byte) : (s.galWrite a bs).bar4 = s.bar4 := rfl
@[simp] theorem State.galWrite_hostMem (s : State) (a : Nat) (bs : List Byte) : (s.galWrite a bs).hostMem = s.hostMem := rfl
@[simp] theorem State.galWrite_flash (s : State) (a : Nat) (bs : List Byte) : (s.galWrite a bs).flash = s.flash := rfl
@[simp] theorem State.galWrite_bootMem (s : State) (a : Nat) (bs : List Byte) : (s.galWrite a bs).bootMem = s.bootMem := rfl
@[simp] theorem State.galWrite_gal (s : State) (a : Nat) (bs : List Byte) : (s.galWrite a bs).gal = s.gal := rfl
@[simp] theorem State.galWrite_lnd (s : State) (a : Nat) (bs : List Byte) : (s.galWrite a bs).lnd = s.lnd := rfl
@[simp] theorem State.galWrite_que (s : State) (a : Nat) (bs : List Byte) : (s.galWrite a bs).que = s.que := rfl
@[simp] theorem State.galWrite_cle (s : State) (a : Nat) (bs : List Byte) : (s.galWrite a bs).cle = s.cle := rfl
@[simp] theorem State.galWrite_rue (s : State) (a : Nat) (bs : List Byte) : (s.galWrite a bs).rue = s.rue := rfl
@[simp] theorem State.galWrite_ports (s : State) (a : Nat) (bs : List Byte) : (s.galWrite a bs).ports = s.ports := rfl
@[simp] theorem State.galWrite_rte (s : State) (a : Nat) (bs : List Byte) : (s.galWrite a bs).rte = s.rte := rfl
@[simp] theorem State.galWrite_sched (s : State) (a : Nat) (bs : List Byte) : (s.galWrite a bs).sched = s.sched := rfl
@[simp] theorem State.galWrite_sec (s : State) (a : Nat) (bs : List Byte) : (s.galWrite a bs).sec = s.sec := rfl
@[simp] theorem State.galWrite_opt (s : State) (a : Nat) (bs : List Byte) : (s.galWrite a bs).opt = s.opt := rfl
@[simp] theorem State.galWrite_dfl (s : State) (a : Nat) (bs : List Byte) : (s.galWrite a bs).dfl = s.dfl := rfl
@[simp] theorem State.galWrite_boot (s : State) (a : Nat) (bs : List Byte) : (s.galWrite a bs).boot = s.boot := rfl
@[simp] theorem State.galWrite_life (s : State) (a : Nat) (bs : List Byte) : (s.galWrite a bs).life = s.life := rfl
@[simp] theorem State.galWrite_pins (s : State) (a : Nat) (bs : List Byte) : (s.galWrite a bs).pins = s.pins := rfl
@[simp] theorem State.galWrite_faults (s : State) (a : Nat) (bs : List Byte) : (s.galWrite a bs).faults = s.faults := rfl
@[simp] theorem State.galWrite_delivered (s : State) (a : Nat) (bs : List Byte) : (s.galWrite a bs).delivered = s.delivered := rfl
@[simp] theorem State.galWrite_reg (s : State) (a : Nat) (bs : List Byte) (a' : Nat) : (s.galWrite a bs).reg a' = s.reg a' := rfl
@[simp] theorem State.galWrite_sreg (s : State) (a : Nat) (bs : List Byte) (a' : Nat) : (s.galWrite a bs).sreg a' = s.sreg a' := rfl
@[simp] theorem State.galWrite_f (s : State) (a : Nat) (bs : List Byte) (a' lo' n' : Nat) : (s.galWrite a bs).f a' lo' n' = s.f a' lo' n' := rfl
@[simp] theorem State.galWrite_b (s : State) (a : Nat) (bs : List Byte) (a' lo' : Nat) : (s.galWrite a bs).b a' lo' = s.b a' lo' := rfl
@[simp] theorem State.galWrite_reg64 (s : State) (a : Nat) (bs : List Byte) (a' b' : Nat) : (s.galWrite a bs).reg64 a' b' = s.reg64 a' b' := rfl
@[simp] theorem State.galWrite_now (s : State) (a : Nat) (bs : List Byte) : (s.galWrite a bs).now = s.now := rfl
@[simp] theorem State.galWrite_mono (s : State) (a : Nat) (bs : List Byte) : (s.galWrite a bs).mono = s.mono := rfl

/-! ### bar4Write -/
@[simp] theorem State.bar4Write_pending (s : State) (a : Nat) (bs : List Byte) : (s.bar4Write a bs).pending = s.pending := rfl
@[simp] theorem State.bar4Write_freeCtr (s : State) (a : Nat) (bs : List Byte) : (s.bar4Write a bs).freeCtr = s.freeCtr := rfl
@[simp] theorem State.bar4Write_outbox (s : State) (a : Nat) (bs : List Byte) : (s.bar4Write a bs).outbox = s.outbox := rfl
@[simp] theorem State.bar4Write_regs (s : State) (a : Nat) (bs : List Byte) : (s.bar4Write a bs).regs = s.regs := rfl
@[simp] theorem State.bar4Write_staged (s : State) (a : Nat) (bs : List Byte) : (s.bar4Write a bs).staged = s.staged := rfl
@[simp] theorem State.bar4Write_rlatch (s : State) (a : Nat) (bs : List Byte) : (s.bar4Write a bs).rlatch = s.rlatch := rfl
@[simp] theorem State.bar4Write_commits (s : State) (a : Nat) (bs : List Byte) : (s.bar4Write a bs).commits = s.commits := rfl
@[simp] theorem State.bar4Write_power (s : State) (a : Nat) (bs : List Byte) : (s.bar4Write a bs).power = s.power := rfl
@[simp] theorem State.bar4Write_time (s : State) (a : Nat) (bs : List Byte) : (s.bar4Write a bs).time = s.time := rfl
@[simp] theorem State.bar4Write_host (s : State) (a : Nat) (bs : List Byte) : (s.bar4Write a bs).host = s.host := rfl
@[simp] theorem State.bar4Write_log (s : State) (a : Nat) (bs : List Byte) : (s.bar4Write a bs).log = s.log := rfl
@[simp] theorem State.bar4Write_gallery (s : State) (a : Nat) (bs : List Byte) : (s.bar4Write a bs).gallery = s.gallery := rfl
@[simp] theorem State.bar4Write_hostMem (s : State) (a : Nat) (bs : List Byte) : (s.bar4Write a bs).hostMem = s.hostMem := rfl
@[simp] theorem State.bar4Write_flash (s : State) (a : Nat) (bs : List Byte) : (s.bar4Write a bs).flash = s.flash := rfl
@[simp] theorem State.bar4Write_bootMem (s : State) (a : Nat) (bs : List Byte) : (s.bar4Write a bs).bootMem = s.bootMem := rfl
@[simp] theorem State.bar4Write_gal (s : State) (a : Nat) (bs : List Byte) : (s.bar4Write a bs).gal = s.gal := rfl
@[simp] theorem State.bar4Write_lnd (s : State) (a : Nat) (bs : List Byte) : (s.bar4Write a bs).lnd = s.lnd := rfl
@[simp] theorem State.bar4Write_que (s : State) (a : Nat) (bs : List Byte) : (s.bar4Write a bs).que = s.que := rfl
@[simp] theorem State.bar4Write_cle (s : State) (a : Nat) (bs : List Byte) : (s.bar4Write a bs).cle = s.cle := rfl
@[simp] theorem State.bar4Write_rue (s : State) (a : Nat) (bs : List Byte) : (s.bar4Write a bs).rue = s.rue := rfl
@[simp] theorem State.bar4Write_ports (s : State) (a : Nat) (bs : List Byte) : (s.bar4Write a bs).ports = s.ports := rfl
@[simp] theorem State.bar4Write_rte (s : State) (a : Nat) (bs : List Byte) : (s.bar4Write a bs).rte = s.rte := rfl
@[simp] theorem State.bar4Write_sched (s : State) (a : Nat) (bs : List Byte) : (s.bar4Write a bs).sched = s.sched := rfl
@[simp] theorem State.bar4Write_sec (s : State) (a : Nat) (bs : List Byte) : (s.bar4Write a bs).sec = s.sec := rfl
@[simp] theorem State.bar4Write_opt (s : State) (a : Nat) (bs : List Byte) : (s.bar4Write a bs).opt = s.opt := rfl
@[simp] theorem State.bar4Write_dfl (s : State) (a : Nat) (bs : List Byte) : (s.bar4Write a bs).dfl = s.dfl := rfl
@[simp] theorem State.bar4Write_boot (s : State) (a : Nat) (bs : List Byte) : (s.bar4Write a bs).boot = s.boot := rfl
@[simp] theorem State.bar4Write_life (s : State) (a : Nat) (bs : List Byte) : (s.bar4Write a bs).life = s.life := rfl
@[simp] theorem State.bar4Write_pins (s : State) (a : Nat) (bs : List Byte) : (s.bar4Write a bs).pins = s.pins := rfl
@[simp] theorem State.bar4Write_faults (s : State) (a : Nat) (bs : List Byte) : (s.bar4Write a bs).faults = s.faults := rfl
@[simp] theorem State.bar4Write_delivered (s : State) (a : Nat) (bs : List Byte) : (s.bar4Write a bs).delivered = s.delivered := rfl
@[simp] theorem State.bar4Write_reg (s : State) (a : Nat) (bs : List Byte) (a' : Nat) : (s.bar4Write a bs).reg a' = s.reg a' := rfl
@[simp] theorem State.bar4Write_sreg (s : State) (a : Nat) (bs : List Byte) (a' : Nat) : (s.bar4Write a bs).sreg a' = s.sreg a' := rfl
@[simp] theorem State.bar4Write_f (s : State) (a : Nat) (bs : List Byte) (a' lo' n' : Nat) : (s.bar4Write a bs).f a' lo' n' = s.f a' lo' n' := rfl
@[simp] theorem State.bar4Write_b (s : State) (a : Nat) (bs : List Byte) (a' lo' : Nat) : (s.bar4Write a bs).b a' lo' = s.b a' lo' := rfl
@[simp] theorem State.bar4Write_reg64 (s : State) (a : Nat) (bs : List Byte) (a' b' : Nat) : (s.bar4Write a bs).reg64 a' b' = s.reg64 a' b' := rfl
@[simp] theorem State.bar4Write_now (s : State) (a : Nat) (bs : List Byte) : (s.bar4Write a bs).now = s.now := rfl
@[simp] theorem State.bar4Write_mono (s : State) (a : Nat) (bs : List Byte) : (s.bar4Write a bs).mono = s.mono := rfl

/-! ### hostWrite -/
@[simp] theorem State.hostWrite_pending (s : State) (a : Nat) (bs : List Byte) : (s.hostWrite a bs).pending = s.pending := rfl
@[simp] theorem State.hostWrite_freeCtr (s : State) (a : Nat) (bs : List Byte) : (s.hostWrite a bs).freeCtr = s.freeCtr := rfl
@[simp] theorem State.hostWrite_outbox (s : State) (a : Nat) (bs : List Byte) : (s.hostWrite a bs).outbox = s.outbox := rfl
@[simp] theorem State.hostWrite_regs (s : State) (a : Nat) (bs : List Byte) : (s.hostWrite a bs).regs = s.regs := rfl
@[simp] theorem State.hostWrite_staged (s : State) (a : Nat) (bs : List Byte) : (s.hostWrite a bs).staged = s.staged := rfl
@[simp] theorem State.hostWrite_rlatch (s : State) (a : Nat) (bs : List Byte) : (s.hostWrite a bs).rlatch = s.rlatch := rfl
@[simp] theorem State.hostWrite_commits (s : State) (a : Nat) (bs : List Byte) : (s.hostWrite a bs).commits = s.commits := rfl
@[simp] theorem State.hostWrite_power (s : State) (a : Nat) (bs : List Byte) : (s.hostWrite a bs).power = s.power := rfl
@[simp] theorem State.hostWrite_time (s : State) (a : Nat) (bs : List Byte) : (s.hostWrite a bs).time = s.time := rfl
@[simp] theorem State.hostWrite_host (s : State) (a : Nat) (bs : List Byte) : (s.hostWrite a bs).host = s.host := rfl
@[simp] theorem State.hostWrite_log (s : State) (a : Nat) (bs : List Byte) : (s.hostWrite a bs).log = s.log := rfl
@[simp] theorem State.hostWrite_gallery (s : State) (a : Nat) (bs : List Byte) : (s.hostWrite a bs).gallery = s.gallery := rfl
@[simp] theorem State.hostWrite_bar4 (s : State) (a : Nat) (bs : List Byte) : (s.hostWrite a bs).bar4 = s.bar4 := rfl
@[simp] theorem State.hostWrite_flash (s : State) (a : Nat) (bs : List Byte) : (s.hostWrite a bs).flash = s.flash := rfl
@[simp] theorem State.hostWrite_bootMem (s : State) (a : Nat) (bs : List Byte) : (s.hostWrite a bs).bootMem = s.bootMem := rfl
@[simp] theorem State.hostWrite_gal (s : State) (a : Nat) (bs : List Byte) : (s.hostWrite a bs).gal = s.gal := rfl
@[simp] theorem State.hostWrite_lnd (s : State) (a : Nat) (bs : List Byte) : (s.hostWrite a bs).lnd = s.lnd := rfl
@[simp] theorem State.hostWrite_que (s : State) (a : Nat) (bs : List Byte) : (s.hostWrite a bs).que = s.que := rfl
@[simp] theorem State.hostWrite_cle (s : State) (a : Nat) (bs : List Byte) : (s.hostWrite a bs).cle = s.cle := rfl
@[simp] theorem State.hostWrite_rue (s : State) (a : Nat) (bs : List Byte) : (s.hostWrite a bs).rue = s.rue := rfl
@[simp] theorem State.hostWrite_ports (s : State) (a : Nat) (bs : List Byte) : (s.hostWrite a bs).ports = s.ports := rfl
@[simp] theorem State.hostWrite_rte (s : State) (a : Nat) (bs : List Byte) : (s.hostWrite a bs).rte = s.rte := rfl
@[simp] theorem State.hostWrite_sched (s : State) (a : Nat) (bs : List Byte) : (s.hostWrite a bs).sched = s.sched := rfl
@[simp] theorem State.hostWrite_sec (s : State) (a : Nat) (bs : List Byte) : (s.hostWrite a bs).sec = s.sec := rfl
@[simp] theorem State.hostWrite_opt (s : State) (a : Nat) (bs : List Byte) : (s.hostWrite a bs).opt = s.opt := rfl
@[simp] theorem State.hostWrite_dfl (s : State) (a : Nat) (bs : List Byte) : (s.hostWrite a bs).dfl = s.dfl := rfl
@[simp] theorem State.hostWrite_boot (s : State) (a : Nat) (bs : List Byte) : (s.hostWrite a bs).boot = s.boot := rfl
@[simp] theorem State.hostWrite_life (s : State) (a : Nat) (bs : List Byte) : (s.hostWrite a bs).life = s.life := rfl
@[simp] theorem State.hostWrite_pins (s : State) (a : Nat) (bs : List Byte) : (s.hostWrite a bs).pins = s.pins := rfl
@[simp] theorem State.hostWrite_faults (s : State) (a : Nat) (bs : List Byte) : (s.hostWrite a bs).faults = s.faults := rfl
@[simp] theorem State.hostWrite_delivered (s : State) (a : Nat) (bs : List Byte) : (s.hostWrite a bs).delivered = s.delivered := rfl
@[simp] theorem State.hostWrite_reg (s : State) (a : Nat) (bs : List Byte) (a' : Nat) : (s.hostWrite a bs).reg a' = s.reg a' := rfl
@[simp] theorem State.hostWrite_sreg (s : State) (a : Nat) (bs : List Byte) (a' : Nat) : (s.hostWrite a bs).sreg a' = s.sreg a' := rfl
@[simp] theorem State.hostWrite_f (s : State) (a : Nat) (bs : List Byte) (a' lo' n' : Nat) : (s.hostWrite a bs).f a' lo' n' = s.f a' lo' n' := rfl
@[simp] theorem State.hostWrite_b (s : State) (a : Nat) (bs : List Byte) (a' lo' : Nat) : (s.hostWrite a bs).b a' lo' = s.b a' lo' := rfl
@[simp] theorem State.hostWrite_reg64 (s : State) (a : Nat) (bs : List Byte) (a' b' : Nat) : (s.hostWrite a bs).reg64 a' b' = s.reg64 a' b' := rfl
@[simp] theorem State.hostWrite_now (s : State) (a : Nat) (bs : List Byte) : (s.hostWrite a bs).now = s.now := rfl
@[simp] theorem State.hostWrite_mono (s : State) (a : Nat) (bs : List Byte) : (s.hostWrite a bs).mono = s.mono := rfl

/-! ### flashWrite -/
@[simp] theorem State.flashWrite_pending (s : State) (a : Nat) (bs : List Byte) : (s.flashWrite a bs).pending = s.pending := rfl
@[simp] theorem State.flashWrite_freeCtr (s : State) (a : Nat) (bs : List Byte) : (s.flashWrite a bs).freeCtr = s.freeCtr := rfl
@[simp] theorem State.flashWrite_outbox (s : State) (a : Nat) (bs : List Byte) : (s.flashWrite a bs).outbox = s.outbox := rfl
@[simp] theorem State.flashWrite_regs (s : State) (a : Nat) (bs : List Byte) : (s.flashWrite a bs).regs = s.regs := rfl
@[simp] theorem State.flashWrite_staged (s : State) (a : Nat) (bs : List Byte) : (s.flashWrite a bs).staged = s.staged := rfl
@[simp] theorem State.flashWrite_rlatch (s : State) (a : Nat) (bs : List Byte) : (s.flashWrite a bs).rlatch = s.rlatch := rfl
@[simp] theorem State.flashWrite_commits (s : State) (a : Nat) (bs : List Byte) : (s.flashWrite a bs).commits = s.commits := rfl
@[simp] theorem State.flashWrite_power (s : State) (a : Nat) (bs : List Byte) : (s.flashWrite a bs).power = s.power := rfl
@[simp] theorem State.flashWrite_time (s : State) (a : Nat) (bs : List Byte) : (s.flashWrite a bs).time = s.time := rfl
@[simp] theorem State.flashWrite_host (s : State) (a : Nat) (bs : List Byte) : (s.flashWrite a bs).host = s.host := rfl
@[simp] theorem State.flashWrite_log (s : State) (a : Nat) (bs : List Byte) : (s.flashWrite a bs).log = s.log := rfl
@[simp] theorem State.flashWrite_gallery (s : State) (a : Nat) (bs : List Byte) : (s.flashWrite a bs).gallery = s.gallery := rfl
@[simp] theorem State.flashWrite_bar4 (s : State) (a : Nat) (bs : List Byte) : (s.flashWrite a bs).bar4 = s.bar4 := rfl
@[simp] theorem State.flashWrite_hostMem (s : State) (a : Nat) (bs : List Byte) : (s.flashWrite a bs).hostMem = s.hostMem := rfl
@[simp] theorem State.flashWrite_bootMem (s : State) (a : Nat) (bs : List Byte) : (s.flashWrite a bs).bootMem = s.bootMem := rfl
@[simp] theorem State.flashWrite_gal (s : State) (a : Nat) (bs : List Byte) : (s.flashWrite a bs).gal = s.gal := rfl
@[simp] theorem State.flashWrite_lnd (s : State) (a : Nat) (bs : List Byte) : (s.flashWrite a bs).lnd = s.lnd := rfl
@[simp] theorem State.flashWrite_que (s : State) (a : Nat) (bs : List Byte) : (s.flashWrite a bs).que = s.que := rfl
@[simp] theorem State.flashWrite_cle (s : State) (a : Nat) (bs : List Byte) : (s.flashWrite a bs).cle = s.cle := rfl
@[simp] theorem State.flashWrite_rue (s : State) (a : Nat) (bs : List Byte) : (s.flashWrite a bs).rue = s.rue := rfl
@[simp] theorem State.flashWrite_ports (s : State) (a : Nat) (bs : List Byte) : (s.flashWrite a bs).ports = s.ports := rfl
@[simp] theorem State.flashWrite_rte (s : State) (a : Nat) (bs : List Byte) : (s.flashWrite a bs).rte = s.rte := rfl
@[simp] theorem State.flashWrite_sched (s : State) (a : Nat) (bs : List Byte) : (s.flashWrite a bs).sched = s.sched := rfl
@[simp] theorem State.flashWrite_sec (s : State) (a : Nat) (bs : List Byte) : (s.flashWrite a bs).sec = s.sec := rfl
@[simp] theorem State.flashWrite_opt (s : State) (a : Nat) (bs : List Byte) : (s.flashWrite a bs).opt = s.opt := rfl
@[simp] theorem State.flashWrite_dfl (s : State) (a : Nat) (bs : List Byte) : (s.flashWrite a bs).dfl = s.dfl := rfl
@[simp] theorem State.flashWrite_boot (s : State) (a : Nat) (bs : List Byte) : (s.flashWrite a bs).boot = s.boot := rfl
@[simp] theorem State.flashWrite_life (s : State) (a : Nat) (bs : List Byte) : (s.flashWrite a bs).life = s.life := rfl
@[simp] theorem State.flashWrite_pins (s : State) (a : Nat) (bs : List Byte) : (s.flashWrite a bs).pins = s.pins := rfl
@[simp] theorem State.flashWrite_faults (s : State) (a : Nat) (bs : List Byte) : (s.flashWrite a bs).faults = s.faults := rfl
@[simp] theorem State.flashWrite_delivered (s : State) (a : Nat) (bs : List Byte) : (s.flashWrite a bs).delivered = s.delivered := rfl
@[simp] theorem State.flashWrite_reg (s : State) (a : Nat) (bs : List Byte) (a' : Nat) : (s.flashWrite a bs).reg a' = s.reg a' := rfl
@[simp] theorem State.flashWrite_sreg (s : State) (a : Nat) (bs : List Byte) (a' : Nat) : (s.flashWrite a bs).sreg a' = s.sreg a' := rfl
@[simp] theorem State.flashWrite_f (s : State) (a : Nat) (bs : List Byte) (a' lo' n' : Nat) : (s.flashWrite a bs).f a' lo' n' = s.f a' lo' n' := rfl
@[simp] theorem State.flashWrite_b (s : State) (a : Nat) (bs : List Byte) (a' lo' : Nat) : (s.flashWrite a bs).b a' lo' = s.b a' lo' := rfl
@[simp] theorem State.flashWrite_reg64 (s : State) (a : Nat) (bs : List Byte) (a' b' : Nat) : (s.flashWrite a bs).reg64 a' b' = s.reg64 a' b' := rfl
@[simp] theorem State.flashWrite_now (s : State) (a : Nat) (bs : List Byte) : (s.flashWrite a bs).now = s.now := rfl
@[simp] theorem State.flashWrite_mono (s : State) (a : Nat) (bs : List Byte) : (s.flashWrite a bs).mono = s.mono := rfl

/-! ### bootWrite -/
@[simp] theorem State.bootWrite_pending (s : State) (a : Nat) (bs : List Byte) : (s.bootWrite a bs).pending = s.pending := rfl
@[simp] theorem State.bootWrite_freeCtr (s : State) (a : Nat) (bs : List Byte) : (s.bootWrite a bs).freeCtr = s.freeCtr := rfl
@[simp] theorem State.bootWrite_outbox (s : State) (a : Nat) (bs : List Byte) : (s.bootWrite a bs).outbox = s.outbox := rfl
@[simp] theorem State.bootWrite_regs (s : State) (a : Nat) (bs : List Byte) : (s.bootWrite a bs).regs = s.regs := rfl
@[simp] theorem State.bootWrite_staged (s : State) (a : Nat) (bs : List Byte) : (s.bootWrite a bs).staged = s.staged := rfl
@[simp] theorem State.bootWrite_rlatch (s : State) (a : Nat) (bs : List Byte) : (s.bootWrite a bs).rlatch = s.rlatch := rfl
@[simp] theorem State.bootWrite_commits (s : State) (a : Nat) (bs : List Byte) : (s.bootWrite a bs).commits = s.commits := rfl
@[simp] theorem State.bootWrite_power (s : State) (a : Nat) (bs : List Byte) : (s.bootWrite a bs).power = s.power := rfl
@[simp] theorem State.bootWrite_time (s : State) (a : Nat) (bs : List Byte) : (s.bootWrite a bs).time = s.time := rfl
@[simp] theorem State.bootWrite_host (s : State) (a : Nat) (bs : List Byte) : (s.bootWrite a bs).host = s.host := rfl
@[simp] theorem State.bootWrite_log (s : State) (a : Nat) (bs : List Byte) : (s.bootWrite a bs).log = s.log := rfl
@[simp] theorem State.bootWrite_gallery (s : State) (a : Nat) (bs : List Byte) : (s.bootWrite a bs).gallery = s.gallery := rfl
@[simp] theorem State.bootWrite_bar4 (s : State) (a : Nat) (bs : List Byte) : (s.bootWrite a bs).bar4 = s.bar4 := rfl
@[simp] theorem State.bootWrite_hostMem (s : State) (a : Nat) (bs : List Byte) : (s.bootWrite a bs).hostMem = s.hostMem := rfl
@[simp] theorem State.bootWrite_flash (s : State) (a : Nat) (bs : List Byte) : (s.bootWrite a bs).flash = s.flash := rfl
@[simp] theorem State.bootWrite_gal (s : State) (a : Nat) (bs : List Byte) : (s.bootWrite a bs).gal = s.gal := rfl
@[simp] theorem State.bootWrite_lnd (s : State) (a : Nat) (bs : List Byte) : (s.bootWrite a bs).lnd = s.lnd := rfl
@[simp] theorem State.bootWrite_que (s : State) (a : Nat) (bs : List Byte) : (s.bootWrite a bs).que = s.que := rfl
@[simp] theorem State.bootWrite_cle (s : State) (a : Nat) (bs : List Byte) : (s.bootWrite a bs).cle = s.cle := rfl
@[simp] theorem State.bootWrite_rue (s : State) (a : Nat) (bs : List Byte) : (s.bootWrite a bs).rue = s.rue := rfl
@[simp] theorem State.bootWrite_ports (s : State) (a : Nat) (bs : List Byte) : (s.bootWrite a bs).ports = s.ports := rfl
@[simp] theorem State.bootWrite_rte (s : State) (a : Nat) (bs : List Byte) : (s.bootWrite a bs).rte = s.rte := rfl
@[simp] theorem State.bootWrite_sched (s : State) (a : Nat) (bs : List Byte) : (s.bootWrite a bs).sched = s.sched := rfl
@[simp] theorem State.bootWrite_sec (s : State) (a : Nat) (bs : List Byte) : (s.bootWrite a bs).sec = s.sec := rfl
@[simp] theorem State.bootWrite_opt (s : State) (a : Nat) (bs : List Byte) : (s.bootWrite a bs).opt = s.opt := rfl
@[simp] theorem State.bootWrite_dfl (s : State) (a : Nat) (bs : List Byte) : (s.bootWrite a bs).dfl = s.dfl := rfl
@[simp] theorem State.bootWrite_boot (s : State) (a : Nat) (bs : List Byte) : (s.bootWrite a bs).boot = s.boot := rfl
@[simp] theorem State.bootWrite_life (s : State) (a : Nat) (bs : List Byte) : (s.bootWrite a bs).life = s.life := rfl
@[simp] theorem State.bootWrite_pins (s : State) (a : Nat) (bs : List Byte) : (s.bootWrite a bs).pins = s.pins := rfl
@[simp] theorem State.bootWrite_faults (s : State) (a : Nat) (bs : List Byte) : (s.bootWrite a bs).faults = s.faults := rfl
@[simp] theorem State.bootWrite_delivered (s : State) (a : Nat) (bs : List Byte) : (s.bootWrite a bs).delivered = s.delivered := rfl
@[simp] theorem State.bootWrite_reg (s : State) (a : Nat) (bs : List Byte) (a' : Nat) : (s.bootWrite a bs).reg a' = s.reg a' := rfl
@[simp] theorem State.bootWrite_sreg (s : State) (a : Nat) (bs : List Byte) (a' : Nat) : (s.bootWrite a bs).sreg a' = s.sreg a' := rfl
@[simp] theorem State.bootWrite_f (s : State) (a : Nat) (bs : List Byte) (a' lo' n' : Nat) : (s.bootWrite a bs).f a' lo' n' = s.f a' lo' n' := rfl
@[simp] theorem State.bootWrite_b (s : State) (a : Nat) (bs : List Byte) (a' lo' : Nat) : (s.bootWrite a bs).b a' lo' = s.b a' lo' := rfl
@[simp] theorem State.bootWrite_reg64 (s : State) (a : Nat) (bs : List Byte) (a' b' : Nat) : (s.bootWrite a bs).reg64 a' b' = s.reg64 a' b' := rfl
@[simp] theorem State.bootWrite_now (s : State) (a : Nat) (bs : List Byte) : (s.bootWrite a bs).now = s.now := rfl
@[simp] theorem State.bootWrite_mono (s : State) (a : Nat) (bs : List Byte) : (s.bootWrite a bs).mono = s.mono := rfl

/-! ### draw -/
@[simp] theorem State.draw_fst (s : State) : s.draw.1 = s.freeCtr := rfl
@[simp] theorem State.draw_freeCtr (s : State) : s.draw.2.freeCtr = s.freeCtr + 1 := rfl
@[simp] theorem State.draw_pending (s : State) : s.draw.2.pending = s.pending := rfl
@[simp] theorem State.draw_outbox (s : State) : s.draw.2.outbox = s.outbox := rfl
@[simp] theorem State.draw_regs (s : State) : s.draw.2.regs = s.regs := rfl
@[simp] theorem State.draw_staged (s : State) : s.draw.2.staged = s.staged := rfl
@[simp] theorem State.draw_rlatch (s : State) : s.draw.2.rlatch = s.rlatch := rfl
@[simp] theorem State.draw_commits (s : State) : s.draw.2.commits = s.commits := rfl
@[simp] theorem State.draw_power (s : State) : s.draw.2.power = s.power := rfl
@[simp] theorem State.draw_time (s : State) : s.draw.2.time = s.time := rfl
@[simp] theorem State.draw_host (s : State) : s.draw.2.host = s.host := rfl
@[simp] theorem State.draw_log (s : State) : s.draw.2.log = s.log := rfl
@[simp] theorem State.draw_gallery (s : State) : s.draw.2.gallery = s.gallery := rfl
@[simp] theorem State.draw_bar4 (s : State) : s.draw.2.bar4 = s.bar4 := rfl
@[simp] theorem State.draw_hostMem (s : State) : s.draw.2.hostMem = s.hostMem := rfl
@[simp] theorem State.draw_flash (s : State) : s.draw.2.flash = s.flash := rfl
@[simp] theorem State.draw_bootMem (s : State) : s.draw.2.bootMem = s.bootMem := rfl
@[simp] theorem State.draw_gal (s : State) : s.draw.2.gal = s.gal := rfl
@[simp] theorem State.draw_lnd (s : State) : s.draw.2.lnd = s.lnd := rfl
@[simp] theorem State.draw_que (s : State) : s.draw.2.que = s.que := rfl
@[simp] theorem State.draw_cle (s : State) : s.draw.2.cle = s.cle := rfl
@[simp] theorem State.draw_rue (s : State) : s.draw.2.rue = s.rue := rfl
@[simp] theorem State.draw_ports (s : State) : s.draw.2.ports = s.ports := rfl
@[simp] theorem State.draw_rte (s : State) : s.draw.2.rte = s.rte := rfl
@[simp] theorem State.draw_sched (s : State) : s.draw.2.sched = s.sched := rfl
@[simp] theorem State.draw_sec (s : State) : s.draw.2.sec = s.sec := rfl
@[simp] theorem State.draw_opt (s : State) : s.draw.2.opt = s.opt := rfl
@[simp] theorem State.draw_dfl (s : State) : s.draw.2.dfl = s.dfl := rfl
@[simp] theorem State.draw_boot (s : State) : s.draw.2.boot = s.boot := rfl
@[simp] theorem State.draw_life (s : State) : s.draw.2.life = s.life := rfl
@[simp] theorem State.draw_pins (s : State) : s.draw.2.pins = s.pins := rfl
@[simp] theorem State.draw_faults (s : State) : s.draw.2.faults = s.faults := rfl
@[simp] theorem State.draw_delivered (s : State) : s.draw.2.delivered = s.delivered := rfl
@[simp] theorem State.draw_reg (s : State) (a' : Nat) : s.draw.2.reg a' = s.reg a' := rfl
@[simp] theorem State.draw_sreg (s : State) (a' : Nat) : s.draw.2.sreg a' = s.sreg a' := rfl
@[simp] theorem State.draw_f (s : State) (a' lo' n' : Nat) : s.draw.2.f a' lo' n' = s.f a' lo' n' := rfl
@[simp] theorem State.draw_b (s : State) (a' lo' : Nat) : s.draw.2.b a' lo' = s.b a' lo' := rfl
@[simp] theorem State.draw_reg64 (s : State) (a' b' : Nat) : s.draw.2.reg64 a' b' = s.reg64 a' b' := rfl
@[simp] theorem State.draw_now (s : State) : s.draw.2.now = s.now := rfl
@[simp] theorem State.draw_mono (s : State) : s.draw.2.mono = s.mono := rfl

/-! ### Registers read after they are set -/

theorem State.reg_setReg (s : State) (a b : Nat) (v : Word) : (s.setReg a v).reg b = if b = a then v else s.reg b :=
  Sparse.get_put regReset s.regs a v b

theorem State.sreg_setSreg (s : State) (a b : Nat) (v : Word) : (s.setSreg a v).sreg b = if b = a then v else s.sreg b :=
  Sparse.get_put regReset s.staged a v b

@[simp] theorem State.reg_setReg_same (s : State) (a : Nat) (v : Word) : (s.setReg a v).reg a = v := by simp [State.reg_setReg]

theorem State.reg_setReg_ne (s : State) {a b : Nat} (v : Word) (h : b ≠ a) : (s.setReg a v).reg b = s.reg b := by
  simp [State.reg_setReg, h]

theorem State.f_setReg_ne (s : State) {a b : Nat} (v : Word) (lo n : Nat) (h : b ≠ a) : (s.setReg a v).f b lo n = s.f b lo n := by
  simp [State.f, State.reg_setReg, h]

theorem State.b_setReg_ne (s : State) {a b : Nat} (v : Word) (lo : Nat) (h : b ≠ a) : (s.setReg a v).b b lo = s.b b lo := by
  simp [State.b, State.reg_setReg, h]

theorem State.reg_setF (s : State) (a lo n v b : Nat) : (s.setF a lo n v).reg b = if b = a then setFld (s.reg a) lo n v else s.reg b :=
  State.reg_setReg s a b _

theorem State.f_setF_same (s : State) (a lo n v : Nat) (h : lo + n ≤ 32) : (s.setF a lo n v).f a lo n = v % 2 ^ n := by
  simp [State.f, State.reg_setF, fld_setFld_same _ _ _ _ h]

theorem State.f_setF_ne (s : State) (a lo n v b lo' n' : Nat) (h : lo + n ≤ 32) (hd : b ≠ a ∨ lo' + n' ≤ lo ∨ lo + n ≤ lo') :
    (s.setF a lo n v).f b lo' n' = s.f b lo' n' := by
  simp only [State.f, State.reg_setF]
  split
  · subst_vars
    exact fld_setFld_ne _ _ _ _ _ _ h (by simpa using hd)
  · rfl

theorem State.b_setF_ne (s : State) (a lo n v b i : Nat) (h : lo + n ≤ 32) (hd : b ≠ a ∨ i < lo ∨ lo + n ≤ i) :
    (s.setF a lo n v).b b i = s.b b i := by
  simp only [State.b, State.reg_setF]
  split
  · subst_vars
    exact bit_setFld_ne _ _ _ _ _ h (by simpa using hd)
  · rfl

theorem State.b_setB_same (s : State) (a lo : Nat) (v : Bool) (h : lo < 32) : (s.setB a lo v).b a lo = v := by
  simp [State.b, State.setB, State.reg_setF, bit_setFld_same _ _ _ h]

theorem State.b_setB_ne (s : State) (a lo b i : Nat) (v : Bool) (h : lo < 32) (hd : b ≠ a ∨ i ≠ lo) : (s.setB a lo v).b b i = s.b b i :=
  State.b_setF_ne s a lo 1 _ b i (by omega) (by omega)

theorem State.f_setB_ne (s : State) (a lo b lo' n' : Nat) (v : Bool) (h : lo < 32) (hd : b ≠ a ∨ lo' + n' ≤ lo ∨ lo < lo') :
    (s.setB a lo v).f b lo' n' = s.f b lo' n' :=
  State.f_setF_ne s a lo 1 _ b lo' n' (by omega) (by omega)

theorem State.reg_setB_ne (s : State) {a b : Nat} (lo : Nat) (v : Bool) (h : b ≠ a) : (s.setB a lo v).reg b = s.reg b := by
  simp [State.setB, State.reg_setF, h]

theorem State.reg_setF_ne (s : State) {a b : Nat} (lo n v : Nat) (h : b ≠ a) : (s.setF a lo n v).reg b = s.reg b := by
  simp [State.reg_setF, h]

theorem State.reg_bumpBy (s : State) (a n b : Nat) : (s.bumpBy a n).reg b =
    if b = a then BitVec.ofNat 32 (min 0xFFFFFFFF ((s.reg a).toNat + n)) else s.reg b := State.reg_setReg s a b _

/-- A counter that is bumped reads one more, and stops at 0xFFFF_FFFF. -/
@[simp] theorem State.reg_bump_same (s : State) (a : Nat) :
    (s.bump a).reg a = BitVec.ofNat 32 (min 0xFFFFFFFF ((s.reg a).toNat + 1)) := by simp [State.bump, State.reg_bumpBy]

theorem State.reg_bump_ne (s : State) {a b : Nat} (h : b ≠ a) : (s.bump a).reg b = s.reg b := by simp [State.bump, State.reg_bumpBy, h]

theorem State.f_bump_ne (s : State) {a b : Nat} (lo n : Nat) (h : b ≠ a) : (s.bump a).f b lo n = s.f b lo n := by
  simp [State.f, State.reg_bump_ne s h]

theorem State.b_bump_ne (s : State) {a b : Nat} (lo : Nat) (h : b ≠ a) : (s.bump a).b b lo = s.b b lo := by
  simp [State.b, State.reg_bump_ne s h]

/-! ### A condition chooses between two states -/

@[simp] theorem State.bumpIf_true (s : State) (a : Nat) : s.bumpIf true a = s.bump a := rfl
@[simp] theorem State.bumpIf_false (s : State) (a : Nat) : s.bumpIf false a = s := rfl
theorem State.onAccess_accepted {s : State} {a : Nat} (run : State → State) (h : s.accepts a = true) : s.onAccess a run = run s := by
  simp [State.onAccess, h]
theorem State.onAccess_refused {s : State} {a : Nat} (run : State → State) (h : s.accepts a = false) : s.onAccess a run = s := by
  simp [State.onAccess, h]

end Sys2Proof.Machine
end

