-- ==== Sys2Proof/Laws/Blocks.lean ====
section
/-! SUPPORT. What the operations that set one entry of a block leave as it was, one lemma for each field and operation, and what
the entry reads as afterwards. -/
namespace Sys2Proof.Machine

/-! ### setQueue -/
@[simp] theorem State.setQueue_pending (s : State) (q : Nat) (x : Queue) : (s.setQueue q x).pending = s.pending := rfl
@[simp] theorem State.setQueue_freeCtr (s : State) (q : Nat) (x : Queue) : (s.setQueue q x).freeCtr = s.freeCtr := rfl
@[simp] theorem State.setQueue_outbox (s : State) (q : Nat) (x : Queue) : (s.setQueue q x).outbox = s.outbox := rfl
@[simp] theorem State.setQueue_regs (s : State) (q : Nat) (x : Queue) : (s.setQueue q x).regs = s.regs := rfl
@[simp] theorem State.setQueue_staged (s : State) (q : Nat) (x : Queue) : (s.setQueue q x).staged = s.staged := rfl
@[simp] theorem State.setQueue_rlatch (s : State) (q : Nat) (x : Queue) : (s.setQueue q x).rlatch = s.rlatch := rfl
@[simp] theorem State.setQueue_commits (s : State) (q : Nat) (x : Queue) : (s.setQueue q x).commits = s.commits := rfl
@[simp] theorem State.setQueue_power (s : State) (q : Nat) (x : Queue) : (s.setQueue q x).power = s.power := rfl
@[simp] theorem State.setQueue_time (s : State) (q : Nat) (x : Queue) : (s.setQueue q x).time = s.time := rfl
@[simp] theorem State.setQueue_host (s : State) (q : Nat) (x : Queue) : (s.setQueue q x).host = s.host := rfl
@[simp] theorem State.setQueue_log (s : State) (q : Nat) (x : Queue) : (s.setQueue q x).log = s.log := rfl
@[simp] theorem State.setQueue_gallery (s : State) (q : Nat) (x : Queue) : (s.setQueue q x).gallery = s.gallery := rfl
@[simp] theorem State.setQueue_bar4 (s : State) (q : Nat) (x : Queue) : (s.setQueue q x).bar4 = s.bar4 := rfl
@[simp] theorem State.setQueue_hostMem (s : State) (q : Nat) (x : Queue) : (s.setQueue q x).hostMem = s.hostMem := rfl
@[simp] theorem State.setQueue_flash (s : State) (q : Nat) (x : Queue) : (s.setQueue q x).flash = s.flash := rfl
@[simp] theorem State.setQueue_bootMem (s : State) (q : Nat) (x : Queue) : (s.setQueue q x).bootMem = s.bootMem := rfl
@[simp] theorem State.setQueue_gal (s : State) (q : Nat) (x : Queue) : (s.setQueue q x).gal = s.gal := rfl
@[simp] theorem State.setQueue_lnd (s : State) (q : Nat) (x : Queue) : (s.setQueue q x).lnd = s.lnd := rfl
@[simp] theorem State.setQueue_cle (s : State) (q : Nat) (x : Queue) : (s.setQueue q x).cle = s.cle := rfl
@[simp] theorem State.setQueue_rue (s : State) (q : Nat) (x : Queue) : (s.setQueue q x).rue = s.rue := rfl
@[simp] theorem State.setQueue_ports (s : State) (q : Nat) (x : Queue) : (s.setQueue q x).ports = s.ports := rfl
@[simp] theorem State.setQueue_rte (s : State) (q : Nat) (x : Queue) : (s.setQueue q x).rte = s.rte := rfl
@[simp] theorem State.setQueue_sched (s : State) (q : Nat) (x : Queue) : (s.setQueue q x).sched = s.sched := rfl
@[simp] theorem State.setQueue_sec (s : State) (q : Nat) (x : Queue) : (s.setQueue q x).sec = s.sec := rfl
@[simp] theorem State.setQueue_opt (s : State) (q : Nat) (x : Queue) : (s.setQueue q x).opt = s.opt := rfl
@[simp] theorem State.setQueue_dfl (s : State) (q : Nat) (x : Queue) : (s.setQueue q x).dfl = s.dfl := rfl
@[simp] theorem State.setQueue_boot (s : State) (q : Nat) (x : Queue) : (s.setQueue q x).boot = s.boot := rfl
@[simp] theorem State.setQueue_life (s : State) (q : Nat) (x : Queue) : (s.setQueue q x).life = s.life := rfl
@[simp] theorem State.setQueue_pins (s : State) (q : Nat) (x : Queue) : (s.setQueue q x).pins = s.pins := rfl
@[simp] theorem State.setQueue_faults (s : State) (q : Nat) (x : Queue) : (s.setQueue q x).faults = s.faults := rfl
@[simp] theorem State.setQueue_delivered (s : State) (q : Nat) (x : Queue) : (s.setQueue q x).delivered = s.delivered := rfl
@[simp] theorem State.setQueue_reg (s : State) (q : Nat) (x : Queue) (a' : Nat) : (s.setQueue q x).reg a' = s.reg a' := rfl
@[simp] theorem State.setQueue_sreg (s : State) (q : Nat) (x : Queue) (a' : Nat) : (s.setQueue q x).sreg a' = s.sreg a' := rfl
@[simp] theorem State.setQueue_f (s : State) (q : Nat) (x : Queue) (a' lo' n' : Nat) : (s.setQueue q x).f a' lo' n' = s.f a' lo' n' := rfl
@[simp] theorem State.setQueue_b (s : State) (q : Nat) (x : Queue) (a' lo' : Nat) : (s.setQueue q x).b a' lo' = s.b a' lo' := rfl
@[simp] theorem State.setQueue_reg64 (s : State) (q : Nat) (x : Queue) (a' b' : Nat) : (s.setQueue q x).reg64 a' b' = s.reg64 a' b' := rfl
@[simp] theorem State.setQueue_now (s : State) (q : Nat) (x : Queue) : (s.setQueue q x).now = s.now := rfl
@[simp] theorem State.setQueue_mono (s : State) (q : Nat) (x : Queue) : (s.setQueue q x).mono = s.mono := rfl

/-! ### setInst -/
@[simp] theorem State.setInst_pending (s : State) (g : Nat) (x : Inst) : (s.setInst g x).pending = s.pending := rfl
@[simp] theorem State.setInst_freeCtr (s : State) (g : Nat) (x : Inst) : (s.setInst g x).freeCtr = s.freeCtr := rfl
@[simp] theorem State.setInst_outbox (s : State) (g : Nat) (x : Inst) : (s.setInst g x).outbox = s.outbox := rfl
@[simp] theorem State.setInst_regs (s : State) (g : Nat) (x : Inst) : (s.setInst g x).regs = s.regs := rfl
@[simp] theorem State.setInst_staged (s : State) (g : Nat) (x : Inst) : (s.setInst g x).staged = s.staged := rfl
@[simp] theorem State.setInst_rlatch (s : State) (g : Nat) (x : Inst) : (s.setInst g x).rlatch = s.rlatch := rfl
@[simp] theorem State.setInst_commits (s : State) (g : Nat) (x : Inst) : (s.setInst g x).commits = s.commits := rfl
@[simp] theorem State.setInst_power (s : State) (g : Nat) (x : Inst) : (s.setInst g x).power = s.power := rfl
@[simp] theorem State.setInst_time (s : State) (g : Nat) (x : Inst) : (s.setInst g x).time = s.time := rfl
@[simp] theorem State.setInst_host (s : State) (g : Nat) (x : Inst) : (s.setInst g x).host = s.host := rfl
@[simp] theorem State.setInst_log (s : State) (g : Nat) (x : Inst) : (s.setInst g x).log = s.log := rfl
@[simp] theorem State.setInst_gallery (s : State) (g : Nat) (x : Inst) : (s.setInst g x).gallery = s.gallery := rfl
@[simp] theorem State.setInst_bar4 (s : State) (g : Nat) (x : Inst) : (s.setInst g x).bar4 = s.bar4 := rfl
@[simp] theorem State.setInst_hostMem (s : State) (g : Nat) (x : Inst) : (s.setInst g x).hostMem = s.hostMem := rfl
@[simp] theorem State.setInst_flash (s : State) (g : Nat) (x : Inst) : (s.setInst g x).flash = s.flash := rfl
@[simp] theorem State.setInst_bootMem (s : State) (g : Nat) (x : Inst) : (s.setInst g x).bootMem = s.bootMem := rfl
@[simp] theorem State.setInst_gal (s : State) (g : Nat) (x : Inst) : (s.setInst g x).gal = s.gal := rfl
@[simp] theorem State.setInst_lnd (s : State) (g : Nat) (x : Inst) : (s.setInst g x).lnd = s.lnd := rfl
@[simp] theorem State.setInst_que (s : State) (g : Nat) (x : Inst) : (s.setInst g x).que = s.que := rfl
@[simp] theorem State.setInst_rue (s : State) (g : Nat) (x : Inst) : (s.setInst g x).rue = s.rue := rfl
@[simp] theorem State.setInst_ports (s : State) (g : Nat) (x : Inst) : (s.setInst g x).ports = s.ports := rfl
@[simp] theorem State.setInst_rte (s : State) (g : Nat) (x : Inst) : (s.setInst g x).rte = s.rte := rfl
@[simp] theorem State.setInst_sched (s : State) (g : Nat) (x : Inst) : (s.setInst g x).sched = s.sched := rfl
@[simp] theorem State.setInst_sec (s : State) (g : Nat) (x : Inst) : (s.setInst g x).sec = s.sec := rfl
@[simp] theorem State.setInst_opt (s : State) (g : Nat) (x : Inst) : (s.setInst g x).opt = s.opt := rfl
@[simp] theorem State.setInst_dfl (s : State) (g : Nat) (x : Inst) : (s.setInst g x).dfl = s.dfl := rfl
@[simp] theorem State.setInst_boot (s : State) (g : Nat) (x : Inst) : (s.setInst g x).boot = s.boot := rfl
@[simp] theorem State.setInst_life (s : State) (g : Nat) (x : Inst) : (s.setInst g x).life = s.life := rfl
@[simp] theorem State.setInst_pins (s : State) (g : Nat) (x : Inst) : (s.setInst g x).pins = s.pins := rfl
@[simp] theorem State.setInst_faults (s : State) (g : Nat) (x : Inst) : (s.setInst g x).faults = s.faults := rfl
@[simp] theorem State.setInst_delivered (s : State) (g : Nat) (x : Inst) : (s.setInst g x).delivered = s.delivered := rfl
@[simp] theorem State.setInst_reg (s : State) (g : Nat) (x : Inst) (a' : Nat) : (s.setInst g x).reg a' = s.reg a' := rfl
@[simp] theorem State.setInst_sreg (s : State) (g : Nat) (x : Inst) (a' : Nat) : (s.setInst g x).sreg a' = s.sreg a' := rfl
@[simp] theorem State.setInst_f (s : State) (g : Nat) (x : Inst) (a' lo' n' : Nat) : (s.setInst g x).f a' lo' n' = s.f a' lo' n' := rfl
@[simp] theorem State.setInst_b (s : State) (g : Nat) (x : Inst) (a' lo' : Nat) : (s.setInst g x).b a' lo' = s.b a' lo' := rfl
@[simp] theorem State.setInst_reg64 (s : State) (g : Nat) (x : Inst) (a' b' : Nat) : (s.setInst g x).reg64 a' b' = s.reg64 a' b' := rfl
@[simp] theorem State.setInst_now (s : State) (g : Nat) (x : Inst) : (s.setInst g x).now = s.now := rfl
@[simp] theorem State.setInst_mono (s : State) (g : Nat) (x : Inst) : (s.setInst g x).mono = s.mono := rfl

/-! ### setVstep -/
@[simp] theorem State.setVstep_pending (s : State) (x : Inst) : (s.setVstep x).pending = s.pending := rfl
@[simp] theorem State.setVstep_freeCtr (s : State) (x : Inst) : (s.setVstep x).freeCtr = s.freeCtr := rfl
@[simp] theorem State.setVstep_outbox (s : State) (x : Inst) : (s.setVstep x).outbox = s.outbox := rfl
@[simp] theorem State.setVstep_regs (s : State) (x : Inst) : (s.setVstep x).regs = s.regs := rfl
@[simp] theorem State.setVstep_staged (s : State) (x : Inst) : (s.setVstep x).staged = s.staged := rfl
@[simp] theorem State.setVstep_rlatch (s : State) (x : Inst) : (s.setVstep x).rlatch = s.rlatch := rfl
@[simp] theorem State.setVstep_commits (s : State) (x : Inst) : (s.setVstep x).commits = s.commits := rfl
@[simp] theorem State.setVstep_power (s : State) (x : Inst) : (s.setVstep x).power = s.power := rfl
@[simp] theorem State.setVstep_time (s : State) (x : Inst) : (s.setVstep x).time = s.time := rfl
@[simp] theorem State.setVstep_host (s : State) (x : Inst) : (s.setVstep x).host = s.host := rfl
@[simp] theorem State.setVstep_log (s : State) (x : Inst) : (s.setVstep x).log = s.log := rfl
@[simp] theorem State.setVstep_gallery (s : State) (x : Inst) : (s.setVstep x).gallery = s.gallery := rfl
@[simp] theorem State.setVstep_bar4 (s : State) (x : Inst) : (s.setVstep x).bar4 = s.bar4 := rfl
@[simp] theorem State.setVstep_hostMem (s : State) (x : Inst) : (s.setVstep x).hostMem = s.hostMem := rfl
@[simp] theorem State.setVstep_flash (s : State) (x : Inst) : (s.setVstep x).flash = s.flash := rfl
@[simp] theorem State.setVstep_bootMem (s : State) (x : Inst) : (s.setVstep x).bootMem = s.bootMem := rfl
@[simp] theorem State.setVstep_gal (s : State) (x : Inst) : (s.setVstep x).gal = s.gal := rfl
@[simp] theorem State.setVstep_lnd (s : State) (x : Inst) : (s.setVstep x).lnd = s.lnd := rfl
@[simp] theorem State.setVstep_que (s : State) (x : Inst) : (s.setVstep x).que = s.que := rfl
@[simp] theorem State.setVstep_rue (s : State) (x : Inst) : (s.setVstep x).rue = s.rue := rfl
@[simp] theorem State.setVstep_ports (s : State) (x : Inst) : (s.setVstep x).ports = s.ports := rfl
@[simp] theorem State.setVstep_rte (s : State) (x : Inst) : (s.setVstep x).rte = s.rte := rfl
@[simp] theorem State.setVstep_sched (s : State) (x : Inst) : (s.setVstep x).sched = s.sched := rfl
@[simp] theorem State.setVstep_sec (s : State) (x : Inst) : (s.setVstep x).sec = s.sec := rfl
@[simp] theorem State.setVstep_opt (s : State) (x : Inst) : (s.setVstep x).opt = s.opt := rfl
@[simp] theorem State.setVstep_dfl (s : State) (x : Inst) : (s.setVstep x).dfl = s.dfl := rfl
@[simp] theorem State.setVstep_boot (s : State) (x : Inst) : (s.setVstep x).boot = s.boot := rfl
@[simp] theorem State.setVstep_life (s : State) (x : Inst) : (s.setVstep x).life = s.life := rfl
@[simp] theorem State.setVstep_pins (s : State) (x : Inst) : (s.setVstep x).pins = s.pins := rfl
@[simp] theorem State.setVstep_faults (s : State) (x : Inst) : (s.setVstep x).faults = s.faults := rfl
@[simp] theorem State.setVstep_delivered (s : State) (x : Inst) : (s.setVstep x).delivered = s.delivered := rfl
@[simp] theorem State.setVstep_reg (s : State) (x : Inst) (a' : Nat) : (s.setVstep x).reg a' = s.reg a' := rfl
@[simp] theorem State.setVstep_sreg (s : State) (x : Inst) (a' : Nat) : (s.setVstep x).sreg a' = s.sreg a' := rfl
@[simp] theorem State.setVstep_f (s : State) (x : Inst) (a' lo' n' : Nat) : (s.setVstep x).f a' lo' n' = s.f a' lo' n' := rfl
@[simp] theorem State.setVstep_b (s : State) (x : Inst) (a' lo' : Nat) : (s.setVstep x).b a' lo' = s.b a' lo' := rfl
@[simp] theorem State.setVstep_reg64 (s : State) (x : Inst) (a' b' : Nat) : (s.setVstep x).reg64 a' b' = s.reg64 a' b' := rfl
@[simp] theorem State.setVstep_now (s : State) (x : Inst) : (s.setVstep x).now = s.now := rfl
@[simp] theorem State.setVstep_mono (s : State) (x : Inst) : (s.setVstep x).mono = s.mono := rfl

/-! ### setFib -/
@[simp] theorem State.setFib_pending (s : State) (f : Nat) (x : Fibre) : (s.setFib f x).pending = s.pending := rfl
@[simp] theorem State.setFib_freeCtr (s : State) (f : Nat) (x : Fibre) : (s.setFib f x).freeCtr = s.freeCtr := rfl
@[simp] theorem State.setFib_outbox (s : State) (f : Nat) (x : Fibre) : (s.setFib f x).outbox = s.outbox := rfl
@[simp] theorem State.setFib_regs (s : State) (f : Nat) (x : Fibre) : (s.setFib f x).regs = s.regs := rfl
@[simp] theorem State.setFib_staged (s : State) (f : Nat) (x : Fibre) : (s.setFib f x).staged = s.staged := rfl
@[simp] theorem State.setFib_rlatch (s : State) (f : Nat) (x : Fibre) : (s.setFib f x).rlatch = s.rlatch := rfl
@[simp] theorem State.setFib_commits (s : State) (f : Nat) (x : Fibre) : (s.setFib f x).commits = s.commits := rfl
@[simp] theorem State.setFib_power (s : State) (f : Nat) (x : Fibre) : (s.setFib f x).power = s.power := rfl
@[simp] theorem State.setFib_time (s : State) (f : Nat) (x : Fibre) : (s.setFib f x).time = s.time := rfl
@[simp] theorem State.setFib_host (s : State) (f : Nat) (x : Fibre) : (s.setFib f x).host = s.host := rfl
@[simp] theorem State.setFib_log (s : State) (f : Nat) (x : Fibre) : (s.setFib f x).log = s.log := rfl
@[simp] theorem State.setFib_gallery (s : State) (f : Nat) (x : Fibre) : (s.setFib f x).gallery = s.gallery := rfl
@[simp] theorem State.setFib_bar4 (s : State) (f : Nat) (x : Fibre) : (s.setFib f x).bar4 = s.bar4 := rfl
@[simp] theorem State.setFib_hostMem (s : State) (f : Nat) (x : Fibre) : (s.setFib f x).hostMem = s.hostMem := rfl
@[simp] theorem State.setFib_flash (s : State) (f : Nat) (x : Fibre) : (s.setFib f x).flash = s.flash := rfl
@[simp] theorem State.setFib_bootMem (s : State) (f : Nat) (x : Fibre) : (s.setFib f x).bootMem = s.bootMem := rfl
@[simp] theorem State.setFib_gal (s : State) (f : Nat) (x : Fibre) : (s.setFib f x).gal = s.gal := rfl
@[simp] theorem State.setFib_lnd (s : State) (f : Nat) (x : Fibre) : (s.setFib f x).lnd = s.lnd := rfl
@[simp] theorem State.setFib_que (s : State) (f : Nat) (x : Fibre) : (s.setFib f x).que = s.que := rfl
@[simp] theorem State.setFib_cle (s : State) (f : Nat) (x : Fibre) : (s.setFib f x).cle = s.cle := rfl
@[simp] theorem State.setFib_rue (s : State) (f : Nat) (x : Fibre) : (s.setFib f x).rue = s.rue := rfl
@[simp] theorem State.setFib_ports (s : State) (f : Nat) (x : Fibre) : (s.setFib f x).ports = s.ports := rfl
@[simp] theorem State.setFib_rte (s : State) (f : Nat) (x : Fibre) : (s.setFib f x).rte = s.rte := rfl
@[simp] theorem State.setFib_sched (s : State) (f : Nat) (x : Fibre) : (s.setFib f x).sched = s.sched := rfl
@[simp] theorem State.setFib_sec (s : State) (f : Nat) (x : Fibre) : (s.setFib f x).sec = s.sec := rfl
@[simp] theorem State.setFib_opt (s : State) (f : Nat) (x : Fibre) : (s.setFib f x).opt = s.opt := rfl
@[simp] theorem State.setFib_boot (s : State) (f : Nat) (x : Fibre) : (s.setFib f x).boot = s.boot := rfl
@[simp] theorem State.setFib_life (s : State) (f : Nat) (x : Fibre) : (s.setFib f x).life = s.life := rfl
@[simp] theorem State.setFib_pins (s : State) (f : Nat) (x : Fibre) : (s.setFib f x).pins = s.pins := rfl
@[simp] theorem State.setFib_faults (s : State) (f : Nat) (x : Fibre) : (s.setFib f x).faults = s.faults := rfl
@[simp] theorem State.setFib_delivered (s : State) (f : Nat) (x : Fibre) : (s.setFib f x).delivered = s.delivered := rfl
@[simp] theorem State.setFib_reg (s : State) (f : Nat) (x : Fibre) (a' : Nat) : (s.setFib f x).reg a' = s.reg a' := rfl
@[simp] theorem State.setFib_sreg (s : State) (f : Nat) (x : Fibre) (a' : Nat) : (s.setFib f x).sreg a' = s.sreg a' := rfl
@[simp] theorem State.setFib_f (s : State) (f : Nat) (x : Fibre) (a' lo' n' : Nat) : (s.setFib f x).f a' lo' n' = s.f a' lo' n' := rfl
@[simp] theorem State.setFib_b (s : State) (f : Nat) (x : Fibre) (a' lo' : Nat) : (s.setFib f x).b a' lo' = s.b a' lo' := rfl
@[simp] theorem State.setFib_reg64 (s : State) (f : Nat) (x : Fibre) (a' b' : Nat) : (s.setFib f x).reg64 a' b' = s.reg64 a' b' := rfl
@[simp] theorem State.setFib_now (s : State) (f : Nat) (x : Fibre) : (s.setFib f x).now = s.now := rfl
@[simp] theorem State.setFib_mono (s : State) (f : Nat) (x : Fibre) : (s.setFib f x).mono = s.mono := rfl

/-! ### setQuad -/
@[simp] theorem State.setQuad_pending (s : State) (q : Nat) (x : Quad) : (s.setQuad q x).pending = s.pending := rfl
@[simp] theorem State.setQuad_freeCtr (s : State) (q : Nat) (x : Quad) : (s.setQuad q x).freeCtr = s.freeCtr := rfl
@[simp] theorem State.setQuad_outbox (s : State) (q : Nat) (x : Quad) : (s.setQuad q x).outbox = s.outbox := rfl
@[simp] theorem State.setQuad_regs (s : State) (q : Nat) (x : Quad) : (s.setQuad q x).regs = s.regs := rfl
@[simp] theorem State.setQuad_staged (s : State) (q : Nat) (x : Quad) : (s.setQuad q x).staged = s.staged := rfl
@[simp] theorem State.setQuad_rlatch (s : State) (q : Nat) (x : Quad) : (s.setQuad q x).rlatch = s.rlatch := rfl
@[simp] theorem State.setQuad_commits (s : State) (q : Nat) (x : Quad) : (s.setQuad q x).commits = s.commits := rfl
@[simp] theorem State.setQuad_power (s : State) (q : Nat) (x : Quad) : (s.setQuad q x).power = s.power := rfl
@[simp] theorem State.setQuad_time (s : State) (q : Nat) (x : Quad) : (s.setQuad q x).time = s.time := rfl
@[simp] theorem State.setQuad_host (s : State) (q : Nat) (x : Quad) : (s.setQuad q x).host = s.host := rfl
@[simp] theorem State.setQuad_log (s : State) (q : Nat) (x : Quad) : (s.setQuad q x).log = s.log := rfl
@[simp] theorem State.setQuad_gallery (s : State) (q : Nat) (x : Quad) : (s.setQuad q x).gallery = s.gallery := rfl
@[simp] theorem State.setQuad_bar4 (s : State) (q : Nat) (x : Quad) : (s.setQuad q x).bar4 = s.bar4 := rfl
@[simp] theorem State.setQuad_hostMem (s : State) (q : Nat) (x : Quad) : (s.setQuad q x).hostMem = s.hostMem := rfl
@[simp] theorem State.setQuad_flash (s : State) (q : Nat) (x : Quad) : (s.setQuad q x).flash = s.flash := rfl
@[simp] theorem State.setQuad_bootMem (s : State) (q : Nat) (x : Quad) : (s.setQuad q x).bootMem = s.bootMem := rfl
@[simp] theorem State.setQuad_gal (s : State) (q : Nat) (x : Quad) : (s.setQuad q x).gal = s.gal := rfl
@[simp] theorem State.setQuad_lnd (s : State) (q : Nat) (x : Quad) : (s.setQuad q x).lnd = s.lnd := rfl
@[simp] theorem State.setQuad_que (s : State) (q : Nat) (x : Quad) : (s.setQuad q x).que = s.que := rfl
@[simp] theorem State.setQuad_cle (s : State) (q : Nat) (x : Quad) : (s.setQuad q x).cle = s.cle := rfl
@[simp] theorem State.setQuad_rue (s : State) (q : Nat) (x : Quad) : (s.setQuad q x).rue = s.rue := rfl
@[simp] theorem State.setQuad_ports (s : State) (q : Nat) (x : Quad) : (s.setQuad q x).ports = s.ports := rfl
@[simp] theorem State.setQuad_rte (s : State) (q : Nat) (x : Quad) : (s.setQuad q x).rte = s.rte := rfl
@[simp] theorem State.setQuad_sched (s : State) (q : Nat) (x : Quad) : (s.setQuad q x).sched = s.sched := rfl
@[simp] theorem State.setQuad_sec (s : State) (q : Nat) (x : Quad) : (s.setQuad q x).sec = s.sec := rfl
@[simp] theorem State.setQuad_dfl (s : State) (q : Nat) (x : Quad) : (s.setQuad q x).dfl = s.dfl := rfl
@[simp] theorem State.setQuad_boot (s : State) (q : Nat) (x : Quad) : (s.setQuad q x).boot = s.boot := rfl
@[simp] theorem State.setQuad_life (s : State) (q : Nat) (x : Quad) : (s.setQuad q x).life = s.life := rfl
@[simp] theorem State.setQuad_pins (s : State) (q : Nat) (x : Quad) : (s.setQuad q x).pins = s.pins := rfl
@[simp] theorem State.setQuad_faults (s : State) (q : Nat) (x : Quad) : (s.setQuad q x).faults = s.faults := rfl
@[simp] theorem State.setQuad_delivered (s : State) (q : Nat) (x : Quad) : (s.setQuad q x).delivered = s.delivered := rfl
@[simp] theorem State.setQuad_reg (s : State) (q : Nat) (x : Quad) (a' : Nat) : (s.setQuad q x).reg a' = s.reg a' := rfl
@[simp] theorem State.setQuad_sreg (s : State) (q : Nat) (x : Quad) (a' : Nat) : (s.setQuad q x).sreg a' = s.sreg a' := rfl
@[simp] theorem State.setQuad_f (s : State) (q : Nat) (x : Quad) (a' lo' n' : Nat) : (s.setQuad q x).f a' lo' n' = s.f a' lo' n' := rfl
@[simp] theorem State.setQuad_b (s : State) (q : Nat) (x : Quad) (a' lo' : Nat) : (s.setQuad q x).b a' lo' = s.b a' lo' := rfl
@[simp] theorem State.setQuad_reg64 (s : State) (q : Nat) (x : Quad) (a' b' : Nat) : (s.setQuad q x).reg64 a' b' = s.reg64 a' b' := rfl
@[simp] theorem State.setQuad_now (s : State) (q : Nat) (x : Quad) : (s.setQuad q x).now = s.now := rfl
@[simp] theorem State.setQuad_mono (s : State) (q : Nat) (x : Quad) : (s.setQuad q x).mono = s.mono := rfl

/-! ### setRing -/
@[simp] theorem State.setRing_pending (s : State) (q r : Nat) (x : Ring) : (s.setRing q r x).pending = s.pending := rfl
@[simp] theorem State.setRing_freeCtr (s : State) (q r : Nat) (x : Ring) : (s.setRing q r x).freeCtr = s.freeCtr := rfl
@[simp] theorem State.setRing_outbox (s : State) (q r : Nat) (x : Ring) : (s.setRing q r x).outbox = s.outbox := rfl
@[simp] theorem State.setRing_regs (s : State) (q r : Nat) (x : Ring) : (s.setRing q r x).regs = s.regs := rfl
@[simp] theorem State.setRing_staged (s : State) (q r : Nat) (x : Ring) : (s.setRing q r x).staged = s.staged := rfl
@[simp] theorem State.setRing_rlatch (s : State) (q r : Nat) (x : Ring) : (s.setRing q r x).rlatch = s.rlatch := rfl
@[simp] theorem State.setRing_commits (s : State) (q r : Nat) (x : Ring) : (s.setRing q r x).commits = s.commits := rfl
@[simp] theorem State.setRing_power (s : State) (q r : Nat) (x : Ring) : (s.setRing q r x).power = s.power := rfl
@[simp] theorem State.setRing_time (s : State) (q r : Nat) (x : Ring) : (s.setRing q r x).time = s.time := rfl
@[simp] theorem State.setRing_host (s : State) (q r : Nat) (x : Ring) : (s.setRing q r x).host = s.host := rfl
@[simp] theorem State.setRing_log (s : State) (q r : Nat) (x : Ring) : (s.setRing q r x).log = s.log := rfl
@[simp] theorem State.setRing_gallery (s : State) (q r : Nat) (x : Ring) : (s.setRing q r x).gallery = s.gallery := rfl
@[simp] theorem State.setRing_bar4 (s : State) (q r : Nat) (x : Ring) : (s.setRing q r x).bar4 = s.bar4 := rfl
@[simp] theorem State.setRing_hostMem (s : State) (q r : Nat) (x : Ring) : (s.setRing q r x).hostMem = s.hostMem := rfl
@[simp] theorem State.setRing_flash (s : State) (q r : Nat) (x : Ring) : (s.setRing q r x).flash = s.flash := rfl
@[simp] theorem State.setRing_bootMem (s : State) (q r : Nat) (x : Ring) : (s.setRing q r x).bootMem = s.bootMem := rfl
@[simp] theorem State.setRing_gal (s : State) (q r : Nat) (x : Ring) : (s.setRing q r x).gal = s.gal := rfl
@[simp] theorem State.setRing_lnd (s : State) (q r : Nat) (x : Ring) : (s.setRing q r x).lnd = s.lnd := rfl
@[simp] theorem State.setRing_que (s : State) (q r : Nat) (x : Ring) : (s.setRing q r x).que = s.que := rfl
@[simp] theorem State.setRing_cle (s : State) (q r : Nat) (x : Ring) : (s.setRing q r x).cle = s.cle := rfl
@[simp] theorem State.setRing_rue (s : State) (q r : Nat) (x : Ring) : (s.setRing q r x).rue = s.rue := rfl
@[simp] theorem State.setRing_ports (s : State) (q r : Nat) (x : Ring) : (s.setRing q r x).ports = s.ports := rfl
@[simp] theorem State.setRing_rte (s : State) (q r : Nat) (x : Ring) : (s.setRing q r x).rte = s.rte := rfl
@[simp] theorem State.setRing_sched (s : State) (q r : Nat) (x : Ring) : (s.setRing q r x).sched = s.sched := rfl
@[simp] theorem State.setRing_sec (s : State) (q r : Nat) (x : Ring) : (s.setRing q r x).sec = s.sec := rfl
@[simp] theorem State.setRing_dfl (s : State) (q r : Nat) (x : Ring) : (s.setRing q r x).dfl = s.dfl := rfl
@[simp] theorem State.setRing_boot (s : State) (q r : Nat) (x : Ring) : (s.setRing q r x).boot = s.boot := rfl
@[simp] theorem State.setRing_life (s : State) (q r : Nat) (x : Ring) : (s.setRing q r x).life = s.life := rfl
@[simp] theorem State.setRing_pins (s : State) (q r : Nat) (x : Ring) : (s.setRing q r x).pins = s.pins := rfl
@[simp] theorem State.setRing_faults (s : State) (q r : Nat) (x : Ring) : (s.setRing q r x).faults = s.faults := rfl
@[simp] theorem State.setRing_delivered (s : State) (q r : Nat) (x : Ring) : (s.setRing q r x).delivered = s.delivered := rfl
@[simp] theorem State.setRing_reg (s : State) (q r : Nat) (x : Ring) (a' : Nat) : (s.setRing q r x).reg a' = s.reg a' := rfl
@[simp] theorem State.setRing_sreg (s : State) (q r : Nat) (x : Ring) (a' : Nat) : (s.setRing q r x).sreg a' = s.sreg a' := rfl
@[simp] theorem State.setRing_f (s : State) (q r : Nat) (x : Ring) (a' lo' n' : Nat) : (s.setRing q r x).f a' lo' n' = s.f a' lo' n' := rfl
@[simp] theorem State.setRing_b (s : State) (q r : Nat) (x : Ring) (a' lo' : Nat) : (s.setRing q r x).b a' lo' = s.b a' lo' := rfl
@[simp] theorem State.setRing_reg64 (s : State) (q r : Nat) (x : Ring) (a' b' : Nat) : (s.setRing q r x).reg64 a' b' = s.reg64 a' b' := rfl
@[simp] theorem State.setRing_now (s : State) (q r : Nat) (x : Ring) : (s.setRing q r x).now = s.now := rfl
@[simp] theorem State.setRing_mono (s : State) (q r : Nat) (x : Ring) : (s.setRing q r x).mono = s.mono := rfl

/-! ### setSource -/
@[simp] theorem State.setSource_pending (s : State) (e : Nat) (x : Source) : (s.setSource e x).pending = s.pending := rfl
@[simp] theorem State.setSource_freeCtr (s : State) (e : Nat) (x : Source) : (s.setSource e x).freeCtr = s.freeCtr := rfl
@[simp] theorem State.setSource_outbox (s : State) (e : Nat) (x : Source) : (s.setSource e x).outbox = s.outbox := rfl
@[simp] theorem State.setSource_regs (s : State) (e : Nat) (x : Source) : (s.setSource e x).regs = s.regs := rfl
@[simp] theorem State.setSource_staged (s : State) (e : Nat) (x : Source) : (s.setSource e x).staged = s.staged := rfl
@[simp] theorem State.setSource_rlatch (s : State) (e : Nat) (x : Source) : (s.setSource e x).rlatch = s.rlatch := rfl
@[simp] theorem State.setSource_commits (s : State) (e : Nat) (x : Source) : (s.setSource e x).commits = s.commits := rfl
@[simp] theorem State.setSource_power (s : State) (e : Nat) (x : Source) : (s.setSource e x).power = s.power := rfl
@[simp] theorem State.setSource_time (s : State) (e : Nat) (x : Source) : (s.setSource e x).time = s.time := rfl
@[simp] theorem State.setSource_host (s : State) (e : Nat) (x : Source) : (s.setSource e x).host = s.host := rfl
@[simp] theorem State.setSource_log (s : State) (e : Nat) (x : Source) : (s.setSource e x).log = s.log := rfl
@[simp] theorem State.setSource_gallery (s : State) (e : Nat) (x : Source) : (s.setSource e x).gallery = s.gallery := rfl
@[simp] theorem State.setSource_bar4 (s : State) (e : Nat) (x : Source) : (s.setSource e x).bar4 = s.bar4 := rfl
@[simp] theorem State.setSource_hostMem (s : State) (e : Nat) (x : Source) : (s.setSource e x).hostMem = s.hostMem := rfl
@[simp] theorem State.setSource_flash (s : State) (e : Nat) (x : Source) : (s.setSource e x).flash = s.flash := rfl
@[simp] theorem State.setSource_bootMem (s : State) (e : Nat) (x : Source) : (s.setSource e x).bootMem = s.bootMem := rfl
@[simp] theorem State.setSource_gal (s : State) (e : Nat) (x : Source) : (s.setSource e x).gal = s.gal := rfl
@[simp] theorem State.setSource_lnd (s : State) (e : Nat) (x : Source) : (s.setSource e x).lnd = s.lnd := rfl
@[simp] theorem State.setSource_que (s : State) (e : Nat) (x : Source) : (s.setSource e x).que = s.que := rfl
@[simp] theorem State.setSource_cle (s : State) (e : Nat) (x : Source) : (s.setSource e x).cle = s.cle := rfl
@[simp] theorem State.setSource_rue (s : State) (e : Nat) (x : Source) : (s.setSource e x).rue = s.rue := rfl
@[simp] theorem State.setSource_ports (s : State) (e : Nat) (x : Source) : (s.setSource e x).ports = s.ports := rfl
@[simp] theorem State.setSource_rte (s : State) (e : Nat) (x : Source) : (s.setSource e x).rte = s.rte := rfl
@[simp] theorem State.setSource_sched (s : State) (e : Nat) (x : Source) : (s.setSource e x).sched = s.sched := rfl
@[simp] theorem State.setSource_sec (s : State) (e : Nat) (x : Source) : (s.setSource e x).sec = s.sec := rfl
@[simp] theorem State.setSource_dfl (s : State) (e : Nat) (x : Source) : (s.setSource e x).dfl = s.dfl := rfl
@[simp] theorem State.setSource_boot (s : State) (e : Nat) (x : Source) : (s.setSource e x).boot = s.boot := rfl
@[simp] theorem State.setSource_life (s : State) (e : Nat) (x : Source) : (s.setSource e x).life = s.life := rfl
@[simp] theorem State.setSource_pins (s : State) (e : Nat) (x : Source) : (s.setSource e x).pins = s.pins := rfl
@[simp] theorem State.setSource_faults (s : State) (e : Nat) (x : Source) : (s.setSource e x).faults = s.faults := rfl
@[simp] theorem State.setSource_delivered (s : State) (e : Nat) (x : Source) : (s.setSource e x).delivered = s.delivered := rfl
@[simp] theorem State.setSource_reg (s : State) (e : Nat) (x : Source) (a' : Nat) : (s.setSource e x).reg a' = s.reg a' := rfl
@[simp] theorem State.setSource_sreg (s : State) (e : Nat) (x : Source) (a' : Nat) : (s.setSource e x).sreg a' = s.sreg a' := rfl
@[simp] theorem State.setSource_f (s : State) (e : Nat) (x : Source) (a' lo' n' : Nat) : (s.setSource e x).f a' lo' n' = s.f a' lo' n' := rfl
@[simp] theorem State.setSource_b (s : State) (e : Nat) (x : Source) (a' lo' : Nat) : (s.setSource e x).b a' lo' = s.b a' lo' := rfl
@[simp] theorem State.setSource_reg64 (s : State) (e : Nat) (x : Source) (a' b' : Nat) : (s.setSource e x).reg64 a' b' = s.reg64 a' b' := rfl
@[simp] theorem State.setSource_now (s : State) (e : Nat) (x : Source) : (s.setSource e x).now = s.now := rfl
@[simp] theorem State.setSource_mono (s : State) (e : Nat) (x : Source) : (s.setSource e x).mono = s.mono := rfl

/-! ### setPort -/
@[simp] theorem State.setPort_pending (s : State) (p : Nat) (x : LinePort) : (s.setPort p x).pending = s.pending := rfl
@[simp] theorem State.setPort_freeCtr (s : State) (p : Nat) (x : LinePort) : (s.setPort p x).freeCtr = s.freeCtr := rfl
@[simp] theorem State.setPort_outbox (s : State) (p : Nat) (x : LinePort) : (s.setPort p x).outbox = s.outbox := rfl
@[simp] theorem State.setPort_regs (s : State) (p : Nat) (x : LinePort) : (s.setPort p x).regs = s.regs := rfl
@[simp] theorem State.setPort_staged (s : State) (p : Nat) (x : LinePort) : (s.setPort p x).staged = s.staged := rfl
@[simp] theorem State.setPort_rlatch (s : State) (p : Nat) (x : LinePort) : (s.setPort p x).rlatch = s.rlatch := rfl
@[simp] theorem State.setPort_commits (s : State) (p : Nat) (x : LinePort) : (s.setPort p x).commits = s.commits := rfl
@[simp] theorem State.setPort_power (s : State) (p : Nat) (x : LinePort) : (s.setPort p x).power = s.power := rfl
@[simp] theorem State.setPort_time (s : State) (p : Nat) (x : LinePort) : (s.setPort p x).time = s.time := rfl
@[simp] theorem State.setPort_host (s : State) (p : Nat) (x : LinePort) : (s.setPort p x).host = s.host := rfl
@[simp] theorem State.setPort_log (s : State) (p : Nat) (x : LinePort) : (s.setPort p x).log = s.log := rfl
@[simp] theorem State.setPort_gallery (s : State) (p : Nat) (x : LinePort) : (s.setPort p x).gallery = s.gallery := rfl
@[simp] theorem State.setPort_bar4 (s : State) (p : Nat) (x : LinePort) : (s.setPort p x).bar4 = s.bar4 := rfl
@[simp] theorem State.setPort_hostMem (s : State) (p : Nat) (x : LinePort) : (s.setPort p x).hostMem = s.hostMem := rfl
@[simp] theorem State.setPort_flash (s : State) (p : Nat) (x : LinePort) : (s.setPort p x).flash = s.flash := rfl
@[simp] theorem State.setPort_bootMem (s : State) (p : Nat) (x : LinePort) : (s.setPort p x).bootMem = s.bootMem := rfl
@[simp] theorem State.setPort_gal (s : State) (p : Nat) (x : LinePort) : (s.setPort p x).gal = s.gal := rfl
@[simp] theorem State.setPort_lnd (s : State) (p : Nat) (x : LinePort) : (s.setPort p x).lnd = s.lnd := rfl
@[simp] theorem State.setPort_que (s : State) (p : Nat) (x : LinePort) : (s.setPort p x).que = s.que := rfl
@[simp] theorem State.setPort_cle (s : State) (p : Nat) (x : LinePort) : (s.setPort p x).cle = s.cle := rfl
@[simp] theorem State.setPort_rue (s : State) (p : Nat) (x : LinePort) : (s.setPort p x).rue = s.rue := rfl
@[simp] theorem State.setPort_rte (s : State) (p : Nat) (x : LinePort) : (s.setPort p x).rte = s.rte := rfl
@[simp] theorem State.setPort_sched (s : State) (p : Nat) (x : LinePort) : (s.setPort p x).sched = s.sched := rfl
@[simp] theorem State.setPort_sec (s : State) (p : Nat) (x : LinePort) : (s.setPort p x).sec = s.sec := rfl
@[simp] theorem State.setPort_opt (s : State) (p : Nat) (x : LinePort) : (s.setPort p x).opt = s.opt := rfl
@[simp] theorem State.setPort_dfl (s : State) (p : Nat) (x : LinePort) : (s.setPort p x).dfl = s.dfl := rfl
@[simp] theorem State.setPort_boot (s : State) (p : Nat) (x : LinePort) : (s.setPort p x).boot = s.boot := rfl
@[simp] theorem State.setPort_life (s : State) (p : Nat) (x : LinePort) : (s.setPort p x).life = s.life := rfl
@[simp] theorem State.setPort_pins (s : State) (p : Nat) (x : LinePort) : (s.setPort p x).pins = s.pins := rfl
@[simp] theorem State.setPort_faults (s : State) (p : Nat) (x : LinePort) : (s.setPort p x).faults = s.faults := rfl
@[simp] theorem State.setPort_delivered (s : State) (p : Nat) (x : LinePort) : (s.setPort p x).delivered = s.delivered := rfl
@[simp] theorem State.setPort_reg (s : State) (p : Nat) (x : LinePort) (a' : Nat) : (s.setPort p x).reg a' = s.reg a' := rfl
@[simp] theorem State.setPort_sreg (s : State) (p : Nat) (x : LinePort) (a' : Nat) : (s.setPort p x).sreg a' = s.sreg a' := rfl
@[simp] theorem State.setPort_f (s : State) (p : Nat) (x : LinePort) (a' lo' n' : Nat) : (s.setPort p x).f a' lo' n' = s.f a' lo' n' := rfl
@[simp] theorem State.setPort_b (s : State) (p : Nat) (x : LinePort) (a' lo' : Nat) : (s.setPort p x).b a' lo' = s.b a' lo' := rfl
@[simp] theorem State.setPort_reg64 (s : State) (p : Nat) (x : LinePort) (a' b' : Nat) : (s.setPort p x).reg64 a' b' = s.reg64 a' b' := rfl
@[simp] theorem State.setPort_now (s : State) (p : Nat) (x : LinePort) : (s.setPort p x).now = s.now := rfl
@[simp] theorem State.setPort_mono (s : State) (p : Nat) (x : LinePort) : (s.setPort p x).mono = s.mono := rfl

/-! ### setSa -/
@[simp] theorem State.setSa_pending (s : State) (n : Nat) (x : SecAssoc) : (s.setSa n x).pending = s.pending := rfl
@[simp] theorem State.setSa_freeCtr (s : State) (n : Nat) (x : SecAssoc) : (s.setSa n x).freeCtr = s.freeCtr := rfl
@[simp] theorem State.setSa_outbox (s : State) (n : Nat) (x : SecAssoc) : (s.setSa n x).outbox = s.outbox := rfl
@[simp] theorem State.setSa_regs (s : State) (n : Nat) (x : SecAssoc) : (s.setSa n x).regs = s.regs := rfl
@[simp] theorem State.setSa_staged (s : State) (n : Nat) (x : SecAssoc) : (s.setSa n x).staged = s.staged := rfl
@[simp] theorem State.setSa_rlatch (s : State) (n : Nat) (x : SecAssoc) : (s.setSa n x).rlatch = s.rlatch := rfl
@[simp] theorem State.setSa_commits (s : State) (n : Nat) (x : SecAssoc) : (s.setSa n x).commits = s.commits := rfl
@[simp] theorem State.setSa_power (s : State) (n : Nat) (x : SecAssoc) : (s.setSa n x).power = s.power := rfl
@[simp] theorem State.setSa_time (s : State) (n : Nat) (x : SecAssoc) : (s.setSa n x).time = s.time := rfl
@[simp] theorem State.setSa_host (s : State) (n : Nat) (x : SecAssoc) : (s.setSa n x).host = s.host := rfl
@[simp] theorem State.setSa_log (s : State) (n : Nat) (x : SecAssoc) : (s.setSa n x).log = s.log := rfl
@[simp] theorem State.setSa_gallery (s : State) (n : Nat) (x : SecAssoc) : (s.setSa n x).gallery = s.gallery := rfl
@[simp] theorem State.setSa_bar4 (s : State) (n : Nat) (x : SecAssoc) : (s.setSa n x).bar4 = s.bar4 := rfl
@[simp] theorem State.setSa_hostMem (s : State) (n : Nat) (x : SecAssoc) : (s.setSa n x).hostMem = s.hostMem := rfl
@[simp] theorem State.setSa_flash (s : State) (n : Nat) (x : SecAssoc) : (s.setSa n x).flash = s.flash := rfl
@[simp] theorem State.setSa_bootMem (s : State) (n : Nat) (x : SecAssoc) : (s.setSa n x).bootMem = s.bootMem := rfl
@[simp] theorem State.setSa_gal (s : State) (n : Nat) (x : SecAssoc) : (s.setSa n x).gal = s.gal := rfl
@[simp] theorem State.setSa_lnd (s : State) (n : Nat) (x : SecAssoc) : (s.setSa n x).lnd = s.lnd := rfl
@[simp] theorem State.setSa_que (s : State) (n : Nat) (x : SecAssoc) : (s.setSa n x).que = s.que := rfl
@[simp] theorem State.setSa_cle (s : State) (n : Nat) (x : SecAssoc) : (s.setSa n x).cle = s.cle := rfl
@[simp] theorem State.setSa_rue (s : State) (n : Nat) (x : SecAssoc) : (s.setSa n x).rue = s.rue := rfl
@[simp] theorem State.setSa_ports (s : State) (n : Nat) (x : SecAssoc) : (s.setSa n x).ports = s.ports := rfl
@[simp] theorem State.setSa_rte (s : State) (n : Nat) (x : SecAssoc) : (s.setSa n x).rte = s.rte := rfl
@[simp] theorem State.setSa_sched (s : State) (n : Nat) (x : SecAssoc) : (s.setSa n x).sched = s.sched := rfl
@[simp] theorem State.setSa_opt (s : State) (n : Nat) (x : SecAssoc) : (s.setSa n x).opt = s.opt := rfl
@[simp] theorem State.setSa_dfl (s : State) (n : Nat) (x : SecAssoc) : (s.setSa n x).dfl = s.dfl := rfl
@[simp] theorem State.setSa_boot (s : State) (n : Nat) (x : SecAssoc) : (s.setSa n x).boot = s.boot := rfl
@[simp] theorem State.setSa_life (s : State) (n : Nat) (x : SecAssoc) : (s.setSa n x).life = s.life := rfl
@[simp] theorem State.setSa_pins (s : State) (n : Nat) (x : SecAssoc) : (s.setSa n x).pins = s.pins := rfl
@[simp] theorem State.setSa_faults (s : State) (n : Nat) (x : SecAssoc) : (s.setSa n x).faults = s.faults := rfl
@[simp] theorem State.setSa_delivered (s : State) (n : Nat) (x : SecAssoc) : (s.setSa n x).delivered = s.delivered := rfl
@[simp] theorem State.setSa_reg (s : State) (n : Nat) (x : SecAssoc) (a' : Nat) : (s.setSa n x).reg a' = s.reg a' := rfl
@[simp] theorem State.setSa_sreg (s : State) (n : Nat) (x : SecAssoc) (a' : Nat) : (s.setSa n x).sreg a' = s.sreg a' := rfl
@[simp] theorem State.setSa_f (s : State) (n : Nat) (x : SecAssoc) (a' lo' n' : Nat) : (s.setSa n x).f a' lo' n' = s.f a' lo' n' := rfl
@[simp] theorem State.setSa_b (s : State) (n : Nat) (x : SecAssoc) (a' lo' : Nat) : (s.setSa n x).b a' lo' = s.b a' lo' := rfl
@[simp] theorem State.setSa_reg64 (s : State) (n : Nat) (x : SecAssoc) (a' b' : Nat) : (s.setSa n x).reg64 a' b' = s.reg64 a' b' := rfl
@[simp] theorem State.setSa_now (s : State) (n : Nat) (x : SecAssoc) : (s.setSa n x).now = s.now := rfl
@[simp] theorem State.setSa_mono (s : State) (n : Nat) (x : SecAssoc) : (s.setSa n x).mono = s.mono := rfl

/-! ### setDelay -/
@[simp] theorem State.setDelay_pending (s : State) (n r : Nat) (x : RouteDelay) : (s.setDelay n r x).pending = s.pending := rfl
@[simp] theorem State.setDelay_freeCtr (s : State) (n r : Nat) (x : RouteDelay) : (s.setDelay n r x).freeCtr = s.freeCtr := rfl
@[simp] theorem State.setDelay_outbox (s : State) (n r : Nat) (x : RouteDelay) : (s.setDelay n r x).outbox = s.outbox := rfl
@[simp] theorem State.setDelay_regs (s : State) (n r : Nat) (x : RouteDelay) : (s.setDelay n r x).regs = s.regs := rfl
@[simp] theorem State.setDelay_staged (s : State) (n r : Nat) (x : RouteDelay) : (s.setDelay n r x).staged = s.staged := rfl
@[simp] theorem State.setDelay_rlatch (s : State) (n r : Nat) (x : RouteDelay) : (s.setDelay n r x).rlatch = s.rlatch := rfl
@[simp] theorem State.setDelay_commits (s : State) (n r : Nat) (x : RouteDelay) : (s.setDelay n r x).commits = s.commits := rfl
@[simp] theorem State.setDelay_power (s : State) (n r : Nat) (x : RouteDelay) : (s.setDelay n r x).power = s.power := rfl
@[simp] theorem State.setDelay_time (s : State) (n r : Nat) (x : RouteDelay) : (s.setDelay n r x).time = s.time := rfl
@[simp] theorem State.setDelay_host (s : State) (n r : Nat) (x : RouteDelay) : (s.setDelay n r x).host = s.host := rfl
@[simp] theorem State.setDelay_log (s : State) (n r : Nat) (x : RouteDelay) : (s.setDelay n r x).log = s.log := rfl
@[simp] theorem State.setDelay_gallery (s : State) (n r : Nat) (x : RouteDelay) : (s.setDelay n r x).gallery = s.gallery := rfl
@[simp] theorem State.setDelay_bar4 (s : State) (n r : Nat) (x : RouteDelay) : (s.setDelay n r x).bar4 = s.bar4 := rfl
@[simp] theorem State.setDelay_hostMem (s : State) (n r : Nat) (x : RouteDelay) : (s.setDelay n r x).hostMem = s.hostMem := rfl
@[simp] theorem State.setDelay_flash (s : State) (n r : Nat) (x : RouteDelay) : (s.setDelay n r x).flash = s.flash := rfl
@[simp] theorem State.setDelay_bootMem (s : State) (n r : Nat) (x : RouteDelay) : (s.setDelay n r x).bootMem = s.bootMem := rfl
@[simp] theorem State.setDelay_gal (s : State) (n r : Nat) (x : RouteDelay) : (s.setDelay n r x).gal = s.gal := rfl
@[simp] theorem State.setDelay_lnd (s : State) (n r : Nat) (x : RouteDelay) : (s.setDelay n r x).lnd = s.lnd := rfl
@[simp] theorem State.setDelay_que (s : State) (n r : Nat) (x : RouteDelay) : (s.setDelay n r x).que = s.que := rfl
@[simp] theorem State.setDelay_cle (s : State) (n r : Nat) (x : RouteDelay) : (s.setDelay n r x).cle = s.cle := rfl
@[simp] theorem State.setDelay_rue (s : State) (n r : Nat) (x : RouteDelay) : (s.setDelay n r x).rue = s.rue := rfl
@[simp] theorem State.setDelay_ports (s : State) (n r : Nat) (x : RouteDelay) : (s.setDelay n r x).ports = s.ports := rfl
@[simp] theorem State.setDelay_sched (s : State) (n r : Nat) (x : RouteDelay) : (s.setDelay n r x).sched = s.sched := rfl
@[simp] theorem State.setDelay_sec (s : State) (n r : Nat) (x : RouteDelay) : (s.setDelay n r x).sec = s.sec := rfl
@[simp] theorem State.setDelay_opt (s : State) (n r : Nat) (x : RouteDelay) : (s.setDelay n r x).opt = s.opt := rfl
@[simp] theorem State.setDelay_dfl (s : State) (n r : Nat) (x : RouteDelay) : (s.setDelay n r x).dfl = s.dfl := rfl
@[simp] theorem State.setDelay_boot (s : State) (n r : Nat) (x : RouteDelay) : (s.setDelay n r x).boot = s.boot := rfl
@[simp] theorem State.setDelay_life (s : State) (n r : Nat) (x : RouteDelay) : (s.setDelay n r x).life = s.life := rfl
@[simp] theorem State.setDelay_pins (s : State) (n r : Nat) (x : RouteDelay) : (s.setDelay n r x).pins = s.pins := rfl
@[simp] theorem State.setDelay_faults (s : State) (n r : Nat) (x : RouteDelay) : (s.setDelay n r x).faults = s.faults := rfl
@[simp] theorem State.setDelay_delivered (s : State) (n r : Nat) (x : RouteDelay) : (s.setDelay n r x).delivered = s.delivered := rfl
@[simp] theorem State.setDelay_reg (s : State) (n r : Nat) (x : RouteDelay) (a' : Nat) : (s.setDelay n r x).reg a' = s.reg a' := rfl
@[simp] theorem State.setDelay_sreg (s : State) (n r : Nat) (x : RouteDelay) (a' : Nat) : (s.setDelay n r x).sreg a' = s.sreg a' := rfl
@[simp] theorem State.setDelay_f (s : State) (n r : Nat) (x : RouteDelay) (a' lo' n' : Nat) : (s.setDelay n r x).f a' lo' n' = s.f a' lo' n' := rfl
@[simp] theorem State.setDelay_b (s : State) (n r : Nat) (x : RouteDelay) (a' lo' : Nat) : (s.setDelay n r x).b a' lo' = s.b a' lo' := rfl
@[simp] theorem State.setDelay_reg64 (s : State) (n r : Nat) (x : RouteDelay) (a' b' : Nat) : (s.setDelay n r x).reg64 a' b' = s.reg64 a' b' := rfl
@[simp] theorem State.setDelay_now (s : State) (n r : Nat) (x : RouteDelay) : (s.setDelay n r x).now = s.now := rfl
@[simp] theorem State.setDelay_mono (s : State) (n r : Nat) (x : RouteDelay) : (s.setDelay n r x).mono = s.mono := rfl

/-! ### setTx -/
@[simp] theorem State.setTx_pending (s : State) (k : Nat) (x : TxStream) : (s.setTx k x).pending = s.pending := rfl
@[simp] theorem State.setTx_freeCtr (s : State) (k : Nat) (x : TxStream) : (s.setTx k x).freeCtr = s.freeCtr := rfl
@[simp] theorem State.setTx_outbox (s : State) (k : Nat) (x : TxStream) : (s.setTx k x).outbox = s.outbox := rfl
@[simp] theorem State.setTx_regs (s : State) (k : Nat) (x : TxStream) : (s.setTx k x).regs = s.regs := rfl
@[simp] theorem State.setTx_staged (s : State) (k : Nat) (x : TxStream) : (s.setTx k x).staged = s.staged := rfl
@[simp] theorem State.setTx_rlatch (s : State) (k : Nat) (x : TxStream) : (s.setTx k x).rlatch = s.rlatch := rfl
@[simp] theorem State.setTx_commits (s : State) (k : Nat) (x : TxStream) : (s.setTx k x).commits = s.commits := rfl
@[simp] theorem State.setTx_power (s : State) (k : Nat) (x : TxStream) : (s.setTx k x).power = s.power := rfl
@[simp] theorem State.setTx_time (s : State) (k : Nat) (x : TxStream) : (s.setTx k x).time = s.time := rfl
@[simp] theorem State.setTx_host (s : State) (k : Nat) (x : TxStream) : (s.setTx k x).host = s.host := rfl
@[simp] theorem State.setTx_log (s : State) (k : Nat) (x : TxStream) : (s.setTx k x).log = s.log := rfl
@[simp] theorem State.setTx_gallery (s : State) (k : Nat) (x : TxStream) : (s.setTx k x).gallery = s.gallery := rfl
@[simp] theorem State.setTx_bar4 (s : State) (k : Nat) (x : TxStream) : (s.setTx k x).bar4 = s.bar4 := rfl
@[simp] theorem State.setTx_hostMem (s : State) (k : Nat) (x : TxStream) : (s.setTx k x).hostMem = s.hostMem := rfl
@[simp] theorem State.setTx_flash (s : State) (k : Nat) (x : TxStream) : (s.setTx k x).flash = s.flash := rfl
@[simp] theorem State.setTx_bootMem (s : State) (k : Nat) (x : TxStream) : (s.setTx k x).bootMem = s.bootMem := rfl
@[simp] theorem State.setTx_gal (s : State) (k : Nat) (x : TxStream) : (s.setTx k x).gal = s.gal := rfl
@[simp] theorem State.setTx_lnd (s : State) (k : Nat) (x : TxStream) : (s.setTx k x).lnd = s.lnd := rfl
@[simp] theorem State.setTx_que (s : State) (k : Nat) (x : TxStream) : (s.setTx k x).que = s.que := rfl
@[simp] theorem State.setTx_cle (s : State) (k : Nat) (x : TxStream) : (s.setTx k x).cle = s.cle := rfl
@[simp] theorem State.setTx_rue (s : State) (k : Nat) (x : TxStream) : (s.setTx k x).rue = s.rue := rfl
@[simp] theorem State.setTx_ports (s : State) (k : Nat) (x : TxStream) : (s.setTx k x).ports = s.ports := rfl
@[simp] theorem State.setTx_sched (s : State) (k : Nat) (x : TxStream) : (s.setTx k x).sched = s.sched := rfl
@[simp] theorem State.setTx_sec (s : State) (k : Nat) (x : TxStream) : (s.setTx k x).sec = s.sec := rfl
@[simp] theorem State.setTx_opt (s : State) (k : Nat) (x : TxStream) : (s.setTx k x).opt = s.opt := rfl
@[simp] theorem State.setTx_dfl (s : State) (k : Nat) (x : TxStream) : (s.setTx k x).dfl = s.dfl := rfl
@[simp] theorem State.setTx_boot (s : State) (k : Nat) (x : TxStream) : (s.setTx k x).boot = s.boot := rfl
@[simp] theorem State.setTx_life (s : State) (k : Nat) (x : TxStream) : (s.setTx k x).life = s.life := rfl
@[simp] theorem State.setTx_pins (s : State) (k : Nat) (x : TxStream) : (s.setTx k x).pins = s.pins := rfl
@[simp] theorem State.setTx_faults (s : State) (k : Nat) (x : TxStream) : (s.setTx k x).faults = s.faults := rfl
@[simp] theorem State.setTx_delivered (s : State) (k : Nat) (x : TxStream) : (s.setTx k x).delivered = s.delivered := rfl
@[simp] theorem State.setTx_reg (s : State) (k : Nat) (x : TxStream) (a' : Nat) : (s.setTx k x).reg a' = s.reg a' := rfl
@[simp] theorem State.setTx_sreg (s : State) (k : Nat) (x : TxStream) (a' : Nat) : (s.setTx k x).sreg a' = s.sreg a' := rfl
@[simp] theorem State.setTx_f (s : State) (k : Nat) (x : TxStream) (a' lo' n' : Nat) : (s.setTx k x).f a' lo' n' = s.f a' lo' n' := rfl
@[simp] theorem State.setTx_b (s : State) (k : Nat) (x : TxStream) (a' lo' : Nat) : (s.setTx k x).b a' lo' = s.b a' lo' := rfl
@[simp] theorem State.setTx_reg64 (s : State) (k : Nat) (x : TxStream) (a' b' : Nat) : (s.setTx k x).reg64 a' b' = s.reg64 a' b' := rfl
@[simp] theorem State.setTx_now (s : State) (k : Nat) (x : TxStream) : (s.setTx k x).now = s.now := rfl
@[simp] theorem State.setTx_mono (s : State) (k : Nat) (x : TxStream) : (s.setTx k x).mono = s.mono := rfl

/-! ### setRx -/
@[simp] theorem State.setRx_pending (s : State) (k : Nat) (x : RxStream) : (s.setRx k x).pending = s.pending := rfl
@[simp] theorem State.setRx_freeCtr (s : State) (k : Nat) (x : RxStream) : (s.setRx k x).freeCtr = s.freeCtr := rfl
@[simp] theorem State.setRx_outbox (s : State) (k : Nat) (x : RxStream) : (s.setRx k x).outbox = s.outbox := rfl
@[simp] theorem State.setRx_regs (s : State) (k : Nat) (x : RxStream) : (s.setRx k x).regs = s.regs := rfl
@[simp] theorem State.setRx_staged (s : State) (k : Nat) (x : RxStream) : (s.setRx k x).staged = s.staged := rfl
@[simp] theorem State.setRx_rlatch (s : State) (k : Nat) (x : RxStream) : (s.setRx k x).rlatch = s.rlatch := rfl
@[simp] theorem State.setRx_commits (s : State) (k : Nat) (x : RxStream) : (s.setRx k x).commits = s.commits := rfl
@[simp] theorem State.setRx_power (s : State) (k : Nat) (x : RxStream) : (s.setRx k x).power = s.power := rfl
@[simp] theorem State.setRx_time (s : State) (k : Nat) (x : RxStream) : (s.setRx k x).time = s.time := rfl
@[simp] theorem State.setRx_host (s : State) (k : Nat) (x : RxStream) : (s.setRx k x).host = s.host := rfl
@[simp] theorem State.setRx_log (s : State) (k : Nat) (x : RxStream) : (s.setRx k x).log = s.log := rfl
@[simp] theorem State.setRx_gallery (s : State) (k : Nat) (x : RxStream) : (s.setRx k x).gallery = s.gallery := rfl
@[simp] theorem State.setRx_bar4 (s : State) (k : Nat) (x : RxStream) : (s.setRx k x).bar4 = s.bar4 := rfl
@[simp] theorem State.setRx_hostMem (s : State) (k : Nat) (x : RxStream) : (s.setRx k x).hostMem = s.hostMem := rfl
@[simp] theorem State.setRx_flash (s : State) (k : Nat) (x : RxStream) : (s.setRx k x).flash = s.flash := rfl
@[simp] theorem State.setRx_bootMem (s : State) (k : Nat) (x : RxStream) : (s.setRx k x).bootMem = s.bootMem := rfl
@[simp] theorem State.setRx_gal (s : State) (k : Nat) (x : RxStream) : (s.setRx k x).gal = s.gal := rfl
@[simp] theorem State.setRx_lnd (s : State) (k : Nat) (x : RxStream) : (s.setRx k x).lnd = s.lnd := rfl
@[simp] theorem State.setRx_que (s : State) (k : Nat) (x : RxStream) : (s.setRx k x).que = s.que := rfl
@[simp] theorem State.setRx_cle (s : State) (k : Nat) (x : RxStream) : (s.setRx k x).cle = s.cle := rfl
@[simp] theorem State.setRx_rue (s : State) (k : Nat) (x : RxStream) : (s.setRx k x).rue = s.rue := rfl
@[simp] theorem State.setRx_ports (s : State) (k : Nat) (x : RxStream) : (s.setRx k x).ports = s.ports := rfl
@[simp] theorem State.setRx_sched (s : State) (k : Nat) (x : RxStream) : (s.setRx k x).sched = s.sched := rfl
@[simp] theorem State.setRx_sec (s : State) (k : Nat) (x : RxStream) : (s.setRx k x).sec = s.sec := rfl
@[simp] theorem State.setRx_opt (s : State) (k : Nat) (x : RxStream) : (s.setRx k x).opt = s.opt := rfl
@[simp] theorem State.setRx_dfl (s : State) (k : Nat) (x : RxStream) : (s.setRx k x).dfl = s.dfl := rfl
@[simp] theorem State.setRx_boot (s : State) (k : Nat) (x : RxStream) : (s.setRx k x).boot = s.boot := rfl
@[simp] theorem State.setRx_life (s : State) (k : Nat) (x : RxStream) : (s.setRx k x).life = s.life := rfl
@[simp] theorem State.setRx_pins (s : State) (k : Nat) (x : RxStream) : (s.setRx k x).pins = s.pins := rfl
@[simp] theorem State.setRx_faults (s : State) (k : Nat) (x : RxStream) : (s.setRx k x).faults = s.faults := rfl
@[simp] theorem State.setRx_delivered (s : State) (k : Nat) (x : RxStream) : (s.setRx k x).delivered = s.delivered := rfl
@[simp] theorem State.setRx_reg (s : State) (k : Nat) (x : RxStream) (a' : Nat) : (s.setRx k x).reg a' = s.reg a' := rfl
@[simp] theorem State.setRx_sreg (s : State) (k : Nat) (x : RxStream) (a' : Nat) : (s.setRx k x).sreg a' = s.sreg a' := rfl
@[simp] theorem State.setRx_f (s : State) (k : Nat) (x : RxStream) (a' lo' n' : Nat) : (s.setRx k x).f a' lo' n' = s.f a' lo' n' := rfl
@[simp] theorem State.setRx_b (s : State) (k : Nat) (x : RxStream) (a' lo' : Nat) : (s.setRx k x).b a' lo' = s.b a' lo' := rfl
@[simp] theorem State.setRx_reg64 (s : State) (k : Nat) (x : RxStream) (a' b' : Nat) : (s.setRx k x).reg64 a' b' = s.reg64 a' b' := rfl
@[simp] theorem State.setRx_now (s : State) (k : Nat) (x : RxStream) : (s.setRx k x).now = s.now := rfl
@[simp] theorem State.setRx_mono (s : State) (k : Nat) (x : RxStream) : (s.setRx k x).mono = s.mono := rfl

/-! ### setStripe -/
@[simp] theorem State.setStripe_pending (s : State) (x : Stripe) : (s.setStripe x).pending = s.pending := rfl
@[simp] theorem State.setStripe_freeCtr (s : State) (x : Stripe) : (s.setStripe x).freeCtr = s.freeCtr := rfl
@[simp] theorem State.setStripe_outbox (s : State) (x : Stripe) : (s.setStripe x).outbox = s.outbox := rfl
@[simp] theorem State.setStripe_regs (s : State) (x : Stripe) : (s.setStripe x).regs = s.regs := rfl
@[simp] theorem State.setStripe_staged (s : State) (x : Stripe) : (s.setStripe x).staged = s.staged := rfl
@[simp] theorem State.setStripe_rlatch (s : State) (x : Stripe) : (s.setStripe x).rlatch = s.rlatch := rfl
@[simp] theorem State.setStripe_commits (s : State) (x : Stripe) : (s.setStripe x).commits = s.commits := rfl
@[simp] theorem State.setStripe_power (s : State) (x : Stripe) : (s.setStripe x).power = s.power := rfl
@[simp] theorem State.setStripe_time (s : State) (x : Stripe) : (s.setStripe x).time = s.time := rfl
@[simp] theorem State.setStripe_host (s : State) (x : Stripe) : (s.setStripe x).host = s.host := rfl
@[simp] theorem State.setStripe_log (s : State) (x : Stripe) : (s.setStripe x).log = s.log := rfl
@[simp] theorem State.setStripe_gallery (s : State) (x : Stripe) : (s.setStripe x).gallery = s.gallery := rfl
@[simp] theorem State.setStripe_bar4 (s : State) (x : Stripe) : (s.setStripe x).bar4 = s.bar4 := rfl
@[simp] theorem State.setStripe_hostMem (s : State) (x : Stripe) : (s.setStripe x).hostMem = s.hostMem := rfl
@[simp] theorem State.setStripe_flash (s : State) (x : Stripe) : (s.setStripe x).flash = s.flash := rfl
@[simp] theorem State.setStripe_bootMem (s : State) (x : Stripe) : (s.setStripe x).bootMem = s.bootMem := rfl
@[simp] theorem State.setStripe_gal (s : State) (x : Stripe) : (s.setStripe x).gal = s.gal := rfl
@[simp] theorem State.setStripe_lnd (s : State) (x : Stripe) : (s.setStripe x).lnd = s.lnd := rfl
@[simp] theorem State.setStripe_que (s : State) (x : Stripe) : (s.setStripe x).que = s.que := rfl
@[simp] theorem State.setStripe_cle (s : State) (x : Stripe) : (s.setStripe x).cle = s.cle := rfl
@[simp] theorem State.setStripe_rue (s : State) (x : Stripe) : (s.setStripe x).rue = s.rue := rfl
@[simp] theorem State.setStripe_ports (s : State) (x : Stripe) : (s.setStripe x).ports = s.ports := rfl
@[simp] theorem State.setStripe_sched (s : State) (x : Stripe) : (s.setStripe x).sched = s.sched := rfl
@[simp] theorem State.setStripe_sec (s : State) (x : Stripe) : (s.setStripe x).sec = s.sec := rfl
@[simp] theorem State.setStripe_opt (s : State) (x : Stripe) : (s.setStripe x).opt = s.opt := rfl
@[simp] theorem State.setStripe_dfl (s : State) (x : Stripe) : (s.setStripe x).dfl = s.dfl := rfl
@[simp] theorem State.setStripe_boot (s : State) (x : Stripe) : (s.setStripe x).boot = s.boot := rfl
@[simp] theorem State.setStripe_life (s : State) (x : Stripe) : (s.setStripe x).life = s.life := rfl
@[simp] theorem State.setStripe_pins (s : State) (x : Stripe) : (s.setStripe x).pins = s.pins := rfl
@[simp] theorem State.setStripe_faults (s : State) (x : Stripe) : (s.setStripe x).faults = s.faults := rfl
@[simp] theorem State.setStripe_delivered (s : State) (x : Stripe) : (s.setStripe x).delivered = s.delivered := rfl
@[simp] theorem State.setStripe_reg (s : State) (x : Stripe) (a' : Nat) : (s.setStripe x).reg a' = s.reg a' := rfl
@[simp] theorem State.setStripe_sreg (s : State) (x : Stripe) (a' : Nat) : (s.setStripe x).sreg a' = s.sreg a' := rfl
@[simp] theorem State.setStripe_f (s : State) (x : Stripe) (a' lo' n' : Nat) : (s.setStripe x).f a' lo' n' = s.f a' lo' n' := rfl
@[simp] theorem State.setStripe_b (s : State) (x : Stripe) (a' lo' : Nat) : (s.setStripe x).b a' lo' = s.b a' lo' := rfl
@[simp] theorem State.setStripe_reg64 (s : State) (x : Stripe) (a' b' : Nat) : (s.setStripe x).reg64 a' b' = s.reg64 a' b' := rfl
@[simp] theorem State.setStripe_now (s : State) (x : Stripe) : (s.setStripe x).now = s.now := rfl
@[simp] theorem State.setStripe_mono (s : State) (x : Stripe) : (s.setStripe x).mono = s.mono := rfl

/-! ### setWfq -/
@[simp] theorem State.setWfq_pending (s : State) (r q : Nat) (w : Wfq ShardCell) : (s.setWfq r q w).pending = s.pending := rfl
@[simp] theorem State.setWfq_freeCtr (s : State) (r q : Nat) (w : Wfq ShardCell) : (s.setWfq r q w).freeCtr = s.freeCtr := rfl
@[simp] theorem State.setWfq_outbox (s : State) (r q : Nat) (w : Wfq ShardCell) : (s.setWfq r q w).outbox = s.outbox := rfl
@[simp] theorem State.setWfq_regs (s : State) (r q : Nat) (w : Wfq ShardCell) : (s.setWfq r q w).regs = s.regs := rfl
@[simp] theorem State.setWfq_staged (s : State) (r q : Nat) (w : Wfq ShardCell) : (s.setWfq r q w).staged = s.staged := rfl
@[simp] theorem State.setWfq_rlatch (s : State) (r q : Nat) (w : Wfq ShardCell) : (s.setWfq r q w).rlatch = s.rlatch := rfl
@[simp] theorem State.setWfq_commits (s : State) (r q : Nat) (w : Wfq ShardCell) : (s.setWfq r q w).commits = s.commits := rfl
@[simp] theorem State.setWfq_power (s : State) (r q : Nat) (w : Wfq ShardCell) : (s.setWfq r q w).power = s.power := rfl
@[simp] theorem State.setWfq_time (s : State) (r q : Nat) (w : Wfq ShardCell) : (s.setWfq r q w).time = s.time := rfl
@[simp] theorem State.setWfq_host (s : State) (r q : Nat) (w : Wfq ShardCell) : (s.setWfq r q w).host = s.host := rfl
@[simp] theorem State.setWfq_log (s : State) (r q : Nat) (w : Wfq ShardCell) : (s.setWfq r q w).log = s.log := rfl
@[simp] theorem State.setWfq_gallery (s : State) (r q : Nat) (w : Wfq ShardCell) : (s.setWfq r q w).gallery = s.gallery := rfl
@[simp] theorem State.setWfq_bar4 (s : State) (r q : Nat) (w : Wfq ShardCell) : (s.setWfq r q w).bar4 = s.bar4 := rfl
@[simp] theorem State.setWfq_hostMem (s : State) (r q : Nat) (w : Wfq ShardCell) : (s.setWfq r q w).hostMem = s.hostMem := rfl
@[simp] theorem State.setWfq_flash (s : State) (r q : Nat) (w : Wfq ShardCell) : (s.setWfq r q w).flash = s.flash := rfl
@[simp] theorem State.setWfq_bootMem (s : State) (r q : Nat) (w : Wfq ShardCell) : (s.setWfq r q w).bootMem = s.bootMem := rfl
@[simp] theorem State.setWfq_gal (s : State) (r q : Nat) (w : Wfq ShardCell) : (s.setWfq r q w).gal = s.gal := rfl
@[simp] theorem State.setWfq_lnd (s : State) (r q : Nat) (w : Wfq ShardCell) : (s.setWfq r q w).lnd = s.lnd := rfl
@[simp] theorem State.setWfq_que (s : State) (r q : Nat) (w : Wfq ShardCell) : (s.setWfq r q w).que = s.que := rfl
@[simp] theorem State.setWfq_cle (s : State) (r q : Nat) (w : Wfq ShardCell) : (s.setWfq r q w).cle = s.cle := rfl
@[simp] theorem State.setWfq_rue (s : State) (r q : Nat) (w : Wfq ShardCell) : (s.setWfq r q w).rue = s.rue := rfl
@[simp] theorem State.setWfq_ports (s : State) (r q : Nat) (w : Wfq ShardCell) : (s.setWfq r q w).ports = s.ports := rfl
@[simp] theorem State.setWfq_rte (s : State) (r q : Nat) (w : Wfq ShardCell) : (s.setWfq r q w).rte = s.rte := rfl
@[simp] theorem State.setWfq_sec (s : State) (r q : Nat) (w : Wfq ShardCell) : (s.setWfq r q w).sec = s.sec := rfl
@[simp] theorem State.setWfq_opt (s : State) (r q : Nat) (w : Wfq ShardCell) : (s.setWfq r q w).opt = s.opt := rfl
@[simp] theorem State.setWfq_dfl (s : State) (r q : Nat) (w : Wfq ShardCell) : (s.setWfq r q w).dfl = s.dfl := rfl
@[simp] theorem State.setWfq_boot (s : State) (r q : Nat) (w : Wfq ShardCell) : (s.setWfq r q w).boot = s.boot := rfl
@[simp] theorem State.setWfq_life (s : State) (r q : Nat) (w : Wfq ShardCell) : (s.setWfq r q w).life = s.life := rfl
@[simp] theorem State.setWfq_pins (s : State) (r q : Nat) (w : Wfq ShardCell) : (s.setWfq r q w).pins = s.pins := rfl
@[simp] theorem State.setWfq_faults (s : State) (r q : Nat) (w : Wfq ShardCell) : (s.setWfq r q w).faults = s.faults := rfl
@[simp] theorem State.setWfq_delivered (s : State) (r q : Nat) (w : Wfq ShardCell) : (s.setWfq r q w).delivered = s.delivered := rfl
@[simp] theorem State.setWfq_reg (s : State) (r q : Nat) (w : Wfq ShardCell) (a' : Nat) : (s.setWfq r q w).reg a' = s.reg a' := rfl
@[simp] theorem State.setWfq_sreg (s : State) (r q : Nat) (w : Wfq ShardCell) (a' : Nat) : (s.setWfq r q w).sreg a' = s.sreg a' := rfl
@[simp] theorem State.setWfq_f (s : State) (r q : Nat) (w : Wfq ShardCell) (a' lo' n' : Nat) : (s.setWfq r q w).f a' lo' n' = s.f a' lo' n' := rfl
@[simp] theorem State.setWfq_b (s : State) (r q : Nat) (w : Wfq ShardCell) (a' lo' : Nat) : (s.setWfq r q w).b a' lo' = s.b a' lo' := rfl
@[simp] theorem State.setWfq_reg64 (s : State) (r q : Nat) (w : Wfq ShardCell) (a' b' : Nat) : (s.setWfq r q w).reg64 a' b' = s.reg64 a' b' := rfl
@[simp] theorem State.setWfq_now (s : State) (r q : Nat) (w : Wfq ShardCell) : (s.setWfq r q w).now = s.now := rfl
@[simp] theorem State.setWfq_mono (s : State) (r q : Nat) (w : Wfq ShardCell) : (s.setWfq r q w).mono = s.mono := rfl

/-! ### setQstat -/
@[simp] theorem State.setQstat_pending (s : State) (k : Nat) (x : QStat) : (s.setQstat k x).pending = s.pending := rfl
@[simp] theorem State.setQstat_freeCtr (s : State) (k : Nat) (x : QStat) : (s.setQstat k x).freeCtr = s.freeCtr := rfl
@[simp] theorem State.setQstat_outbox (s : State) (k : Nat) (x : QStat) : (s.setQstat k x).outbox = s.outbox := rfl
@[simp] theorem State.setQstat_regs (s : State) (k : Nat) (x : QStat) : (s.setQstat k x).regs = s.regs := rfl
@[simp] theorem State.setQstat_staged (s : State) (k : Nat) (x : QStat) : (s.setQstat k x).staged = s.staged := rfl
@[simp] theorem State.setQstat_rlatch (s : State) (k : Nat) (x : QStat) : (s.setQstat k x).rlatch = s.rlatch := rfl
@[simp] theorem State.setQstat_commits (s : State) (k : Nat) (x : QStat) : (s.setQstat k x).commits = s.commits := rfl
@[simp] theorem State.setQstat_power (s : State) (k : Nat) (x : QStat) : (s.setQstat k x).power = s.power := rfl
@[simp] theorem State.setQstat_time (s : State) (k : Nat) (x : QStat) : (s.setQstat k x).time = s.time := rfl
@[simp] theorem State.setQstat_host (s : State) (k : Nat) (x : QStat) : (s.setQstat k x).host = s.host := rfl
@[simp] theorem State.setQstat_log (s : State) (k : Nat) (x : QStat) : (s.setQstat k x).log = s.log := rfl
@[simp] theorem State.setQstat_gallery (s : State) (k : Nat) (x : QStat) : (s.setQstat k x).gallery = s.gallery := rfl
@[simp] theorem State.setQstat_bar4 (s : State) (k : Nat) (x : QStat) : (s.setQstat k x).bar4 = s.bar4 := rfl
@[simp] theorem State.setQstat_hostMem (s : State) (k : Nat) (x : QStat) : (s.setQstat k x).hostMem = s.hostMem := rfl
@[simp] theorem State.setQstat_flash (s : State) (k : Nat) (x : QStat) : (s.setQstat k x).flash = s.flash := rfl
@[simp] theorem State.setQstat_bootMem (s : State) (k : Nat) (x : QStat) : (s.setQstat k x).bootMem = s.bootMem := rfl
@[simp] theorem State.setQstat_gal (s : State) (k : Nat) (x : QStat) : (s.setQstat k x).gal = s.gal := rfl
@[simp] theorem State.setQstat_lnd (s : State) (k : Nat) (x : QStat) : (s.setQstat k x).lnd = s.lnd := rfl
@[simp] theorem State.setQstat_que (s : State) (k : Nat) (x : QStat) : (s.setQstat k x).que = s.que := rfl
@[simp] theorem State.setQstat_cle (s : State) (k : Nat) (x : QStat) : (s.setQstat k x).cle = s.cle := rfl
@[simp] theorem State.setQstat_rue (s : State) (k : Nat) (x : QStat) : (s.setQstat k x).rue = s.rue := rfl
@[simp] theorem State.setQstat_ports (s : State) (k : Nat) (x : QStat) : (s.setQstat k x).ports = s.ports := rfl
@[simp] theorem State.setQstat_rte (s : State) (k : Nat) (x : QStat) : (s.setQstat k x).rte = s.rte := rfl
@[simp] theorem State.setQstat_sec (s : State) (k : Nat) (x : QStat) : (s.setQstat k x).sec = s.sec := rfl
@[simp] theorem State.setQstat_opt (s : State) (k : Nat) (x : QStat) : (s.setQstat k x).opt = s.opt := rfl
@[simp] theorem State.setQstat_dfl (s : State) (k : Nat) (x : QStat) : (s.setQstat k x).dfl = s.dfl := rfl
@[simp] theorem State.setQstat_boot (s : State) (k : Nat) (x : QStat) : (s.setQstat k x).boot = s.boot := rfl
@[simp] theorem State.setQstat_life (s : State) (k : Nat) (x : QStat) : (s.setQstat k x).life = s.life := rfl
@[simp] theorem State.setQstat_pins (s : State) (k : Nat) (x : QStat) : (s.setQstat k x).pins = s.pins := rfl
@[simp] theorem State.setQstat_faults (s : State) (k : Nat) (x : QStat) : (s.setQstat k x).faults = s.faults := rfl
@[simp] theorem State.setQstat_delivered (s : State) (k : Nat) (x : QStat) : (s.setQstat k x).delivered = s.delivered := rfl
@[simp] theorem State.setQstat_reg (s : State) (k : Nat) (x : QStat) (a' : Nat) : (s.setQstat k x).reg a' = s.reg a' := rfl
@[simp] theorem State.setQstat_sreg (s : State) (k : Nat) (x : QStat) (a' : Nat) : (s.setQstat k x).sreg a' = s.sreg a' := rfl
@[simp] theorem State.setQstat_f (s : State) (k : Nat) (x : QStat) (a' lo' n' : Nat) : (s.setQstat k x).f a' lo' n' = s.f a' lo' n' := rfl
@[simp] theorem State.setQstat_b (s : State) (k : Nat) (x : QStat) (a' lo' : Nat) : (s.setQstat k x).b a' lo' = s.b a' lo' := rfl
@[simp] theorem State.setQstat_reg64 (s : State) (k : Nat) (x : QStat) (a' b' : Nat) : (s.setQstat k x).reg64 a' b' = s.reg64 a' b' := rfl
@[simp] theorem State.setQstat_now (s : State) (k : Nat) (x : QStat) : (s.setQstat k x).now = s.now := rfl
@[simp] theorem State.setQstat_mono (s : State) (k : Nat) (x : QStat) : (s.setQstat k x).mono = s.mono := rfl

/-! ### setOcc -/
@[simp] theorem State.setOcc_pending (s : State) (n : Nat) (x : PhaseOcc) : (s.setOcc n x).pending = s.pending := rfl
@[simp] theorem State.setOcc_freeCtr (s : State) (n : Nat) (x : PhaseOcc) : (s.setOcc n x).freeCtr = s.freeCtr := rfl
@[simp] theorem State.setOcc_outbox (s : State) (n : Nat) (x : PhaseOcc) : (s.setOcc n x).outbox = s.outbox := rfl
@[simp] theorem State.setOcc_regs (s : State) (n : Nat) (x : PhaseOcc) : (s.setOcc n x).regs = s.regs := rfl
@[simp] theorem State.setOcc_staged (s : State) (n : Nat) (x : PhaseOcc) : (s.setOcc n x).staged = s.staged := rfl
@[simp] theorem State.setOcc_rlatch (s : State) (n : Nat) (x : PhaseOcc) : (s.setOcc n x).rlatch = s.rlatch := rfl
@[simp] theorem State.setOcc_commits (s : State) (n : Nat) (x : PhaseOcc) : (s.setOcc n x).commits = s.commits := rfl
@[simp] theorem State.setOcc_time (s : State) (n : Nat) (x : PhaseOcc) : (s.setOcc n x).time = s.time := rfl
@[simp] theorem State.setOcc_host (s : State) (n : Nat) (x : PhaseOcc) : (s.setOcc n x).host = s.host := rfl
@[simp] theorem State.setOcc_log (s : State) (n : Nat) (x : PhaseOcc) : (s.setOcc n x).log = s.log := rfl
@[simp] theorem State.setOcc_gallery (s : State) (n : Nat) (x : PhaseOcc) : (s.setOcc n x).gallery = s.gallery := rfl
@[simp] theorem State.setOcc_bar4 (s : State) (n : Nat) (x : PhaseOcc) : (s.setOcc n x).bar4 = s.bar4 := rfl
@[simp] theorem State.setOcc_hostMem (s : State) (n : Nat) (x : PhaseOcc) : (s.setOcc n x).hostMem = s.hostMem := rfl
@[simp] theorem State.setOcc_flash (s : State) (n : Nat) (x : PhaseOcc) : (s.setOcc n x).flash = s.flash := rfl
@[simp] theorem State.setOcc_bootMem (s : State) (n : Nat) (x : PhaseOcc) : (s.setOcc n x).bootMem = s.bootMem := rfl
@[simp] theorem State.setOcc_gal (s : State) (n : Nat) (x : PhaseOcc) : (s.setOcc n x).gal = s.gal := rfl
@[simp] theorem State.setOcc_lnd (s : State) (n : Nat) (x : PhaseOcc) : (s.setOcc n x).lnd = s.lnd := rfl
@[simp] theorem State.setOcc_que (s : State) (n : Nat) (x : PhaseOcc) : (s.setOcc n x).que = s.que := rfl
@[simp] theorem State.setOcc_cle (s : State) (n : Nat) (x : PhaseOcc) : (s.setOcc n x).cle = s.cle := rfl
@[simp] theorem State.setOcc_rue (s : State) (n : Nat) (x : PhaseOcc) : (s.setOcc n x).rue = s.rue := rfl
@[simp] theorem State.setOcc_ports (s : State) (n : Nat) (x : PhaseOcc) : (s.setOcc n x).ports = s.ports := rfl
@[simp] theorem State.setOcc_rte (s : State) (n : Nat) (x : PhaseOcc) : (s.setOcc n x).rte = s.rte := rfl
@[simp] theorem State.setOcc_sched (s : State) (n : Nat) (x : PhaseOcc) : (s.setOcc n x).sched = s.sched := rfl
@[simp] theorem State.setOcc_sec (s : State) (n : Nat) (x : PhaseOcc) : (s.setOcc n x).sec = s.sec := rfl
@[simp] theorem State.setOcc_opt (s : State) (n : Nat) (x : PhaseOcc) : (s.setOcc n x).opt = s.opt := rfl
@[simp] theorem State.setOcc_dfl (s : State) (n : Nat) (x : PhaseOcc) : (s.setOcc n x).dfl = s.dfl := rfl
@[simp] theorem State.setOcc_boot (s : State) (n : Nat) (x : PhaseOcc) : (s.setOcc n x).boot = s.boot := rfl
@[simp] theorem State.setOcc_life (s : State) (n : Nat) (x : PhaseOcc) : (s.setOcc n x).life = s.life := rfl
@[simp] theorem State.setOcc_pins (s : State) (n : Nat) (x : PhaseOcc) : (s.setOcc n x).pins = s.pins := rfl
@[simp] theorem State.setOcc_faults (s : State) (n : Nat) (x : PhaseOcc) : (s.setOcc n x).faults = s.faults := rfl
@[simp] theorem State.setOcc_delivered (s : State) (n : Nat) (x : PhaseOcc) : (s.setOcc n x).delivered = s.delivered := rfl
@[simp] theorem State.setOcc_reg (s : State) (n : Nat) (x : PhaseOcc) (a' : Nat) : (s.setOcc n x).reg a' = s.reg a' := rfl
@[simp] theorem State.setOcc_sreg (s : State) (n : Nat) (x : PhaseOcc) (a' : Nat) : (s.setOcc n x).sreg a' = s.sreg a' := rfl
@[simp] theorem State.setOcc_f (s : State) (n : Nat) (x : PhaseOcc) (a' lo' n' : Nat) : (s.setOcc n x).f a' lo' n' = s.f a' lo' n' := rfl
@[simp] theorem State.setOcc_b (s : State) (n : Nat) (x : PhaseOcc) (a' lo' : Nat) : (s.setOcc n x).b a' lo' = s.b a' lo' := rfl
@[simp] theorem State.setOcc_reg64 (s : State) (n : Nat) (x : PhaseOcc) (a' b' : Nat) : (s.setOcc n x).reg64 a' b' = s.reg64 a' b' := rfl
@[simp] theorem State.setOcc_now (s : State) (n : Nat) (x : PhaseOcc) : (s.setOcc n x).now = s.now := rfl
@[simp] theorem State.setOcc_mono (s : State) (n : Nat) (x : PhaseOcc) : (s.setOcc n x).mono = s.mono := rfl

/-! ### setCommit -/
@[simp] theorem State.setCommit_pending (s : State) (k : Block) (c : Commit) : (s.setCommit k c).pending = s.pending := rfl
@[simp] theorem State.setCommit_freeCtr (s : State) (k : Block) (c : Commit) : (s.setCommit k c).freeCtr = s.freeCtr := rfl
@[simp] theorem State.setCommit_outbox (s : State) (k : Block) (c : Commit) : (s.setCommit k c).outbox = s.outbox := rfl
@[simp] theorem State.setCommit_regs (s : State) (k : Block) (c : Commit) : (s.setCommit k c).regs = s.regs := rfl
@[simp] theorem State.setCommit_staged (s : State) (k : Block) (c : Commit) : (s.setCommit k c).staged = s.staged := rfl
@[simp] theorem State.setCommit_rlatch (s : State) (k : Block) (c : Commit) : (s.setCommit k c).rlatch = s.rlatch := rfl
@[simp] theorem State.setCommit_power (s : State) (k : Block) (c : Commit) : (s.setCommit k c).power = s.power := rfl
@[simp] theorem State.setCommit_time (s : State) (k : Block) (c : Commit) : (s.setCommit k c).time = s.time := rfl
@[simp] theorem State.setCommit_host (s : State) (k : Block) (c : Commit) : (s.setCommit k c).host = s.host := rfl
@[simp] theorem State.setCommit_log (s : State) (k : Block) (c : Commit) : (s.setCommit k c).log = s.log := rfl
@[simp] theorem State.setCommit_gallery (s : State) (k : Block) (c : Commit) : (s.setCommit k c).gallery = s.gallery := rfl
@[simp] theorem State.setCommit_bar4 (s : State) (k : Block) (c : Commit) : (s.setCommit k c).bar4 = s.bar4 := rfl
@[simp] theorem State.setCommit_hostMem (s : State) (k : Block) (c : Commit) : (s.setCommit k c).hostMem = s.hostMem := rfl
@[simp] theorem State.setCommit_flash (s : State) (k : Block) (c : Commit) : (s.setCommit k c).flash = s.flash := rfl
@[simp] theorem State.setCommit_bootMem (s : State) (k : Block) (c : Commit) : (s.setCommit k c).bootMem = s.bootMem := rfl
@[simp] theorem State.setCommit_gal (s : State) (k : Block) (c : Commit) : (s.setCommit k c).gal = s.gal := rfl
@[simp] theorem State.setCommit_lnd (s : State) (k : Block) (c : Commit) : (s.setCommit k c).lnd = s.lnd := rfl
@[simp] theorem State.setCommit_que (s : State) (k : Block) (c : Commit) : (s.setCommit k c).que = s.que := rfl
@[simp] theorem State.setCommit_cle (s : State) (k : Block) (c : Commit) : (s.setCommit k c).cle = s.cle := rfl
@[simp] theorem State.setCommit_rue (s : State) (k : Block) (c : Commit) : (s.setCommit k c).rue = s.rue := rfl
@[simp] theorem State.setCommit_ports (s : State) (k : Block) (c : Commit) : (s.setCommit k c).ports = s.ports := rfl
@[simp] theorem State.setCommit_rte (s : State) (k : Block) (c : Commit) : (s.setCommit k c).rte = s.rte := rfl
@[simp] theorem State.setCommit_sched (s : State) (k : Block) (c : Commit) : (s.setCommit k c).sched = s.sched := rfl
@[simp] theorem State.setCommit_sec (s : State) (k : Block) (c : Commit) : (s.setCommit k c).sec = s.sec := rfl
@[simp] theorem State.setCommit_opt (s : State) (k : Block) (c : Commit) : (s.setCommit k c).opt = s.opt := rfl
@[simp] theorem State.setCommit_dfl (s : State) (k : Block) (c : Commit) : (s.setCommit k c).dfl = s.dfl := rfl
@[simp] theorem State.setCommit_boot (s : State) (k : Block) (c : Commit) : (s.setCommit k c).boot = s.boot := rfl
@[simp] theorem State.setCommit_life (s : State) (k : Block) (c : Commit) : (s.setCommit k c).life = s.life := rfl
@[simp] theorem State.setCommit_pins (s : State) (k : Block) (c : Commit) : (s.setCommit k c).pins = s.pins := rfl
@[simp] theorem State.setCommit_faults (s : State) (k : Block) (c : Commit) : (s.setCommit k c).faults = s.faults := rfl
@[simp] theorem State.setCommit_delivered (s : State) (k : Block) (c : Commit) : (s.setCommit k c).delivered = s.delivered := rfl
@[simp] theorem State.setCommit_reg (s : State) (k : Block) (c : Commit) (a' : Nat) : (s.setCommit k c).reg a' = s.reg a' := rfl
@[simp] theorem State.setCommit_sreg (s : State) (k : Block) (c : Commit) (a' : Nat) : (s.setCommit k c).sreg a' = s.sreg a' := rfl
@[simp] theorem State.setCommit_f (s : State) (k : Block) (c : Commit) (a' lo' n' : Nat) : (s.setCommit k c).f a' lo' n' = s.f a' lo' n' := rfl
@[simp] theorem State.setCommit_b (s : State) (k : Block) (c : Commit) (a' lo' : Nat) : (s.setCommit k c).b a' lo' = s.b a' lo' := rfl
@[simp] theorem State.setCommit_reg64 (s : State) (k : Block) (c : Commit) (a' b' : Nat) : (s.setCommit k c).reg64 a' b' = s.reg64 a' b' := rfl
@[simp] theorem State.setCommit_now (s : State) (k : Block) (c : Commit) : (s.setCommit k c).now = s.now := rfl
@[simp] theorem State.setCommit_mono (s : State) (k : Block) (c : Commit) : (s.setCommit k c).mono = s.mono := rfl

/-! ### setUnit -/
@[simp] theorem State.setUnit_pending (s : State) (u : Nat) (v : Bool) : (s.setUnit u v).pending = s.pending := rfl
@[simp] theorem State.setUnit_freeCtr (s : State) (u : Nat) (v : Bool) : (s.setUnit u v).freeCtr = s.freeCtr := rfl
@[simp] theorem State.setUnit_outbox (s : State) (u : Nat) (v : Bool) : (s.setUnit u v).outbox = s.outbox := rfl
@[simp] theorem State.setUnit_regs (s : State) (u : Nat) (v : Bool) : (s.setUnit u v).regs = s.regs := rfl
@[simp] theorem State.setUnit_staged (s : State) (u : Nat) (v : Bool) : (s.setUnit u v).staged = s.staged := rfl
@[simp] theorem State.setUnit_rlatch (s : State) (u : Nat) (v : Bool) : (s.setUnit u v).rlatch = s.rlatch := rfl
@[simp] theorem State.setUnit_commits (s : State) (u : Nat) (v : Bool) : (s.setUnit u v).commits = s.commits := rfl
@[simp] theorem State.setUnit_power (s : State) (u : Nat) (v : Bool) : (s.setUnit u v).power = s.power := rfl
@[simp] theorem State.setUnit_time (s : State) (u : Nat) (v : Bool) : (s.setUnit u v).time = s.time := rfl
@[simp] theorem State.setUnit_host (s : State) (u : Nat) (v : Bool) : (s.setUnit u v).host = s.host := rfl
@[simp] theorem State.setUnit_log (s : State) (u : Nat) (v : Bool) : (s.setUnit u v).log = s.log := rfl
@[simp] theorem State.setUnit_gallery (s : State) (u : Nat) (v : Bool) : (s.setUnit u v).gallery = s.gallery := rfl
@[simp] theorem State.setUnit_bar4 (s : State) (u : Nat) (v : Bool) : (s.setUnit u v).bar4 = s.bar4 := rfl
@[simp] theorem State.setUnit_hostMem (s : State) (u : Nat) (v : Bool) : (s.setUnit u v).hostMem = s.hostMem := rfl
@[simp] theorem State.setUnit_flash (s : State) (u : Nat) (v : Bool) : (s.setUnit u v).flash = s.flash := rfl
@[simp] theorem State.setUnit_bootMem (s : State) (u : Nat) (v : Bool) : (s.setUnit u v).bootMem = s.bootMem := rfl
@[simp] theorem State.setUnit_lnd (s : State) (u : Nat) (v : Bool) : (s.setUnit u v).lnd = s.lnd := rfl
@[simp] theorem State.setUnit_que (s : State) (u : Nat) (v : Bool) : (s.setUnit u v).que = s.que := rfl
@[simp] theorem State.setUnit_cle (s : State) (u : Nat) (v : Bool) : (s.setUnit u v).cle = s.cle := rfl
@[simp] theorem State.setUnit_rue (s : State) (u : Nat) (v : Bool) : (s.setUnit u v).rue = s.rue := rfl
@[simp] theorem State.setUnit_ports (s : State) (u : Nat) (v : Bool) : (s.setUnit u v).ports = s.ports := rfl
@[simp] theorem State.setUnit_rte (s : State) (u : Nat) (v : Bool) : (s.setUnit u v).rte = s.rte := rfl
@[simp] theorem State.setUnit_sched (s : State) (u : Nat) (v : Bool) : (s.setUnit u v).sched = s.sched := rfl
@[simp] theorem State.setUnit_sec (s : State) (u : Nat) (v : Bool) : (s.setUnit u v).sec = s.sec := rfl
@[simp] theorem State.setUnit_opt (s : State) (u : Nat) (v : Bool) : (s.setUnit u v).opt = s.opt := rfl
@[simp] theorem State.setUnit_dfl (s : State) (u : Nat) (v : Bool) : (s.setUnit u v).dfl = s.dfl := rfl
@[simp] theorem State.setUnit_boot (s : State) (u : Nat) (v : Bool) : (s.setUnit u v).boot = s.boot := rfl
@[simp] theorem State.setUnit_life (s : State) (u : Nat) (v : Bool) : (s.setUnit u v).life = s.life := rfl
@[simp] theorem State.setUnit_pins (s : State) (u : Nat) (v : Bool) : (s.setUnit u v).pins = s.pins := rfl
@[simp] theorem State.setUnit_faults (s : State) (u : Nat) (v : Bool) : (s.setUnit u v).faults = s.faults := rfl
@[simp] theorem State.setUnit_delivered (s : State) (u : Nat) (v : Bool) : (s.setUnit u v).delivered = s.delivered := rfl
@[simp] theorem State.setUnit_reg (s : State) (u : Nat) (v : Bool) (a' : Nat) : (s.setUnit u v).reg a' = s.reg a' := rfl
@[simp] theorem State.setUnit_sreg (s : State) (u : Nat) (v : Bool) (a' : Nat) : (s.setUnit u v).sreg a' = s.sreg a' := rfl
@[simp] theorem State.setUnit_f (s : State) (u : Nat) (v : Bool) (a' lo' n' : Nat) : (s.setUnit u v).f a' lo' n' = s.f a' lo' n' := rfl
@[simp] theorem State.setUnit_b (s : State) (u : Nat) (v : Bool) (a' lo' : Nat) : (s.setUnit u v).b a' lo' = s.b a' lo' := rfl
@[simp] theorem State.setUnit_reg64 (s : State) (u : Nat) (v : Bool) (a' b' : Nat) : (s.setUnit u v).reg64 a' b' = s.reg64 a' b' := rfl
@[simp] theorem State.setUnit_now (s : State) (u : Nat) (v : Bool) : (s.setUnit u v).now = s.now := rfl
@[simp] theorem State.setUnit_mono (s : State) (u : Nat) (v : Bool) : (s.setUnit u v).mono = s.mono := rfl

/-! ### setPoison -/
@[simp] theorem State.setPoison_pending (s : State) (w : Nat) (v : Bool) : (s.setPoison w v).pending = s.pending := rfl
@[simp] theorem State.setPoison_freeCtr (s : State) (w : Nat) (v : Bool) : (s.setPoison w v).freeCtr = s.freeCtr := rfl
@[simp] theorem State.setPoison_outbox (s : State) (w : Nat) (v : Bool) : (s.setPoison w v).outbox = s.outbox := rfl
@[simp] theorem State.setPoison_regs (s : State) (w : Nat) (v : Bool) : (s.setPoison w v).regs = s.regs := rfl
@[simp] theorem State.setPoison_staged (s : State) (w : Nat) (v : Bool) : (s.setPoison w v).staged = s.staged := rfl
@[simp] theorem State.setPoison_rlatch (s : State) (w : Nat) (v : Bool) : (s.setPoison w v).rlatch = s.rlatch := rfl
@[simp] theorem State.setPoison_commits (s : State) (w : Nat) (v : Bool) : (s.setPoison w v).commits = s.commits := rfl
@[simp] theorem State.setPoison_power (s : State) (w : Nat) (v : Bool) : (s.setPoison w v).power = s.power := rfl
@[simp] theorem State.setPoison_time (s : State) (w : Nat) (v : Bool) : (s.setPoison w v).time = s.time := rfl
@[simp] theorem State.setPoison_host (s : State) (w : Nat) (v : Bool) : (s.setPoison w v).host = s.host := rfl
@[simp] theorem State.setPoison_log (s : State) (w : Nat) (v : Bool) : (s.setPoison w v).log = s.log := rfl
@[simp] theorem State.setPoison_gallery (s : State) (w : Nat) (v : Bool) : (s.setPoison w v).gallery = s.gallery := rfl
@[simp] theorem State.setPoison_bar4 (s : State) (w : Nat) (v : Bool) : (s.setPoison w v).bar4 = s.bar4 := rfl
@[simp] theorem State.setPoison_hostMem (s : State) (w : Nat) (v : Bool) : (s.setPoison w v).hostMem = s.hostMem := rfl
@[simp] theorem State.setPoison_flash (s : State) (w : Nat) (v : Bool) : (s.setPoison w v).flash = s.flash := rfl
@[simp] theorem State.setPoison_bootMem (s : State) (w : Nat) (v : Bool) : (s.setPoison w v).bootMem = s.bootMem := rfl
@[simp] theorem State.setPoison_lnd (s : State) (w : Nat) (v : Bool) : (s.setPoison w v).lnd = s.lnd := rfl
@[simp] theorem State.setPoison_que (s : State) (w : Nat) (v : Bool) : (s.setPoison w v).que = s.que := rfl
@[simp] theorem State.setPoison_cle (s : State) (w : Nat) (v : Bool) : (s.setPoison w v).cle = s.cle := rfl
@[simp] theorem State.setPoison_rue (s : State) (w : Nat) (v : Bool) : (s.setPoison w v).rue = s.rue := rfl
@[simp] theorem State.setPoison_ports (s : State) (w : Nat) (v : Bool) : (s.setPoison w v).ports = s.ports := rfl
@[simp] theorem State.setPoison_rte (s : State) (w : Nat) (v : Bool) : (s.setPoison w v).rte = s.rte := rfl
@[simp] theorem State.setPoison_sched (s : State) (w : Nat) (v : Bool) : (s.setPoison w v).sched = s.sched := rfl
@[simp] theorem State.setPoison_sec (s : State) (w : Nat) (v : Bool) : (s.setPoison w v).sec = s.sec := rfl
@[simp] theorem State.setPoison_opt (s : State) (w : Nat) (v : Bool) : (s.setPoison w v).opt = s.opt := rfl
@[simp] theorem State.setPoison_dfl (s : State) (w : Nat) (v : Bool) : (s.setPoison w v).dfl = s.dfl := rfl
@[simp] theorem State.setPoison_boot (s : State) (w : Nat) (v : Bool) : (s.setPoison w v).boot = s.boot := rfl
@[simp] theorem State.setPoison_life (s : State) (w : Nat) (v : Bool) : (s.setPoison w v).life = s.life := rfl
@[simp] theorem State.setPoison_pins (s : State) (w : Nat) (v : Bool) : (s.setPoison w v).pins = s.pins := rfl
@[simp] theorem State.setPoison_faults (s : State) (w : Nat) (v : Bool) : (s.setPoison w v).faults = s.faults := rfl
@[simp] theorem State.setPoison_delivered (s : State) (w : Nat) (v : Bool) : (s.setPoison w v).delivered = s.delivered := rfl
@[simp] theorem State.setPoison_reg (s : State) (w : Nat) (v : Bool) (a' : Nat) : (s.setPoison w v).reg a' = s.reg a' := rfl
@[simp] theorem State.setPoison_sreg (s : State) (w : Nat) (v : Bool) (a' : Nat) : (s.setPoison w v).sreg a' = s.sreg a' := rfl
@[simp] theorem State.setPoison_f (s : State) (w : Nat) (v : Bool) (a' lo' n' : Nat) : (s.setPoison w v).f a' lo' n' = s.f a' lo' n' := rfl
@[simp] theorem State.setPoison_b (s : State) (w : Nat) (v : Bool) (a' lo' : Nat) : (s.setPoison w v).b a' lo' = s.b a' lo' := rfl
@[simp] theorem State.setPoison_reg64 (s : State) (w : Nat) (v : Bool) (a' b' : Nat) : (s.setPoison w v).reg64 a' b' = s.reg64 a' b' := rfl
@[simp] theorem State.setPoison_now (s : State) (w : Nat) (v : Bool) : (s.setPoison w v).now = s.now := rfl
@[simp] theorem State.setPoison_mono (s : State) (w : Nat) (v : Bool) : (s.setPoison w v).mono = s.mono := rfl

/-! ### setRefill -/
@[simp] theorem State.setRefill_pending (s : State) (n : Nat) (r : Refill) : (s.setRefill n r).pending = s.pending := rfl
@[simp] theorem State.setRefill_freeCtr (s : State) (n : Nat) (r : Refill) : (s.setRefill n r).freeCtr = s.freeCtr := rfl
@[simp] theorem State.setRefill_outbox (s : State) (n : Nat) (r : Refill) : (s.setRefill n r).outbox = s.outbox := rfl
@[simp] theorem State.setRefill_regs (s : State) (n : Nat) (r : Refill) : (s.setRefill n r).regs = s.regs := rfl
@[simp] theorem State.setRefill_staged (s : State) (n : Nat) (r : Refill) : (s.setRefill n r).staged = s.staged := rfl
@[simp] theorem State.setRefill_rlatch (s : State) (n : Nat) (r : Refill) : (s.setRefill n r).rlatch = s.rlatch := rfl
@[simp] theorem State.setRefill_commits (s : State) (n : Nat) (r : Refill) : (s.setRefill n r).commits = s.commits := rfl
@[simp] theorem State.setRefill_power (s : State) (n : Nat) (r : Refill) : (s.setRefill n r).power = s.power := rfl
@[simp] theorem State.setRefill_time (s : State) (n : Nat) (r : Refill) : (s.setRefill n r).time = s.time := rfl
@[simp] theorem State.setRefill_host (s : State) (n : Nat) (r : Refill) : (s.setRefill n r).host = s.host := rfl
@[simp] theorem State.setRefill_log (s : State) (n : Nat) (r : Refill) : (s.setRefill n r).log = s.log := rfl
@[simp] theorem State.setRefill_gallery (s : State) (n : Nat) (r : Refill) : (s.setRefill n r).gallery = s.gallery := rfl
@[simp] theorem State.setRefill_bar4 (s : State) (n : Nat) (r : Refill) : (s.setRefill n r).bar4 = s.bar4 := rfl
@[simp] theorem State.setRefill_hostMem (s : State) (n : Nat) (r : Refill) : (s.setRefill n r).hostMem = s.hostMem := rfl
@[simp] theorem State.setRefill_flash (s : State) (n : Nat) (r : Refill) : (s.setRefill n r).flash = s.flash := rfl
@[simp] theorem State.setRefill_bootMem (s : State) (n : Nat) (r : Refill) : (s.setRefill n r).bootMem = s.bootMem := rfl
@[simp] theorem State.setRefill_lnd (s : State) (n : Nat) (r : Refill) : (s.setRefill n r).lnd = s.lnd := rfl
@[simp] theorem State.setRefill_que (s : State) (n : Nat) (r : Refill) : (s.setRefill n r).que = s.que := rfl
@[simp] theorem State.setRefill_cle (s : State) (n : Nat) (r : Refill) : (s.setRefill n r).cle = s.cle := rfl
@[simp] theorem State.setRefill_rue (s : State) (n : Nat) (r : Refill) : (s.setRefill n r).rue = s.rue := rfl
@[simp] theorem State.setRefill_ports (s : State) (n : Nat) (r : Refill) : (s.setRefill n r).ports = s.ports := rfl
@[simp] theorem State.setRefill_rte (s : State) (n : Nat) (r : Refill) : (s.setRefill n r).rte = s.rte := rfl
@[simp] theorem State.setRefill_sched (s : State) (n : Nat) (r : Refill) : (s.setRefill n r).sched = s.sched := rfl
@[simp] theorem State.setRefill_sec (s : State) (n : Nat) (r : Refill) : (s.setRefill n r).sec = s.sec := rfl
@[simp] theorem State.setRefill_opt (s : State) (n : Nat) (r : Refill) : (s.setRefill n r).opt = s.opt := rfl
@[simp] theorem State.setRefill_dfl (s : State) (n : Nat) (r : Refill) : (s.setRefill n r).dfl = s.dfl := rfl
@[simp] theorem State.setRefill_boot (s : State) (n : Nat) (r : Refill) : (s.setRefill n r).boot = s.boot := rfl
@[simp] theorem State.setRefill_life (s : State) (n : Nat) (r : Refill) : (s.setRefill n r).life = s.life := rfl
@[simp] theorem State.setRefill_pins (s : State) (n : Nat) (r : Refill) : (s.setRefill n r).pins = s.pins := rfl
@[simp] theorem State.setRefill_faults (s : State) (n : Nat) (r : Refill) : (s.setRefill n r).faults = s.faults := rfl
@[simp] theorem State.setRefill_delivered (s : State) (n : Nat) (r : Refill) : (s.setRefill n r).delivered = s.delivered := rfl
@[simp] theorem State.setRefill_reg (s : State) (n : Nat) (r : Refill) (a' : Nat) : (s.setRefill n r).reg a' = s.reg a' := rfl
@[simp] theorem State.setRefill_sreg (s : State) (n : Nat) (r : Refill) (a' : Nat) : (s.setRefill n r).sreg a' = s.sreg a' := rfl
@[simp] theorem State.setRefill_f (s : State) (n : Nat) (r : Refill) (a' lo' n' : Nat) : (s.setRefill n r).f a' lo' n' = s.f a' lo' n' := rfl
@[simp] theorem State.setRefill_b (s : State) (n : Nat) (r : Refill) (a' lo' : Nat) : (s.setRefill n r).b a' lo' = s.b a' lo' := rfl
@[simp] theorem State.setRefill_reg64 (s : State) (n : Nat) (r : Refill) (a' b' : Nat) : (s.setRefill n r).reg64 a' b' = s.reg64 a' b' := rfl
@[simp] theorem State.setRefill_now (s : State) (n : Nat) (r : Refill) : (s.setRefill n r).now = s.now := rfl
@[simp] theorem State.setRefill_mono (s : State) (n : Nat) (r : Refill) : (s.setRefill n r).mono = s.mono := rfl

/-! ### setPeerTime -/
@[simp] theorem State.setPeerTime_pending (s : State) (e : Nat) (x : PeerTime) : (s.setPeerTime e x).pending = s.pending := rfl
@[simp] theorem State.setPeerTime_freeCtr (s : State) (e : Nat) (x : PeerTime) : (s.setPeerTime e x).freeCtr = s.freeCtr := rfl
@[simp] theorem State.setPeerTime_outbox (s : State) (e : Nat) (x : PeerTime) : (s.setPeerTime e x).outbox = s.outbox := rfl
@[simp] theorem State.setPeerTime_regs (s : State) (e : Nat) (x : PeerTime) : (s.setPeerTime e x).regs = s.regs := rfl
@[simp] theorem State.setPeerTime_staged (s : State) (e : Nat) (x : PeerTime) : (s.setPeerTime e x).staged = s.staged := rfl
@[simp] theorem State.setPeerTime_rlatch (s : State) (e : Nat) (x : PeerTime) : (s.setPeerTime e x).rlatch = s.rlatch := rfl
@[simp] theorem State.setPeerTime_commits (s : State) (e : Nat) (x : PeerTime) : (s.setPeerTime e x).commits = s.commits := rfl
@[simp] theorem State.setPeerTime_power (s : State) (e : Nat) (x : PeerTime) : (s.setPeerTime e x).power = s.power := rfl
@[simp] theorem State.setPeerTime_host (s : State) (e : Nat) (x : PeerTime) : (s.setPeerTime e x).host = s.host := rfl
@[simp] theorem State.setPeerTime_log (s : State) (e : Nat) (x : PeerTime) : (s.setPeerTime e x).log = s.log := rfl
@[simp] theorem State.setPeerTime_gallery (s : State) (e : Nat) (x : PeerTime) : (s.setPeerTime e x).gallery = s.gallery := rfl
@[simp] theorem State.setPeerTime_bar4 (s : State) (e : Nat) (x : PeerTime) : (s.setPeerTime e x).bar4 = s.bar4 := rfl
@[simp] theorem State.setPeerTime_hostMem (s : State) (e : Nat) (x : PeerTime) : (s.setPeerTime e x).hostMem = s.hostMem := rfl
@[simp] theorem State.setPeerTime_flash (s : State) (e : Nat) (x : PeerTime) : (s.setPeerTime e x).flash = s.flash := rfl
@[simp] theorem State.setPeerTime_bootMem (s : State) (e : Nat) (x : PeerTime) : (s.setPeerTime e x).bootMem = s.bootMem := rfl
@[simp] theorem State.setPeerTime_gal (s : State) (e : Nat) (x : PeerTime) : (s.setPeerTime e x).gal = s.gal := rfl
@[simp] theorem State.setPeerTime_lnd (s : State) (e : Nat) (x : PeerTime) : (s.setPeerTime e x).lnd = s.lnd := rfl
@[simp] theorem State.setPeerTime_que (s : State) (e : Nat) (x : PeerTime) : (s.setPeerTime e x).que = s.que := rfl
@[simp] theorem State.setPeerTime_cle (s : State) (e : Nat) (x : PeerTime) : (s.setPeerTime e x).cle = s.cle := rfl
@[simp] theorem State.setPeerTime_rue (s : State) (e : Nat) (x : PeerTime) : (s.setPeerTime e x).rue = s.rue := rfl
@[simp] theorem State.setPeerTime_ports (s : State) (e : Nat) (x : PeerTime) : (s.setPeerTime e x).ports = s.ports := rfl
@[simp] theorem State.setPeerTime_rte (s : State) (e : Nat) (x : PeerTime) : (s.setPeerTime e x).rte = s.rte := rfl
@[simp] theorem State.setPeerTime_sched (s : State) (e : Nat) (x : PeerTime) : (s.setPeerTime e x).sched = s.sched := rfl
@[simp] theorem State.setPeerTime_sec (s : State) (e : Nat) (x : PeerTime) : (s.setPeerTime e x).sec = s.sec := rfl
@[simp] theorem State.setPeerTime_opt (s : State) (e : Nat) (x : PeerTime) : (s.setPeerTime e x).opt = s.opt := rfl
@[simp] theorem State.setPeerTime_dfl (s : State) (e : Nat) (x : PeerTime) : (s.setPeerTime e x).dfl = s.dfl := rfl
@[simp] theorem State.setPeerTime_boot (s : State) (e : Nat) (x : PeerTime) : (s.setPeerTime e x).boot = s.boot := rfl
@[simp] theorem State.setPeerTime_life (s : State) (e : Nat) (x : PeerTime) : (s.setPeerTime e x).life = s.life := rfl
@[simp] theorem State.setPeerTime_pins (s : State) (e : Nat) (x : PeerTime) : (s.setPeerTime e x).pins = s.pins := rfl
@[simp] theorem State.setPeerTime_faults (s : State) (e : Nat) (x : PeerTime) : (s.setPeerTime e x).faults = s.faults := rfl
@[simp] theorem State.setPeerTime_delivered (s : State) (e : Nat) (x : PeerTime) : (s.setPeerTime e x).delivered = s.delivered := rfl
@[simp] theorem State.setPeerTime_reg (s : State) (e : Nat) (x : PeerTime) (a' : Nat) : (s.setPeerTime e x).reg a' = s.reg a' := rfl
@[simp] theorem State.setPeerTime_sreg (s : State) (e : Nat) (x : PeerTime) (a' : Nat) : (s.setPeerTime e x).sreg a' = s.sreg a' := rfl
@[simp] theorem State.setPeerTime_f (s : State) (e : Nat) (x : PeerTime) (a' lo' n' : Nat) : (s.setPeerTime e x).f a' lo' n' = s.f a' lo' n' := rfl
@[simp] theorem State.setPeerTime_b (s : State) (e : Nat) (x : PeerTime) (a' lo' : Nat) : (s.setPeerTime e x).b a' lo' = s.b a' lo' := rfl
@[simp] theorem State.setPeerTime_reg64 (s : State) (e : Nat) (x : PeerTime) (a' b' : Nat) : (s.setPeerTime e x).reg64 a' b' = s.reg64 a' b' := rfl

/-! ### setWaveQual -/
@[simp] theorem State.setWaveQual_pending (s : State) (f : Nat) (tx : Bool) (w : Nat) (x : Qual) : (s.setWaveQual f tx w x).pending = s.pending := rfl
@[simp] theorem State.setWaveQual_freeCtr (s : State) (f : Nat) (tx : Bool) (w : Nat) (x : Qual) : (s.setWaveQual f tx w x).freeCtr = s.freeCtr := rfl
@[simp] theorem State.setWaveQual_outbox (s : State) (f : Nat) (tx : Bool) (w : Nat) (x : Qual) : (s.setWaveQual f tx w x).outbox = s.outbox := rfl
@[simp] theorem State.setWaveQual_regs (s : State) (f : Nat) (tx : Bool) (w : Nat) (x : Qual) : (s.setWaveQual f tx w x).regs = s.regs := rfl
@[simp] theorem State.setWaveQual_staged (s : State) (f : Nat) (tx : Bool) (w : Nat) (x : Qual) : (s.setWaveQual f tx w x).staged = s.staged := rfl
@[simp] theorem State.setWaveQual_rlatch (s : State) (f : Nat) (tx : Bool) (w : Nat) (x : Qual) : (s.setWaveQual f tx w x).rlatch = s.rlatch := rfl
@[simp] theorem State.setWaveQual_commits (s : State) (f : Nat) (tx : Bool) (w : Nat) (x : Qual) : (s.setWaveQual f tx w x).commits = s.commits := rfl
@[simp] theorem State.setWaveQual_power (s : State) (f : Nat) (tx : Bool) (w : Nat) (x : Qual) : (s.setWaveQual f tx w x).power = s.power := rfl
@[simp] theorem State.setWaveQual_time (s : State) (f : Nat) (tx : Bool) (w : Nat) (x : Qual) : (s.setWaveQual f tx w x).time = s.time := rfl
@[simp] theorem State.setWaveQual_host (s : State) (f : Nat) (tx : Bool) (w : Nat) (x : Qual) : (s.setWaveQual f tx w x).host = s.host := rfl
@[simp] theorem State.setWaveQual_log (s : State) (f : Nat) (tx : Bool) (w : Nat) (x : Qual) : (s.setWaveQual f tx w x).log = s.log := rfl
@[simp] theorem State.setWaveQual_gallery (s : State) (f : Nat) (tx : Bool) (w : Nat) (x : Qual) : (s.setWaveQual f tx w x).gallery = s.gallery := rfl
@[simp] theorem State.setWaveQual_bar4 (s : State) (f : Nat) (tx : Bool) (w : Nat) (x : Qual) : (s.setWaveQual f tx w x).bar4 = s.bar4 := rfl
@[simp] theorem State.setWaveQual_hostMem (s : State) (f : Nat) (tx : Bool) (w : Nat) (x : Qual) : (s.setWaveQual f tx w x).hostMem = s.hostMem := rfl
@[simp] theorem State.setWaveQual_flash (s : State) (f : Nat) (tx : Bool) (w : Nat) (x : Qual) : (s.setWaveQual f tx w x).flash = s.flash := rfl
@[simp] theorem State.setWaveQual_bootMem (s : State) (f : Nat) (tx : Bool) (w : Nat) (x : Qual) : (s.setWaveQual f tx w x).bootMem = s.bootMem := rfl
@[simp] theorem State.setWaveQual_gal (s : State) (f : Nat) (tx : Bool) (w : Nat) (x : Qual) : (s.setWaveQual f tx w x).gal = s.gal := rfl
@[simp] theorem State.setWaveQual_lnd (s : State) (f : Nat) (tx : Bool) (w : Nat) (x : Qual) : (s.setWaveQual f tx w x).lnd = s.lnd := rfl
@[simp] theorem State.setWaveQual_que (s : State) (f : Nat) (tx : Bool) (w : Nat) (x : Qual) : (s.setWaveQual f tx w x).que = s.que := rfl
@[simp] theorem State.setWaveQual_cle (s : State) (f : Nat) (tx : Bool) (w : Nat) (x : Qual) : (s.setWaveQual f tx w x).cle = s.cle := rfl
@[simp] theorem State.setWaveQual_rue (s : State) (f : Nat) (tx : Bool) (w : Nat) (x : Qual) : (s.setWaveQual f tx w x).rue = s.rue := rfl
@[simp] theorem State.setWaveQual_ports (s : State) (f : Nat) (tx : Bool) (w : Nat) (x : Qual) : (s.setWaveQual f tx w x).ports = s.ports := rfl
@[simp] theorem State.setWaveQual_rte (s : State) (f : Nat) (tx : Bool) (w : Nat) (x : Qual) : (s.setWaveQual f tx w x).rte = s.rte := rfl
@[simp] theorem State.setWaveQual_sched (s : State) (f : Nat) (tx : Bool) (w : Nat) (x : Qual) : (s.setWaveQual f tx w x).sched = s.sched := rfl
@[simp] theorem State.setWaveQual_sec (s : State) (f : Nat) (tx : Bool) (w : Nat) (x : Qual) : (s.setWaveQual f tx w x).sec = s.sec := rfl
@[simp] theorem State.setWaveQual_opt (s : State) (f : Nat) (tx : Bool) (w : Nat) (x : Qual) : (s.setWaveQual f tx w x).opt = s.opt := rfl
@[simp] theorem State.setWaveQual_dfl (s : State) (f : Nat) (tx : Bool) (w : Nat) (x : Qual) : (s.setWaveQual f tx w x).dfl = s.dfl := rfl
@[simp] theorem State.setWaveQual_life (s : State) (f : Nat) (tx : Bool) (w : Nat) (x : Qual) : (s.setWaveQual f tx w x).life = s.life := rfl
@[simp] theorem State.setWaveQual_pins (s : State) (f : Nat) (tx : Bool) (w : Nat) (x : Qual) : (s.setWaveQual f tx w x).pins = s.pins := rfl
@[simp] theorem State.setWaveQual_faults (s : State) (f : Nat) (tx : Bool) (w : Nat) (x : Qual) : (s.setWaveQual f tx w x).faults = s.faults := rfl
@[simp] theorem State.setWaveQual_delivered (s : State) (f : Nat) (tx : Bool) (w : Nat) (x : Qual) : (s.setWaveQual f tx w x).delivered = s.delivered := rfl
@[simp] theorem State.setWaveQual_reg (s : State) (f : Nat) (tx : Bool) (w : Nat) (x : Qual) (a' : Nat) : (s.setWaveQual f tx w x).reg a' = s.reg a' := rfl
@[simp] theorem State.setWaveQual_sreg (s : State) (f : Nat) (tx : Bool) (w : Nat) (x : Qual) (a' : Nat) : (s.setWaveQual f tx w x).sreg a' = s.sreg a' := rfl
@[simp] theorem State.setWaveQual_f (s : State) (f : Nat) (tx : Bool) (w : Nat) (x : Qual) (a' lo' n' : Nat) : (s.setWaveQual f tx w x).f a' lo' n' = s.f a' lo' n' := rfl
@[simp] theorem State.setWaveQual_b (s : State) (f : Nat) (tx : Bool) (w : Nat) (x : Qual) (a' lo' : Nat) : (s.setWaveQual f tx w x).b a' lo' = s.b a' lo' := rfl
@[simp] theorem State.setWaveQual_reg64 (s : State) (f : Nat) (tx : Bool) (w : Nat) (x : Qual) (a' b' : Nat) : (s.setWaveQual f tx w x).reg64 a' b' = s.reg64 a' b' := rfl
@[simp] theorem State.setWaveQual_now (s : State) (f : Nat) (tx : Bool) (w : Nat) (x : Qual) : (s.setWaveQual f tx w x).now = s.now := rfl
@[simp] theorem State.setWaveQual_mono (s : State) (f : Nat) (tx : Bool) (w : Nat) (x : Qual) : (s.setWaveQual f tx w x).mono = s.mono := rfl

/-! ### setPortQual -/
@[simp] theorem State.setPortQual_pending (s : State) (p : Nat) (x : Qual) : (s.setPortQual p x).pending = s.pending := rfl
@[simp] theorem State.setPortQual_freeCtr (s : State) (p : Nat) (x : Qual) : (s.setPortQual p x).freeCtr = s.freeCtr := rfl
@[simp] theorem State.setPortQual_outbox (s : State) (p : Nat) (x : Qual) : (s.setPortQual p x).outbox = s.outbox := rfl
@[simp] theorem State.setPortQual_regs (s : State) (p : Nat) (x : Qual) : (s.setPortQual p x).regs = s.regs := rfl
@[simp] theorem State.setPortQual_staged (s : State) (p : Nat) (x : Qual) : (s.setPortQual p x).staged = s.staged := rfl
@[simp] theorem State.setPortQual_rlatch (s : State) (p : Nat) (x : Qual) : (s.setPortQual p x).rlatch = s.rlatch := rfl
@[simp] theorem State.setPortQual_commits (s : State) (p : Nat) (x : Qual) : (s.setPortQual p x).commits = s.commits := rfl
@[simp] theorem State.setPortQual_power (s : State) (p : Nat) (x : Qual) : (s.setPortQual p x).power = s.power := rfl
@[simp] theorem State.setPortQual_time (s : State) (p : Nat) (x : Qual) : (s.setPortQual p x).time = s.time := rfl
@[simp] theorem State.setPortQual_host (s : State) (p : Nat) (x : Qual) : (s.setPortQual p x).host = s.host := rfl
@[simp] theorem State.setPortQual_log (s : State) (p : Nat) (x : Qual) : (s.setPortQual p x).log = s.log := rfl
@[simp] theorem State.setPortQual_gallery (s : State) (p : Nat) (x : Qual) : (s.setPortQual p x).gallery = s.gallery := rfl
@[simp] theorem State.setPortQual_bar4 (s : State) (p : Nat) (x : Qual) : (s.setPortQual p x).bar4 = s.bar4 := rfl
@[simp] theorem State.setPortQual_hostMem (s : State) (p : Nat) (x : Qual) : (s.setPortQual p x).hostMem = s.hostMem := rfl
@[simp] theorem State.setPortQual_flash (s : State) (p : Nat) (x : Qual) : (s.setPortQual p x).flash = s.flash := rfl
@[simp] theorem State.setPortQual_bootMem (s : State) (p : Nat) (x : Qual) : (s.setPortQual p x).bootMem = s.bootMem := rfl
@[simp] theorem State.setPortQual_gal (s : State) (p : Nat) (x : Qual) : (s.setPortQual p x).gal = s.gal := rfl
@[simp] theorem State.setPortQual_lnd (s : State) (p : Nat) (x : Qual) : (s.setPortQual p x).lnd = s.lnd := rfl
@[simp] theorem State.setPortQual_que (s : State) (p : Nat) (x : Qual) : (s.setPortQual p x).que = s.que := rfl
@[simp] theorem State.setPortQual_cle (s : State) (p : Nat) (x : Qual) : (s.setPortQual p x).cle = s.cle := rfl
@[simp] theorem State.setPortQual_rue (s : State) (p : Nat) (x : Qual) : (s.setPortQual p x).rue = s.rue := rfl
@[simp] theorem State.setPortQual_ports (s : State) (p : Nat) (x : Qual) : (s.setPortQual p x).ports = s.ports := rfl
@[simp] theorem State.setPortQual_rte (s : State) (p : Nat) (x : Qual) : (s.setPortQual p x).rte = s.rte := rfl
@[simp] theorem State.setPortQual_sched (s : State) (p : Nat) (x : Qual) : (s.setPortQual p x).sched = s.sched := rfl
@[simp] theorem State.setPortQual_sec (s : State) (p : Nat) (x : Qual) : (s.setPortQual p x).sec = s.sec := rfl
@[simp] theorem State.setPortQual_opt (s : State) (p : Nat) (x : Qual) : (s.setPortQual p x).opt = s.opt := rfl
@[simp] theorem State.setPortQual_dfl (s : State) (p : Nat) (x : Qual) : (s.setPortQual p x).dfl = s.dfl := rfl
@[simp] theorem State.setPortQual_life (s : State) (p : Nat) (x : Qual) : (s.setPortQual p x).life = s.life := rfl
@[simp] theorem State.setPortQual_pins (s : State) (p : Nat) (x : Qual) : (s.setPortQual p x).pins = s.pins := rfl
@[simp] theorem State.setPortQual_faults (s : State) (p : Nat) (x : Qual) : (s.setPortQual p x).faults = s.faults := rfl
@[simp] theorem State.setPortQual_delivered (s : State) (p : Nat) (x : Qual) : (s.setPortQual p x).delivered = s.delivered := rfl
@[simp] theorem State.setPortQual_reg (s : State) (p : Nat) (x : Qual) (a' : Nat) : (s.setPortQual p x).reg a' = s.reg a' := rfl
@[simp] theorem State.setPortQual_sreg (s : State) (p : Nat) (x : Qual) (a' : Nat) : (s.setPortQual p x).sreg a' = s.sreg a' := rfl
@[simp] theorem State.setPortQual_f (s : State) (p : Nat) (x : Qual) (a' lo' n' : Nat) : (s.setPortQual p x).f a' lo' n' = s.f a' lo' n' := rfl
@[simp] theorem State.setPortQual_b (s : State) (p : Nat) (x : Qual) (a' lo' : Nat) : (s.setPortQual p x).b a' lo' = s.b a' lo' := rfl
@[simp] theorem State.setPortQual_reg64 (s : State) (p : Nat) (x : Qual) (a' b' : Nat) : (s.setPortQual p x).reg64 a' b' = s.reg64 a' b' := rfl
@[simp] theorem State.setPortQual_now (s : State) (p : Nat) (x : Qual) : (s.setPortQual p x).now = s.now := rfl
@[simp] theorem State.setPortQual_mono (s : State) (p : Nat) (x : Qual) : (s.setPortQual p x).mono = s.mono := rfl

/-! ### setMapBit -/
@[simp] theorem State.setMapBit_pending (s : State) (n c : Nat) : (s.setMapBit n c).pending = s.pending := rfl
@[simp] theorem State.setMapBit_freeCtr (s : State) (n c : Nat) : (s.setMapBit n c).freeCtr = s.freeCtr := rfl
@[simp] theorem State.setMapBit_outbox (s : State) (n c : Nat) : (s.setMapBit n c).outbox = s.outbox := rfl
@[simp] theorem State.setMapBit_regs (s : State) (n c : Nat) : (s.setMapBit n c).regs = s.regs := rfl
@[simp] theorem State.setMapBit_staged (s : State) (n c : Nat) : (s.setMapBit n c).staged = s.staged := rfl
@[simp] theorem State.setMapBit_rlatch (s : State) (n c : Nat) : (s.setMapBit n c).rlatch = s.rlatch := rfl
@[simp] theorem State.setMapBit_commits (s : State) (n c : Nat) : (s.setMapBit n c).commits = s.commits := rfl
@[simp] theorem State.setMapBit_power (s : State) (n c : Nat) : (s.setMapBit n c).power = s.power := rfl
@[simp] theorem State.setMapBit_time (s : State) (n c : Nat) : (s.setMapBit n c).time = s.time := rfl
@[simp] theorem State.setMapBit_host (s : State) (n c : Nat) : (s.setMapBit n c).host = s.host := rfl
@[simp] theorem State.setMapBit_log (s : State) (n c : Nat) : (s.setMapBit n c).log = s.log := rfl
@[simp] theorem State.setMapBit_bar4 (s : State) (n c : Nat) : (s.setMapBit n c).bar4 = s.bar4 := rfl
@[simp] theorem State.setMapBit_hostMem (s : State) (n c : Nat) : (s.setMapBit n c).hostMem = s.hostMem := rfl
@[simp] theorem State.setMapBit_flash (s : State) (n c : Nat) : (s.setMapBit n c).flash = s.flash := rfl
@[simp] theorem State.setMapBit_bootMem (s : State) (n c : Nat) : (s.setMapBit n c).bootMem = s.bootMem := rfl
@[simp] theorem State.setMapBit_gal (s : State) (n c : Nat) : (s.setMapBit n c).gal = s.gal := rfl
@[simp] theorem State.setMapBit_lnd (s : State) (n c : Nat) : (s.setMapBit n c).lnd = s.lnd := rfl
@[simp] theorem State.setMapBit_que (s : State) (n c : Nat) : (s.setMapBit n c).que = s.que := rfl
@[simp] theorem State.setMapBit_cle (s : State) (n c : Nat) : (s.setMapBit n c).cle = s.cle := rfl
@[simp] theorem State.setMapBit_rue (s : State) (n c : Nat) : (s.setMapBit n c).rue = s.rue := rfl
@[simp] theorem State.setMapBit_ports (s : State) (n c : Nat) : (s.setMapBit n c).ports = s.ports := rfl
@[simp] theorem State.setMapBit_rte (s : State) (n c : Nat) : (s.setMapBit n c).rte = s.rte := rfl
@[simp] theorem State.setMapBit_sched (s : State) (n c : Nat) : (s.setMapBit n c).sched = s.sched := rfl
@[simp] theorem State.setMapBit_sec (s : State) (n c : Nat) : (s.setMapBit n c).sec = s.sec := rfl
@[simp] theorem State.setMapBit_opt (s : State) (n c : Nat) : (s.setMapBit n c).opt = s.opt := rfl
@[simp] theorem State.setMapBit_dfl (s : State) (n c : Nat) : (s.setMapBit n c).dfl = s.dfl := rfl
@[simp] theorem State.setMapBit_boot (s : State) (n c : Nat) : (s.setMapBit n c).boot = s.boot := rfl
@[simp] theorem State.setMapBit_life (s : State) (n c : Nat) : (s.setMapBit n c).life = s.life := rfl
@[simp] theorem State.setMapBit_pins (s : State) (n c : Nat) : (s.setMapBit n c).pins = s.pins := rfl
@[simp] theorem State.setMapBit_faults (s : State) (n c : Nat) : (s.setMapBit n c).faults = s.faults := rfl
@[simp] theorem State.setMapBit_delivered (s : State) (n c : Nat) : (s.setMapBit n c).delivered = s.delivered := rfl
@[simp] theorem State.setMapBit_reg (s : State) (n c : Nat) (a' : Nat) : (s.setMapBit n c).reg a' = s.reg a' := rfl
@[simp] theorem State.setMapBit_sreg (s : State) (n c : Nat) (a' : Nat) : (s.setMapBit n c).sreg a' = s.sreg a' := rfl
@[simp] theorem State.setMapBit_f (s : State) (n c : Nat) (a' lo' n' : Nat) : (s.setMapBit n c).f a' lo' n' = s.f a' lo' n' := rfl
@[simp] theorem State.setMapBit_b (s : State) (n c : Nat) (a' lo' : Nat) : (s.setMapBit n c).b a' lo' = s.b a' lo' := rfl
@[simp] theorem State.setMapBit_reg64 (s : State) (n c : Nat) (a' b' : Nat) : (s.setMapBit n c).reg64 a' b' = s.reg64 a' b' := rfl
@[simp] theorem State.setMapBit_now (s : State) (n c : Nat) : (s.setMapBit n c).now = s.now := rfl
@[simp] theorem State.setMapBit_mono (s : State) (n c : Nat) : (s.setMapBit n c).mono = s.mono := rfl

/-! ### The entry that has been set -/

theorem State.queue_setQueue (s : State) (q p : Nat) (x : Queue) : (s.setQueue q x).queue p = if p = q then x else s.queue p :=
  Sparse.get_put _ s.que.q q x p
theorem State.fib_setFib (s : State) (f k : Nat) (x : Fibre) : (s.setFib f x).fib k = if k = f then x else s.fib k :=
  Sparse.get_put _ s.dfl.fibres f x k
theorem State.quad_setQuad (s : State) (q k : Nat) (x : Quad) : (s.setQuad q x).quad k = if k = q then x else s.quad k :=
  Sparse.get_put _ s.opt.quads q x k
theorem State.source_setSource (s : State) (e k : Nat) (x : Source) : (s.setSource e x).source k = if k = e then x else s.source k :=
  Sparse.get_put _ s.opt.sources e x k
theorem State.port_setPort (s : State) (p k : Nat) (x : LinePort) : (s.setPort p x).port k = if k = p then x else s.port k :=
  Sparse.get_put _ s.ports p x k
theorem State.sa_setSa (s : State) (n k : Nat) (x : SecAssoc) : (s.setSa n x).sa k = if k = n then x else s.sa k :=
  Sparse.get_put _ s.sec.sas n x k
theorem State.tx_setTx (s : State) (n k : Nat) (x : TxStream) : (s.setTx n x).tx k = if k = n then x else s.tx k :=
  Sparse.get_put _ s.rte.txs n x k
theorem State.rx_setRx (s : State) (n k : Nat) (x : RxStream) : (s.setRx n x).rx k = if k = n then x else s.rx k :=
  Sparse.get_put _ s.rte.rxs n x k
theorem State.occ_setOcc (s : State) (n k : Nat) (x : PhaseOcc) : (s.setOcc n x).occ k = if k = n then x else s.occ k :=
  Sparse.get_put _ s.power.occ n x k
theorem State.peerTime_setPeerTime (s : State) (e k : Nat) (x : PeerTime) :
    (s.setPeerTime e x).peerTime k = if k = e then x else s.peerTime k := Sparse.get_put _ s.time.peers e x k
theorem State.qstat_setQstat (s : State) (n k : Nat) (x : QStat) : (s.setQstat n x).qstat k = if k = n then x else s.qstat k :=
  Sparse.get_put _ s.sched.stat n x k
theorem State.unitValid_setUnit (s : State) (u k : Nat) (v : Bool) : (s.setUnit u v).unitValid k = if k = u then v else s.unitValid k :=
  Sparse.get_put _ s.gal.valid u v k
theorem State.poisoned_setPoison (s : State) (w k : Nat) (v : Bool) : (s.setPoison w v).poisoned k = if k = w then v else s.poisoned k :=
  Sparse.get_put _ s.gal.poison w v k
theorem Quad.ring_setRing (x : Quad) (r k : Nat) (g : Ring) : (x.setRing r g).ring k = if k = r then g else x.ring k :=
  Sparse.get_put _ x.rings r g k
theorem Fibre.lane_setLane (x : Fibre) (w k : Nat) (l : Lane) : (x.setLane w l).lane k = if k = w then l else x.lane k :=
  Sparse.get_put _ x.lanes w l k

end Sys2Proof.Machine
end

