-- ==== Sys2Proof/Laws/Codes.lean ====
section
/-! SUPPORT. What the codes give: check values fit their fields, a message built with its HCRC has a good one, a sealed cell opens
under the slot that sealed it, and a whole cell at the front of a port in SYNC is taken. -/
namespace Sys2Proof.Machine

theorem beAt_mid (a c : List Byte) (n v : Nat) : beAt (a ++ (beBytes n v ++ c)) a.length n = v % 256 ^ n := by
  rw [beAt, bytesAt_append_right _ _ _ _ (Nat.le_refl _), Nat.sub_self, bytesAt_append_left _ _ _ _ (by simp),
    bytesAt_in _ _ _ (by simp), List.drop_zero, List.take_of_length_le (by simp), beNat_beBytes]

theorem xor_lt_pow {a b n : Nat} (ha : a < 2 ^ n) (hb : b < 2 ^ n) : Nat.xor a b < 2 ^ n := Nat.xor_lt_two_pow ha hb

theorem crcByteR_lt {w p c : Nat} (hp : p < 2 ^ w) (hc : c < 2 ^ w) (b : Byte) : crcByteR p c b < 2 ^ w := by
  unfold crcByteR
  generalize List.range 8 = l
  induction l generalizing c with
  | nil => simpa using hc
  | cons i r ih =>
    rw [List.foldl_cons]
    refine ih ?_
    have h2 : c / 2 < 2 ^ w := Nat.lt_of_le_of_lt (Nat.div_le_self c 2) hc
    dsimp only
    split
    · exact xor_lt_pow h2 hp
    · exact h2

theorem crcLsb_lt {w p c : Nat} (hp : p < 2 ^ w) (hc : c < 2 ^ w) (bs : List Byte) : crcLsb p c bs < 2 ^ w := by
  induction bs generalizing c with
  | nil => simpa [crcLsb] using hc
  | cons b r ih => exact ih (crcByteR_lt hp hc b)

theorem crc32c_lt (bs : List Byte) : crc32c bs < 2 ^ 32 :=
  xor_lt_pow (crcLsb_lt (by decide) (by decide) bs) (by decide)

theorem crc64_lt (bs : List Byte) : crc64 bs < 2 ^ 64 :=
  xor_lt_pow (crcLsb_lt (by decide) (by decide) bs) (by decide)

/-- A message that ends with the check value of what precedes has a good HCRC. -/
theorem hcrcOk_withHcrc (b : List Byte) : hcrcOk (withHcrc b) = true := by
  have h := beAt_mid b [] 4 (crc32c b)
  rw [List.append_nil] at h
  have hl := crc32c_lt b
  simp only [hcrcOk, withHcrc, List.length_append, beBytes_length, Nat.add_sub_cancel, List.take_left, h]
  simp
  omega

/-! ### Sealed cells (11_line_cipher.md R203) -/

@[simp] theorem xorBytes_length (a b : List Byte) : (xorBytes a b).length = min a.length b.length := by simp [xorBytes]

/-- The same bytes XORed twice change nothing. -/
theorem xorBytes_twice (a e : List Byte) (h : a.length ≤ e.length) : xorBytes (xorBytes a e) e = a := by
  induction a generalizing e with
  | nil => rfl
  | cons x r ih =>
    cases e with
    | nil => simp at h
    | cons y t =>
      simp only [xorBytes, List.zipWith_cons_cons, List.cons.injEq] at ih ⊢
      refine ⟨?_, ih t (by simpa using h)⟩
      rw [BitVec.xor_assoc, BitVec.xor_self, BitVec.xor_zero]

/-- One block of the key stream: `e` is the encrypted counter block. -/
theorem gcmStream_succ {t : List Nat} {ks : List (List Nat)} {iv : List Byte} {c k : Nat} {bs e : List Byte}
    (he : (aesBlock t ks ((iv ++ beBytes 4 c).map (·.toNat))).map (BitVec.ofNat 8) = e) (hb : bs ≠ []) :
    gcmStream t ks iv c (k + 1) bs = xorBytes (bs.take 16) e ++ gcmStream t ks iv (c + 1) k (bs.drop 16) := by
  have h : bs.isEmpty = false := by simpa using hb
  simp only [gcmStream, h, he]
  rfl

theorem gcmStream_nil (t : List Nat) (ks : List (List Nat)) (iv : List Byte) (c k : Nat) : gcmStream t ks iv c k [] = [] := by
  cases k <;> simp [gcmStream]

theorem gcmStream_length (t : List Nat) (ks : List (List Nat)) (iv : List Byte) (c fuel : Nat) (bs : List Byte)
    (he : ∀ c, (aesBlock t ks ((iv ++ beBytes 4 c).map (·.toNat))).length = 16) (hf : bs.length ≤ 16 * fuel) :
    (gcmStream t ks iv c fuel bs).length = bs.length := by
  induction fuel generalizing c bs with
  | zero => simp [List.length_eq_zero_iff.mp (Nat.le_zero.mp hf), gcmStream]
  | succ k ih =>
    rcases eq_or_ne bs [] with rfl | hb
    · simp [gcmStream_nil]
    · have hE : ((aesBlock t ks ((iv ++ beBytes 4 c).map (·.toNat))).map (BitVec.ofNat 8)).length = 16 := by rw [List.length_map, he]
      rw [gcmStream_succ rfl hb, List.length_append, ih (c + 1) (bs.drop 16) (by simp; omega), xorBytes_length, hE, List.length_take,
        List.length_drop]
      omega

/-- The key stream XORed twice gives the text back. -/
theorem gcmStream_twice (t : List Nat) (ks : List (List Nat)) (iv : List Byte) (c fuel : Nat) (bs : List Byte)
    (he : ∀ c, (aesBlock t ks ((iv ++ beBytes 4 c).map (·.toNat))).length = 16) (hf : bs.length ≤ 16 * fuel) :
    gcmStream t ks iv c fuel (gcmStream t ks iv c fuel bs) = bs := by
  induction fuel generalizing c bs with
  | zero => simp [List.length_eq_zero_iff.mp (Nat.le_zero.mp hf), gcmStream]
  | succ k ih =>
    rcases eq_or_ne bs [] with rfl | hb
    · simp [gcmStream_nil]
    · have h2 := ih (c + 1) (bs.drop 16) (by simp; omega)
      have hr := gcmStream_length t ks iv (c + 1) k (bs.drop 16) he (by simp; omega)
      have hE : ((aesBlock t ks ((iv ++ beBytes 4 c).map (·.toNat))).map (BitVec.ofNat 8)).length = 16 := by rw [List.length_map, he]
      have e1 := gcmStream_succ (k := k) (c := c) (t := t) (ks := ks) (iv := iv) rfl hb
      generalize hEd : (aesBlock t ks ((iv ++ beBytes 4 c).map (·.toNat))).map (BitVec.ofNat 8) = e at e1 hE
      have hx : (xorBytes (bs.take 16) e).length = min 16 bs.length := by rw [xorBytes_length, hE, List.length_take]; omega
      have hpos : 0 < bs.length := List.length_pos_iff.mpr hb
      have hne : xorBytes (bs.take 16) e ++ gcmStream t ks iv (c + 1) k (bs.drop 16) ≠ [] := by
        intro h
        have h := congrArg List.length h
        rw [List.length_append, hx, List.length_nil] at h
        omega
      rw [List.length_drop] at hr
      rw [e1, gcmStream_succ hEd hne]
      by_cases h16 : 16 ≤ bs.length
      · rw [List.take_append_of_le_length (by omega), List.drop_append_of_le_length (by omega), List.take_of_length_le (by omega),
          List.drop_eq_nil_of_le (by omega), List.nil_append, h2, xorBytes_twice _ _ (by rw [hE, List.length_take]; omega),
          List.take_append_drop]
      · have hnil : gcmStream t ks iv (c + 1) k (bs.drop 16) = [] := List.length_eq_zero_iff.mp (by omega)
        rw [hnil, List.append_nil, List.take_of_length_le (by omega), List.drop_eq_nil_of_le (by omega), gcmStream_nil, List.append_nil,
          xorBytes_twice _ _ (by rw [hE, List.length_take]; omega), List.take_of_length_le (by omega)]

@[simp] theorem aesShift_length (s : List Nat) : (aesShift s).length = 16 := by simp [aesShift]

theorem aesRounds_length (t : List Nat) (ks : List (List Nat)) (s : List Nat) (hk : ks ≠ []) (h : ∀ k ∈ ks, k.length = 16) :
    (aesRounds t ks s).length = 16 := by
  induction ks generalizing s with
  | nil => exact absurd rfl hk
  | cons k r ih =>
    cases r with
    | nil => simp [aesRounds, h k (by simp)]
    | cons k' r' => exact ih _ (by simp) (fun x hx => h x (by simp [hx]))

/-- AES-256 gives 16 bytes when its round keys have 16 bytes. -/
theorem aesBlock_length (t : List Nat) (ks : List (List Nat)) (b : List Nat) (hk : 2 ≤ ks.length) (h : ∀ k ∈ ks, k.length = 16) :
    (aesBlock t ks b).length = 16 := by
  cases ks with
  | nil => simp at hk
  | cons k r =>
    cases r with
    | nil => simp at hk
    | cons k' r' => exact aesRounds_length t _ _ (by simp) (fun x hx => h x (by simp [hx]))

theorem aesExpand_length (t : List Nat) (ws : List (List Nat)) (i n : Nat) (h8 : 8 ≤ ws.length) (h : ∀ w ∈ ws, w.length = 4) :
    (aesExpand t ws i n).length = ws.length + n ∧ ∀ w ∈ aesExpand t ws i n, w.length = 4 := by
  induction n generalizing ws i with
  | zero => exact ⟨rfl, h⟩
  | succ m ih =>
    have hg : ∀ k, k < 8 → (ws.getD k []).length = 4 := by
      intro k hk
      rw [List.getD_eq_getElem _ _ (by omega)]
      exact h _ (List.getElem_mem _)
    rw [aesExpand]
    dsimp only
    have hrot : ((ws.getD 0 []).drop 1 ++ (ws.getD 0 []).take 1).length = 4 := by
      have := hg 0 (by omega)
      simp only [List.length_append, List.length_drop, List.length_take]
      omega
    generalize hnew : List.zipWith Nat.xor _ _ = new
    have hl : new.length = 4 := by
      rw [← hnew, List.length_zipWith, hg 7 (by omega)]
      split
      · generalize hsub : ((ws.getD 0 []).drop 1 ++ (ws.getD 0 []).take 1).map (fun b => t.getD b 0) = sub
        have hs : sub.length = 4 := by rw [← hsub, List.length_map, hrot]
        cases sub with
        | nil => simp at hs
        | cons x r => simp at hs ⊢; omega
      · split
        · rw [List.length_map, hg 0 (by omega)]; rfl
        · rw [hg 0 (by omega)]; rfl
    have := ih (new :: ws) (i + 1) (by simp; omega) (by simpa using ⟨hl, h⟩)
    refine ⟨this.1.trans (by simp; omega), this.2⟩

theorem chunksOf_length {α : Type} (n fuel : Nat) (l : List α) (hn : 0 < n) (hl : l.length = n * fuel) :
    (chunksOf n fuel l).length = fuel ∧ ∀ c ∈ chunksOf n fuel l, c.length = n := by
  induction fuel generalizing l with
  | zero => simp [chunksOf]
  | succ k ih =>
    have hl' : l.length = n * k + n := by rw [hl]; exact Nat.mul_succ n k
    have hd := ih (l.drop n) (by rw [List.length_drop, hl']; omega)
    have hne : l ≠ [] := by intro h; rw [h] at hl'; simp at hl'; omega
    cases l with
    | nil => exact absurd rfl hne
    | cons x r =>
      simp only [chunksOf]
      refine ⟨by simpa using hd.1, ?_⟩
      intro c hc
      rcases List.mem_cons.mp hc with rfl | hc
      · rw [List.length_take, hl']; omega
      · exact hd.2 c hc

/-- A 32-byte key expands to 15 round keys of 16 bytes. -/
theorem aesKeys_length (t : List Nat) (key : List Byte) (h : key.length = 32) :
    (aesKeys t key).length = 15 ∧ ∀ k ∈ aesKeys t key, k.length = 16 := by
  have hc := chunksOf_length 4 8 (key.map (·.toNat)) (by decide) (by rw [List.length_map, h])
  have he := aesExpand_length t (chunksOf 4 8 (key.map (·.toNat))).reverse 8 52 (by rw [List.length_reverse, hc.1])
    (fun w hw => hc.2 w (List.mem_reverse.mp hw))
  refine chunksOf_length 16 15 _ (by decide) ?_
  rw [List.length_flatten]
  have hs : ∀ l : List (List Nat), (∀ w ∈ l, w.length = 4) → (l.map List.length).sum = 4 * l.length := by
    intro l
    induction l with
    | nil => simp
    | cons a r ih =>
      intro hl
      rw [List.map_cons, List.sum_cons, ih (fun w hw => hl w (List.mem_cons_of_mem _ hw)), hl a List.mem_cons_self, List.length_cons]
      omega
  rw [hs _ (fun w hw => he.2 w (List.mem_reverse.mp hw)), List.length_reverse, he.1, List.length_reverse, hc.1]

theorem aesKeys_block (key : List Byte) (h : key.length = 32) (b : List Nat) : (aesBlock aesTable (aesKeys aesTable key) b).length = 16 :=
  aesBlock_length _ _ _ (by rw [(aesKeys_length _ _ h).1]; decide) (aesKeys_length _ _ h).2

theorem gcmText_length (key iv bs : List Byte) (h : key.length = 32) : (gcmText key iv bs).length = bs.length :=
  gcmStream_length _ _ _ _ _ _ (fun _ => aesKeys_block key h _) (by omega)

/-- Encryption and decryption are one. -/
theorem gcmText_twice (key iv bs : List Byte) (h : key.length = 32) : gcmText key iv (gcmText key iv bs) = bs := by
  rw [gcmText, gcmText_length key iv bs h]
  exact gcmStream_twice _ _ _ _ _ _ (fun _ => aesKeys_block key h _) (by omega)

theorem gcmTag_length (key iv aad ct : List Byte) (h : key.length = 32) : (gcmTag key iv aad ct).length = 16 := by
  rw [gcmTag, xorBytes_length, List.length_map, aesKeys_block key h, beBytes_length]
  rfl

/-- What opening a cell of header `h`, ciphertext `ct` and tag `g` gives. -/
theorem unsealCell_parts (k : KeySlot) (h ct g : List Byte) (hh : h.length = 28) (hg : g.length = 16) :
    unsealCell k (h ++ (ct ++ g)) = if gcmTag k.key (cellIv k.salt (beAt h 20 8)) (h.drop 4) ct = g then
      some (gcmText k.key (cellIv k.salt (beAt h 20 8)) ct) else none := by
  have hctr : beAt (h ++ (ct ++ g)) 20 8 = beAt h 20 8 := by rw [beAt, bytesAt_append_left _ _ _ _ (by omega), beAt]
  have hlen : (h ++ (ct ++ g)).length = 44 + ct.length := by simp only [List.length_append, hh, hg]; omega
  have h5 : ((h ++ (ct ++ g)).drop 28).take (44 + ct.length - 44) = ct := by
    rw [List.drop_left' hh]
    exact List.take_left' (by omega)
  have h6 : (h ++ (ct ++ g)).drop (44 + ct.length - 16) = g := by
    rw [← List.append_assoc]
    exact List.drop_left' (by rw [List.length_append]; omega)
  simp only [unsealCell, hctr, hlen, List.take_left' hh, h5, h6]

theorem sealCell_parts (k : KeySlot) (ctr : Nat) (plain : List Byte) :
    sealCell k ctr plain = plain.take 28 ++ (gcmText k.key (cellIv k.salt ctr) (plain.drop 28) ++
      gcmTag k.key (cellIv k.salt ctr) ((plain.take 28).drop 4) (gcmText k.key (cellIv k.salt ctr) (plain.drop 28))) := by
  rw [sealCell, List.append_assoc]

theorem sealCell_length (k : KeySlot) (ctr : Nat) (plain : List Byte) (hk : k.key.length = 32) (hp : 28 ≤ plain.length) :
    (sealCell k ctr plain).length = plain.length + 16 := by
  rw [sealCell_parts, List.length_append, List.length_append, gcmText_length _ _ _ hk, gcmTag_length _ _ _ _ hk, List.length_take,
    List.length_drop]
  omega

/-- A cell opens under the slot that sealed it (11_line_cipher.md R203). -/
theorem unsealCell_sealCell (k : KeySlot) (plain : List Byte) (hk : k.key.length = 32) (hp : 28 ≤ plain.length) :
    unsealCell k (sealCell k (beAt plain 20 8) plain) = some (plain.drop 28) := by
  have hctr : beAt (plain.take 28) 20 8 = beAt plain 20 8 := by
    conv_rhs => rw [← List.take_append_drop 28 plain]
    rw [beAt, beAt, bytesAt_append_left _ _ _ _ (by rw [List.length_take]; omega)]
  rw [sealCell_parts, unsealCell_parts _ _ _ _ (by rw [List.length_take]; omega) (gcmTag_length _ _ _ _ hk), hctr, if_pos rfl,
    gcmText_twice _ _ _ hk]

/-- A cell whose tag is another than the one it was sealed with does not open. -/
theorem unsealCell_badTag (k : KeySlot) (plain g : List Byte) (hp : 28 ≤ plain.length) (hl : g.length = 16)
    (hg : g ≠ gcmTag k.key (cellIv k.salt (beAt plain 20 8)) ((plain.take 28).drop 4)
      (gcmText k.key (cellIv k.salt (beAt plain 20 8)) (plain.drop 28))) :
    unsealCell k (plain.take 28 ++ (gcmText k.key (cellIv k.salt (beAt plain 20 8)) (plain.drop 28) ++ g)) = none := by
  have hctr : beAt (plain.take 28) 20 8 = beAt plain 20 8 := by
    conv_rhs => rw [← List.take_append_drop 28 plain]
    rw [beAt, beAt, bytesAt_append_left _ _ _ _ (by rw [List.length_take]; omega)]
  rw [unsealCell_parts _ _ _ _ (by rw [List.length_take]; omega) hl, hctr, if_neg (Ne.symm hg)]

/-- A cell under a valid slot, with a counter not yet seen, is good when it opens and fails when it does not (R206, R211). -/
theorem State.checkCell_opened (s : State) (n : Nat) (cell : List Byte) (k : KeySlot) (hk : (s.sa n).slot (beAt cell 16 4 % 2) = k)
    (h1 : (!(k.state = .rxValid || k.state = .rxHold) || decide (k.epoch ≠ beAt cell 16 4)) = false)
    (h2 : ¬(beAt cell 20 8 = 0 ∨ beAt cell 20 8 + 8192 ≤ k.highest ∨ k.seen.contains (beAt cell 20 8) = true)) :
    s.checkCell n cell false = match unsealCell k cell with
      | none => .tagFail
      | some b => .good (beAt cell 16 4 % 2) b := by
  subst hk
  simp only [State.checkCell]
  rw [if_neg (by simpa using h1), if_neg h2]
  rfl

/-! ### Delineation (09_routes_striping_resequencing.md R176) -/

/-- In SYNC, a whole cell at the front of the received bytes is taken. -/
theorem delineate_sync (rx : List (Byte × Bool)) (p fuel lost : Nat) (hh : headerAt rx = some (some p)) (hp : p ≠ 0) (hl : rx.length = 4 + p) :
    delineate .sync rx lost (fuel + 1) = { state := .sync, rx := [], cell := some rx, lost := lost } := by
  obtain ⟨q, rfl⟩ := Nat.exists_eq_succ_of_ne_zero hp
  simp only [delineate, hh]
  rw [if_neg (by omega), List.drop_eq_nil_of_le (by omega), List.take_of_length_le (by omega)]


/-- What a core header says depends on its four bytes alone. -/
theorem headerAt_take (rx : List (Byte × Bool)) : headerAt rx = headerAt (rx.take 4) := by
  simp only [headerAt, List.take_take, Nat.min_self]

/-- A port in SYNC takes the one whole cell that it has received. -/
theorem State.nextCell_sync (s : State) (p q : Nat) (cell : List (Byte × Bool)) (hs : (s.port p).delin = .sync) (hr : (s.port p).rx = cell)
    (hh : headerAt cell = some (some q)) (hq : q ≠ 0) (hl : cell.length = 4 + q) :
    s.nextCell p = (some cell, (s.setPort p { s.port p with delin := .sync, rx := [] }).bumpBy (A.routeCnt 0) 0) := by
  simp only [State.nextCell, hs, hr, delineate_sync cell q (2 * cell.length + 1) 0 hh hq hl]

end Sys2Proof.Machine
end

