-- ==== Sys2Proof/Laws/Memory.lean ====
section
/-! SUPPORT. Every operation over bytes of memory and over registers keeps the canonical form, and reads after an erasure or a copy. -/
namespace Sys2Proof.Machine

/-! ### Erasing and copying ranges -/

section
variable {d : Nat → Byte}

theorem Sparse.wf_eraseRange {m : Sparse Byte} (a n : Nat) (h : Sparse.wf d m = true) : Sparse.wf d (eraseRange m a n) = true :=
  Sparse.wf_filter d _ h

/-- Entries that are not what an unlisted key reads as, inserted anywhere, keep the canonical form of a map whose unlisted keys all
read alike. -/
theorem Sparse.wf_foldl_insert (hd : ∀ a b, d a = d b) (f : Nat → Nat) (es m : Sparse Byte) (he : ∀ e ∈ es, e.2 ≠ d e.1)
    (h : Sparse.wf d m = true) : Sparse.wf d (es.foldl (fun acc e => acc.insert (f e.1) e.2) m) = true := by
  induction es generalizing m with
  | nil => exact h
  | cons e r ih =>
    refine ih _ (fun x hx => he x (List.mem_cons_of_mem _ hx)) (Sparse.wf_insert d h ?_)
    rw [hd (f e.1) e.1]
    exact he e List.mem_cons_self

theorem Sparse.wf_copySparse (hd : ∀ a b, d a = d b) {m : Sparse Byte} (src dst n : Nat) (h : Sparse.wf d m = true) :
    Sparse.wf d (copySparse m src dst n) = true :=
  Sparse.wf_foldl_insert hd (fun k => k - src + dst) _ _
    (fun _ he => (Sparse.ne_of_mem d h (List.mem_of_mem_filter he)).2.1) (Sparse.wf_filter d _ h)

theorem Sparse.wf_moveSparse (hd : ∀ a b, d a = d b) {x y : Sparse Byte} (a b n : Nat) (hx : Sparse.wf d x = true)
    (hy : Sparse.wf d y = true) : Sparse.wf d (moveSparse x y a b n) = true :=
  Sparse.wf_foldl_insert hd (fun k => k - a + b) _ _
    (fun _ he => (Sparse.ne_of_mem d hx (List.mem_of_mem_filter he)).2.1) (Sparse.wf_eraseRange b n hy)

/-- An erased range reads as nothing had been written; every other place reads as before. -/
theorem Sparse.get_eraseRange (m : Sparse Byte) (a n k : Nat) :
    Sparse.get d (eraseRange m a n) k = if a ≤ k ∧ k < a + n then d k else Sparse.get d m k := by
  induction m with
  | nil => simp [eraseRange, Sparse.get]
  | cons e r ih =>
    obtain ⟨j, v⟩ := e
    unfold eraseRange at ih ⊢
    by_cases hj : a ≤ j ∧ j < a + n
    · rw [List.filter_cons_of_neg (by simp [hj]), ih]
      by_cases hk : a ≤ k ∧ k < a + n
      · simp [hk]
      · have : j ≠ k := fun h => hk (h ▸ hj)
        simp [hk, Sparse.get, this]
    · rw [List.filter_cons_of_pos (by simp; omega)]
      simp only [Sparse.get, ih]
      by_cases hjk : j = k
      · subst hjk; simp [hj]
      · simp [hjk]

end

theorem zeroByte_alike (a b : Nat) : zeroByte a = zeroByte b := rfl

/-! ### State's memories -/

theorem State.memoryForm_iff (s : State) : s.memoryForm = true ↔
    s.gallery.wf zeroByte = true ∧ s.bar4.wf zeroByte = true ∧ s.hostMem.wf zeroByte = true ∧ s.flash.wf erasedByte = true ∧
      s.bootMem.wf zeroByte = true := by simp [State.memoryForm, and_assoc]

theorem State.registerForm_iff (s : State) :
    s.registerForm = true ↔ s.regs.wf regReset = true ∧ s.staged.wf regReset = true := by simp [State.registerForm]

/-- Nothing but the five memories bears on their form. -/
theorem State.memoryForm_congr {s t : State} (hg : t.gallery = s.gallery) (hb : t.bar4 = s.bar4) (hh : t.hostMem = s.hostMem)
    (hf : t.flash = s.flash) (hm : t.bootMem = s.bootMem) : t.memoryForm = s.memoryForm := by
  simp [State.memoryForm, hg, hb, hh, hf, hm]

theorem State.memoryForm_galWrite {s : State} (a : Nat) (bs : List Byte) (h : s.memoryForm = true) :
    (s.galWrite a bs).memoryForm = true := by
  rw [State.memoryForm_iff] at h ⊢
  exact ⟨Sparse.wf_putList zeroByte bs a h.1, h.2⟩

theorem State.memoryForm_bar4Write {s : State} (a : Nat) (bs : List Byte) (h : s.memoryForm = true) :
    (s.bar4Write a bs).memoryForm = true := by
  rw [State.memoryForm_iff] at h ⊢
  exact ⟨h.1, Sparse.wf_putList zeroByte bs a h.2.1, h.2.2⟩

theorem State.memoryForm_hostWrite {s : State} (a : Nat) (bs : List Byte) (h : s.memoryForm = true) :
    (s.hostWrite a bs).memoryForm = true := by
  rw [State.memoryForm_iff] at h ⊢
  exact ⟨h.1, h.2.1, Sparse.wf_putList zeroByte bs a h.2.2.1, h.2.2.2⟩

theorem State.memoryForm_flashWrite {s : State} (a : Nat) (bs : List Byte) (h : s.memoryForm = true) :
    (s.flashWrite a bs).memoryForm = true := by
  rw [State.memoryForm_iff] at h ⊢
  exact ⟨h.1, h.2.1, h.2.2.1, Sparse.wf_putList erasedByte bs a h.2.2.2.1, h.2.2.2.2⟩

theorem State.memoryForm_bootWrite {s : State} (a : Nat) (bs : List Byte) (h : s.memoryForm = true) :
    (s.bootWrite a bs).memoryForm = true := by
  rw [State.memoryForm_iff] at h ⊢
  exact ⟨h.1, h.2.1, h.2.2.1, h.2.2.2.1, Sparse.wf_putList zeroByte bs a h.2.2.2.2⟩

theorem State.memOf_wf {s : State} (addr : Nat) (h : s.memoryForm = true) : (s.memOf addr).wf zeroByte = true := by
  rw [State.memoryForm_iff] at h
  unfold State.memOf
  split
  · exact h.1
  · exact h.2.2.1

theorem State.memoryForm_setMem {s : State} (addr n : Nat) {m : Sparse Byte} (hm : m.wf zeroByte = true) (h : s.memoryForm = true) :
    (s.setMem addr n m).memoryForm = true := by
  unfold State.setMem
  rw [State.memoryForm_iff] at h
  split
  · exact (State.memoryForm_iff _).mpr ⟨hm, h.2⟩
  · exact (State.memoryForm_iff _).mpr ⟨h.1, h.2.1, hm, h.2.2.2⟩

theorem State.memoryForm_copyBytes {s : State} (src dst n : Nat) (h : s.memoryForm = true) :
    (s.copyBytes src dst n).memoryForm = true :=
  State.memoryForm_setMem dst n
    (Sparse.wf_moveSparse zeroByte_alike _ _ n (State.memOf_wf src h) (State.memOf_wf dst h)) h

theorem State.memoryForm_fillBytes {s : State} (dst n pattern : Nat) (h : s.memoryForm = true) :
    (s.fillBytes dst n pattern).memoryForm = true := by
  refine State.memoryForm_setMem dst n ?_ h
  have he := Sparse.wf_eraseRange (placeOf dst) n (State.memOf_wf dst h)
  split
  · exact he
  · exact Sparse.wf_putList zeroByte _ _ he

theorem State.memoryForm_moveTable {s : State} (old new : Nat) (h : s.memoryForm = true) :
    (s.moveTable old new).memoryForm = true := by
  rw [State.memoryForm_iff] at h ⊢
  exact ⟨Sparse.wf_copySparse zeroByte_alike old new tableBytes h.1, h.2⟩

theorem State.memoryForm_installGroups {s : State} (table : Sparse Byte) (h : s.memoryForm = true) :
    (s.installGroups table).memoryForm = true := by
  rw [State.memoryForm_iff] at h ⊢
  exact ⟨Sparse.wf_foldl_put zeroByte _ _ table (Sparse.wf_eraseRange _ _ h.1), h.2⟩

/-! ### Registers -/

theorem State.registerForm_setReg {s : State} (a : Nat) (v : Word) (h : s.registerForm = true) : (s.setReg a v).registerForm = true := by
  rw [State.registerForm_iff] at h ⊢
  exact ⟨Sparse.wf_put regReset a v h.1, h.2⟩

theorem State.registerForm_setSreg {s : State} (a : Nat) (v : Word) (h : s.registerForm = true) :
    (s.setSreg a v).registerForm = true := by
  rw [State.registerForm_iff] at h ⊢
  exact ⟨h.1, Sparse.wf_put regReset a v h.2⟩

theorem State.registerForm_setF {s : State} (a lo n v : Nat) (h : s.registerForm = true) : (s.setF a lo n v).registerForm = true :=
  State.registerForm_setReg a _ h

theorem State.registerForm_setB {s : State} (a lo : Nat) (v : Bool) (h : s.registerForm = true) : (s.setB a lo v).registerForm = true :=
  State.registerForm_setReg a _ h

theorem State.registerForm_bumpBy {s : State} (a n : Nat) (h : s.registerForm = true) : (s.bumpBy a n).registerForm = true :=
  State.registerForm_setReg a _ h

theorem State.registerForm_bumpIf {s : State} (c : Bool) (a : Nat) (h : s.registerForm = true) : (s.bumpIf c a).registerForm = true := by
  cases c
  · exact h
  · exact State.registerForm_bumpBy a 1 h

theorem State.registerForm_setReg64 {s : State} (lo hi v : Nat) (h : s.registerForm = true) : (s.setReg64 lo hi v).registerForm = true :=
  State.registerForm_setReg hi _ (State.registerForm_setReg lo _ h)

theorem State.registerForm_sendVector {s : State} (v : Nat) (h : s.registerForm = true) : (s.sendVector v).registerForm = true :=
  State.registerForm_setB _ _ _ h

theorem State.registerForm_raiseVector {s : State} (v : Nat) (h : s.registerForm = true) : (s.raiseVector v).registerForm = true := by
  unfold State.raiseVector
  split
  · exact State.registerForm_setB _ _ _ h
  · exact State.registerForm_sendVector v h

theorem State.registerForm_raiseError {s : State} (src : Nat) (h : s.registerForm = true) : (s.raiseError src).registerForm = true := by
  unfold State.raiseError
  have h1 := State.registerForm_setB A.errVecStatus src true h
  dsimp only
  split
  · exact h1
  · exact State.registerForm_raiseVector _ h1

theorem State.registerForm_logEvent {s : State} (e : Event) (h : s.registerForm = true) : (s.logEvent e).registerForm = true := by
  unfold State.logEvent
  have h1 : (s.appendLog (s.entryOf e)).registerForm = true := by
    unfold State.appendLog
    exact State.registerForm_bumpIf _ _ h
  dsimp only
  split
  · exact State.registerForm_raiseError _ h1
  · exact h1

end Sys2Proof.Machine
end

