-- ==== Sys2Proof/Laws/Ops.lean ====
section
/-! SUPPORT. What the shared operations can do: vectors, the error log, register-access errors and criteria change registers of the
report kind, the log and the faces, and nothing else. -/
namespace Sys2Proof.Machine

/-- Everything but the registers, the error log and the faces stays. -/
def OnlyReports (s t : State) : Prop :=
  SameRegsBut isReportReg s t ∧ SameBytes s t ∧ SameEngines s t ∧ SameLines s t ∧ SameLight s t ∧ SameBase s t ∧
    t.pending = s.pending ∧ t.freeCtr = s.freeCtr ∧ t.host = s.host ∧ t.rlatch = s.rlatch ∧ t.commits = s.commits

theorem OnlyReports.refl (s : State) : OnlyReports s s := by
  simp [OnlyReports, SameRegsBut, SameBytes, SameEngines, SameLines, SameLight, SameBase]

theorem OnlyReports.trans {s t u : State} (h : OnlyReports s t) (g : OnlyReports t u) : OnlyReports s u := by
  simp only [OnlyReports, SameRegsBut, SameBytes, SameEngines, SameLines, SameLight, SameBase] at h g ⊢
  refine ⟨fun a ha => ?_, ?_⟩
  · exact ⟨(g.1 a ha).1.trans (h.1 a ha).1, (g.1 a ha).2.trans (h.1 a ha).2⟩
  · simp_all

/-- Setting a register of the report kind. -/
theorem OnlyReports.setReg (s : State) (a : Nat) (v : Word) (h : isReportReg a = true) : OnlyReports s (s.setReg a v) := by
  refine ⟨fun b hb => ⟨State.reg_setReg_ne s v (fun e => by rw [e, h] at hb; cases hb), rfl⟩, ?_⟩
  exact ⟨⟨fun _ => rfl, fun _ => rfl, fun _ => rfl, fun _ => rfl, fun _ => rfl⟩, ⟨rfl, rfl, rfl, rfl, rfl, rfl⟩, ⟨rfl, rfl, rfl, rfl⟩,
    ⟨rfl, rfl⟩, ⟨rfl, rfl, rfl, rfl, rfl, rfl⟩, rfl, rfl, rfl, rfl, rfl⟩

theorem OnlyReports.setB (s : State) (a lo : Nat) (v : Bool) (h : isReportReg a = true) : OnlyReports s (s.setB a lo v) :=
  OnlyReports.setReg s a _ h

theorem OnlyReports.emit (s : State) (e : Sent) : OnlyReports s (s.emit e) :=
  ⟨fun _ _ => ⟨rfl, rfl⟩, ⟨fun _ => rfl, fun _ => rfl, fun _ => rfl, fun _ => rfl, fun _ => rfl⟩, ⟨rfl, rfl, rfl, rfl, rfl, rfl⟩,
    ⟨rfl, rfl, rfl, rfl⟩, ⟨rfl, rfl⟩, ⟨rfl, rfl, rfl, rfl, rfl, rfl⟩, rfl, rfl, rfl, rfl, rfl⟩

/-- A pending bit of a vector that exists is a register of the report kind. -/
theorem isReportReg_pba {v : Nat} (h : v < 512) : isReportReg (A.topMsixPba (v / 32)) = true := by
  unfold isReportReg A.topMsixPba
  have : v / 32 < 16 := by omega
  simp
  omega

/-- Raising a vector that exists (R340). -/
theorem OnlyReports.raiseVector (s : State) {v : Nat} (h : v < 512) : OnlyReports s (s.raiseVector v) := by
  unfold State.raiseVector State.sendVector
  split
  · exact OnlyReports.setB s _ _ _ (isReportReg_pba h)
  · exact (OnlyReports.setB s _ _ _ (isReportReg_pba h)).trans (OnlyReports.emit _ _)

/-- Raising the error vector (R347). -/
theorem OnlyReports.raiseError (s : State) (src : Nat) : OnlyReports s (s.raiseError src) := by
  unfold State.raiseError
  have h1 := OnlyReports.setB s A.errVecStatus src true (by decide)
  dsimp only
  split
  · exact h1
  · exact h1.trans (OnlyReports.raiseVector _ (by unfold State.f; exact fld_lt _ 0 9))

/-- An entry of the error log: appended with the next sequence number, and the vector raised where its rule says so (R346, R347). -/
theorem OnlyReports.logEvent (s : State) (e : Event) : OnlyReports s (s.logEvent e) := by
  unfold State.logEvent
  have h1 : OnlyReports s (s.appendLog (s.entryOf e)) := by
    have hl : ∀ l : ErrLog, OnlyReports s { s with log := l } := fun _ =>
      ⟨fun _ _ => ⟨rfl, rfl⟩, ⟨fun _ => rfl, fun _ => rfl, fun _ => rfl, fun _ => rfl, fun _ => rfl⟩,
        ⟨rfl, rfl, rfl, rfl, rfl, rfl⟩, ⟨rfl, rfl, rfl, rfl⟩, ⟨rfl, rfl⟩, ⟨rfl, rfl, rfl, rfl, rfl, rfl⟩, rfl, rfl, rfl, rfl, rfl⟩
    unfold State.appendLog State.bumpIf
    dsimp only
    split
    · exact (hl _).trans (OnlyReports.setReg _ _ _ (by decide))
    · exact hl _
  dsimp only
  split
  · exact h1.trans (OnlyReports.raiseError _ _)
  · exact h1

/-- A register-access error (R353). -/
theorem OnlyReports.accessError (s : State) (kind offset : Nat) : OnlyReports s (s.accessError kind offset) := by
  unfold State.accessError
  have h1 : OnlyReports s (s.bump A.errAccessCount) := OnlyReports.setReg s _ _ (by decide)
  dsimp only
  split
  · exact h1
  · exact ((h1.trans (OnlyReports.setReg _ _ _ (by decide))).trans (OnlyReports.setReg _ _ _ (by decide))).trans
      (OnlyReports.logEvent _ _)

/-- A replacement criterion (R354). -/
theorem OnlyReports.replaceCriterion (s : State) (why : Nat) : OnlyReports s (s.replaceCriterion why) := by
  unfold State.replaceCriterion
  split
  · exact OnlyReports.refl s
  · exact ((OnlyReports.setB s _ _ _ (by decide)).trans (OnlyReports.setB _ _ _ _ (by decide))).trans (OnlyReports.logEvent _ _)

/-- The sequence number of the log moves by one at every entry. -/
theorem State.logEvent_seq (s : State) (e : Event) : (s.logEvent e).log.seq = (s.log.seq + 1) % 0x100000000 := by
  have hv : ∀ (t : State) (v : Nat), (t.raiseVector v).log = t.log := by
    intro t v; unfold State.raiseVector State.sendVector; split <;> rfl
  have hr : ∀ (t : State) (n : Nat), (t.raiseError n).log = t.log := by
    intro t n; unfold State.raiseError; dsimp only; split
    · rfl
    · rw [hv]; rfl
  have ha : (s.appendLog (s.entryOf e)).log.seq = (s.log.seq + 1) % 0x100000000 := by
    unfold State.appendLog State.bumpIf
    dsimp only
    split <;> rfl
  unfold State.logEvent
  dsimp only
  split
  · rw [hr]; exact ha
  · exact ha

end Sys2Proof.Machine
end

