-- ==== Sys2Proof/Laws/PerInstr.lean ====
section
/-! SUPPORT. Facts about each command as syntax. spec/opcode_table.json gives no row any bits, so no word spells any command. -/
namespace Sys2Proof.Laws.NotSpelled

/-- No word of the table spells the command. -/
def Statement (i : Instr) : Prop := ∀ nbits w, decodeTableWord nbits w ≠ some i

theorem none_spells (i : Instr) : Statement i := fun _ _ h => nomatch h

theorem registerWrite (addr size : Nat) (value : Word) (poisoned : Bool) : Statement (.registerWrite addr size value poisoned) := none_spells _
theorem latchingRegisterRead (addr : Nat) : Statement (.latchingRegisterRead addr) := none_spells _
theorem commitGo (blk : Block) : Statement (.commitGo blk) := none_spells _
theorem commitCheckDone (blk : Block) : Statement (.commitCheckDone blk) := none_spells _
theorem commitTakesEffect (blk : Block) : Statement (.commitTakesEffect blk) := none_spells _
theorem queueEnable (q : Fin 64) (value : Word) : Statement (.queueEnable q value) := none_spells _
theorem queueDisable (q : Fin 64) (value : Word) : Statement (.queueDisable q value) := none_spells _
theorem queueCancel (q : Fin 64) (value : Word) : Statement (.queueCancel q value) := none_spells _
theorem sqTailWrite (q : Fin 64) (tail : Word) (before : List (Nat × List Byte)) : Statement (.sqTailWrite q tail before) := none_spells _
theorem cqHeadWrite (q : Fin 64) (head : Word) : Statement (.cqHeadWrite q head) := none_spells _
theorem descriptorFetch (q : Fin 64) (bad : Option (Fin 8)) : Statement (.descriptorFetch q bad) := none_spells _
theorem tokenCountWrite (n : Fin 256) (value : Word) : Statement (.tokenCountWrite n value) := none_spells _
theorem allreduce (q : Fin 64) : Statement (.allreduce q) := none_spells _
theorem reduceScatter (q : Fin 64) : Statement (.reduceScatter q) := none_spells _
theorem allgather (q : Fin 64) : Statement (.allgather q) := none_spells _
theorem broadcast (q : Fin 64) : Statement (.broadcast q) := none_spells _
theorem reduce (q : Fin 64) : Statement (.reduce q) := none_spells _
theorem step (q : Fin 64) : Statement (.step q) := none_spells _
theorem norm (q : Fin 64) : Statement (.norm q) := none_spells _
theorem send (q : Fin 64) : Statement (.send q) := none_spells _
theorem recv (q : Fin 64) : Statement (.recv q) := none_spells _
theorem barrier (q : Fin 64) : Statement (.barrier q) := none_spells _
theorem vstep (q : Fin 64) : Statement (.vstep q) := none_spells _
theorem vstepChunkDone (q : Fin 64) (index : Word) (chunk samples : Nat) (faults : List (Nat × Nat)) : Statement (.vstepChunkDone q index chunk samples faults) := none_spells _
theorem copy (q : Fin 64) : Statement (.copy q) := none_spells _
theorem fill (q : Fin 64) : Statement (.fill q) := none_spells _
theorem xfeTransferDone (q : Fin 64) (index : Word) (hostFail : Option Nat) : Statement (.xfeTransferDone q index hostFail) := none_spells _
theorem chunkReceive (src : ChunkSource) : Statement (.chunkReceive src) := none_spells _
theorem chunkArithmeticDone (group : Fin 4096) (chunk samples : Nat) (faults : List (Nat × Nat)) (ecc : LandingEcc) : Statement (.chunkArithmeticDone group chunk samples faults ecc) := none_spells _
theorem shadowCompareDone (n : Nat) (result : Option LaneMismatch) : Statement (.shadowCompareDone n result) := none_spells _
theorem chunkRecomputeDone (n : Nat) (agree : Agreement) : Statement (.chunkRecomputeDone n agree) := none_spells _
theorem laneRetire : Statement (.laneRetire) := none_spells _
theorem rueShadowCtrlWrite (value : Word) : Statement (.rueShadowCtrlWrite value) := none_spells _
theorem openReceive (line : Bool) (msg : List Byte) : Statement (.openReceive line msg) := none_spells _
theorem resendReceive (line : Bool) (msg : List Byte) : Statement (.resendReceive line msg) := none_spells _
theorem notRetainedReceive (line : Bool) (msg : List Byte) : Statement (.notRetainedReceive line msg) := none_spells _
theorem abortReceive (line : Bool) (msg : List Byte) : Statement (.abortReceive line msg) := none_spells _
theorem arriveReceive (line : Bool) (msg : List Byte) : Statement (.arriveReceive line msg) := none_spells _
theorem normSumReceive (line : Bool) (msg : List Byte) : Statement (.normSumReceive line msg) := none_spells _
theorem creditReceive (node : Nat) (body : List Byte) : Statement (.creditReceive node body) := none_spells _
theorem creditRefresh (group : Fin 4096) : Statement (.creditRefresh group) := none_spells _
theorem resendTimeout (group : Fin 4096) (chunk slot : Nat) : Statement (.resendTimeout group chunk slot) := none_spells _
theorem progressTimeout (group : Fin 4096) : Statement (.progressTimeout group) := none_spells _
theorem routeLossHoldExpire (group : Fin 4096) : Statement (.routeLossHoldExpire group) := none_spells _
theorem keyLossHoldExpire (group : Fin 4096) : Statement (.keyLossHoldExpire group) := none_spells _
theorem cleAbortGo (value : Word) : Statement (.cleAbortGo value) := none_spells _
theorem mapRelease (n : Fin 16) : Statement (.mapRelease n) := none_spells _
theorem keepExpire : Statement (.keepExpire) := none_spells _
theorem retentionExpire : Statement (.retentionExpire) := none_spells _
theorem retentionRoomFreed : Statement (.retentionRoomFreed) := none_spells _
theorem allocRetry : Statement (.allocRetry) := none_spells _
theorem scrubPatrolRead (addr symbols bank row : Nat) : Statement (.scrubPatrolRead addr symbols bank row) := none_spells _
theorem rowRepairDone : Statement (.rowRepairDone) := none_spells _
theorem channelRetireDone (chan : Fin 192) : Statement (.channelRetireDone chan) := none_spells _
theorem refillStart (n : Fin 4) (value : Word) : Statement (.refillStart n value) := none_spells _
theorem refillStop (n : Fin 4) (value : Word) : Statement (.refillStop n value) := none_spells _
theorem refillRequestReceive (node : Nat) (msg : List Byte) : Statement (.refillRequestReceive node msg) := none_spells _
theorem refillUnitReceive (node : Nat) (msg : List Byte) : Statement (.refillUnitReceive node msg) := none_spells _
theorem refillAckReceive (node : Nat) (msg : List Byte) : Statement (.refillAckReceive node msg) := none_spells _
theorem refillEndReceive (node : Nat) (msg : List Byte) : Statement (.refillEndReceive node msg) := none_spells _
theorem refillRequestTimer (n : Fin 4) : Statement (.refillRequestTimer n) := none_spells _
theorem refillAckTimer (n : Fin 4) : Statement (.refillAckTimer n) := none_spells _
theorem refillPeerLost (n : Fin 4) : Statement (.refillPeerLost n) := none_spells _
theorem refillKeyTimeout (n : Fin 4) : Statement (.refillKeyTimeout n) := none_spells _
theorem bar2Read (offset len : Nat) : Statement (.bar2Read offset len) := none_spells _
theorem bar2Write (offset : Nat) (bytes : List Byte) (poisoned : Bool) : Statement (.bar2Write offset bytes poisoned) := none_spells _
theorem bar2BaseWrite (value : Word) : Statement (.bar2BaseWrite value) := none_spells _
theorem spanFrameReceive (port : Fin 16) (frame : List Byte) (fec : FecCounts) : Statement (.spanFrameReceive port frame fec) := none_spells _
theorem spanFrameTransmit (port : Fin 16) : Statement (.spanFrameTransmit port) := none_spells _
theorem lineSignalLoss (port : Fin 16) : Statement (.lineSignalLoss port) := none_spells _
theorem lineSignalRestore (port : Fin 16) : Statement (.lineSignalRestore port) := none_spells _
theorem dlofDeclareTimer (port : Fin 16) : Statement (.dlofDeclareTimer port) := none_spells _
theorem dlofClearTimer (port : Fin 16) : Statement (.dlofClearTimer port) := none_spells _
theorem modrefLoss (port : Fin 16) : Statement (.modrefLoss port) := none_spells _
theorem modrefReturn (port : Fin 16) : Statement (.modrefReturn port) := none_spells _
theorem linePmLatch (port : Fin 16) : Statement (.linePmLatch port) := none_spells _
theorem lineCpmAdd (port : Fin 16) : Statement (.lineCpmAdd port) := none_spells _
theorem moduleInsert (port : Fin 16) : Statement (.moduleInsert port) := none_spells _
theorem moduleRemove (port : Fin 16) : Statement (.moduleRemove port) := none_spells _
theorem moduleInterrupt (port : Fin 16) (flags : ModuleFlags) : Statement (.moduleInterrupt port flags) := none_spells _
theorem modulePoll (port : Fin 16) (flags : ModuleFlags) : Statement (.modulePoll port flags) := none_spells _
theorem moduleReady (port : Fin 16) (advertised : Bool) : Statement (.moduleReady port advertised) := none_spells _
theorem moduleDatapathActivated (port : Fin 16) : Statement (.moduleDatapathActivated port) := none_spells _
theorem moduleResetPulseEnd (port : Fin 16) : Statement (.moduleResetPulseEnd port) := none_spells _
theorem lineEnable (port : Fin 16) (value : Word) : Statement (.lineEnable port value) := none_spells _
theorem lineDisable (port : Fin 16) (value : Word) : Statement (.lineDisable port value) := none_spells _
theorem cmisGo (port : Fin 16) (value : Word) (reply : Option Byte) : Statement (.cmisGo port value reply) := none_spells _
theorem cellReceive (port : Fin 16) (coresAgree : Bool) (retryAgrees : Bool) : Statement (.cellReceive port coresAgree retryAgrees) := none_spells _
theorem nakReceive (node : Nat) (msg : List Byte) : Statement (.nakReceive node msg) := none_spells _
theorem goneReceive (node : Nat) (msg : List Byte) : Statement (.goneReceive node msg) := none_spells _
theorem reportReceive (node : Nat) (msg : List Byte) : Statement (.reportReceive node msg) := none_spells _
theorem goingDownReceive (node : Nat) (port : Fin 16) (msg : List Byte) : Statement (.goingDownReceive node port msg) := none_spells _
theorem stripeDeadline (node vc : Nat) (seq : Nat) : Statement (.stripeDeadline node vc seq) := none_spells _
theorem nakRepeatTimer (node vc : Nat) (seq : Nat) : Statement (.nakRepeatTimer node vc seq) := none_spells _
theorem stripeFillTimeout (node vc : Nat) : Statement (.stripeFillTimeout node vc) := none_spells _
theorem stripeQueueRoom (route queue : Nat) : Statement (.stripeQueueRoom route queue) := none_spells _
theorem reportTimer : Statement (.reportTimer) := none_spells _
theorem delayIntervalEnd : Statement (.delayIntervalEnd) := none_spells _
theorem drefExpire (node route : Nat) : Statement (.drefExpire node route) := none_spells _
theorem orderlyResetGo (value : Word) : Statement (.orderlyResetGo value) := none_spells _
theorem goingDownNoticeExpire : Statement (.goingDownNoticeExpire) := none_spells _
theorem portMarkClear (port : Fin 16) : Statement (.portMarkClear port) := none_spells _
theorem portCellSelect (port : Fin 16) (mismatches : Fin 4) : Statement (.portCellSelect port mismatches) := none_spells _
theorem schedDepthSample : Statement (.schedDepthSample) := none_spells _
theorem schedPmLatch : Statement (.schedPmLatch) := none_spells _
theorem saLoad (value : Word) : Statement (.saLoad value) := none_spells _
theorem saSchedule (value : Word) : Statement (.saSchedule value) := none_spells _
theorem saClear (value : Word) : Statement (.saClear value) := none_spells _
theorem epochSwitch (sa : Fin 512) : Statement (.epochSwitch sa) := none_spells _
theorem rxHolddownExpire (sa : Fin 512) : Statement (.rxHolddownExpire sa) := none_spells _
theorem alarmAssert (asserted : Fin 512) : Statement (.alarmAssert asserted) := none_spells _
theorem keyEraseComplete (ok : Bool) : Statement (.keyEraseComplete ok) := none_spells _
theorem eraseGo (value : Word) : Statement (.eraseGo value) := none_spells _
theorem alarmLatchClear (value : Word) : Statement (.alarmLatchClear value) := none_spells _
theorem pegUpdate (quad : Fin 8) (ring : Fin 136) (error : Int) (inLock : Bool) : Statement (.pegUpdate quad ring error inLock) := none_spells _
theorem pegFineTrim (quad : Fin 8) (ring : Fin 136) (error : Int) : Statement (.pegFineTrim quad ring error) := none_spells _
theorem pegSweepStep (quad : Fin 8) (ring : Fin 136) (crossing : Bool) : Statement (.pegSweepStep quad ring crossing) := none_spells _
theorem localRelockDone (quad : Fin 8) (ring : Fin 136) (ok : Bool) : Statement (.localRelockDone quad ring ok) := none_spells _
theorem spareRingJumpDone (quad : Fin 8) (ring : Fin 136) (ok : Bool) : Statement (.spareRingJumpDone quad ring ok) := none_spells _
theorem heaterReasonClear (quad : Fin 8) : Statement (.heaterReasonClear quad) := none_spells _
theorem laserLightLoss (quad : Fin 8) : Statement (.laserLightLoss quad) := none_spells _
theorem laserLightReturn (quad : Fin 8) : Statement (.laserLightReturn quad) := none_spells _
theorem heaterGrant (quad : Fin 8) : Statement (.heaterGrant quad) := none_spells _
theorem fadeMeasure (quad : Fin 8) (powers : List Int) : Statement (.fadeMeasure quad powers) := none_spells _
theorem spareSourceReady (quad : Fin 8) : Statement (.spareSourceReady quad) := none_spells _
theorem laserSwitch (quad : Fin 8) : Statement (.laserSwitch quad) := none_spells _
theorem laserSwitchRelockDone (quad : Fin 8) : Statement (.laserSwitchRelockDone quad) := none_spells _
theorem laserSwitchStable (quad : Fin 8) : Statement (.laserSwitchStable quad) := none_spells _
theorem laserReferenceCapture (quad : Fin 8) (powers : List Int) : Statement (.laserReferenceCapture quad powers) := none_spells _
theorem laserSwitchCmd (quad : Fin 8) (value : Word) : Statement (.laserSwitchCmd quad value) := none_spells _
theorem laserReturnCmd (quad : Fin 8) (value : Word) : Statement (.laserReturnCmd quad value) := none_spells _
theorem laserReleaseCmd (quad : Fin 8) (value : Word) : Statement (.laserReleaseCmd quad value) := none_spells _
theorem returnPrimaryTimeout (quad : Fin 8) : Statement (.returnPrimaryTimeout quad) := none_spells _
theorem monitorGo (quad : Fin 8) (value : Word) : Statement (.monitorGo quad value) := none_spells _
theorem monitorReadingDone (quad : Fin 8) (reading : Nat) : Statement (.monitorReadingDone quad reading) := none_spells _
theorem optFibreEnable (quad : Fin 8) (value : Word) : Statement (.optFibreEnable quad value) := none_spells _
theorem lcbStatusPoll (source : Fin 10) (reply : Option LaserStatus) : Statement (.lcbStatusPoll source reply) := none_spells _
theorem dflMarkerReceive (fibre : Fin 32) (lane : Fin 16) (marker : List Byte) : Statement (.dflMarkerReceive fibre lane marker) := none_spells _
theorem dflMarkerSend (fibre : Fin 32) : Statement (.dflMarkerSend fibre) := none_spells _
theorem flitReceive (fibre : Fin 32) (lane : Fin 16) (slot : List Byte) : Statement (.flitReceive fibre lane slot) := none_spells _
theorem flitSend (fibre : Fin 32) : Statement (.flitSend fibre) := none_spells _
theorem replayTimeout (fibre : Fin 32) : Statement (.replayTimeout fibre) := none_spells _
theorem laneErrorWindow (fibre : Fin 32) (lane : Fin 16) : Statement (.laneErrorWindow fibre lane) := none_spells _
theorem laneReadmit (fibre : Fin 32) (lane : Fin 16) : Statement (.laneReadmit fibre lane) := none_spells _
theorem linkHoldExpire (fibre : Fin 32) : Statement (.linkHoldExpire fibre) := none_spells _
theorem linkTrainingDone (fibre : Fin 32) : Statement (.linkTrainingDone fibre) := none_spells _
theorem circuitHostPtrWrite (fibre : Fin 32) (circ : Fin 32) (value : Word) : Statement (.circuitHostPtrWrite fibre circ value) := none_spells _
theorem slotEntryBoundary (fibre : Fin 32) : Statement (.slotEntryBoundary fibre) := none_spells _
theorem dflPmLatch : Statement (.dflPmLatch) := none_spells _
theorem concSchedArm (quad : Fin 8) (k : Fin 8) (value : Word) : Statement (.concSchedArm quad k value) := none_spells _
theorem concourseSwitchStart (quad : Fin 8) (k : Fin 8) : Statement (.concourseSwitchStart quad k) := none_spells _
theorem concourseRingSettled (quad : Fin 8) (ring : Fin 256) : Statement (.concourseRingSettled quad ring) := none_spells _
theorem concourseRingTimeout (quad : Fin 8) (ring : Fin 256) : Statement (.concourseRingTimeout quad ring) := none_spells _
theorem syncSend : Statement (.syncSend) := none_spells _
theorem syncReceive (line : Bool) (msg : List Byte) : Statement (.syncReceive line msg) := none_spells _
theorem probeTimer : Statement (.probeTimer) := none_spells _
theorem probeReceive (line : Bool) (port : Fin 32) (msg : List Byte) : Statement (.probeReceive line port msg) := none_spells _
theorem echoReceive (port : Fin 16) (node : Nat) (msg : List Byte) : Statement (.echoReceive port node msg) := none_spells _
theorem ppsEdge : Statement (.ppsEdge) := none_spells _
theorem todMessageReceive (msg : List Byte) : Statement (.todMessageReceive msg) := none_spells _
theorem holdoverTimeout : Statement (.holdoverTimeout) := none_spells _
theorem timeSet (value : Word) : Statement (.timeSet value) := none_spells _
theorem ref10mChange (present : Bool) : Statement (.ref10mChange present) := none_spells _
theorem powerControlTick (sample : PowerSample) : Statement (.powerControlTick sample) := none_spells _
theorem pmbusRead (readings : List (Option Nat)) : Statement (.pmbusRead readings) := none_spells _
theorem pmbusStaleTimeout : Statement (.pmbusStaleTimeout) := none_spells _
theorem oppStepDown : Statement (.oppStepDown) := none_spells _
theorem oppStepUp : Statement (.oppStepUp) := none_spells _
theorem oppTransitionDone : Statement (.oppTransitionDone) := none_spells _
theorem capUnmetDetect : Statement (.capUnmetDetect) := none_spells _
theorem droopDetect : Statement (.droopDetect) := none_spells _
theorem droopRestore : Statement (.droopRestore) := none_spells _
theorem ilimAssert : Statement (.ilimAssert) := none_spells _
theorem ilimRelease : Statement (.ilimRelease) := none_spells _
theorem pwrbrkAssert : Statement (.pwrbrkAssert) := none_spells _
theorem pwrbrkRelease : Statement (.pwrbrkRelease) := none_spells _
theorem thermalStep : Statement (.thermalStep) := none_spells _
theorem overtempSafe : Statement (.overtempSafe) := none_spells _
theorem idleEntry : Statement (.idleEntry) := none_spells _
theorem computeWake : Statement (.computeWake) := none_spells _
theorem staggerGroupStart : Statement (.staggerGroupStart) := none_spells _
theorem prestartWake (q : Fin 64) : Statement (.prestartWake q) := none_spells _
theorem phaseClear (phase : Fin 16) (value : Word) : Statement (.phaseClear phase value) := none_spells _
theorem heatForecastSend : Statement (.heatForecastSend) := none_spells _
theorem tecSetpointSend (source : Fin 10) : Statement (.tecSetpointSend source) := none_spells _
theorem safeWrite (value : Word) : Statement (.safeWrite value) := none_spells _
theorem resetRelease : Statement (.resetRelease) := none_spells _
theorem bringupStepBegin (step : Fin 5) : Statement (.bringupStepBegin step) := none_spells _
theorem firmwarePollRound (cls : Fin 6) (missing : List (Nat × List Nat)) : Statement (.firmwarePollRound cls missing) := none_spells _
theorem galleryTrainingDone (failed : List Nat) : Statement (.galleryTrainingDone failed) := none_spells _
theorem landingTestDone (failed : List Nat) : Statement (.landingTestDone failed) := none_spells _
theorem linkQualified (link : QualLink) (pass : Bool) : Statement (.linkQualified link pass) := none_spells _
theorem qualWaitTimeout (link : QualLink) : Statement (.qualWaitTimeout link) := none_spells _
theorem txSpareReadmitTimeout (fibre : Fin 32) (lane : Fin 16) : Statement (.txSpareReadmitTimeout fibre lane) := none_spells _
theorem vectorUnitTestDone (cc : Fin 8) (pass : Bool) : Statement (.vectorUnitTestDone cc pass) := none_spells _
theorem rueSetTestDone (rue : Fin 4) (failed : List (Bool × Nat)) : Statement (.rueSetTestDone rue failed) := none_spells _
theorem recoveryGo (value : Word) : Statement (.recoveryGo value) := none_spells _
theorem recoveryFlashWrite (value : Word) (flashOk : Bool) : Statement (.recoveryFlashWrite value flashOk) := none_spells _
theorem licenceInstall (value : Word) : Statement (.licenceInstall value) := none_spells _
theorem firmwareUpdateGo (value : Word) : Statement (.firmwareUpdateGo value) := none_spells _
theorem controllerBankSwitch (cls : Fin 6) (n : Nat) : Statement (.controllerBankSwitch cls n) := none_spells _
theorem ccBankSwitchTimeout : Statement (.ccBankSwitchTimeout) := none_spells _
theorem svnBurn (value : Word) : Statement (.svnBurn value) := none_spells _
theorem lifecycleAdvance (value : Word) : Statement (.lifecycleAdvance value) := none_spells _
theorem returnEraseDone : Statement (.returnEraseDone) := none_spells _
theorem debugTokenPresent (value : Word) : Statement (.debugTokenPresent value) := none_spells _
theorem debugOpen (value : Word) : Statement (.debugOpen value) := none_spells _
theorem debugClose (value : Word) : Statement (.debugClose value) := none_spells _
theorem debugExpire : Statement (.debugExpire) := none_spells _
theorem attestGetKey (request : List Byte) : Statement (.attestGetKey request) := none_spells _
theorem attest (request : List Byte) : Statement (.attest request) := none_spells _
theorem attestBucketRefill : Statement (.attestBucketRefill) := none_spells _
theorem doeDiscovery (request : List Byte) : Statement (.doeDiscovery request) := none_spells _
theorem doeAbort : Statement (.doeAbort) := none_spells _
theorem hostReset : Statement (.hostReset) := none_spells _
theorem busMasterEnable : Statement (.busMasterEnable) := none_spells _
theorem msixUnmask (vector : Fin 512) : Statement (.msixUnmask vector) := none_spells _
theorem ccHeartbeatTimeout (cc : Fin 8) : Statement (.ccHeartbeatTimeout cc) := none_spells _
theorem ccRestartDone (cc : Fin 8) : Statement (.ccRestartDone cc) := none_spells _
theorem suspectClear (value : Word) : Statement (.suspectClear value) := none_spells _
theorem fibreArrayDetach (quad : Fin 8) : Statement (.fibreArrayDetach quad) := none_spells _
theorem powerFail : Statement (.powerFail) := none_spells _
theorem meshCheck (fault : Bool) : Statement (.meshCheck fault) := none_spells _
theorem pmbusAlert (low : Bool) : Statement (.pmbusAlert low) := none_spells _
theorem alwaysOnPowerUp : Statement (.alwaysOnPowerUp) := none_spells _
theorem fundamentalResetAssert : Statement (.fundamentalResetAssert) := none_spells _
theorem fibreArrayAttach (quad : Fin 8) : Statement (.fibreArrayAttach quad) := none_spells _
theorem markerLockLoss (fibre : Fin 32) (lane : Fin 16) : Statement (.markerLockLoss fibre lane) := none_spells _

end Sys2Proof.Laws.NotSpelled
end

