-- ==== Sys2Proof/Tests/Slice0.lean ====
section
/-! SUPPORT. Tests: terms that the well-formedness check refuses, worked examples of the specification, and for each clause of a
statement a state and operands that meet its hypotheses together. -/
set_option linter.unusedVariables false
set_option Elab.async false
namespace Sys2Proof.Tests
open Sys2Proof.Machine

/-! ### Well-formedness: for each command with a check, a term that it refuses -/

/-- Terms with an operand outside its range. -/
def illFormed : List Instr :=
  [.registerWrite 0x4000000 4 0 false, .registerWrite 0 0 0 false, .latchingRegisterRead 0x4000000, .sqTailWrite 0 0 [(0xFFFFFF, [1, 2])],
   .vstepChunkDone 0 0 0 65 [], .chunkArithmeticDone 0 0 65 [] .clean, .chunkReceive (.line []), .chunkReceive (.fabric 0 []),
   .shadowCompareDone 0 (some { f64 := false, lane := 65536, element := 0, hash := 0 }),
   .shadowCompareDone 0 (some { f64 := false, lane := 0, element := 0, hash := 0x100000000 }), .creditReceive 0x100000000 []]
def illFormed2 : List Instr :=
  [.scrubPatrolRead 32 0 0 0, .scrubPatrolRead 0 73 0 0, .bar2Read 0xFFFFFFFF 2, .bar2Read 0 0, .bar2Write 0xFFFFFFFF [1, 2] false,
   .bar2Write 0 [] false, .spanFrameReceive 0 [] { corrected := 0, codewords := 0, uncorrectable := 0, badBytes := [] }, .moduleInterrupt 0 { state := 8, txFault := false, rxLos := false },
   .modulePoll 0 { state := 8, txFault := false, rxLos := false }, .stripeDeadline 0x100000000 0 0, .stripeDeadline 0 8 0,
   .nakRepeatTimer 0 8 0, .stripeFillTimeout 0 8, .stripeQueueRoom 8 0, .stripeQueueRoom 0 64, .drefExpire 0 8]
def illFormed3 : List Instr :=
  [.fadeMeasure 0 [], .laserReferenceCapture 0 [], .monitorReadingDone 0 4096,
   .lcbStatusPoll 0 (some { stable := true, fault := false, tecAtSetpoint := true, tecAct := 0, serial := 0x10000000000000000 }),
   .dflMarkerReceive 0 0 [], .flitReceive 0 0 [], .powerControlTick { phaseMw := [], computeMw := 0, otherMw := 0, tj := 256 },
   .powerControlTick { phaseMw := [(16, 0)], computeMw := 0, otherMw := 0, tj := 0 }, .firmwarePollRound 0 [(65536, [])],
   .galleryTrainingDone [192], .landingTestDone [192], .controllerBankSwitch 0 65536]
def illFormed4 : List Instr :=
  [.echoReceive 0 0x100000000 [], .refillRequestReceive 0x100000000 [], .refillUnitReceive 0x100000000 [], .refillAckReceive 0x100000000 [],
   .refillEndReceive 0x100000000 [], .nakReceive 0x100000000 [], .goneReceive 0x100000000 [], .reportReceive 0x100000000 [],
   .goingDownReceive 0x100000000 0 [], .attestGetKey [1], .attest [1], .doeDiscovery [1]]

theorem test_illFormed : illFormed.all (fun i => !i.wellFormed) = true := by decide +kernel
theorem test_illFormed2 : illFormed2.all (fun i => !i.wellFormed) = true := by decide +kernel
theorem test_illFormed3 : illFormed3.all (fun i => !i.wellFormed) = true := by decide +kernel
theorem test_illFormed4 : illFormed4.all (fun i => !i.wellFormed) = true := by decide +kernel

/-- The checks refuse no term only because of a neighbour: the least changed terms pass. -/
theorem test_wellFormed : [Instr.registerWrite 0x3FFFFFF 1 0 false, .bar2Read 0xFFFFFFFF 1, .scrubPatrolRead 64 72 0 0, .stripeDeadline 0xFFFFFFFF 7 0,
    .monitorReadingDone 0 4095, .attest [1, 2, 3, 4], .galleryTrainingDone [191]].all Instr.wellFormed = true := by decide +kernel

/-! ### Worked examples of the specification -/

/-- Code lengths of the worked example of 07_compression.md. -/
def exampleLens : List Nat := (List.range 270).map (fun y => if y = 0x3F ∨ y = 0xBF ∨ y = 259 then 2 else if y = 0 ∨ y = 261 then 3 else 0)
/-- Plane 1 of that example: 0x3F at byte 5, 0xBF at byte 20. -/
def examplePlane : List Byte := List.replicate 5 0 ++ [0x3F] ++ List.replicate 14 0 ++ [0xBF] ++ List.replicate 11 0

/-- 07_compression.md, worked example: the coded bytes 0x87 0x6F 0x00 give plane 1, with five bits unused. -/
theorem test_compression_example : decodePlane (canonCodes exampleLens) 32 33 (bitsOf [0x87, 0x6F, 0x00]) [] =
    some (examplePlane, List.replicate 5 false) := by decide +kernel

/-- The same example: plane 1 is coded in those 19 bits. -/
theorem test_compression_example_coding : (encodeSymbols (canonCodes exampleLens) (symbolsOf examplePlane 0)).map (fun b => b ++ List.replicate 5 false) =
    some (bitsOf [0x87, 0x6F, 0x00]) := by decide +kernel

/-- The same example: plane 0 is all zero. -/
theorem test_compression_example_zplanes : zplanesOf [List.replicate 32 0, examplePlane] = 1 := by decide +kernel

/-- 00_scope.md's initial values: PWR_CTRL and TIME_CTRL at reset (15_power_and_thermal.md, 14_time.md). -/
theorem test_reset_registers : State.reset.reg A.pwrCtrl = 0x4190#32 ∧ State.reset.reg A.timeCtrl = 0x4004#32 := by decide +kernel

/-- The published check values of CRC-32C, CRC-64 (reflected ECMA-182) and the CRC-16 of R176 over "123456789". -/
theorem test_crc_check_values : crc32c [0x31, 0x32, 0x33, 0x34, 0x35, 0x36, 0x37, 0x38, 0x39] = 0xE3069283 ∧
    crc64 [0x31, 0x32, 0x33, 0x34, 0x35, 0x36, 0x37, 0x38, 0x39] = 0x995DC9BBDF1939FA ∧
    crc16 [0x31, 0x32, 0x33, 0x34, 0x35, 0x36, 0x37, 0x38, 0x39] = 0x31C3 := by decide +kernel

/-- 14_time.md, worked example: the ECHO at A17 gives a delay of 3,000,100 ns and an offset of 140 ns (the model holds twice both in
2^-16 ns). -/
def exampleTime : State :=
  let s : State := { power := { state := .service }, time := { dev := (1000000 + 6001050) * 0x10000, peers := [(1, { seq := 5, sent := true })] } }
  (((s.setReg A.bootStatus 0x2FC#32).setReg (A.routeTablesPeer 0 4) 7).setReg (A.routeTablesPeer 0 5) 0x11#32).setReg A.dflNodeId 5
theorem test_probe_example : ∃ t, exec (.echoReceive 2 7 (timingMsg 0x42 2 5 7 (1000000 * 0x10000) ((1000000 + 3000240) * 0x10000) (850 * 0x10000)))
      (exampleTime.setB (A.routeSlot 0) 8 true) = .next t ∧
    (t.peerTime 1).delay = 2 * 3000100 * 0x10000 ∧ (t.peerTime 1).offset = 2 * 140 * 0x10000 := ⟨_, rfl, by decide +kernel, by decide +kernel⟩

/-! ### States and operands of the witnesses -/

/-- A part in service. -/
def live : State :=
  ({ power := { state := .service }, time := { mono := 1000000000000, dev := 1000000000000 * 0x10000 } } : State).setReg A.bootStatus 0x2FC#32

/-- A sending and a receiving association with a key. -/
def txSa : SecAssoc := { s0 := { state := .txCurrent, key := List.replicate 32 1, salt := 5, epoch := 2, kcv := 9, ctr := 1 } }
def rxSa : SecAssoc := { s0 := { state := .rxValid, key := List.replicate 32 1, salt := 5, epoch := 2 } }

/-- A part in service with one peer, entry 1 (node 7), on route 0 over line port 2; K = 1. -/
def peered : State :=
  ((((((({ live with sec := { sas := [(saNumber 0 1 0, txSa), (saNumber 1 1 0, rxSa)] } }.setReg A.dflNodeId 5).setB (A.routeSlot 0) 8 true).setReg
    (A.routeTablesPort 0 2) 0x21#32).setReg (A.routeTablesPeer 0 4) 7).setReg (A.routeTablesPeer 0 5) 0x11#32).setReg (A.lineCtrl 2) 1).setReg
    (A.lineStatus 2) 2).setPortQual 2 { passed := true }

def todMsg : List Byte :=
  let b : List Byte := [0x4B, 0x57, 1, 1] ++ beBytes 6 1000 ++ beBytes 4 0
  b ++ beBytes 2 (crc16 b)
def probeMsg : List Byte := timingMsg 0x41 2 9 7 0 0 0
def echoMsg : List Byte := timingMsg 0x42 2 5 7 0x20000 0x20000 0

/-- A descriptor: its opcode and the bytes written at offsets. -/
def descOf (op : Nat) (sets : List (Nat × List Byte)) : List Byte :=
  sets.foldl (fun d x => patch d x.1 x.2) (BitVec.ofNat 8 op :: List.replicate 63 0)
def timedDesc : List Byte := descOf 0 [(1, [0x20])]

/-- A state with queue `q` of a class enabled, its region at the start of BAR4, 32 entries. -/
def queued (s : State) (q cls : Nat) (fetched started : List QEntry) : State :=
  (s.setReg (A.queQCtrl q) (BitVec.ofNat 32 (0x0E61 + 2 * cls))).setQueue q { fetched := fetched, started := started, tail := 16, fetch := 1 }

/-- A member entry and a group header of a group table. -/
def memberRow (node contributor site link : Nat) : List Byte :=
  leBytes 4 node ++ leBytes 1 contributor ++ leBytes 1 site ++ leBytes 2 link ++ leBytes 8 0
def headerRow (flags count : Nat) : List Byte :=
  leBytes 1 flags ++ [1] ++ leBytes 2 count ++ leBytes 4 0 ++ leBytes 1 3 ++ leBytes 3 0 ++ leBytes 4 2000 ++ leBytes 48 0

/-- Group 0: gateways 5 (this part) and 6 at site 0, contributor 8 of gateway 5, gateways 7 and 9 at site 1; local leaves. -/
def members : List (List Byte) := [memberRow 5 0 0 0, memberRow 6 0 0 1, memberRow 8 1 0 0, memberRow 7 0 1 0, memberRow 9 0 1 1]
def grouped : State :=
  let s := { peered with host := { bme := true } }
  (s.galWrite (s.workBase + areaEffective) (headerRow 5 5)).galWrite (s.workBase + areaEffective + 0x40000) members.flatten
/-- This part as the only gateway of group 0, with a local leaf and contributor 8. -/
def lonely : State :=
  let s := { peered with host := { bme := true } }
  (s.galWrite (s.workBase + areaEffective) (headerRow 5 2)).galWrite (s.workBase + areaEffective + 0x40000) (memberRow 5 0 0 0 ++ memberRow 8 1 0 0)

/-- An operand in the free part of the working region. -/
def locAddr : Nat := 2 ^ 63 + (live.workBase + areaFree)
/-- A CLE command on group 0: 16 elements of fp32, instance 1. -/
def cleDesc (op local_ : Nat) : List Byte :=
  descOf op [(3, [1]), (31, [0xFF]), (32, leBytes 8 16), (48, leBytes 8 local_), (60, leBytes 4 1)]
def entryOf (d : List Byte) : QEntry := { index := 0, desc := d }
def copyDesc : List Byte := descOf 0x40 [(3, [1]), (24, leBytes 8 locAddr), (32, leBytes 8 (locAddr + 0x1000)), (40, leBytes 8 128)]
def fillDesc : List Byte := descOf 0x41 [(3, [1]), (32, leBytes 8 (locAddr + 0x1000)), (40, leBytes 8 128), (48, leBytes 4 0xA5A5)]
/-- VSTEP and STEP of the AXPY template on 16 elements. -/
def vstepDesc : List Byte :=
  descOf 0x20 [(3, [1]), (31, [0x43]), (32, leBytes 8 16), (40, leBytes 8 live.stateBase), (48, leBytes 8 locAddr), (58, leBytes 6 (locAddr - 2 ^ 63 + 0x1000))]
def stepDesc : List Byte :=
  descOf 6 [(3, [1]), (31, [0x43]), (32, leBytes 8 16), (40, leBytes 8 live.stateBase), (48, leBytes 8 locAddr), (60, leBytes 4 1)]
def barrierDesc : List Byte := descOf 0x0A [(3, [1]), (31, [0xFF]), (60, leBytes 4 1)]
/-- 48 banks in each pool. -/
def readyBanks : List Bank := (List.range 192).map (fun n => { pool := some (n / 48), cut := n / 48 })
/-- An image with a bundle of classes 1 and 2 and MC firmware, 16 bytes each. -/
def recordRow (type off len param : Nat) : List Byte :=
  leBytes 2 type ++ [1, 0] ++ leBytes 4 off ++ leBytes 4 len ++ leBytes 4 param ++ List.replicate 32 0
def updImage : List Byte :=
  patch (List.replicate 256 0) 18 (leBytes 2 3) ++ recordRow 1 512 16 1 ++ recordRow 1 576 16 2 ++ recordRow 5 640 16 0 ++ List.replicate 300 5
/-- Refill set 1 set for two units at the start of the state region, peer node 7. -/
def refillable : State :=
  ((peered.setReg (A.galRefillPeer 1) 7).setReg64 (A.galRefillLocalLo 1) (A.galRefillLocalHi 1) live.stateBase).setReg (A.galRefillUnits 1) 2
/-- A unit's message: its check value and its bytes. -/
def unitOf (d : List Byte) : List Byte := refillMsg 0x20 0 9 0 2 (crc64 d) ++ d
def sinkRefill : Refill := { source := false, id := 9, peer := 7, base := live.stateBase, units := 2 }
def unitData : List Byte := List.replicate 0x10000 0
def unitMsg : List Byte := unitOf unitData
def unitMsg2 : List Byte := let d := [5, 6, 7] ++ List.replicate (0x10000 - 4) 0 ++ [9]; refillMsg 0x20 0 9 0 2 (crc64 d) ++ d
/-- The group of `grouped`, and an instance of it for operands of `n` fp32 elements at this part (slot 0). -/
def group5 : Group :=
  { partition := false, localLeaf := true, vc := 1, resendMax := 3, progressUs := 2000,
    members := [{ node := 5, contributor := false, site := 0, link := 0 }, { node := 6, contributor := false, site := 0, link := 1 },
      { node := 8, contributor := true, site := 0, link := 0 }, { node := 7, contributor := false, site := 1, link := 0 },
      { node := 9, contributor := false, site := 1, link := 1 }] }
def instOf (op n : Nat) : Inst :=
  { q := 0, entry := entryOf (patch (cleDesc op locAddr) 32 (leBytes 8 n)), late := false, group := group5, self := 0, startedAt := 0 }
/-- `grouped` with that instance open. -/
def running (x : Inst) : State :=
  { queued grouped 0 0 [] [x.entry] with cle := { insts := [(0, x)], last := [(0, 1)] } }
/-- The instance of the only gateway of a group. -/
def lone (x : Inst) : Inst := { x with group := { group5 with members := [{ node := 5, contributor := false, site := 0, link := 0 }, { node := 8, contributor := true, site := 0, link := 0 }] } }
def ones (n : Nat) : List Byte := (List.replicate n (leBytes 4 0x3F800000)).flatten
def leafChunk : List Byte := chunkHeader 1 0 0 1 0 2 1 (ones 4) ++ ones 4
def got3 : Chunk := { acc := List.replicate 4 0x40400000, leaves := 4, got := [0, 2, 1] }
/-- A VSTEP of 16,385 elements in flight: its second chunk has one. -/
def vlong : Inst :=
  { q := 0, entry := entryOf (patch vstepDesc 32 (leBytes 8 16385)), late := false,
    group := { partition := false, localLeaf := true, vc := 0, resendMax := 0, progressUs := 0, members := [] }, self := 0,
    prog := { scalars := List.replicate 16 0x40000000 } }
def cmp1 : Compare := { vstep := false, q := 0, index := 0, group := 0, inst := 1, chunk := 0, isPartial := true, left := 2, held := false }
def blockedInst : Inst := { instOf 1 4 with chunks := [(0, { got3 with blocked := some { isPartial := true, leaves := 4, fmt := 0, data := ones 4 } })] }
def heldWait : Waiting := { cls := clsMsg, size := 24, due := 0, msg := cleMsg 4 3 0 1 0 0 3 0 }
/-- Line port 2 framed and in frame, its module not managed. -/
def framed : State := peered.setB (A.lineModCtrl 2) 4 false
/-- A cell of node 7 for this part under the receiving key. -/
def cellOf (type vc : Nat) (body : List Byte) : List Byte := sealCell rxSa.s0 3 (plainCell type vc 7 5 2 3 body)
def marked (cell : List Byte) : List (Byte × Bool) := cell.map (fun b => (b, false))
def withCell (cell : List Byte) : State := framed.setPort 2 { delin := .sync, rx := marked cell }
def afterCell (cell : List Byte) : State := ((withCell cell).setPort 2 { (withCell cell).port 2 with delin := .sync, rx := [] }).bumpBy (A.routeCnt 0) 0
def shardOf (bytes : List Byte) : ShardCell :=
  { peer := 1, node := 7, vc := 1, route := 0, slot := 0, gen := 0, k := 2, m := 0, index := 0, resent := false, seq := 0, firstPkt := 0, bytes := bytes }
def farShard : List Byte := shardBody (shardOf (List.replicate 8192 0)) 0 0
/-- Route layer message of 24 bytes. -/
def rteMsg (t b1 b2 b3 seq bits : Nat) : List Byte :=
  withHcrc (beBytes 1 t ++ beBytes 1 b1 ++ beBytes 1 b2 ++ beBytes 1 b3 ++ beBytes 4 seq ++ beBytes 4 bits ++ List.replicate 8 0)
def cmdBody : List Byte := rteMsg 0x32 0 1 0 0 0
def txFilled : TxStream := { area := List.replicate 100 1, heads := [0] }
/-- Line port 2 with a managed module that is present. -/
def modular : State := ((peered.setB (A.lineModCtrl 2) 4 true).setF (A.lineModCtrl 2) 0 4 1).setB (A.lineModStatus 2) 0 true
/-- Quad 1 lit, its ring 3 in a state; sources of quads present. -/
def lit (g : Ring) : State := { live with opt := { quads := [(1, { rings := [(3, g)], light := true })] } }
def spareAt (g : Ring) : State := { live with opt := { quads := [(1, { rings := [(16, g)], light := true })] } }
def refEntry : RepairEntry := { kind := 0x0B, index := 1, seconds := 0, payload := beBytes 16 77 ++ (List.replicate 16 (leBytes 2 100)).flatten }
/-- Quad 1 fed by a source with a reference. -/
def fed : State :=
  { live.setF (A.optLaserStatus 1) 0 4 1 with
    opt := { sources := [(1, { en := true, stable := true, serial := some 77 })], quads := [(1, { light := true, stableSince := some 0 })] },
    boot := { record := [refEntry] } }
/-- A fibre link that is UP. -/
def linked (x : Fibre) : State :=
  { (((live.setReg (A.dflLinkCtrl 5) 0x1001#32).setF (A.dflLinkStatus 5) 0 2 2).setReg (A.dflLane 5) 0xFFFFFFFF#32).setReg A.dflNodeId 5 with dfl := { fibres := [(5, x)] } }
def lanes2 : Fibre := { lanes := [(2, { locked := true })] }
def slotOf (b : List Byte) : List Byte := (dflScramble dflSeed b).2
def goodFlit : List Byte :=
  flitBytes { ftype := 1, sop := true, eop := true, vc := 0, circ := 0, dst := 5, payload := fabHeader 2 5 6 0 0 24 ++ cleMsg 0x10 0 0 1 0 0 3 0 } 1 0 false 0 0
def waitingFlit : FlitReq := { ftype := 1, sop := true, eop := false, vc := 2, circ := 0, dst := 6, payload := [1, 2] }
theorem someGetD {o : Option Nat} (h : o.isSome = true) : o = some (o.getD 0) := by cases o <;> simp_all

theorem unit_ok (c : Nat) (d : List Byte) : refillOk 0x20 (refillMsg 0x20 0 9 0 2 c ++ d) = true := by
  have h : (refillMsg 0x20 0 9 0 2 c ++ d).take 28 = refillMsg 0x20 0 9 0 2 c := List.take_left' (by simp [refillMsg, withHcrc])
  have hl : (refillMsg 0x20 0 9 0 2 c ++ d).length = 28 + d.length := by simp [refillMsg, withHcrc]; omega
  have ht : beAt (refillMsg 0x20 0 9 0 2 c ++ d) 0 1 = 0x20 := by
    rw [beAt, bytesAt_append_left _ _ _ _ (by simp [refillMsg, withHcrc])]
    simp only [refillMsg, withHcrc, List.append_assoc]
    rfl
  simp only [refillOk, h, hl, ht, Bool.and_eq_true, decide_eq_true_eq]
  exact ⟨⟨by omega, hcrcOk_withHcrc _⟩, trivial⟩

theorem unit_crc (c : Nat) (d : List Byte) (hc : c < 2 ^ 64) : rfCrc (refillMsg 0x20 0 9 0 2 c ++ d) = c := by
  have e : refillMsg 0x20 0 9 0 2 c ++ d = (beBytes 1 0x20 ++ beBytes 1 0 ++ [0, 0] ++ beBytes 4 9 ++ beBytes 4 0 ++ beBytes 4 2) ++ (beBytes 8 c ++
      (beBytes 4 (crc32c (beBytes 1 0x20 ++ beBytes 1 0 ++ [0, 0] ++ beBytes 4 9 ++ beBytes 4 0 ++ beBytes 4 2 ++ beBytes 8 c)) ++ d)) := by
    simp only [refillMsg, withHcrc, List.append_assoc]
  have hm := beAt_mid (beBytes 1 0x20 ++ beBytes 1 0 ++ [0, 0] ++ beBytes 4 9 ++ beBytes 4 0 ++ beBytes 4 2)
      (beBytes 4 (crc32c (beBytes 1 0x20 ++ beBytes 1 0 ++ [0, 0] ++ beBytes 4 9 ++ beBytes 4 0 ++ beBytes 4 2 ++ beBytes 8 c)) ++ d) 8 c
  rw [rfCrc, e]
  exact hm.trans (Nat.mod_eq_of_lt hc)

theorem unit_drop (c : Nat) (d : List Byte) : (refillMsg 0x20 0 9 0 2 c ++ d).drop 28 = d := List.drop_left' (by simp [refillMsg, withHcrc])

theorem unit_word (c : Nat) (d : List Byte) : rfId (refillMsg 0x20 0 9 0 2 c ++ d) = 9 ∧ rfUnit (refillMsg 0x20 0 9 0 2 c ++ d) = 0 ∧
    rfStatus (refillMsg 0x20 0 9 0 2 c ++ d) = 0 := by
  have h : ∀ k n, k + n ≤ 16 → beAt (refillMsg 0x20 0 9 0 2 c ++ d) k n =
      beAt (beBytes 1 0x20 ++ beBytes 1 0 ++ [0, 0] ++ beBytes 4 9 ++ beBytes 4 0 ++ beBytes 4 2) k n := by
    intro k n hk
    simp only [refillMsg, withHcrc]
    rw [List.append_assoc _ _ d, List.append_assoc _ (beBytes 8 c), beAt, bytesAt_append_left _ _ _ _ (by simp; omega), beAt]
  rw [rfId, rfUnit, rfStatus, h _ _ (by decide), h _ _ (by decide), h _ _ (by decide)]
  decide

theorem marked_fst (cell : List Byte) : (marked cell).map (·.1) = cell := by
  rw [marked, List.map_map]
  exact List.map_id cell

theorem plainCell_length (ctype vc : Nat) (body : List Byte) : (plainCell ctype vc 7 5 2 3 body).length = 28 + body.length := by
  simp [plainCell, coreHeader]
  omega

theorem plainCell_drop (ctype vc : Nat) (body : List Byte) : (plainCell ctype vc 7 5 2 3 body).drop 28 = body :=
  List.drop_left' (by simp [coreHeader])

/-- The 28 bytes before BODY. -/
theorem plainCell_take (ctype vc : Nat) (body : List Byte) : (plainCell ctype vc 7 5 2 3 body).take 28 =
    coreHeader (40 + body.length) ++ beBytes 1 ctype ++ beBytes 1 vc ++ [0, 0] ++ beBytes 4 7 ++ beBytes 4 5 ++ beBytes 4 2 ++ beBytes 8 3 :=
  List.take_left' (by simp [coreHeader])

theorem plainCell_ctr (ctype vc : Nat) (body : List Byte) : beAt (plainCell ctype vc 7 5 2 3 body) 20 8 = 3 := by
  have h := beAt_mid (coreHeader (40 + body.length) ++ beBytes 1 ctype ++ beBytes 1 vc ++ [0, 0] ++ beBytes 4 7 ++ beBytes 4 5 ++ beBytes 4 2)
    body 8 3
  rw [plainCell, List.append_assoc _ (beBytes 8 3) body]
  exact h

theorem cellOf_length (ctype vc : Nat) (body : List Byte) : (cellOf ctype vc body).length = 44 + body.length := by
  rw [cellOf, sealCell_length _ _ _ (by decide) (by rw [plainCell_length]; omega), plainCell_length]
  omega

/-- Fields before BODY stay in clear. -/
theorem cellOf_field (ctype vc off n : Nat) (body : List Byte) (h : off + n ≤ 28) : beAt (cellOf ctype vc body) off n =
    beAt (coreHeader (40 + body.length) ++ beBytes 1 ctype ++ beBytes 1 vc ++ [0, 0] ++ beBytes 4 7 ++ beBytes 4 5 ++ beBytes 4 2 ++ beBytes 8 3) off n := by
  rw [cellOf, sealCell_parts, plainCell_take, beAt, bytesAt_append_left _ _ _ _ (by simp [coreHeader]; omega), beAt]

theorem cellOf_opens (ctype vc : Nat) (body : List Byte) : unsealCell rxSa.s0 (cellOf ctype vc body) = some body := by
  have h := unsealCell_sealCell rxSa.s0 (plainCell ctype vc 7 5 2 3 body) (by decide) (by rw [plainCell_length]; omega)
  rwa [plainCell_ctr, plainCell_drop] at h

theorem withCell_next (cell : List Byte) (q : Nat) (hh : headerAt (marked cell) = some (some q)) (hq : q ≠ 0) (hl : cell.length = 4 + q) :
    (withCell cell).nextCell 2 = (some (marked cell), afterCell cell) :=
  State.nextCell_sync _ 2 q _ (by simp [withCell, State.port, State.setPort]) (by simp [withCell, State.port, State.setPort]) hh hq
    (by rw [marked, List.length_map, hl])

theorem cellOf_header (ctype vc : Nat) (body : List Byte) (q : Nat) (hq : body.length = q)
    (hh : headerAt (marked (coreHeader (40 + q))) = some (some (40 + q))) : headerAt (marked (cellOf ctype vc body)) = some (some (40 + q)) := by
  have ht : (marked (cellOf ctype vc body)).take 4 = marked (coreHeader (40 + q)) := by
    rw [marked, ← List.map_take, cellOf, sealCell_parts, plainCell_take, hq]
    simp only [List.append_assoc]
    rw [List.take_left' (by simp [coreHeader]), marked]
  rw [headerAt_take, ht, hh]

theorem cellOf_next (ctype vc : Nat) (body : List Byte) (q : Nat) (hq : body.length = q)
    (hh : headerAt (marked (coreHeader (40 + q))) = some (some (40 + q))) :
    (withCell (cellOf ctype vc body)).nextCell 2 = (some (marked (cellOf ctype vc body)), afterCell (cellOf ctype vc body)) :=
  withCell_next _ (40 + q) (cellOf_header ctype vc body q hq hh) (by omega) (by rw [cellOf_length, hq]; omega)

theorem afterCell_sas (cell : List Byte) : (afterCell cell).sec = framed.sec := rfl

theorem cellOf_epoch (ctype vc : Nat) (body : List Byte) : beAt (cellOf ctype vc body) 16 4 = 2 := by
  have h := beAt_mid (coreHeader (40 + body.length) ++ beBytes 1 ctype ++ beBytes 1 vc ++ [0, 0] ++ beBytes 4 7 ++ beBytes 4 5) (beBytes 8 3) 4 2
  rw [cellOf_field _ _ _ _ _ (by decide), List.append_assoc _ (beBytes 4 2)]
  exact h

theorem cellOf_ctr (ctype vc : Nat) (body : List Byte) : beAt (cellOf ctype vc body) 20 8 = 3 := by
  have h := beAt_mid (coreHeader (40 + body.length) ++ beBytes 1 ctype ++ beBytes 1 vc ++ [0, 0] ++ beBytes 4 7 ++ beBytes 4 5 ++ beBytes 4 2) [] 8 3
  rw [cellOf_field _ _ _ _ _ (by decide)]
  exact h

theorem cellOf_node (ctype vc : Nat) (body : List Byte) : beAt (cellOf ctype vc body) 8 4 = 7 := by
  have h := beAt_mid (coreHeader (40 + body.length) ++ beBytes 1 ctype ++ beBytes 1 vc ++ [0, 0]) (beBytes 4 5 ++ (beBytes 4 2 ++ beBytes 8 3)) 4 7
  rw [cellOf_field _ _ _ _ _ (by decide), List.append_assoc _ (beBytes 4 2), List.append_assoc _ (beBytes 4 5), List.append_assoc _ (beBytes 4 7)]
  exact h

theorem cellOf_dst (ctype vc : Nat) (body : List Byte) : beAt (cellOf ctype vc body) 12 4 = 5 := by
  have h := beAt_mid (coreHeader (40 + body.length) ++ beBytes 1 ctype ++ beBytes 1 vc ++ [0, 0] ++ beBytes 4 7) (beBytes 4 2 ++ beBytes 8 3) 4 5
  rw [cellOf_field _ _ _ _ _ (by decide), List.append_assoc _ (beBytes 4 2), List.append_assoc _ (beBytes 4 5)]
  exact h

theorem cellOf_type (ctype vc : Nat) (body : List Byte) : beAt (cellOf ctype vc body) 4 1 = ctype % 256 := by
  have h := beAt_mid (coreHeader (40 + body.length)) (beBytes 1 vc ++ ([0, 0] ++ (beBytes 4 7 ++ (beBytes 4 5 ++ (beBytes 4 2 ++ beBytes 8 3))))) 1 ctype
  rw [cellOf_field _ _ _ _ _ (by decide)]
  simp only [List.append_assoc]
  exact h

theorem cellOf_vc (ctype vc : Nat) (body : List Byte) : beAt (cellOf ctype vc body) 5 1 = vc % 256 := by
  have h := beAt_mid (coreHeader (40 + body.length) ++ beBytes 1 ctype) ([0, 0] ++ (beBytes 4 7 ++ (beBytes 4 5 ++ (beBytes 4 2 ++ beBytes 8 3)))) 1 vc
  rw [cellOf_field _ _ _ _ _ (by decide)]
  simp only [List.append_assoc] at h ⊢
  exact h

theorem cellOf_good (ctype vc : Nat) (body : List Byte) :
    (afterCell (cellOf ctype vc body)).checkCell (saNumber 1 1 0) (cellOf ctype vc body) false = .good 0 body := by
  have h := State.checkCell_opened (afterCell (cellOf ctype vc body)) (saNumber 1 1 0) (cellOf ctype vc body) rxSa.s0
    (by rw [cellOf_epoch]; rfl) (by rw [cellOf_epoch]; rfl) (by rw [cellOf_ctr]; decide)
  rw [h, cellOf_opens, cellOf_epoch]

/-- Bytes with the last one changed. -/
def badTag (g : List Byte) : List Byte := g.dropLast ++ [g.getLastD 0 + 1]

theorem badTag_length (g : List Byte) (h : g ≠ []) : (badTag g).length = g.length := by
  have := List.length_pos_iff.mpr h
  rw [badTag, List.length_append, List.length_dropLast, List.length_singleton]
  omega

theorem badTag_ne (g : List Byte) : badTag g ≠ g := by
  intro e
  have e2 := congrArg (fun l => l.getLastD 0) e
  simp only [badTag, List.getLastD_concat] at e2
  bv_omega

/-- The cell of a message whose tag fails. -/
def badCell (ctype vc : Nat) (body : List Byte) : List Byte :=
  let plain := plainCell ctype vc 7 5 2 3 body
  let ct := gcmText rxSa.s0.key (cellIv rxSa.s0.salt 3) (plain.drop 28)
  plain.take 28 ++ (ct ++ badTag (gcmTag rxSa.s0.key (cellIv rxSa.s0.salt 3) ((plain.take 28).drop 4) ct))

theorem key_length : rxSa.s0.key.length = 32 := by decide

theorem tag_length (iv aad ct : List Byte) : (badTag (gcmTag rxSa.s0.key iv aad ct)).length = 16 := by
  have h := gcmTag_length rxSa.s0.key iv aad ct key_length
  rw [badTag_length _ (by intro e; rw [e] at h; simp at h), h]

theorem badCell_length (ctype vc : Nat) (body : List Byte) : (badCell ctype vc body).length = 44 + body.length := by
  rw [badCell, List.length_append, List.length_append, tag_length, gcmText_length _ _ _ key_length, plainCell_take, plainCell_drop]
  simp [coreHeader]
  omega

theorem badCell_field (ctype vc off n : Nat) (body : List Byte) (h : off + n ≤ 28) :
    beAt (badCell ctype vc body) off n = beAt (cellOf ctype vc body) off n := by
  rw [cellOf_field _ _ _ _ _ h, badCell, plainCell_take, beAt, bytesAt_append_left _ _ _ _ (by simp [coreHeader]; omega), beAt]

theorem badCell_next (ctype vc : Nat) (body : List Byte) (q : Nat) (hq : body.length = q)
    (hh : headerAt (marked (coreHeader (40 + q))) = some (some (40 + q))) :
    (withCell (badCell ctype vc body)).nextCell 2 = (some (marked (badCell ctype vc body)), afterCell (badCell ctype vc body)) := by
  refine withCell_next _ (40 + q) ?_ (by omega) (by rw [badCell_length, hq]; omega)
  have ht : (marked (badCell ctype vc body)).take 4 = marked (coreHeader (40 + q)) := by
    rw [marked, ← List.map_take, badCell, plainCell_take, hq]
    simp only [List.append_assoc]
    rw [List.take_left' (by simp [coreHeader]), marked]
  rw [headerAt_take, ht, hh]

theorem badCell_fails (ctype vc : Nat) (body : List Byte) :
    (afterCell (badCell ctype vc body)).checkCell (saNumber 1 1 0) (badCell ctype vc body) false = .tagFail := by
  have h16 : beAt (badCell ctype vc body) 16 4 = 2 := by rw [badCell_field _ _ _ _ _ (by decide), cellOf_epoch]
  have h20 : beAt (badCell ctype vc body) 20 8 = 3 := by rw [badCell_field _ _ _ _ _ (by decide), cellOf_ctr]
  have hu : unsealCell rxSa.s0 (badCell ctype vc body) = none := by
    have h := unsealCell_badTag rxSa.s0 (plainCell ctype vc 7 5 2 3 body)
      (badTag (gcmTag rxSa.s0.key (cellIv rxSa.s0.salt 3) (((plainCell ctype vc 7 5 2 3 body).take 28).drop 4)
        (gcmText rxSa.s0.key (cellIv rxSa.s0.salt 3) ((plainCell ctype vc 7 5 2 3 body).drop 28))))
      (by rw [plainCell_length]; omega) (tag_length _ _ _) (by rw [plainCell_ctr]; exact badTag_ne _)
    rwa [plainCell_ctr] at h
  rw [State.checkCell_opened _ _ _ rxSa.s0 (by rw [h16]; rfl) (by rw [h16]; rfl) (by rw [h20]; decide), hu]

theorem shardBody_length (x : ShardCell) (a b : Nat) : (shardBody x a b).length = 32 + x.bytes.length := by
  simp [shardBody]
  omega

theorem shardOf_bytes (b : List Byte) : (shardOf b).bytes = b := rfl

theorem farShard_length : farShard.length = 8224 := by
  rw [farShard, shardBody_length, shardOf_bytes, List.length_replicate]

/-- Bytes 28-31 of a shard's BODY hold the check value of the rest. -/
theorem shardBody_crc (x : ShardCell) (a b : Nat) :
    beAt (shardBody x a b) 28 4 = crc32c ((shardBody x a b).take 28 ++ (shardBody x a b).drop 32) := by
  generalize hh : beBytes 1 (b2n x.resent) ++ beBytes 1 (x.k + 16 * x.m) ++ beBytes 1 x.index ++ beBytes 1 x.route ++ beBytes 1 x.gen ++ [0] ++
    beBytes 2 a ++ beBytes 4 x.seq ++ beBytes 4 b ++ beBytes 2 x.firstPkt ++ List.replicate 10 0 = h
  have hl : h.length = 28 := by rw [← hh]; simp
  have e : shardBody x a b = h ++ (beBytes 4 (crc32c (h ++ x.bytes)) ++ x.bytes) := by rw [← hh]; simp only [shardBody, List.append_assoc]
  have hm := beAt_mid h x.bytes 4 (crc32c (h ++ x.bytes))
  rw [hl] at hm
  have h32 : (h ++ (beBytes 4 (crc32c (h ++ x.bytes)) ++ x.bytes)).drop 32 = x.bytes := by
    rw [← List.append_assoc]
    exact List.drop_left' (by rw [List.length_append, hl, beBytes_length])
  rw [e, hm, List.take_left' hl, h32]
  exact Nat.mod_eq_of_lt (crc32c_lt _)

/-! ### Witnesses: one for each clause of a statement -/

theorem witness_OperatingPointMovesByOne_1 :
    ∃ (s : State), (s.elapsedSince s.power.overSince 1000000 = true) ∧ (s.power.moving = none) ∧ (s.opp < 7) ∧ (s.power.fitPoint ≤ s.opp + 1) ∧
    (s.power.thermPoint ≤ s.opp + 1) :=
  ⟨{ live with power := { live.power with overSince := some 0, fitPoint := 2 } }.setF A.pwrStatus 4 3 2, by decide +kernel, by decide +kernel,
    by decide +kernel, by decide +kernel, by decide +kernel⟩

theorem witness_OperatingPointMovesByOne_2 :
    ∃ (s : State), (s.elapsedSince s.power.zeroSince 10000000 = true) ∧ (s.power.moving = none) ∧ (s.power.hot = false) ∧ (0 < s.opp) ∧
    (s.preferredOpp ≤ s.opp - 1) ∧ (s.preferredOpp ≤ s.power.fitPoint) ∧ (s.power.demanded = s.opp) ∧ (s.fits s.heldPhases (s.opp - 1) = true) :=
  ⟨{ live with power := { live.power with zeroSince := some 0, fitPoint := 2, capPoint := 4 } }.setF A.pwrStatus 4 3 4, by decide +kernel,
    by decide +kernel, by decide +kernel, by decide +kernel, by decide +kernel, by decide +kernel, by decide +kernel, by decide +kernel⟩

theorem witness_OperatingPointMovesByOne_3 :
    ∃ (s : State), (s.power.hot = true) ∧ (s.elapsed s.power.lastThermStep 1000000 = true) ∧ (s.power.moving = none) ∧
    (s.power.fitPoint ≤ s.opp + 1) ∧ (s.power.capPoint ≤ s.opp + 1) :=
  ⟨{ live with power := { live.power with hot := true, fitPoint := 2 } }.setF A.pwrStatus 4 3 7, by decide +kernel, by decide +kernel,
    by decide +kernel, by decide +kernel, by decide +kernel⟩

theorem witness_OperatingPointMovesByOne_4 :
    ∃ (s : State) (p : Nat), (s.power.moving = some p) ∧ (p < 8) ∧ (s.power.demanded = p) :=
  ⟨{ live with power := { live.power with moving := some 3, fitPoint := 3, capPoint := 3 } }.setF A.pwrStatus 4 3 2, 3, by decide +kernel,
    by decide +kernel, by decide +kernel⟩

theorem witness_BoardInputsActOnTheCompute_3 :
    ∃ (s : State), (s.pinsSampled = true) :=
  ⟨live, by decide +kernel⟩

theorem witness_BoardInputsActOnTheCompute_4 :
    ∃ (s : State), (s.pinsSampled = true) :=
  ⟨{ live with power := { live.power with ilimHold := true } }.setB A.pinInStatus 24 true, by decide +kernel⟩

theorem witness_BoardInputsActOnTheCompute_5 :
    ∃ (s : State), (s.pinsSampled = true) :=
  ⟨live, by decide +kernel⟩

theorem witness_BoardInputsActOnTheCompute_6 :
    ∃ (s : State), (s.pinsSampled = true) ∧ (s.f A.pwrCtrl 0 10 ≤ 480) :=
  ⟨{ live with power := { live.power with brake := true } }.setB A.pinInStatus 25 true, by decide +kernel, by decide +kernel⟩

theorem witness_BoardInputsActOnTheCompute_7 :
    ∃ (s : State), (s.elapsedSince s.power.maxSince 1000000 = true) ∧ (s.capW.1 < s.f A.pwrEst 0 10) :=
  ⟨{ live with power := { live.power with maxSince := some 0 } }.setF A.pwrEst 0 10 1000, by decide +kernel, by decide +kernel⟩

theorem witness_BoardInputsActOnTheCompute_8 :
    ∃ (s : State), (s.elapsed s.power.lastPmbus 100000000 = true) :=
  ⟨live, by decide +kernel⟩

theorem witness_ComputeDomainSleepsWakesAndStaggers_1 :
    ∃ (s : State), (s.power.state = .service) ∧ (s.power.idle = false) ∧ (s.quiet = true) ∧
    (s.elapsedSince s.power.quietSince (s.f A.pwrIdleCtrl 0 16 * 1000) = true) :=
  ⟨{ live with power := { live.power with quietSince := some 0 } }.setB A.pwrIdleCtrl 31 true, by decide +kernel, by decide +kernel,
    by decide +kernel, by decide +kernel⟩

theorem witness_ComputeDomainSleepsWakesAndStaggers_2 :
    ∃ (s : State), (s.power.state = .service) ∧ (s.power.idle = true) ∧ (s.power.wake = true) :=
  ⟨{ live with power := { live.power with idle := true, wake := true } }, by decide +kernel, by decide +kernel, by decide +kernel⟩

theorem witness_ComputeDomainSleepsWakesAndStaggers_3 :
    ∃ (s : State) (q : Fin 64) (e : QEntry) (r : List QEntry), ((s.queue q).fetched = e :: r) ∧ (s.power.idle = true) ∧
    (Desc.timed e.desc = true) ∧ (reached 64 (s.now + s.wakeLead (Desc.phaseId e.desc)) (Desc.startTime e.desc) = true) :=
  ⟨{ live with power := { live.power with idle := true } }.setQueue 0 { fetched := [{ index := 0, desc := timedDesc }] }, 0,
    { index := 0, desc := timedDesc }, [], by decide +kernel, by decide +kernel, by decide +kernel, by decide +kernel⟩

theorem witness_ComputeDomainSleepsWakesAndStaggers_4 :
    ∃ (s : State) (g : Nat), (g < 24) ∧ (s.computeRuns = true) ∧ (nfld s.power.wanted g 1 = 1) ∧ (nfld s.power.started g 1 = 0) ∧ ((∀ k,
    k < g → nfld s.power.wanted k 1 = 1 → nfld s.power.started k 1 = 1)) ∧ ((∀ l, s.power.lastGroup = some l → l + 4000 ≤ s.mono ∧
    l + s.f A.pwrStagger 0 12 ≤ s.mono)) :=
  ⟨{ live with power := { live.power with wanted := 6, started := 2, lastGroup := some 0 } }, 2, by decide +kernel, by decide +kernel,
    by decide +kernel, by decide +kernel, by decide +kernel, by decide +kernel⟩

theorem witness_PowerReportsAndSetPoints_1 :
    ∃ (s : State) (rs : List (Option Nat)), ((∃ n, n < 16 ∧ s.b (A.pinPmbDev n) 31 = true)) ∧ ((∀ n,
    n < 16 → s.b (A.pinPmbDev n) 31 = true → (rs.getD n none).isSome = true)) :=
  ⟨live.setB (A.pinPmbDev 3) 31 true, [none, none, none, some 90000], by decide +kernel, by decide +kernel⟩

theorem witness_PowerReportsAndSetPoints_3 :
    ∃ (s : State) (n : Fin 16) (v : Word), (s.accepts (A.pwrPhaseCfg n) = true) ∧ (bit v 31 = true) :=
  ⟨(live.setReg (A.pwrPhaseEnv 2) 7).setReg (A.pwrPhaseDur 2) 9, 2, 0x80000003#32, by decide +kernel, by decide +kernel⟩

theorem witness_PowerReportsAndSetPoints_4 :
    ∃ (s : State), (s.b A.pwrFcCtrl 0 = true) ∧ (s.pinsSampled = true) :=
  ⟨live.setB A.pwrFcCtrl 0 true, by decide +kernel, by decide +kernel⟩

theorem witness_PowerReportsAndSetPoints_5 :
    ∃ (s : State) (e : Fin 10), ((∀ x ∈ s.power.tecSent, x.1 ≠ e.val)) :=
  ⟨live.setF (A.pwrTec 1) 0 16 2500, 1, by decide +kernel⟩

theorem witness_SafeIsEnteredAndStopsTheCompute_1 :
    ∃ (s : State), (s.elapsedSince s.power.overTempSince 1000000 = true) ∧ (s.power.state = .service) :=
  ⟨{ live with power := { live.power with overTempSince := some 0 } }, by decide +kernel, by decide +kernel⟩

theorem witness_SafeIsEnteredAndStopsTheCompute_2 :
    ∃ (s : State) (v : Word), (s.accepts A.pwrCtrl = true) ∧ (s.power.state = .service) ∧ (bit v 31 = true) :=
  ⟨live, 0x80000000#32, by decide +kernel, by decide +kernel, by decide +kernel⟩

theorem witness_TimeFollowsEdgesAndMessages_1 :
    ∃ (s : State), (s.ppsValid = true) ∧ (s.time.stepNext = false) :=
  ⟨{ live with time := { live.time with lastEdge := some 999000000000 } }, by decide +kernel, by decide +kernel⟩

theorem witness_TimeFollowsEdgesAndMessages_2 :
    ∃ (s : State) (sec : Nat) (edge : Nat), (s.ppsValid = true) ∧ (s.time.stepNext = true) ∧ (s.time.named = some (sec, edge)) :=
  ⟨{ live with time := { live.time with lastEdge := some 999000000000, stepNext := true, named := some (50, 999000000000) } }, 50,
    999000000000, by decide +kernel, by decide +kernel, by decide +kernel⟩

theorem witness_TimeFollowsEdgesAndMessages_3 :
    ∃ (s : State), (s.ppsValid = false) :=
  ⟨{ live with time := { live.time with lastEdge := some 999500000000 } }, by decide +kernel⟩

theorem witness_TimeFollowsEdgesAndMessages_4 :
    ∃ (s : State) (msg : List Byte) (e : Nat) (sec : Nat) (r : Nat), (s.time.lastEdge = some e) ∧ (s.readTod msg = .time sec) ∧
    (e + 100000000 ≤ s.mono) ∧ (s.mono ≤ e + 900000000) ∧ (s.time.edgeReading = some r) :=
  ⟨{ live with time := { live.time with lastEdge := some 999500000000, edgeReading := some 5 } }.setB A.timeCtrl 0 true, todMsg, 999500000000,
    1000, 5, by decide +kernel, by decide +kernel, by decide +kernel, by decide +kernel, by decide +kernel⟩

theorem witness_TimeFollowsEdgesAndMessages_5 :
    ∃ (s : State) (msg : List Byte), (s.readTod msg = .bad) :=
  ⟨live, [1, 2, 3], by decide +kernel⟩

theorem witness_TimeFollowsEdgesAndMessages_6 :
    ∃ (s : State), (s.timeState = 2) ∧ (s.elapsedSince s.time.lastGood 2000000000 = true) :=
  ⟨{ live with time := { live.time with lastGood := some 0 } }.setTimeState 2, by decide +kernel, by decide +kernel⟩

theorem witness_TimeIsSetOnlyInFree_1 :
    ∃ (s : State) (v : Word), (s.accepts A.timeCtrl = true) ∧ (bit v 16 = true) ∧ (s.timeState = 0) :=
  ⟨live.setReg A.timeSetSecLo 77, 0x00010000#32, by decide +kernel, by decide +kernel, by decide +kernel⟩

theorem witness_TimeIsSetOnlyInFree_2 :
    ∃ (s : State) (v : Word), (s.accepts A.timeCtrl = true) ∧ (s.timeState ≠ 0) :=
  ⟨live.setTimeState 2, 0x00010000#32, by decide +kernel, by decide +kernel⟩

theorem witness_TimeIsSetOnlyInFree_4 :
    ∃ (s : State), (s.pending = []) :=
  ⟨live, by decide +kernel⟩

theorem witness_TimingMessagesMeasurePeers_1 :
    ∃ (s : State) (f : Nat), (f < 32) ∧ (s.linkUp f = true) ∧ ((s.fib f).waiting.get (fun _ => []) 0 = []) ∧ ((s.fib f).depth 0 < 4096) :=
  ⟨live.setF (A.dflLinkStatus 3) 0 2 2, 3, by decide +kernel, by decide +kernel, by decide +kernel, by decide +kernel⟩

theorem witness_TimingMessagesMeasurePeers_3 :
    ∃ (s : State) (port : Fin 32) (msg : List Byte) (e : Nat) (p : Nat), (hcrcOk msg = true) ∧ (isTiming msg = true) ∧ (beAt msg 0 1 = 0x41) ∧
    (s.peerOf (beAt msg 4 4) = some e) ∧ (s.msgPort e = some p) :=
  ⟨peered, 2, probeMsg, 1, 2, by decide +kernel, by decide +kernel, by decide +kernel, by decide +kernel, by decide +kernel⟩

theorem witness_TimingMessagesMeasurePeers_4 :
    ∃ (s : State) (port : Fin 16) (node : Nat) (e : Nat) (msg : List Byte), (hcrcOk msg = true) ∧ (isTiming msg = true) ∧
    (beAt msg 0 1 = 0x42) ∧ (s.peerOf node = some e) ∧ ((s.peerTime e).sent = true) ∧ (beAt msg 2 2 = (s.peerTime e).seq) :=
  ⟨{ peered with time := { peered.time with peers := [(1, { seq := 5, sent := true })] } }, 2, 7, 1, echoMsg, by decide +kernel,
    by decide +kernel, by decide +kernel, by decide +kernel, by decide +kernel, by decide +kernel⟩

theorem witness_TimingMessagesMeasurePeers_5 :
    ∃ (s : State) (line : Bool) (msg : List Byte), ((hcrcOk msg = false ∨ isTiming msg = false ∨ beAt msg 0 1 = 0x40)) :=
  ⟨live, true, [1, 2], by decide +kernel⟩

theorem witness_LargePeerOffsetsRaiseTheAlarm_1 :
    ∃ (s : State) (port : Fin 16) (node : Nat) (e : Nat) (msg : List Byte) (off : Int), (hcrcOk msg = true) ∧ (isTiming msg = true) ∧
    (beAt msg 0 1 = 0x42) ∧ (s.peerOf node = some e) ∧ ((s.peerTime e).sent = true) ∧ (beAt msg 2 2 = (s.peerTime e).seq) ∧
    (off = halfNs (2 * ((untime96 (beAt msg 20 12) : Int) - (untime96 (beAt msg 8 12) : Int)) - ((s.rxStamp true port : Int) - (untime96 (beAt msg 8 12) : Int) - sgn 64 (beAt msg 32 8)))) ∧
    (s.f A.timeProbeCtrl 12 20 < off.natAbs) ∧ (s.timeState = 2) ∧ (nfld (beAt msg 1 1) 0 2 = 2) :=
  ⟨({ peered with time := { peered.time with peers := [(1, { seq := 5, sent := true })] } }.setTimeState 2).setF A.timeProbeCtrl 12 20 0, 2,
    7, 1, echoMsg,
    halfNs (2 * ((untime96 (beAt (echoMsg : List Byte) 20 12) : Int) - (untime96 (beAt (echoMsg : List Byte) 8 12) : Int)) - (((({ peered with time := { peered.time with peers := [(1, { seq := 5, sent := true })] } }.setTimeState 2).setF A.timeProbeCtrl 12 20 0 : State).rxStamp true (2 : Fin 16) : Int) - (untime96 (beAt (echoMsg : List Byte) 8 12) : Int) - sgn 64 (beAt (echoMsg : List Byte) 32 8))),
    by decide +kernel, by decide +kernel, by decide +kernel, by decide +kernel, by decide +kernel, by decide +kernel, by decide +kernel,
    by decide +kernel, by decide +kernel, by decide +kernel⟩

theorem witness_LargePeerOffsetsRaiseTheAlarm_2 :
    ∃ (s : State) (port : Fin 16) (node : Nat) (e : Nat) (msg : List Byte) (off : Int), (hcrcOk msg = true) ∧ (isTiming msg = true) ∧
    (beAt msg 0 1 = 0x42) ∧ (s.peerOf node = some e) ∧ ((s.peerTime e).sent = true) ∧ (beAt msg 2 2 = (s.peerTime e).seq) ∧
    (off = halfNs (2 * ((untime96 (beAt msg 20 12) : Int) - (untime96 (beAt msg 8 12) : Int)) - ((s.rxStamp true port : Int) - (untime96 (beAt msg 8 12) : Int) - sgn 64 (beAt msg 32 8)))) ∧
    ((off.natAbs ≤ s.f A.timeProbeCtrl 12 20 ∨ s.timeState ≠ 2 ∨ nfld (beAt msg 1 1) 0 2 ≠ 2)) :=
  ⟨{ peered with time := { peered.time with peers := [(1, { seq := 5, sent := true })] } }, 2, 7, 1, echoMsg,
    halfNs (2 * ((untime96 (beAt (echoMsg : List Byte) 20 12) : Int) - (untime96 (beAt (echoMsg : List Byte) 8 12) : Int)) - ((({ peered with time := { peered.time with peers := [(1, { seq := 5, sent := true })] } } : State).rxStamp true (2 : Fin 16) : Int) - (untime96 (beAt (echoMsg : List Byte) 8 12) : Int) - sgn 64 (beAt (echoMsg : List Byte) 32 8))),
    by decide +kernel, by decide +kernel, by decide +kernel, by decide +kernel, by decide +kernel, by decide +kernel, by decide +kernel,
    by decide +kernel⟩

theorem witness_QueueExecutesOnlyItsClass_1 :
    ∃ (s : State) (q : Fin 64) (c : Instr) (e : QEntry), (c ∈ [Instr.allreduce q, .reduceScatter q, .allgather q, .broadcast q, .reduce q,
    .step q, .norm q, .send q, .recv q, .barrier q, .vstep q, .copy q, .fill q]) ∧ (s.startable q = some e) ∧
    (opClass (Desc.opcode e.desc) ≠ some (s.qClass q)) ∧
    ((Desc.guard e.desc && Desc.waitEn e.desc && s.tokenFail (Desc.waitToken e.desc)) = false) :=
  ⟨queued live 0 2 [entryOf (cleDesc 1 0)] [], 0, .allreduce 0, entryOf (cleDesc 1 0), by decide +kernel, by decide +kernel,
    by decide +kernel, by decide +kernel⟩

theorem witness_ChunksWithABadHeaderAreDiscarded_1 :
    ∃ (s : State) (line : Bool) (f : Fin 32) (bytes : List Byte), ((bytes.length < 32 ∨ hcrcOk (bytes.take 32) = false)) :=
  ⟨live, true, 0, [1, 2, 3], by decide +kernel⟩

theorem witness_QueuesAreEnabledAndWithdrawn_1 :
    ∃ (s : State) (s1 : State) (q : Fin 64) (v : Word), (s.accepts (A.queQCtrl q) = true) ∧ (s.qActive q = false) ∧ (bit v 0 = true) ∧
    (s1 = s.setReg (A.queQCtrl q) (qCtrlStored v)) ∧ (s1.regionFits q = true) ∧ (s1.regionMeets q = false) ∧ (s1.qLoc q = 0) :=
  ⟨live, (live : State).setReg (A.queQCtrl (3 : Fin 64)) (qCtrlStored (0x0E61#32 : Word)), 3, 0x0E61#32, by decide +kernel, by decide +kernel,
    by decide +kernel, rfl, by decide +kernel, by decide +kernel, by decide +kernel⟩

theorem witness_QueuesAreEnabledAndWithdrawn_2 :
    ∃ (s : State) (s1 : State) (q : Fin 64) (v : Word), (s.accepts (A.queQCtrl q) = true) ∧ (s.qActive q = false) ∧ (bit v 0 = true) ∧
    (s1 = s.setReg (A.queQCtrl q) (qCtrlStored v)) ∧ ((s1.regionFits q = false ∨ s1.regionMeets q = true)) :=
  ⟨queued live 0 1 [] [], (queued live 0 1 [] [] : State).setReg (A.queQCtrl (3 : Fin 64)) (qCtrlStored (0x0E61#32 : Word)), 3, 0x0E61#32,
    by decide +kernel, by decide +kernel, by decide +kernel, rfl, by decide +kernel⟩

theorem witness_QueuesAreEnabledAndWithdrawn_3 :
    ∃ (s : State) (q : Fin 64) (v : Word), (s.accepts (A.queQCtrl q) = true) ∧ (s.qEnabled q = true) ∧
    (qCtrlStored v = s.reg (A.queQCtrl q) &&& 0x01FF7FFE#32) ∧ (bit v 25 = true) ∧ (bit v 0 = true) :=
  ⟨queued live 0 1 [entryOf copyDesc] [entryOf fillDesc], 0, 0x02000E63#32, by decide +kernel, by decide +kernel, by decide +kernel,
    by decide +kernel, by decide +kernel⟩

theorem witness_QueuesAreEnabledAndWithdrawn_4 :
    ∃ (s : State) (q : Fin 64) (v : Word), (s.accepts (A.queQCtrl q) = true) ∧ (s.qEnabled q = true) ∧
    (qCtrlStored v = s.reg (A.queQCtrl q) &&& 0x01FF7FFE#32) ∧ (bit v 0 = false) :=
  ⟨queued live 0 1 [entryOf copyDesc] [entryOf fillDesc], 0, 0x0E62#32, by decide +kernel, by decide +kernel, by decide +kernel,
    by decide +kernel⟩

theorem witness_CompletionRecordIsWrittenInOrder_1 :
    ∃ (s : State) (q : Fin 64) (e : QEntry) (status : Nat) (flags : Nat) (detail : Nat) (late : Bool),
    let c := (s.queue q).cqTail; let n := s.qSize q; let a := s.qBase q + (0x1000 + 64 * n + 16 * (c % n)); let t := s.completeEntry q e status flags late detail; (e.mute = false) ∧
    (s.qLoc q = 0) :=
  ⟨queued live 0 1 [] [], 0, { index := 3, desc := descOf 0x20 [(6, [7, 8]), (1, [0x11])] }, 1, 2, 99, true, by decide +kernel,
    by decide +kernel⟩

theorem witness_TailHeadFetchAndToken_1 :
    ∃ (s : State) (u : State) (q : Fin 64) (tail : Word) (ws : List (Nat × List Byte)), (u = s.queueWrites q ws) ∧ (s.qLoc q = 0) ∧
    (s.qEnabled q = true) ∧ (s.serving = true) ∧ ((s.queue q).halt = 0) ∧ (reached 32 tail.toNat (s.queue q).tail = true) ∧
    ((tail.toNat + 0x100000000 - leNat (u.bar4Read (s.qBase q + 12) 4)) % 0x100000000 ≤ s.qSize q) :=
  ⟨(queued live 0 1 [] []).setQueue 0 { tail := 2 },
    ((queued live 0 1 [] []).setQueue 0 { tail := 2 } : State).queueWrites (0 : Fin 64) ([(0x1000, [1, 2, 3])] : List (Nat × List Byte)), 0, 5,
    [(0x1000, [1, 2, 3])], rfl, by decide +kernel, by decide +kernel, by decide +kernel, by decide +kernel, by decide +kernel,
    by decide +kernel⟩

theorem witness_TailHeadFetchAndToken_2 :
    ∃ (s : State) (q : Fin 64) (head : Word), (s.qLoc q = 0) ∧ (s.qEnabled q = true) ∧ (s.serving = true) ∧ ((s.queue q).halt = 0) ∧
    ((s.queue q).stall = true) ∧ (reached 32 (leNat (s.bar4Read (s.qBase q) 4)) (s.queue q).tail = true) ∧
    ((leNat (s.bar4Read (s.qBase q) 4) + 0x100000000 - head.toNat) % 0x100000000 ≤ s.qSize q) :=
  ⟨(queued live 0 1 [] []).setQueue 0 { tail := 2, stall := true } |>.bar4Write 0 (leBytes 4 5), 0, 1, by decide +kernel, by decide +kernel,
    by decide +kernel, by decide +kernel, by decide +kernel, by decide +kernel, by decide +kernel⟩

theorem witness_TailHeadFetchAndToken_3 :
    ∃ (s : State) (q : Fin 64), let i := (s.queue q).fetch; (s.mayFetch q = true) ∧ (s.qLoc q = 0) :=
  ⟨queued live 0 1 [] [], 0, by decide +kernel, by decide +kernel⟩

theorem witness_TailHeadFetchAndToken_4 :
    ∃ (s : State) (q : Fin 64) (k : Fin 8),
    let a := s.qBase q + (0x1000 + 64 * ((s.queue q).fetch % s.qSize q)) + 8 * k; (s.mayFetch q = true) ∧ (s.qLoc q = 0) :=
  ⟨queued live 0 1 [] [], 0, 2, by decide +kernel, by decide +kernel⟩

theorem witness_TailHeadFetchAndToken_5 :
    ∃ (s : State) (n : Fin 256) (v : Word), (s.accepts (A.queToken n) = true) :=
  ⟨live, 200, 0xFFFFFFFF#32, by decide +kernel⟩

theorem witness_EntriesStartInTheirOwnRow_1 :
    ∃ (s : State) (q : Fin 64) (op : Nat) (c : Instr) (e : QEntry) (gr : Group) (me : Nat), ((op, c) ∈ [(1, Instr.allreduce q), (2,
    .reduceScatter q), (3, .allgather q), (4, .broadcast q), (5, .reduce q), (6, .step q), (7, .norm q), (8, .send q), (9, .recv q), (10,
    .barrier q)]) ∧ (s.startsAs q op e) ∧ (s.opensAs e gr me) :=
  ⟨queued grouped 0 0 [entryOf (cleDesc 1 locAddr)] [], 0, 1, .allreduce 0, entryOf (cleDesc 1 locAddr),
    ((queued grouped 0 0 [entryOf (cleDesc 1 locAddr)] [] : State).effectiveGroup 0).getD { partition := false, localLeaf := false, vc := 0, resendMax := 0, progressUs := 0, members := [] },
    0, by decide +kernel, ⟨by decide +kernel, by decide +kernel, by decide +kernel, by decide +kernel⟩, ⟨by decide +kernel, by decide +kernel,
    by decide +kernel, by decide +kernel, by decide +kernel, by decide +kernel, by decide +kernel, fun h => absurd h (by decide +kernel)⟩⟩

theorem witness_EntriesStartInTheirOwnRow_2 :
    ∃ (s : State) (q : Fin 64) (e : QEntry), (s.startsAs q 0x20 e) ∧ (s.check2 e.desc = false) ∧ (s.check3 e.desc = none) ∧
    (Desc.elements e.desc ≠ 0) ∧ (s.lostChunks e.desc ((s.programOf (Desc.prog e.desc)).getD []) = none) :=
  ⟨queued (live.setReg A.bootFeatures 7) 0 1 [entryOf vstepDesc] [], 0, entryOf vstepDesc, ⟨by decide +kernel, by decide +kernel,
    by decide +kernel, by decide +kernel⟩, by decide +kernel, by decide +kernel, by decide +kernel, by decide +kernel⟩

theorem witness_EntriesStartInTheirOwnRow_3 :
    ∃ (s : State) (q : Fin 64) (e : QEntry) (op : Nat) (n : Nat) (c : Instr), ((op, n, c) ∈ [(0x40, 2, Instr.copy q), (0x41, 1, .fill q)]) ∧
    (s.startsAs q op e) ∧ (s.check3x e.desc = none) ∧ (Desc.bytes e.desc ≠ 0) ∧ (s.lostSource e.desc = none) ∧ ((s.takeXfer n).2.2 = true) :=
  ⟨queued { live with lnd := { banks := readyBanks } } 0 2 [entryOf fillDesc] [], 0, entryOf fillDesc, 0x41, 1, .fill 0, by decide +kernel,
    ⟨by decide +kernel, by decide +kernel, by decide +kernel, by decide +kernel⟩, by decide +kernel, by decide +kernel, by decide +kernel,
    by decide +kernel⟩

theorem witness_EntriesStartInTheirOwnRow_4 :
    ∃ (s : State) (q : Fin 64) (e : QEntry) (op : Nat) (n : Nat) (c : Instr), ((op, n, c) ∈ [(0x40, 2, Instr.copy q), (0x41, 1, .fill q)]) ∧
    (s.startsAs q op e) ∧ (s.check3x e.desc = none) ∧ (Desc.bytes e.desc ≠ 0) ∧ (s.lostSource e.desc = none) ∧ ((s.takeXfer n).2.2 = false) ∧
    (s.qLoc q = 0) :=
  ⟨queued live 0 2 [entryOf fillDesc] [], 0, entryOf fillDesc, 0x41, 1, .fill 0, by decide +kernel, ⟨by decide +kernel, by decide +kernel,
    by decide +kernel, by decide +kernel⟩, by decide +kernel, by decide +kernel, by decide +kernel, by decide +kernel, by decide +kernel⟩

theorem witness_RefusedEntriesCompleteAtTheirStart_1 :
    ∃ (s : State) (q : Fin 64) (op : Nat) (c : Instr) (e : QEntry), ((op, c) ∈ [(1, Instr.allreduce q), (2, .reduceScatter q), (3,
    .allgather q), (4, .broadcast q), (5, .reduce q), (6, .step q), (7, .norm q), (8, .send q), (9, .recv q), (10, .barrier q), (0x20,
    .vstep q), (0x40, .copy q), (0x41, .fill q)]) ∧ (s.startable q = some e) ∧ (Desc.opcode e.desc = op) ∧
    ((Desc.guard e.desc && Desc.waitEn e.desc && s.tokenFail (Desc.waitToken e.desc)) = true) :=
  ⟨(queued live 0 0 [entryOf (descOf 1 [(1, [0x0C]), (3, [1])])] []).setB (A.queTokenFail 0) 0 true, 0, 1, .allreduce 0,
    entryOf (descOf 1 [(1, [0x0C]), (3, [1])]), by decide +kernel, by decide +kernel, by decide +kernel, by decide +kernel⟩

theorem witness_RefusedEntriesCompleteAtTheirStart_2 :
    ∃ (s : State) (q : Fin 64) (op : Nat) (c : Instr) (e : QEntry), ∃ off, ((op, c) ∈ [(1, Instr.allreduce q), (2, .reduceScatter q), (3,
    .allgather q), (4, .broadcast q), (5, .reduce q), (6, .step q), (7, .norm q), (8, .send q), (9, .recv q), (10, .barrier q), (0x20,
    .vstep q), (0x40, .copy q), (0x41, .fill q)]) ∧ (s.startable q = some e) ∧ (Desc.opcode e.desc = op) ∧
    ((Desc.guard e.desc && Desc.waitEn e.desc && s.tokenFail (Desc.waitToken e.desc)) = false) ∧ (check1 (s.qClass q) e.desc = some off) :=
  ⟨queued live 0 0 [entryOf (descOf 1 [])] [], 0, 1, .allreduce 0, entryOf (descOf 1 []), 3, by decide +kernel, by decide +kernel,
    by decide +kernel, by decide +kernel, by decide +kernel⟩

theorem witness_RefusedEntriesCompleteAtTheirStart_3 :
    ∃ (s : State) (q : Fin 64) (op : Nat) (c : Instr) (e : QEntry), ((op, c) ∈ [(1, Instr.allreduce q), (2, .reduceScatter q), (3,
    .allgather q), (4, .broadcast q), (5, .reduce q), (6, .step q), (7, .norm q), (8, .send q), (9, .recv q), (10, .barrier q), (0x20,
    .vstep q), (0x40, .copy q), (0x41, .fill q)]) ∧ (s.startable q = some e) ∧ (Desc.opcode e.desc = op) ∧
    ((Desc.guard e.desc && Desc.waitEn e.desc && s.tokenFail (Desc.waitToken e.desc)) = false) ∧ (check1 (s.qClass q) e.desc = none) ∧
    (op ≤ 10) ∧ (s.check2 e.desc = true) :=
  ⟨queued live 0 0 [entryOf stepDesc] [], 0, 6, .step 0, entryOf stepDesc, by decide +kernel, by decide +kernel, by decide +kernel,
    by decide +kernel, by decide +kernel, by decide +kernel, by decide +kernel⟩

theorem witness_RefusedEntriesCompleteAtTheirStart_4 :
    ∃ (s : State) (q : Fin 64) (op : Nat) (c : Instr) (e : QEntry), ((op, c) ∈ [(1, Instr.allreduce q), (2, .reduceScatter q), (3,
    .allgather q), (4, .broadcast q), (5, .reduce q), (6, .step q), (7, .norm q), (8, .send q), (9, .recv q), (10, .barrier q), (0x20,
    .vstep q), (0x40, .copy q), (0x41, .fill q)]) ∧ (s.startable q = some e) ∧ (Desc.opcode e.desc = op) ∧
    ((Desc.guard e.desc && Desc.waitEn e.desc && s.tokenFail (Desc.waitToken e.desc)) = false) ∧ (check1 (s.qClass q) e.desc = none) ∧
    (op = 0x20) ∧ (s.check2 e.desc = true) :=
  ⟨queued live 0 1 [entryOf vstepDesc] [], 0, 0x20, .vstep 0, entryOf vstepDesc, by decide +kernel, by decide +kernel, by decide +kernel,
    by decide +kernel, by decide +kernel, rfl, by decide +kernel⟩

theorem witness_RefusedEntriesCompleteAtTheirStart_5 :
    ∃ (s : State) (q : Fin 64) (op : Nat) (c : Instr) (e : QEntry), ∃ off, ((op, c) ∈ [(1, Instr.allreduce q), (2, .reduceScatter q), (3,
    .allgather q), (4, .broadcast q), (5, .reduce q), (6, .step q), (7, .norm q), (8, .send q), (9, .recv q), (10, .barrier q), (0x20,
    .vstep q), (0x40, .copy q), (0x41, .fill q)]) ∧ (s.startable q = some e) ∧ (Desc.opcode e.desc = op) ∧
    ((Desc.guard e.desc && Desc.waitEn e.desc && s.tokenFail (Desc.waitToken e.desc)) = false) ∧ (check1 (s.qClass q) e.desc = none) ∧
    (op ≤ 0x20) ∧ (s.check2 e.desc = false) ∧ (s.check3 e.desc = some off) :=
  ⟨queued live 0 0 [entryOf (cleDesc 10 0)] [], 0, 10, .barrier 0, entryOf (cleDesc 10 0), 32, by decide +kernel, by decide +kernel,
    by decide +kernel, by decide +kernel, by decide +kernel, by decide +kernel, by decide +kernel, by decide +kernel⟩

theorem witness_RefusedEntriesCompleteAtTheirStart_6 :
    ∃ (s : State) (q : Fin 64) (op : Nat) (c : Instr) (e : QEntry), ((op, c) ∈ [(1, Instr.allreduce q), (2, .reduceScatter q), (3,
    .allgather q), (4, .broadcast q), (5, .reduce q), (6, .step q), (7, .norm q), (8, .send q), (9, .recv q), (10, .barrier q), (0x20,
    .vstep q), (0x40, .copy q), (0x41, .fill q)]) ∧ (s.startable q = some e) ∧ (Desc.opcode e.desc = op) ∧
    ((Desc.guard e.desc && Desc.waitEn e.desc && s.tokenFail (Desc.waitToken e.desc)) = false) ∧ (check1 (s.qClass q) e.desc = none) ∧
    (op ≤ 10) ∧ (s.check2 e.desc = false) ∧ (s.check3 e.desc = none) ∧ (s.groupPoison areaEffective (Desc.group e.desc) = none) ∧
    (s.effectiveGroup (Desc.group e.desc) = none) :=
  ⟨queued live 0 0 [entryOf (cleDesc 1 0)] [], 0, 1, .allreduce 0, entryOf (cleDesc 1 0), by decide +kernel, by decide +kernel,
    by decide +kernel, by decide +kernel, by decide +kernel, by decide +kernel, by decide +kernel, by decide +kernel, by decide +kernel,
    by decide +kernel⟩

theorem witness_RefusedEntriesCompleteAtTheirStart_7 :
    ∃ (s : State) (q : Fin 64) (op : Nat) (c : Instr) (e : QEntry), ((op, c) ∈ [(1, Instr.allreduce q), (2, .reduceScatter q), (3,
    .allgather q), (4, .broadcast q), (5, .reduce q), (6, .step q), (7, .norm q), (8, .send q), (9, .recv q), (10, .barrier q), (0x20,
    .vstep q), (0x40, .copy q), (0x41, .fill q)]) ∧ (s.startable q = some e) ∧ (Desc.opcode e.desc = op) ∧
    ((Desc.guard e.desc && Desc.waitEn e.desc && s.tokenFail (Desc.waitToken e.desc)) = false) ∧ (check1 (s.qClass q) e.desc = none) ∧
    (op = 0x20) ∧ (s.check2 e.desc = false) ∧ (s.check3 e.desc = none) ∧ (Desc.elements e.desc = 0) :=
  ⟨queued (live.setReg A.bootFeatures 7) 0 1 [entryOf (patch vstepDesc 32 (leBytes 8 0))] [], 0, 0x20, .vstep 0,
    entryOf (patch vstepDesc 32 (leBytes 8 0)), by decide +kernel, by decide +kernel, by decide +kernel, by decide +kernel, by decide +kernel,
    rfl, by decide +kernel, by decide +kernel, by decide +kernel⟩

theorem witness_RefusedEntriesCompleteAtTheirStart_8 :
    ∃ (s : State) (q : Fin 64) (op : Nat) (c : Instr) (e : QEntry), ((op, c) ∈ [(1, Instr.allreduce q), (2, .reduceScatter q), (3,
    .allgather q), (4, .broadcast q), (5, .reduce q), (6, .step q), (7, .norm q), (8, .send q), (9, .recv q), (10, .barrier q), (0x20,
    .vstep q), (0x40, .copy q), (0x41, .fill q)]) ∧ (s.startable q = some e) ∧ (Desc.opcode e.desc = op) ∧
    ((Desc.guard e.desc && Desc.waitEn e.desc && s.tokenFail (Desc.waitToken e.desc)) = false) ∧ (check1 (s.qClass q) e.desc = none) ∧
    (0x40 ≤ op) ∧ (s.check3x e.desc = none) ∧ (Desc.bytes e.desc = 0) :=
  ⟨queued live 0 2 [entryOf (patch copyDesc 40 (leBytes 8 0))] [], 0, 0x40, .copy 0, entryOf (patch copyDesc 40 (leBytes 8 0)),
    by decide +kernel, by decide +kernel, by decide +kernel, by decide +kernel, by decide +kernel, by decide +kernel, by decide +kernel,
    by decide +kernel⟩

theorem witness_BadRegisterAccessesAreOnlyRecorded_1 :
    ∃ (s : State) (a : Nat) (size : Nat) (kind : Nat) (v : Word) (poisoned : Bool), (s.accepts a = true) ∧
    ((kind = if poisoned = true then 6 else if size ≠ 4 ∨ a % 4 ≠ 0 then 1 else 2)) ∧
    ((poisoned = true ∨ size ≠ 4 ∨ a % 4 ≠ 0 ∨ regAt a = none)) :=
  ⟨live, 0xA00011, 4, 1, 0, false, by decide +kernel, by decide +kernel, by decide +kernel⟩

theorem witness_RegistersAreWrittenAndRead_1 :
    ∃ (s : State) (a : Nat) (i : Nat) (j : Nat) (v : Word) (r : RegRow), (s.accepts a = true) ∧ (a % 4 = 0) ∧ (regAt a = some (r, i, j)) ∧
    (a / 0x100000 ∈ [0x12, 0xC, 0xA, 0x8, 0x2, 0x6]) ∧ (a ∉ [A.cmpCommit, A.rueShadowCtrl, A.lndCommit, A.timeCtrl, A.routeCommit,
    A.routeDownCtrl]) :=
  ⟨live, A.rueSrCtrl, 0, 0, 0xFFFFFFFF#32, ((regAt A.rueSrCtrl).get (by decide)).1, by decide +kernel, by decide +kernel, by decide +kernel,
    by decide +kernel, by decide +kernel⟩

theorem witness_RegistersAreWrittenAndRead_2 :
    ∃ (s : State) (a : Nat) (size : Nat) (v : Word) (poisoned : Bool), (s.accepts a = false) :=
  ⟨State.reset, A.rueSrCtrl, 4, 1, false, by decide +kernel⟩

theorem witness_RegistersAreWrittenAndRead_3 :
    ∃ (s : State) (a : Nat), (s.accepts a = true) :=
  ⟨live, A.bootStatus, by decide +kernel⟩

theorem witness_RegistersAreWrittenAndRead_4 :
    ∃ (s : State), (s.accepts A.timeNowSubns = true) :=
  ⟨live, by decide +kernel⟩

theorem witness_RegistersAreWrittenAndRead_5 :
    ∃ (s : State), (s.accepts A.timeNow64Lo = true) :=
  ⟨live, by decide +kernel⟩

theorem witness_HostResetAndMessages_1 :
    ∃ (s : State), (s.held = false) :=
  ⟨(queued live 0 1 [entryOf copyDesc] [entryOf fillDesc]).bar4Write 0x40 [1, 2], by decide +kernel⟩

theorem witness_HostResetAndMessages_3 :
    ∃ (s : State) (v : Fin 512), (s.host.fnMask = false) ∧ (s.busMaster = true) ∧ (s.b (A.topMsixPba (v / 32)) (v % 32) = true) :=
  ⟨{ live with host := { bme := true } }.setB (A.topMsixPba 0) 5 true, 5, by decide +kernel, by decide +kernel, by decide +kernel⟩

theorem witness_HostResetAndMessages_4 :
    ∃ (s : State) (v : Fin 512), (s.b (A.topMsixPba (v / 32)) (v % 32) = false) :=
  ⟨live, 5, by decide +kernel⟩

theorem witness_CoresSuspicionAndMesh_1 :
    ∃ (s : State) (c : Fin 8), (s.ccRetired c = false) ∧ (s.ccRestarting c = false) ∧ (s.stepDone 1 = true) ∧ (s.held = false) ∧
    ((∀ m ∈ s.que.misses, m.1 ≠ c.val)) :=
  ⟨queued live 0 2 [] [entryOf fillDesc], 0, by decide +kernel, by decide +kernel, by decide +kernel, by decide +kernel, by decide +kernel⟩

theorem witness_CoresSuspicionAndMesh_2 :
    ∃ (s : State) (c : Fin 8), (s.ccRestarting c = true) :=
  ⟨{ live with que := { restarting := 5 } }, 2, by decide +kernel⟩

theorem witness_CoresSuspicionAndMesh_3 :
    ∃ (s : State) (v : Word), (s.accepts A.errCtrl = true) ∧ (bit v 9 = true) :=
  ⟨{ live with faults := { patPhases := [3] } }.setReg A.errHealth 0x303, 0x200#32, by decide +kernel, by decide +kernel⟩

theorem witness_CoresSuspicionAndMesh_4 :
    ∃ (s : State), (s.power.state ≠ .off) ∧ (s.elapsed s.pins.lastMesh 100000 = true) ∧ (s.f A.secAlarmStatus 1 8 = 0) :=
  ⟨live, by decide +kernel, by decide +kernel, by decide +kernel⟩

theorem witness_CoresSuspicionAndMesh_5 :
    ∃ (s : State), (s.power.state ≠ .off) ∧ (s.elapsed s.pins.lastMesh 100000 = true) ∧ (nfld s.alarmArmed 0 1 = 1) :=
  ⟨peered, by decide +kernel, by decide +kernel, by decide +kernel⟩

theorem witness_ResetIsEnteredAndLeft_3 :
    ∃ (s : State), (s.power.state = .reset) ∧ (s.stepDone 0 = false) ∧ (s.bootFail = 0) ∧ (s.life.erasing = false) :=
  ⟨{ State.reset with power := { state := .reset }, pins := { mainPg := false, perst := true } }, by decide +kernel, by decide +kernel,
    by decide +kernel, by decide +kernel⟩

theorem witness_BringupStepsAdvance_1 :
    ∃ (s : State) (n : Fin 5), (s.stepBegins n = true) ∧ (configEntries s.boot.image = []) ∧ (n.val ≠ 3) ∧ (n.val ≠ 0) :=
  ⟨(State.reset.setF A.bootStatus 0 3 1).setB A.bootStatus 4 true, 2, by decide +kernel, by decide +kernel, by decide +kernel,
    by decide +kernel⟩

theorem witness_BringupStepsAdvance_2 :
    ∃ (s : State) (c : Fin 6), (s.fwLoading c = true) ∧ (s.boot.update = none) :=
  ⟨State.reset.setF A.bootStatus 0 3 1, 1, by decide +kernel, by decide +kernel⟩

theorem witness_BringupStepsAdvance_3 :
    ∃ (s : State) (failed : List Nat), (s.inStep 2 = true) ∧ (s.boot.galleryDone = false) :=
  ⟨State.reset.setF A.bootStatus 0 3 2, [5, 100], by decide +kernel, by decide +kernel⟩

theorem witness_BringupStepsAdvance_4 :
    ∃ (s : State) (failed : List Nat), (s.inStep 2 = true) ∧ (s.boot.landingDone = false) :=
  ⟨State.reset.setF A.bootStatus 0 3 2, [5, 100], by decide +kernel, by decide +kernel⟩

theorem witness_BringupStepsAdvance_5 :
    ∃ (s : State) (c : Fin 8) (pass : Bool), (s.inStep 4 = true) ∧ (nfld s.boot.vectorDone c 1 = 0) ∧ (s.ccRetired c = false) :=
  ⟨State.reset.setF A.bootStatus 0 3 4, 2, false, by decide +kernel, by decide +kernel, by decide +kernel⟩

theorem witness_BringupStepsAdvance_6 :
    ∃ (s : State) (n : Fin 4) (failed : List (Bool × Nat)), (s.inStep 4 = true) ∧ (nfld s.boot.rueDone n 1 = 0) :=
  ⟨State.reset.setF A.bootStatus 0 3 4, 3, [(false, 3 * 4096 + 5)], by decide +kernel, by decide +kernel⟩

theorem witness_LinksQualifyOrAreLeftOut_1 :
    ∃ (s : State) (p : Fin 16) (l : Fin 4), (s.portQualifies p = true) ∧ (Nat.lor (s.boot.hostLanes.get (fun _ => 0) p) (2 ^ l.val) = 15) :=
  ⟨{ (live.setReg (A.lineCtrl 3) 1).setB (A.lineModCtrl 3) 4 false with boot := { hostLanes := [(3, 14)] } }, 3, 0, by decide +kernel,
    by decide +kernel⟩

theorem witness_LinksQualifyOrAreLeftOut_2 :
    ∃ (s : State) (f : Fin 32) (tx : Bool) (w : Fin 16), (s.waveWaits f tx w = true) ∧ (((s.fib f).lane w).locked = true) ∧
    ((s.waveQualOf f tx w).readmitSince = none) :=
  ⟨{ live.setReg (A.optCtrl 1) 2 with dfl := { fibres := [(5, { lanes := [(2, { locked := true })] })] } }, 5, true, 2, by decide +kernel,
    by decide +kernel, by decide +kernel⟩

theorem witness_LinksQualifyOrAreLeftOut_3 :
    ∃ (s : State) (p : Fin 16) (l : Fin 4), (s.portEnabled p = true) ∧ (s.framersOn p = false) ∧ ((s.portQualOf p).passed = false) ∧
    ((s.portQualOf p).leftOut = false) ∧ (s.qualLate (s.portQualOf p).since = true) :=
  ⟨{ (live.setReg (A.lineCtrl 3) 1).setB (A.lineModCtrl 3) 4 true with boot := { step3At := some 0 } }, 3, 0, by decide +kernel,
    by decide +kernel, by decide +kernel, by decide +kernel, by decide +kernel⟩

theorem witness_LinksQualifyOrAreLeftOut_4 :
    ∃ (s : State) (f : Fin 32) (w : Fin 16), (s.elapsedSince (s.waveQualOf f true w).readmitSince 2000000000 = true) :=
  ⟨live.setWaveQual 5 true 2 { readmitSince := some 0 }, 5, 2, by decide +kernel⟩

theorem witness_ImagesLicencesAndUpdates_1 :
    ∃ (s : State) (v : Word), (s.accepts A.bootRecCtrl = true) ∧ (bit v 31 = true) ∧ (bit v 8 = false) ∧ (s.imageOk s.bootImage false = false) :=
  ⟨live, 0x80000000#32, by decide +kernel, by decide +kernel, by decide +kernel, by decide +kernel⟩

theorem witness_ImagesLicencesAndUpdates_2 :
    ∃ (s : State) (v : Word), (s.accepts A.bootRecCtrl = true) ∧ (bit v 31 = true) ∧ (bit v 8 = false) ∧ (s.bootFail = 1) ∧
    (s.stepDone 0 = false) :=
  ⟨State.reset.setF A.bootStatus 12 4 1, 0x80000000#32, by decide +kernel, by decide +kernel, by decide +kernel, by decide +kernel,
    by decide +kernel⟩

theorem witness_ImagesLicencesAndUpdates_3 :
    ∃ (s : State) (v : Word), (s.accepts A.bootRecCtrl = true) ∧ (bit v 31 = true) ∧ (bit v 8 = true) ∧ (s.f A.bootStatus 8 2 = 2) :=
  ⟨{ live with bootMem := [(5, 7#8)] }, 0x80000300#32, by decide +kernel, by decide +kernel, by decide +kernel, by decide +kernel⟩

theorem witness_ImagesLicencesAndUpdates_4 :
    ∃ (s : State) (v : Word), (s.accepts A.bootLicCtrl = true) ∧ (bit v 0 = true) ∧ ((∀ x ∈ s.boot.licences, x.serial ≠ leAt s.licWindow 24 8)) :=
  ⟨live, 1, by decide +kernel, by decide +kernel, by decide +kernel⟩

theorem witness_ImagesLicencesAndUpdates_5 :
    ∃ (s : State) (v : Word),
    let a := s.reg64 A.bootUpdAddrLo A.bootUpdAddrHi; let n := (s.reg A.bootUpdLen).toNat; (s.accepts A.bootUpdCtrl = true) ∧ (bit v 0 = true) ∧
    (s.boot.update = none) ∧ (s.inService = true) ∧ (n ≤ imageMax) ∧ (s.inWorking a n = true) ∧ (s.firstPoison a n = none) ∧ (256 ≤ n) ∧
    (imgLength (s.galRead a n) ≤ n) ∧ (imgSeq s.boot.image < imgSeq (s.galRead a n)) :=
  ⟨let a := live.workBase + areaFree; ((live.galWrite (a + 8) [9]).setReg64 A.bootUpdAddrLo A.bootUpdAddrHi a).setReg A.bootUpdLen 256, 1,
    by decide +kernel, by decide +kernel, by decide +kernel, by decide +kernel, by decide +kernel, by decide +kernel, by decide +kernel,
    by decide +kernel, by decide +kernel, by decide +kernel⟩

theorem witness_ImagesLicencesAndUpdates_6 :
    ∃ (s : State) (c : Fin 6) (n : Nat), (s.awaitsSwitch c = true) ∧ (c.val ≠ 1) ∧ (c.val ≠ 0) ∧ (nfld s.boot.switched 0 1 = 0) ∧
    (recordsOf s.fwImage 5 ≠ []) :=
  ⟨{ live with boot := { fwComplete := 4, update := some updImage } }, 2, 0, by decide +kernel, by decide +kernel, by decide +kernel,
    by decide +kernel, by decide +kernel⟩

theorem witness_ImagesLicencesAndUpdates_7 :
    ∃ (s : State), (s.awaitsSwitch 1 = true) ∧ (s.elapsed s.boot.updateAt 10000000000 = true) :=
  ⟨{ live with boot := { fwComplete := 2, update := some updImage } }, by decide +kernel, by decide +kernel⟩

theorem witness_ImagesLicencesAndUpdates_8 :
    ∃ (s : State) (v : Word), (s.accepts A.bootCtrl = true) ∧ (bit v 16 = true) :=
  ⟨{ live with boot := { image := List.replicate 16 0 ++ [3] ++ List.replicate 300 0 } }, 0x10000#32, by decide +kernel, by decide +kernel⟩

theorem witness_LifecycleAndDebugLevels_1 :
    ∃ (s : State) (v : Word), (s.accepts A.topLcCtrl = true) ∧ (bit v 8 = true) ∧ (s.life.erasing = false) ∧ (fld v 0 2 = s.lcState + 1) ∧
    (fld v 0 2 ≠ 3) ∧ (s.dbgLevel = 2) ∧ (s.boot.fuses.lifecycle.length = 8) :=
  ⟨{ peered.setF A.topDbgStatus 0 2 2 with boot := { fuses := { lifecycle := [true, true, true, true, false, false, false, false] } } },
    0x102#32, by decide +kernel, by decide +kernel, by decide +kernel, by decide +kernel, by decide +kernel, by decide +kernel,
    by decide +kernel⟩

theorem witness_LifecycleAndDebugLevels_2 :
    ∃ (s : State) (v : Word), (s.accepts A.topLcCtrl = true) ∧ (bit v 8 = true) ∧ (s.life.erasing = false) ∧ (fld v 0 2 ≠ s.lcState + 1) :=
  ⟨peered, 0x101#32, by decide +kernel, by decide +kernel, by decide +kernel, by decide +kernel⟩

theorem witness_LifecycleAndDebugLevels_3 :
    ∃ (s : State), (s.life.erasing = true) ∧ (s.power.state = .safe) :=
  ⟨{ (live.galWrite 77 [3]) with life := { erasing := true }, power := { state := .safe } }, by decide +kernel, by decide +kernel⟩

theorem witness_LifecycleAndDebugLevels_4 :
    ∃ (s : State) (v : Word), (s.accepts A.topDbgCtrl = true) ∧ (fld v 0 3 = 1) ∧ (fld v 3 1 = b2n (s.b A.topDbgCtrl 3)) ∧
    (s.tokenCheck s.dbgWindow ≠ 0) :=
  ⟨live, 1, by decide +kernel, by decide +kernel, by decide +kernel, by decide +kernel⟩

theorem witness_LifecycleAndDebugLevels_5 :
    ∃ (s : State) (v : Word), (s.accepts A.topDbgCtrl = true) ∧ (fld v 0 3 = 1) ∧ (fld v 3 1 = b2n (s.b A.topDbgCtrl 3)) ∧ (s.dbgLevel ≠ 2) :=
  ⟨live, 1, by decide +kernel, by decide +kernel, by decide +kernel, by decide +kernel⟩

theorem witness_LifecycleAndDebugLevels_6 :
    ∃ (s : State) (v : Word), (s.accepts A.topDbgCtrl = true) ∧ (fld v 0 3 = 4) ∧ (s.lcState = 0) :=
  ⟨{ peered with boot := { peered.boot with fuses := { lifecycle := [] } } }, 4, by decide +kernel, by decide +kernel, by decide +kernel⟩

theorem witness_LifecycleAndDebugLevels_7 :
    ∃ (s : State) (v : Word), (s.accepts A.topDbgCtrl = true) ∧ (fld v 0 3 = 2) ∧ (s.dbgLevel = 1) :=
  ⟨{ peered.setF A.topDbgStatus 0 2 1 with life := { notAfter := 5000 } }, 2, by decide +kernel, by decide +kernel, by decide +kernel⟩

theorem witness_LifecycleAndDebugLevels_8 :
    ∃ (s : State), (s.life.notAfter ≠ 0) ∧ (s.life.notAfter * 1000000000 ≤ s.time.dev / 0x10000) ∧ (s.dbgLevel = 1) :=
  ⟨{ peered.setF A.topDbgStatus 0 2 1 with life := { notAfter := 500 } }, by decide +kernel, by decide +kernel, by decide +kernel⟩

theorem witness_AttestationAnswersAndItsBucket_1 :
    ∃ (s : State) (r : List Byte), (s.doeServed = true) ∧ (s.boot.fuses.attKey = true) ∧ (r = [0x01#8, 0, 0, 0]) :=
  ⟨live, [0x01#8, 0, 0, 0], by decide +kernel, by decide +kernel, rfl⟩

theorem witness_AttestationAnswersAndItsBucket_2 :
    ∃ (s : State) (n : List Byte), (s.doeServed = true) ∧ (s.boot.fuses.attKey = true) ∧ (n.length = 32) ∧ (s.f A.topAttStatus 16 4 = 0) ∧
    (s.life.attIndex < 0x40000) :=
  ⟨{ live with life := { attIndex := 5 } }.setF A.topAttStatus 16 4 0, List.replicate 32 7, by decide +kernel, by decide +kernel,
    by decide +kernel, by decide +kernel, by decide +kernel⟩

theorem witness_AttestationAnswersAndItsBucket_3 :
    ∃ (s : State) (n : List Byte), (s.doeServed = true) ∧ (s.boot.fuses.attKey = true) ∧ (n.length = 32) ∧ (s.f A.topAttStatus 16 4 ≠ 0) ∧
    (s.life.attIndex < 0x40000) :=
  ⟨{ live with life := { attIndex := 5 } }.setF A.topAttStatus 16 4 3, List.replicate 32 7, by decide +kernel, by decide +kernel,
    by decide +kernel, by decide +kernel, by decide +kernel⟩

theorem witness_AttestationAnswersAndItsBucket_4 :
    ∃ (s : State), (s.f A.topAttStatus 16 4 < 8) ∧ (s.elapsed s.life.refilledAt 1000000000 = true) :=
  ⟨live.setF A.topAttStatus 16 4 7, by decide +kernel, by decide +kernel⟩

theorem witness_AttestationAnswersAndItsBucket_5 :
    ∃ (s : State) (r : List Byte), (s.doeServed = true) ∧ (leAt r 0 1 = 1) :=
  ⟨live, [1, 0, 0, 0], by decide +kernel, by decide +kernel⟩

theorem witness_PatrolReadsAreSortedByWhatTheyFind_1 :
    ∃ (s : State) (addr : Nat) (bank : Nat) (row : Nat), (s.poisoned (addr / 64) = false) :=
  ⟨live, 640, 1, 2, by decide +kernel⟩

theorem witness_PatrolReadsAreSortedByWhatTheyFind_2 :
    ∃ (s : State) (addr : Nat) (symbols : Nat) (bank : Nat) (row : Nat) (r : Row), (s.b A.galScrubCtrl 8 = true) ∧ (addr < galBytes) ∧
    (s.poisoned (addr / 64) = false) ∧ ((symbols = 1 ∨ symbols = 2)) ∧
    (r = { chan := s.servingChannel (addr / 64 * 64), bank := bank, row := row }) ∧ ((∀ e ∈ s.gal.corrected, e.1 ≠ r)) ∧
    ((s.gal.rates.get (fun _ => {}) r.chan).run < 8) :=
  ⟨live, 640, 2, 1, 2, { chan := (live : State).servingChannel ((640 : Nat) / 64 * 64), bank := (1 : Nat), row := (2 : Nat) },
    by decide +kernel, by decide +kernel, by decide +kernel, by decide +kernel, rfl, by decide +kernel, by decide +kernel⟩

theorem witness_PatrolReadsAreSortedByWhatTheyFind_3 :
    ∃ (s : State) (addr : Nat) (symbols : Nat) (bank : Nat) (row : Nat) (r : Row), (s.b A.galScrubCtrl 8 = true) ∧ (addr < galBytes) ∧
    (s.poisoned (addr / 64) = false) ∧ (3 ≤ symbols) ∧ (r = { chan := s.servingChannel (addr / 64 * 64), bank := bank, row := row }) ∧
    (s.queueAt (addr / 64 * 64) = none) ∧ (s.locate (addr / 64 * 64) = .state) ∧ (s.gal.spares.get (fun _ => 0) (r.chan * 65536 + bank) < 8) ∧
    ((∀ x ∈ s.gal.rowCopies, x.1 ≠ r)) :=
  ⟨{ live with gal := { valid := [(0, true), (1, true)] } }, live.stateBase + 130, 3, 1, 2,
    { chan := ({ live with gal := { valid := [(0, true), (1, true)] } } : State).servingChannel ((live.stateBase + 130 : Nat) / 64 * 64), bank := (1 : Nat), row := (2 : Nat) },
    by decide +kernel, by decide +kernel, by decide +kernel, by decide +kernel, rfl, by decide +kernel, by decide +kernel, by decide +kernel,
    by decide +kernel⟩

theorem witness_RepairsEndAndAreRecorded_1 :
    ∃ (s : State) (r : Row) (t0 : Nat) (rest : List (Row × Nat)), (s.gal.rowCopies = (r, t0) :: rest) ∧
    (s.gal.rows.get (fun _ => 0) r.chan < 63) ∧ (s.boot.recordBytes ≤ 0x80000) :=
  ⟨{ live with gal := { rowCopies := [({ chan := 5, bank := 2, row := 9 }, 0)] } }, { chan := 5, bank := 2, row := 9 }, 0, [],
    by decide +kernel, by decide +kernel, by decide +kernel⟩

theorem witness_RepairsEndAndAreRecorded_2 :
    ∃ (s : State) (c : Fin 192), ((∃ x ∈ s.gal.chanCopies, x.chan = c.val)) ∧ (s.boot.recordBytes ≤ 0x80000) ∧ (s.f A.galRegionStatus 8 8 < 255) :=
  ⟨{ live with gal := { chanCopies := [{ chan := 5, started := 0 }] } }, 5, by decide +kernel, by decide +kernel, by decide +kernel⟩

theorem witness_RefillsStartAndStop_1 :
    ∃ (s : State) (n : Fin 4) (v : Word) (r : Refill), (s.accepts (A.galRefillCtrl n) = true) ∧ (s.refill n = none) ∧ (bit v 1 = true) ∧
    (r = s.refillOf n (bit v 0)) ∧ (r.units ≠ 0) ∧ (s.stateBase ≤ r.base) ∧ (r.base + r.units * 0x10000 ≤ s.workBase) ∧
    (s.refillBusy r.base (r.units * 0x10000) = false) ∧ (s.meetsState r.base (r.units * 0x10000) = false) :=
  ⟨refillable, 1, 3, (refillable : State).refillOf (1 : Fin 4) (bit (3 : Word) 0), by decide +kernel, by decide +kernel, by decide +kernel,
    rfl, by decide +kernel, by decide +kernel, by decide +kernel, by decide +kernel, by decide +kernel⟩

theorem witness_RefillsStartAndStop_2 :
    ∃ (s : State) (n : Fin 4) (v : Word) (r : Refill), (s.accepts (A.galRefillCtrl n) = true) ∧ (s.refill n = none) ∧ (bit v 1 = true) ∧
    (r = s.refillOf n (bit v 0)) ∧ ((r.units = 0 ∨ r.base < s.stateBase ∨ s.workBase < r.base + r.units * 0x10000)) :=
  ⟨live, 1, 2, (live : State).refillOf (1 : Fin 4) (bit (2 : Word) 0), by decide +kernel, by decide +kernel, by decide +kernel, rfl,
    by decide +kernel⟩

theorem witness_RefillsStartAndStop_3 :
    ∃ (s : State) (n : Fin 4) (v : Word) (r : Refill), (s.accepts (A.galRefillCtrl n) = true) ∧ (s.refill n = some r) ∧ (bit v 2 = true) :=
  ⟨{ live with gal := { refills := [(2, sinkRefill)] } }, 2, 4, sinkRefill, by decide +kernel, by decide +kernel, by decide +kernel⟩

theorem witness_RefillsMoveUnitsUntilTheyEnd_1 :
    ∃ (s : State) (node : Nat) (n : Nat) (msg : List Byte) (r : Refill), (n < 4) ∧ (refillOk 0x21 msg = true) ∧
    (s.refillFor true node (rfId msg) = some (n, r)) ∧ (r.units = rfUnits msg) :=
  ⟨{ peered with gal := { refills := [(2, { sinkRefill with source := true })] } }, 7, 2, refillMsg 0x21 0 9 0 2 0,
    { sinkRefill with source := true }, by decide +kernel, by decide +kernel, by decide +kernel, by decide +kernel⟩

theorem witness_RefillsMoveUnitsUntilTheyEnd_2 :
    ∃ (s : State) (node : Nat) (n : Nat) (msg : List Byte) (r : Refill), (n < 4) ∧ (refillOk 0x20 msg = true) ∧
    (s.refillFor false node (rfId msg) = some (n, r)) ∧ (rfUnit msg = r.next) ∧ (rfStatus msg ≠ 0x50) ∧ ((msg.drop 28).length = 0x10000) ∧
    (crc64 (msg.drop 28) = rfCrc msg) ∧ (r.next < r.units) ∧ (r.lost = none) ∧ (s.unitValid (s.refillUnit r + r.next + 1) = false) :=
  ⟨{ peered with gal := { refills := [(2, sinkRefill)] } }, 7, 2, unitMsg, sinkRefill, by decide +kernel, unit_ok _ _,
    (congrArg (State.refillFor _ false 7) (unit_word _ _).1).trans (by decide +kernel), (unit_word _ _).2.1,
    by rw [show rfStatus unitMsg = 0 from (unit_word _ _).2.2]; decide,
    by rw [show unitMsg.drop 28 = unitData from unit_drop _ _]; exact List.length_replicate,
    by rw [show unitMsg.drop 28 = unitData from unit_drop _ _]; exact (unit_crc _ _ (crc64_lt _)).symm, by decide +kernel, by decide +kernel,
    by decide +kernel⟩

theorem witness_RefillsMoveUnitsUntilTheyEnd_3 :
    ∃ (s : State) (node : Nat) (n : Nat) (msg : List Byte) (r : Refill), (n < 4) ∧ (refillOk 0x22 msg = true) ∧
    (s.refillFor true node (rfId msg) = some (n, r)) ∧ (r.units ≤ rfUnit msg) ∧ (r.lost = none) :=
  ⟨{ peered with gal := { refills := [(2, { sinkRefill with source := true, next := 2 })] } }, 7, 2, refillMsg 0x22 0 9 2 0 0,
    { sinkRefill with source := true, next := 2 }, by decide +kernel, by decide +kernel, by decide +kernel, by decide +kernel,
    by decide +kernel⟩

theorem witness_RefillsMoveUnitsUntilTheyEnd_4 :
    ∃ (s : State) (node : Nat) (n : Nat) (msg : List Byte) (r : Refill), (n < 4) ∧ (refillOk 0x23 msg = true) ∧
    (s.gal.refills.find? (fun e => decide (e.2.peer = node) && decide (e.2.id = rfId msg)) = some (n, r)) :=
  ⟨{ peered with gal := { refills := [(2, sinkRefill)] } }, 7, 2, refillMsg 0x23 0x40 9 0 0 0, sinkRefill, by decide +kernel,
    by decide +kernel, by decide +kernel⟩

theorem witness_RefillsMoveUnitsUntilTheyEnd_5 :
    ∃ (s : State) (n : Fin 4) (r : Refill), (s.refill n = some r) ∧ (r.source = false) ∧ (r.seen = false) ∧
    (s.elapsed r.lastSent 10000000 = true) :=
  ⟨{ peered with gal := { refills := [(2, sinkRefill)] } }, 2, sinkRefill, by decide +kernel, by decide +kernel, by decide +kernel,
    by decide +kernel⟩

theorem witness_RefillsMoveUnitsUntilTheyEnd_6 :
    ∃ (s : State) (n : Fin 4) (r : Refill), (s.refill n = some r) ∧ (r.source = false) ∧ (r.seen = true) ∧ (s.elapsed r.lastSent 1000000 = true) :=
  ⟨{ peered with gal := { refills := [(2, { sinkRefill with seen := true })] } }, 2, { sinkRefill with seen := true }, by decide +kernel,
    by decide +kernel, by decide +kernel, by decide +kernel⟩

theorem witness_RefillsMoveUnitsUntilTheyEnd_7 :
    ∃ (s : State) (n : Fin 4) (r : Refill), (s.refill n = some r) ∧ (s.refillSilent r = true) :=
  ⟨{ peered with gal := { refills := [(2, sinkRefill)] } }, 2, sinkRefill, by decide +kernel, by decide +kernel⟩

theorem witness_RefillsMoveUnitsUntilTheyEnd_8 :
    ∃ (s : State) (n : Fin 4) (r : Refill), (s.refill n = some r) ∧ (s.refillUnkeyed r = true) :=
  ⟨{ live with gal := { refills := [(2, sinkRefill)] } }, 2, sinkRefill, by decide +kernel, by decide +kernel⟩

theorem witness_Bar2ReachesWhatItMay_1 :
    ∃ (s : State) (offset : Nat) (len : Nat), ((∀ i,
    i < len → s.barRead (s.barBase offset + i) = .data ∨ s.barRead (s.barBase offset + i) = .zero)) :=
  ⟨live, live.workBase + areaFree, 8, by decide +kernel⟩

theorem witness_Bar2ReachesWhatItMay_2 :
    ∃ (s : State) (offset : Nat) (len : Nat) (i : Nat), (i < len) ∧ (s.barRead (s.barBase offset + i) = .invalid) ∧ ((∀ j,
    j < len → s.barRead (s.barBase offset + j) ≠ .poison)) :=
  ⟨live, live.stateBase, 8, 3, by decide +kernel, by decide +kernel, by decide +kernel⟩

theorem witness_Bar2ReachesWhatItMay_5 :
    ∃ (s : State) (v : Word), (s.accepts A.topBar2Base = true) :=
  ⟨live, 0x3FF#32, by decide +kernel⟩

theorem witness_TransfersMoveTheirBytes_1 :
    ∃ (s : State) (q : Fin 64) (i : Word) (x : Xfer), let d := x.entry.desc; (s.memoryForm = true) ∧ (s.cle.xfers.find? (fun x => x.q = q.val ∧
    x.entry.index = i.toNat) = some x) ∧ (Desc.opcode x.entry.desc = 0x40) ∧ (s.busMaster = true) ∧ (s.computeRuns = true) ∧ (s.qLoc q = 0) ∧
    ((addrGallery (Desc.src x.entry.desc) = true → s.firstPoison (addrOffset (Desc.src x.entry.desc)) (Desc.bytes x.entry.desc) = none)) :=
  ⟨{ (queued live 0 2 [] [entryOf copyDesc]).galWrite (locAddr - 2 ^ 63) [1, 2, 3] with host := { bme := true }, cle := { xfers := [{ q := 0, entry := entryOf copyDesc, late := false, bufs := [] }] } },
    0, 0, { q := 0, entry := entryOf copyDesc, late := false, bufs := [] }, by decide +kernel, by decide +kernel, by decide +kernel,
    by decide +kernel, by decide +kernel, by decide +kernel, by decide +kernel⟩

theorem witness_TransfersMoveTheirBytes_2 :
    ∃ (s : State) (q : Fin 64) (i : Word) (x : Xfer) (hf : Option Nat), let d := x.entry.desc; (s.cle.xfers.find? (fun x => x.q = q.val ∧
    x.entry.index = i.toNat) = some x) ∧ (Desc.opcode x.entry.desc = 0x41) ∧ (Desc.bytes x.entry.desc % 4 = 0) ∧ (s.busMaster = true) ∧
    (s.computeRuns = true) ∧ (s.qLoc q = 0) :=
  ⟨{ queued live 0 2 [] [entryOf fillDesc] with host := { bme := true }, cle := { xfers := [{ q := 0, entry := entryOf fillDesc, late := false, bufs := [] }] } },
    0, 0, { q := 0, entry := entryOf fillDesc, late := false, bufs := [] }, some 3, by decide +kernel, by decide +kernel, by decide +kernel,
    by decide +kernel, by decide +kernel, by decide +kernel⟩

theorem witness_ReceivedChunksEnterOrAreDiscarded_1 :
    ∃ (s : State) (g : Fin 4096) (c : Nat) (x : Inst), (s.inst g = some x) ∧ (opCarries x.op = false) ∧ (x.op ≠ 0x0A) ∧ (x.staysOpen) ∧
    (c < x.chunkTotal) ∧ (x.readsLocal c = true) ∧ ((x.chunk c).got.contains x.self = false) ∧ ((x.chunk c).carried = none) ∧
    (s.localReady x = true) ∧ (addrGallery x.desc.localAddr = true) ∧
    (s.firstPoison (addrOffset x.desc.localAddr + c * 65536) (chunkBytes x.desc.inFmt (x.elems c)) = none) :=
  ⟨running (instOf 1 4), 0, 0, instOf 1 4, by decide +kernel, by decide +kernel, by decide +kernel, ⟨by decide +kernel, by decide +kernel⟩,
    by decide +kernel, by decide +kernel, by decide +kernel, by decide +kernel, by decide +kernel, by decide +kernel, by decide +kernel⟩

theorem witness_ReceivedChunksEnterOrAreDiscarded_2 :
    ∃ (s : State) (f : Fin 32) (bytes : List Byte) (x : Inst),
    let h := bytes.take 32; let c := hChunk h; let slot := hSlot h; (32 ≤ bytes.length) ∧ (hcrcOk h = true) ∧ (s.inst (hGroup h) = some x) ∧
    (x.number = hInst h) ∧ (s.localReady x = true) ∧ (opCarries x.op = false) ∧ (x.op ≠ 0x0A) ∧ (x.staysOpen) ∧
    (x.expects false (hType h) c slot = true) ∧ ((x.plan c).wait ≠ some slot) ∧ ((x.plan c).ins2.contains slot = false) ∧
    (c < x.granted.get (fun _ => 0) slot) ∧ (hFmt h = (x.expectFmt c slot).1) ∧ ((∀ w ∈ x.winners, w.1 ≠ c * 1024 + slot)) ∧
    (hCoded h = false) ∧ ((bytes.drop 32).length = hLen h) ∧ (crc64 (bytes.drop 32) = hCrc h) ∧ (hLen h = (x.expectFmt c slot).2) :=
  ⟨running { instOf 1 4 with granted := [(2, 5)] }, 3, leafChunk, { instOf 1 4 with granted := [(2, 5)] }, by decide +kernel,
    by decide +kernel, by decide +kernel, by decide +kernel, by decide +kernel, by decide +kernel, by decide +kernel, ⟨by decide +kernel,
    by decide +kernel⟩, by decide +kernel, by decide +kernel, by decide +kernel, by decide +kernel, by decide +kernel, by decide +kernel,
    by decide +kernel, by decide +kernel, by decide +kernel, by decide +kernel⟩

theorem witness_ReceivedChunksEnterOrAreDiscarded_3 :
    ∃ (s : State) (f : Fin 32) (bytes : List Byte) (x : Inst),
    let h := bytes.take 32; let c := hChunk h; let slot := hSlot h; (32 ≤ bytes.length) ∧ (hcrcOk h = true) ∧ (s.inst (hGroup h) = some x) ∧
    (x.number = hInst h) ∧ (s.localReady x = true) ∧ (x.expects false (hType h) c slot = true) ∧ ((x.plan c).wait ≠ some slot) ∧
    (x.granted.get (fun _ => 0) slot ≤ c) :=
  ⟨running (instOf 1 4), 3, leafChunk, instOf 1 4, by decide +kernel, by decide +kernel, by decide +kernel, by decide +kernel,
    by decide +kernel, by decide +kernel, by decide +kernel, by decide +kernel⟩

theorem witness_ReceivedChunksEnterOrAreDiscarded_4 :
    ∃ (s : State) (f : Fin 32) (bytes : List Byte) (x : Inst), let h := bytes.take 32; let c := hChunk h; let slot := hSlot h; ∃ w,
    (32 ≤ bytes.length) ∧ (hcrcOk h = true) ∧ (s.inst (hGroup h) = some x) ∧ (x.number = hInst h) ∧ (s.localReady x = true) ∧
    (x.expects false (hType h) c slot = true) ∧ ((x.plan c).wait ≠ some slot) ∧ (c < x.granted.get (fun _ => 0) slot) ∧
    (hFmt h = (x.expectFmt c slot).1) ∧ (x.winners.find? (fun w => w.1 = c * 1024 + slot) = some w) :=
  ⟨running { instOf 1 4 with granted := [(2, 5)], winners := [(2, 77)] }, 3, leafChunk,
    { instOf 1 4 with granted := [(2, 5)], winners := [(2, 77)] }, (2, 77), by decide +kernel, by decide +kernel, by decide +kernel,
    by decide +kernel, by decide +kernel, by decide +kernel, by decide +kernel, by decide +kernel, by decide +kernel, by decide +kernel⟩

theorem witness_ArithmeticReleasesPartialsAndResults_1 :
    ∃ (s : State) (g : Fin 4096) (c : Nat) (faults : List (Nat × Nat)) (x : Inst) (o : OutSet), (s.inst g = some x) ∧ (x.stage c = .part) ∧
    (s.localReady x = true) ∧ (s.computeRuns = true) ∧ (x.staysOpen) ∧ ((x.plan c).final = true) ∧ ((∀ y ∈ (x.plan c).out1,
    x.overLine y = true)) ∧ (o = (x.partialOut c (x.chunk c).leaves (withFaults faults (x.chunk c).acc)).1) ∧
    (s.pinnedFull (o.data.length * ((x.plan c).out1.filter x.overLine).length) = false) :=
  ⟨running { instOf 1 4 with chunks := [(0, got3)] }, 0, 0, [], { instOf 1 4 with chunks := [(0, got3)] },
    (({ instOf 1 4 with chunks := [(0, got3)] } : Inst).partialOut (0 : Nat) (({ instOf 1 4 with chunks := [(0, got3)] } : Inst).chunk (0 : Nat)).leaves (withFaults ([] : List (Nat × Nat)) (({ instOf 1 4 with chunks := [(0, got3)] } : Inst).chunk (0 : Nat)).acc)).1,
    by decide +kernel, by decide +kernel, by decide +kernel, by decide +kernel, ⟨by decide +kernel, by decide +kernel⟩, by decide +kernel,
    by decide +kernel, rfl, by decide +kernel⟩

theorem witness_ArithmeticReleasesPartialsAndResults_2 :
    ∃ (s : State) (b : State) (g : Fin 4096) (c : Nat) (faults : List (Nat × Nat)) (x : Inst) (o : OutSet), (s.inst g = some x) ∧
    (x.stage c = .final) ∧ (s.localReady x = true) ∧ (s.computeRuns = true) ∧ ((x.chunk c).ownLost = false) ∧
    (b = (s.chunkBoundary (Desc.phaseId x.entry.desc)).draw.2) ∧ (s.statePoison x c = none) ∧ ((∀ n,
    x.mapSlot = some n → s.firstPoison (s.workBase + areaMaps + n * 0x100000 + c / 8) 1 = none)) ∧ ((x.reduced c s.freeCtr).1 = x.finalLeaves) ∧
    (o = (b.finalOut x c x.finalLeaves (withFaults faults (x.reduced c s.freeCtr).2.1)).1) :=
  ⟨running (lone { instOf 1 4 with chunks := [(0, { acc := List.replicate 4 0x40400000, leaves := 2, got := [0, 1] })] }),
    ((running (lone { instOf 1 4 with chunks := [(0, { acc := List.replicate 4 0x40400000, leaves := 2, got := [0, 1] })] }) : State).chunkBoundary (Desc.phaseId (lone { instOf 1 4 with chunks := [(0, { acc := List.replicate 4 0x40400000, leaves := 2, got := [0, 1] })] } : Inst).entry.desc)).draw.2,
    0, 0, [], lone { instOf 1 4 with chunks := [(0, { acc := List.replicate 4 0x40400000, leaves := 2, got := [0, 1] })] },
    ((((running (lone { instOf 1 4 with chunks := [(0, { acc := List.replicate 4 0x40400000, leaves := 2, got := [0, 1] })] }) : State).chunkBoundary (Desc.phaseId (lone { instOf 1 4 with chunks := [(0, { acc := List.replicate 4 0x40400000, leaves := 2, got := [0, 1] })] } : Inst).entry.desc)).draw.2 : State).finalOut (lone { instOf 1 4 with chunks := [(0, { acc := List.replicate 4 0x40400000, leaves := 2, got := [0, 1] })] } : Inst) (0 : Nat) (lone { instOf 1 4 with chunks := [(0, { acc := List.replicate 4 0x40400000, leaves := 2, got := [0, 1] })] } : Inst).finalLeaves (withFaults ([] : List (Nat × Nat)) ((lone { instOf 1 4 with chunks := [(0, { acc := List.replicate 4 0x40400000, leaves := 2, got := [0, 1] })] } : Inst).reduced (0 : Nat) (running (lone { instOf 1 4 with chunks := [(0, { acc := List.replicate 4 0x40400000, leaves := 2, got := [0, 1] })] }) : State).freeCtr).2.1)).1,
    by decide +kernel, by decide +kernel, by decide +kernel, by decide +kernel, by decide +kernel, rfl, by decide +kernel, by decide +kernel,
    by decide +kernel, rfl⟩

theorem witness_VstepChunksWriteTheirOutputs_1 :
    ∃ (s : State) (b : State) (q : Fin 64) (i : Word) (c : Nat) (faults : List (Nat × Nat)) (x : Inst) (o : OutSet),
    (s.vstep q i.toNat = some x) ∧ (c < x.chunkTotal) ∧ (x.isDone c = false) ∧ ((x.chunk c).held = none) ∧ (x.spilled = false) ∧
    (s.computeRuns = true) ∧ (x.done.length + 1 < x.chunkTotal) ∧
    (s.firstPoison (addrOffset x.desc.localAddr + c * 65536) (chunkBytes x.desc.inFmt (x.elems c)) = none) ∧ (s.statePoison x c = none) ∧
    (b = s.chunkBoundary (Desc.phaseId x.entry.desc)) ∧
    (o = (b.vstepOut x c (withFaults faults (decodeElems x.wide x.desc.inFmt (x.elems c) (s.galRead (addrOffset x.desc.localAddr + c * 65536) (chunkBytes x.desc.inFmt (x.elems c)))).1)).1) :=
  ⟨{ queued (live.setReg A.bootFeatures 7) 0 1 [] [vlong.entry] with cle := { vsteps := [vlong] } },
    ({ queued (live.setReg A.bootFeatures 7) 0 1 [] [vlong.entry] with cle := { vsteps := [vlong] } } : State).chunkBoundary (Desc.phaseId (vlong : Inst).entry.desc),
    0, 0, 1, [], vlong,
    ((({ queued (live.setReg A.bootFeatures 7) 0 1 [] [vlong.entry] with cle := { vsteps := [vlong] } } : State).chunkBoundary (Desc.phaseId (vlong : Inst).entry.desc) : State).vstepOut (vlong : Inst) (1 : Nat) (withFaults ([] : List (Nat × Nat)) (decodeElems (vlong : Inst).wide (vlong : Inst).desc.inFmt ((vlong : Inst).elems (1 : Nat)) (({ queued (live.setReg A.bootFeatures 7) 0 1 [] [vlong.entry] with cle := { vsteps := [vlong] } } : State).galRead (addrOffset (vlong : Inst).desc.localAddr + (1 : Nat) * 65536) (chunkBytes (vlong : Inst).desc.inFmt ((vlong : Inst).elems (1 : Nat))))).1)).1,
    by decide +kernel, by decide +kernel, by decide +kernel, by decide +kernel, by decide +kernel, by decide +kernel, by decide +kernel,
    by decide +kernel, by decide +kernel, rfl, rfl⟩

theorem witness_ComparesRecomputesAndLanes_1 :
    ∃ (s : State) (n : Nat) (m : Compare) (result : Option LaneMismatch), (s.rue.compares[n]? = some m) ∧ ((1 < m.left ∨ (m.left = 1 ∧
    (m.bad ≠ [] ∨ result ≠ none)))) :=
  ⟨{ live with rue := { compares := [cmp1] } }, 0, cmp1, some { f64 := false, lane := 5, element := 1, hash := 9 }, by decide +kernel,
    by decide +kernel⟩

theorem witness_ComparesRecomputesAndLanes_2 :
    ∃ (s : State) (n : Nat) (m : Compare) (b : LaneMismatch), (s.rue.compares[n]? = some m) ∧ (m.left = 0) ∧ (m.bad = [b]) ∧ (m.held = false) :=
  ⟨{ live with rue := { compares := [{ cmp1 with left := 0, bad := [{ f64 := false, lane := 5, element := 1, hash := 9 }] }] } }, 0,
    { cmp1 with left := 0, bad := [{ f64 := false, lane := 5, element := 1, hash := 9 }] },
    { f64 := false, lane := 5, element := 1, hash := 9 }, by decide +kernel, by decide +kernel, by decide +kernel, by decide +kernel⟩

theorem witness_ComparesRecomputesAndLanes_3 :
    ∃ (s : State) (lane : Nat) (reason : Nat) (rest : List LaneOut),
    (s.rue.retiring = { f64 := false, index := lane, reason := reason } :: rest) ∧ (lane < 16384) ∧ (lane % 128 < 64) ∧ (lane / 128 % 32 < 16) ∧
    (s.rue.lanesOut.contains (false, lane / 128 * 128 + 64) = false) ∧ (s.b (A.rueLaneStatus (lane / 4096)) (lane / 128 % 32) = false) ∧
    (s.b (A.rueLaneStatus (lane / 4096)) (16 + lane / 128 % 32) = false) ∧ (s.boot.recordBytes ≤ 0x80000) :=
  ⟨{ live with rue := { retiring := [{ f64 := false, index := 4097, reason := 1 }] } }, 4097, 1, [], by decide +kernel, by decide +kernel,
    by decide +kernel, by decide +kernel, by decide +kernel, by decide +kernel, by decide +kernel, by decide +kernel⟩

theorem witness_ComparesRecomputesAndLanes_4 :
    ∃ (s : State) (v : Word), (s.accepts A.rueShadowCtrl = true) :=
  ⟨live, 0x001F0001#32, by decide +kernel⟩

theorem witness_MessagesMoveInstances_1 :
    ∃ (s : State) (line : Bool) (msg : List Byte) (x : Inst), (msg.length = 24) ∧ (hcrcOk msg = true) ∧ (s.msgInst msg = some x) ∧
    (x.op ≠ 0x0A) ∧ (x.staysOpen) :=
  ⟨running (instOf 1 4), true, cleMsg 1 0 0 1 0 0 3 0, instOf 1 4, by decide +kernel, by decide +kernel, by decide +kernel, by decide +kernel,
    ⟨by decide +kernel, by decide +kernel⟩⟩

theorem witness_MessagesMoveInstances_2 :
    ∃ (s : State) (line : Bool) (msg : List Byte) (x : Inst), (msg.length = 24) ∧ (hcrcOk msg = true) ∧ (s.msgInst msg = some x) ∧
    (x.op = 0x0A) ∧ (mOrigin msg ∉ x.arrived) ∧ ((∃ y ∈ x.group.gateways, y ≠ mOrigin msg ∧ y ∉ x.arrived)) :=
  ⟨running (instOf 10 0), true, cleMsg 5 0 0 1 0 0 3 0, instOf 10 0, by decide +kernel, by decide +kernel, by decide +kernel,
    by decide +kernel, by decide +kernel, by decide +kernel⟩

theorem witness_MessagesMoveInstances_3 :
    ∃ (s : State) (line : Bool) (msg : List Byte) (x : Inst), (msg.length = 24) ∧ (hcrcOk msg = true) ∧ (s.msgInst msg = some x) ∧
    (x.op = 0x0A) ∧ (mOrigin msg ∉ x.arrived) ∧ ((∀ y ∈ x.group.gateways, y = mOrigin msg ∨ y ∈ x.arrived)) :=
  ⟨running { instOf 10 0 with arrived := [0, 1, 4] }, true, cleMsg 5 0 0 1 0 0 3 0, { instOf 10 0 with arrived := [0, 1, 4] },
    by decide +kernel, by decide +kernel, by decide +kernel, by decide +kernel, by decide +kernel, by decide +kernel⟩

theorem witness_MessagesMoveInstances_4 :
    ∃ (s : State) (line : Bool) (msg : List Byte) (x : Inst), (msg.length = 24) ∧ (hcrcOk msg = true) ∧ (s.msgInst msg = some x) ∧
    (x.op = 0x07) ∧ (mOrigin msg ∈ x.group.peers x.self) ∧ ((∀ e ∈ x.scalars, e.1 ≠ mOrigin msg)) :=
  ⟨running (instOf 7 4), false, cleMsg 6 0 0 1 0 0 1 0x3F800000, instOf 7 4, by decide +kernel, by decide +kernel, by decide +kernel,
    by decide +kernel, by decide +kernel, by decide +kernel⟩

theorem witness_MessagesMoveInstances_5 :
    ∃ (s : State) (node : Nat) (slot : Nat) (body : List Byte) (x : Inst), (s.inst (nfld (beAt body 0 2) 0 12) = some x) ∧
    (x.number = beAt body 4 4) ∧ (nfld (beAt body 2 2) 0 10 = x.self) ∧
    ((x.group.peers x.self).find? (fun y => x.nodeOf y = node) = some slot) ∧ (x.op ≠ 0x0A) ∧ (x.staysOpen) :=
  ⟨running (instOf 1 4), 6, 1, beBytes 2 0 ++ beBytes 2 0 ++ beBytes 4 1 ++ beBytes 4 9, instOf 1 4, by decide +kernel, by decide +kernel,
    by decide +kernel, by decide +kernel, by decide +kernel, ⟨by decide +kernel, by decide +kernel⟩⟩

theorem witness_MessagesMoveInstances_6 :
    ∃ (s : State) (line : Bool) (msg : List Byte) (c : Instr), (c ∈ [Instr.openReceive line msg, .resendReceive line msg,
    .notRetainedReceive line msg, .abortReceive line msg, .arriveReceive line msg, .normSumReceive line msg]) ∧
    ((msg.length ≠ 24 ∨ hcrcOk msg = false)) :=
  ⟨live, true, [1], .abortReceive true [1], by decide +kernel, by decide +kernel⟩

theorem witness_AbortsEndTheInstance_1 :
    ∃ (s : State) (line : Bool) (msg : List Byte) (x : Inst), (msg.length = 24) ∧ (hcrcOk msg = true) ∧ (s.msgInst msg = some x) ∧
    (s.cle.passed.contains (mGroup msg, mInst msg, mReason msg, mOrigin msg) = false) :=
  ⟨running (instOf 1 4), true, cleMsg 4 3 0 1 0 0 3 0, instOf 1 4, by decide +kernel, by decide +kernel, by decide +kernel, by decide +kernel⟩

theorem witness_AbortsEndTheInstance_2 :
    ∃ (s : State) (c : Instr) (g : Fin 4096) (x : Inst), (s.inst g = some x) ∧ (((∃ line msg, ∃ r ∈ x.resends,
    c = .notRetainedReceive line msg ∧ msg.length = 24 ∧ hcrcOk msg = true ∧ mGroup msg = g.val ∧ mInst msg = x.number ∧ r.chunk = mChunk msg ∧
    r.slot = mSlot msg) ∨ (∃ v, c = .cleAbortGo v ∧ s.accepts A.cleAbortCtrl = true ∧ bit v 31 = true ∧ fld v 0 12 = g.val ∧
    x.number = (s.reg A.cleAbortInst).toNat) ∨ (c = .progressTimeout g ∧ s.noProgress x = true) ∨ (c = .routeLossHoldExpire g ∧
    x.farSites.any (s.siteLost x) = true) ∨ (c = .keyLossHoldExpire g ∧
    ((x.group.counterparts x.self).map x.group.site).any (s.siteUnkeyed x) = true) ∨ (∃ ch slot r, c = .resendTimeout g ch slot ∧
    x.resends.find? (fun r => decide (r.chunk = ch) && decide (r.slot = slot) && decide (r.due ≤ s.mono)) = some r ∧ (∀ r' ∈ x.resends,
    r'.chunk = ch → r'.slot = slot → r' = r) ∧ x.group.resendMax ≤ r.count))) :=
  ⟨running { instOf 1 4 with resends := [{ chunk := 0, slot := 3, line := true, count := 3, decomp := false, due := 0 }] },
    .resendTimeout 0 0 3, 0, { instOf 1 4 with resends := [{ chunk := 0, slot := 3, line := true, count := 3, decomp := false, due := 0 }] },
    by decide +kernel, .inr (.inr (.inr (.inr (.inr ⟨0, 3, { chunk := 0, slot := 3, line := true, count := 3, decomp := false, due := 0 }, rfl,
    by decide +kernel, by decide +kernel, by decide +kernel⟩))))⟩

theorem witness_KeepingAndAskingAgain_1 :
    ∃ (s : State) (line : Bool) (msg : List Byte) (gr : Group), (msg.length = 24) ∧ (hcrcOk msg = true) ∧
    (((s.inst (mGroup msg)).isNone && s.isNewer (mGroup msg) (mInst msg)) = false) ∧ (s.msgGroup msg = some gr) :=
  ⟨running (instOf 1 4), true, cleMsg 2 0 0 1 0 0 3 0, group5, by decide +kernel, by decide +kernel, by decide +kernel, by decide +kernel⟩

theorem witness_KeepingAndAskingAgain_2 :
    ∃ (s : State) (g : Fin 4096) (ch : Nat) (slot : Nat) (x : Inst) (r : Resend), (s.inst g = some x) ∧ (x.resends = [r]) ∧ (r.chunk = ch) ∧
    (r.slot = slot) ∧ (r.due ≤ s.mono) ∧ (r.count < x.group.resendMax) :=
  ⟨running { instOf 1 4 with resends := [{ chunk := 0, slot := 3, line := true, count := 1, decomp := false, due := 0 }] }, 0, 0, 3,
    { instOf 1 4 with resends := [{ chunk := 0, slot := 3, line := true, count := 1, decomp := false, due := 0 }] },
    { chunk := 0, slot := 3, line := true, count := 1, decomp := false, due := 0 }, by decide +kernel, by decide +kernel, by decide +kernel,
    by decide +kernel, by decide +kernel, by decide +kernel⟩

theorem witness_KeepingAndAskingAgain_3 :
    ∃ (s : State) (g : Fin 4096) (x : Inst), (s.inst g = some x) :=
  ⟨running { instOf 1 4 with granted := [(2, 1)] }, 0, { instOf 1 4 with granted := [(2, 1)] }, by decide +kernel⟩

theorem witness_KeepingAndAskingAgain_6 :
    ∃ (s : State) (g : Nat) (c : Nat) (x : Inst) (k : Chunk) (o : OutSet), (s.cle.insts = [(g, x)]) ∧ (x.chunks = [(c, k)]) ∧ (x.staysOpen) ∧
    (x.op ≠ 0x0A) ∧ (k.blocked = some o) ∧ ((x.plan c).final = true) ∧ ((∀ y ∈ (x.plan c).out1, x.overLine y = true)) ∧
    (s.pinnedFull (o.data.length * ((x.plan c).out1.filter x.overLine).length) = false) :=
  ⟨running blockedInst, 0, 0, blockedInst, { got3 with blocked := some { isPartial := true, leaves := 4, fmt := 0, data := ones 4 } },
    { isPartial := true, leaves := 4, fmt := 0, data := ones 4 }, by decide +kernel, by decide +kernel, ⟨by decide +kernel, by decide +kernel⟩,
    by decide +kernel, by decide +kernel, by decide +kernel, by decide +kernel, by decide +kernel⟩

theorem witness_KeepingAndAskingAgain_7 :
    ∃ (s : State) (n : Fin 16), (s.accepts (A.cleMapCtrl n) = true) ∧ (s.f (A.cleMapCtrl n) 28 2 = 2) :=
  ⟨live.setReg (A.cleMapCtrl 3) 0x20000005#32, 3, by decide +kernel, by decide +kernel⟩

theorem witness_KeepingAndAskingAgain_8 :
    ∃ (s : State), ((∀ w ∈ s.lnd.waiting, s.mono < w.due)) :=
  ⟨{ live with lnd := { waiting := [{ cls := 4, size := 24, due := 2000000000000, msg := [] }] } }, by decide +kernel⟩

theorem witness_KeepingAndAskingAgain_9 :
    ∃ (s : State) (s' : State) (w : Waiting) (b : Nat), (s.lnd.waiting = [w]) ∧ (w.due ≤ s.mono) ∧ (w.cls = clsMsg) ∧ (s.msgInst w.msg = none) ∧
    (s.isNewer (mGroup w.msg) (mInst w.msg) = true) ∧ (s' = { s with lnd := { s.lnd with waiting := [] } }) ∧
    ((s'.alloc clsMsg w.msg.length).1 = some b) :=
  ⟨{ live with lnd := { banks := readyBanks, waiting := [heldWait] } }, { live with lnd := { banks := readyBanks, waiting := [] } }, heldWait,
    ((({ live with lnd := { banks := readyBanks, waiting := [] } } : State).alloc clsMsg (heldWait : Waiting).msg.length).1).getD 0,
    by decide +kernel, by decide +kernel, by decide +kernel, by decide +kernel, by decide +kernel, by decide +kernel,
    someGetD (by decide +kernel)⟩

theorem witness_CommitsAreCheckedAndTakeEffect_1 :
    ∃ (s : State) (b : Block), (s.power.state = .service) ∧ (s.commitOf b = {}) ∧ ((b = .cle → s.stagedPoison = none)) :=
  ⟨live, .route, by decide +kernel, by decide +kernel, by decide +kernel⟩

theorem witness_CommitsAreCheckedAndTakeEffect_2 :
    ∃ (s : State) (b : Block), (s.power.state = .service) ∧ (((s.commitOf b).checking.isSome || (s.commitOf b).accepted.isSome) = true) :=
  ⟨{ live with commits := [(4, { accepted := some {} })] }, .route, by decide +kernel, by decide +kernel⟩

theorem witness_CommitsAreCheckedAndTakeEffect_3 :
    ∃ (s : State) (b : Block) (x : StagedSet) (reason : Nat) (item : Nat), ((s.commitOf b).checking = some (x, reason, item)) ∧ (0 < reason) ∧
    (reason < 256) :=
  ⟨{ live with commits := [(4, { checking := some ({}, 3, 9) })] }, .route, {}, 3, 9, by decide +kernel, by decide +kernel, by decide +kernel⟩

theorem witness_CommitsAreCheckedAndTakeEffect_4 :
    ∃ (s : State) (q : Fin 8) (x : StagedSet) (item : Nat), ((s.commitOf (.opt q)).checking = some (x, 0, item)) ∧ (x.regs.wf regReset = true) ∧
    ((∀ e ∈ x.regs, inBlock (.opt q) e.1 = true ∧ isStaged e.1 = true)) :=
  ⟨{ live with commits := [(8, { checking := some ({}, 0, 9) })] }, 2, {}, 9, by decide +kernel, by decide +kernel, by decide +kernel⟩

theorem witness_CommitsAreCheckedAndTakeEffect_5 :
    ∃ (s : State) (b : Block) (x : StagedSet), ((s.commitOf b).accepted = some x) ∧ (x.regs.wf regReset = true) ∧ ((∀ e ∈ x.regs,
    inBlock b e.1 = true ∧ isStaged e.1 = true)) ∧ (b ≠ .gal) ∧ ((s.atBoundary b x = true ∨ b = .dfl)) :=
  ⟨{ live with commits := [(4, { accepted := some {} })] }, .route, {}, by decide +kernel, by decide +kernel, by decide +kernel,
    by decide +kernel, by decide +kernel⟩

theorem witness_SpanFramesAlignDeliverAndGo_1 :
    ∃ (s : State) (p : Fin 16) (frame : List Byte) (fec : FecCounts), (s.framersOn p = true) ∧ (s.linkRuns = true) ∧ (frame.length = 16384) :=
  ⟨framed, 2, fas ++ List.replicate 16376 0, { corrected := 0, codewords := 0, uncorrectable := 0, badBytes := [] }, by decide +kernel,
    by decide +kernel, by decide +kernel⟩

theorem witness_SpanFramesAlignDeliverAndGo_2 :
    ∃ (s : State) (p : Fin 16), (s.framersOn p = true) ∧ (s.linkRuns = true) :=
  ⟨framed, 2, by decide +kernel, by decide +kernel⟩

theorem witness_PortDefectsAndCountsFollowTheirTimers_1 :
    ∃ (s : State) (p : Fin 16), (s.portEnabled p = true) :=
  ⟨framed, 2, by decide +kernel⟩

theorem witness_PortDefectsAndCountsFollowTheirTimers_2 :
    ∃ (s : State) (p : Fin 16), (s.b (A.lineModStatus p) 6 = false) ∧ (s.b (A.lineModStatus p) 0 = true) :=
  ⟨(framed.setB (A.lineModStatus 2) 0 true).setPort 2 { sigLost := true }, 2, by decide +kernel, by decide +kernel⟩

theorem witness_PortDefectsAndCountsFollowTheirTimers_3 :
    ∃ (s : State) (p : Fin 16), (s.portEnabled p = true) ∧ (s.align p ≠ 2) ∧ (s.elapsedSince (s.port p).outSince 100000 = true) :=
  ⟨(framed.setReg (A.lineStatus 2) 0), 2, by decide +kernel, by decide +kernel, by decide +kernel⟩

theorem witness_PortDefectsAndCountsFollowTheirTimers_4 :
    ∃ (s : State) (p : Fin 16), (s.elapsedSince (s.port p).inSince 1000000 = true) :=
  ⟨framed.setPort 2 { inSince := some 5 }, 2, by decide +kernel⟩

theorem witness_PortDefectsAndCountsFollowTheirTimers_5 :
    ∃ (s : State) (p : Fin 16) (c : Instr) (lost : Bool), ((lost, c) ∈ [(true, Instr.modrefLoss p), (false, .modrefReturn p)]) ∧
    (s.portEnabled p = true) ∧ (s.b (A.lineStatus p) 12 = !lost) :=
  ⟨framed, 2, .modrefLoss 2, true, by decide +kernel, by decide +kernel, by decide +kernel⟩

theorem witness_PortDefectsAndCountsFollowTheirTimers_7 :
    ∃ (s : State) (p : Fin 16) (c : List SecondClass) (rest : List (List SecondClass)), ((s.port p).history = c :: rest) ∧ (10 ≤ rest.length) ∧
    (c.length = 4) :=
  ⟨framed.setPort 2 { history := List.replicate 11 (List.replicate 4 { es := true, ses := true }) }, 2,
    List.replicate 4 { es := true, ses := true }, List.replicate 10 (List.replicate 4 { es := true, ses := true }), by decide +kernel,
    by decide +kernel, by decide +kernel⟩

theorem witness_ModulesComeUpByTheirSequence_1 :
    ∃ (s : State) (p : Fin 16), (s.modPresent p = false) :=
  ⟨framed, 2, by decide +kernel⟩

theorem witness_ModulesComeUpByTheirSequence_2 :
    ∃ (s : State) (p : Fin 16), (s.modPresent p = true) :=
  ⟨framed.setB (A.lineModStatus 2) 0 true, 2, by decide +kernel⟩

theorem witness_ModulesComeUpByTheirSequence_3 :
    ∃ (s : State) (p : Fin 16) (m : ModuleFlags) (c : Instr), (c ∈ [Instr.moduleInterrupt p m, .modulePoll p m]) ∧ (s.modPresent p = true) ∧
    (s.modAuto p = true) :=
  ⟨(peered.setB (A.lineModCtrl 2) 4 true).setB (A.lineModStatus 2) 0 true, 2, { state := 3, txFault := true, rxLos := true },
    .modulePoll 2 ({ state := 3, txFault := true, rxLos := true } : ModuleFlags), by decide +kernel, by decide +kernel, by decide +kernel⟩

theorem witness_ModulesComeUpByTheirSequence_4 :
    ∃ (s : State) (p : Fin 16), (s.bringsUp p = true) ∧ ((s.port p).resetPulse = none) :=
  ⟨modular, 2, by decide +kernel, by decide +kernel⟩

theorem witness_ModulesComeUpByTheirSequence_5 :
    ∃ (s : State) (p : Fin 16), (s.bringsUp p = true) ∧ ((s.port p).resetPulse = none) :=
  ⟨modular, 2, by decide +kernel, by decide +kernel⟩

theorem witness_ModulesComeUpByTheirSequence_6 :
    ∃ (s : State) (p : Fin 16), (s.bringsUp p = true) ∧ (s.b (A.lineModStatus p) 7 = false) :=
  ⟨modular, 2, by decide +kernel, by decide +kernel⟩

theorem witness_ModulesComeUpByTheirSequence_7 :
    ∃ (s : State) (p : Fin 16), (s.elapsedSince (s.port p).resetPulse 10000000 = true) :=
  ⟨{ modular with pins := { modResetLow := 4 } }.setPort 2 { resetPulse := some 5 }, 2, by decide +kernel⟩

theorem witness_PortsAreTurnedOnAndOff_1 :
    ∃ (s : State) (p : Fin 16) (v : Word), (s.accepts (A.lineCtrl p) = true) ∧ ((p.val < 8 ∨ s.licensed 0 = true)) ∧ (s.portEnabled p = false) ∧
    (bit v 0 = true) ∧ (s.serdesRetired p = false) :=
  ⟨live, 3, 0x01#32, by decide +kernel, by decide +kernel, by decide +kernel, by decide +kernel, by decide +kernel⟩

theorem witness_PortsAreTurnedOnAndOff_2 :
    ∃ (s : State) (p : Fin 16) (v : Word), (s.accepts (A.lineCtrl p) = true) ∧ (s.portEnabled p = true) ∧ (bit v 0 = false) :=
  ⟨framed, 2, 0, by decide +kernel, by decide +kernel, by decide +kernel⟩

theorem witness_PortsAreTurnedOnAndOff_3 :
    ∃ (s : State) (p : Fin 16) (v : Word), (s.accepts (A.lineCtrl p) = true) ∧ (8 ≤ p.val) ∧ (bit v 0 = true) ∧ (s.licensed 0 = false) :=
  ⟨live, 8, 1, by decide +kernel, by decide +kernel, by decide +kernel, by decide +kernel⟩

theorem witness_PortsAreTurnedOnAndOff_4 :
    ∃ (s : State) (p : Fin 16) (v : Word) (reply : Option Byte), (s.accepts (A.lineCmisCtrl p) = true) ∧ (bit v 31 = true) ∧
    (s.modPresent p = false) :=
  ⟨live, 3, 0x80000000#32, some 5, by decide +kernel, by decide +kernel, by decide +kernel⟩

theorem witness_PortsAreTurnedOnAndOff_5 :
    ∃ (s : State) (p : Fin 16) (v : Word) (reply : Option Byte), (s.accepts (A.lineCmisCtrl p) = true) ∧ (bit v 31 = true) ∧
    (s.modPresent p = true) ∧ (bit v 24 = false) :=
  ⟨modular, 2, 0x80000000#32, some 5, by decide +kernel, by decide +kernel, by decide +kernel, by decide +kernel⟩

theorem witness_CellsAreCheckedAndTaken_1 :
    ∃ (s : State) (s1 : State) (p : Fin 16) (retry : Bool) (cell : List (Byte × Bool)) (e : Nat) (bytes : List Byte), bytes = cell.map (·.1) ∧
    let node := beAt bytes 8 4; let n := saNumber 1 e (s1.portRoute p); ∃ slot, ∃ body, (s.linkRuns = true) ∧ (s.portRole p = 1) ∧
    (s.nextCell p = (some cell, s1)) ∧ (s1.peerOf node = some e) ∧ (s1.checkCell n bytes false = .good slot body) ∧
    (beAt bytes 12 4 = s.nodeId) ∧ (node = s.peerNode (s.portPeer p)) ∧ (s.peerValid (s.portPeer p) = true) ∧ (beAt bytes 4 1 = 2) ∧
    (nfld (beAt bytes 5 1) 0 3 = 0) ∧ (msgLength (beAt body 0 1) = some body.length) ∧ (hcrcOk body = true) :=
  ⟨withCell (cellOf 2 0 cmdBody), afterCell (cellOf 2 0 cmdBody), 2, false, marked (cellOf 2 0 cmdBody), 1, cellOf 2 0 cmdBody, (marked_fst _).symm, 0, cmdBody, by decide +kernel, by decide +kernel, cellOf_next 2 0 cmdBody 24 (by decide +kernel) (by decide +kernel), (congrArg (State.peerOf _) (cellOf_node 2 0 cmdBody)).trans (by decide +kernel), by
    show (afterCell (cellOf 2 0 cmdBody)).checkCell (saNumber 1 1 ((afterCell (cellOf 2 0 cmdBody)).portRoute 2)) (cellOf 2 0 cmdBody) false = _
    rw [show (afterCell (cellOf 2 0 cmdBody)).portRoute 2 = 0 from by decide +kernel]
    exact cellOf_good 2 0 cmdBody, (cellOf_dst 2 0 cmdBody).trans (by decide +kernel), (cellOf_node 2 0 cmdBody).trans (by decide +kernel), by decide +kernel, cellOf_type 2 0 cmdBody, by show nfld (beAt (cellOf 2 0 cmdBody) 5 1) 0 3 = 0; rw [cellOf_vc]; decide, by decide +kernel, by decide +kernel⟩

theorem witness_CellsAreCheckedAndTaken_2 :
    ∃ (s : State) (s1 : State) (p : Fin 16) (retry : Bool) (cell : List (Byte × Bool)) (e : Nat) (bytes : List Byte), bytes = cell.map (·.1) ∧
    let node := beAt bytes 8 4; let n := saNumber 1 e (s1.portRoute p); ∃ slot, ∃ body, (s.linkRuns = true) ∧ (s.portRole p = 1) ∧
    (s.nextCell p = (some cell, s1)) ∧ (s1.peerOf node = some e) ∧ (s1.checkCell n bytes false = .good slot body) ∧
    (beAt bytes 12 4 = s.nodeId) ∧ (node = s.peerNode (s.portPeer p)) ∧ (s.peerValid (s.portPeer p) = true) ∧ (beAt bytes 4 1 = 1) ∧
    (nfld (beAt bytes 5 1) 0 3 ≠ 0) ∧ ((∀ b ∈ cell, b.2 = false)) ∧ (body.length = 8224) ∧
    (beAt body 28 4 = crc32c (body.take 28 ++ body.drop 32)) ∧ (2 ≤ nfld (beAt body 1 1) 0 4) ∧ (nfld (beAt body 1 1) 0 4 ≤ 8) ∧
    (nfld (beAt body 1 1) 4 3 ≤ 4) ∧ (beAt body 2 1 < nfld (beAt body 1 1) 0 4 + nfld (beAt body 1 1) 4 3) ∧
    (s.rte.farInc.get (fun _ => 0) node = beAt body 6 2) ∧ (beAt body 8 4 = (s.rx (streamKey node (nfld (beAt bytes 5 1) 0 3))).next) ∧
    ((∀ u ∈ (s.rx (streamKey node (nfld (beAt bytes 5 1) 0 3))).stripes, u.seq ≠ beAt body 8 4)) :=
  ⟨withCell (cellOf 1 1 farShard), afterCell (cellOf 1 1 farShard), 2, false, marked (cellOf 1 1 farShard), 1, cellOf 1 1 farShard, (marked_fst _).symm, 0, farShard, by decide +kernel, by decide +kernel, cellOf_next 1 1 farShard 8224 (by exact farShard_length) (by decide +kernel), (congrArg (State.peerOf _) (cellOf_node 1 1 farShard)).trans (by decide +kernel), by
    show (afterCell (cellOf 1 1 farShard)).checkCell (saNumber 1 1 ((afterCell (cellOf 1 1 farShard)).portRoute 2)) (cellOf 1 1 farShard) false = _
    rw [show (afterCell (cellOf 1 1 farShard)).portRoute 2 = 0 from by decide +kernel]
    exact cellOf_good 1 1 farShard, (cellOf_dst 1 1 farShard).trans (by decide +kernel), (cellOf_node 1 1 farShard).trans (by decide +kernel), by decide +kernel, cellOf_type 1 1 farShard, by show nfld (beAt (cellOf 1 1 farShard) 5 1) 0 3 ≠ 0; rw [cellOf_vc]; decide, fun b hb => by obtain ⟨_, _, rfl⟩ := List.mem_map.mp hb; rfl, farShard_length, shardBody_crc _ _ _, by decide +kernel, by decide +kernel, by decide +kernel, by decide +kernel, by decide +kernel, by decide +kernel, by decide +kernel⟩

theorem witness_CellsAreCheckedAndTaken_3 :
    ∃ (s : State) (s1 : State) (p : Fin 16) (retry : Bool) (cell : List (Byte × Bool)) (e : Nat) (bytes : List Byte), bytes = cell.map (·.1) ∧
    let node := beAt bytes 8 4; let n := saNumber 1 e (s1.portRoute p); (s.linkRuns = true) ∧ (s.portRole p = 1) ∧ (s.nextCell p = (some cell,
    s1)) ∧ (s1.peerOf node = some e) ∧ (s1.checkCell n bytes false = .tagFail) :=
  ⟨withCell (badCell 2 0 cmdBody), afterCell (badCell 2 0 cmdBody), 2, false, marked (badCell 2 0 cmdBody), 1, badCell 2 0 cmdBody, (marked_fst _).symm, by decide +kernel, by decide +kernel, badCell_next 2 0 cmdBody 24 (by decide +kernel) (by decide +kernel), (congrArg (State.peerOf _) ((badCell_field _ _ _ _ _ (by decide)).trans (cellOf_node 2 0 cmdBody))).trans (by decide +kernel), by
    show (afterCell (badCell 2 0 cmdBody)).checkCell (saNumber 1 1 ((afterCell (badCell 2 0 cmdBody)).portRoute 2)) (badCell 2 0 cmdBody) false = _
    rw [show (afterCell (badCell 2 0 cmdBody)).portRoute 2 = 0 from by decide +kernel]
    exact badCell_fails 2 0 cmdBody⟩

theorem witness_NaksAndLostStripes_1 :
    ∃ (s : State) (node : Nat) (msg : List Byte), (beAt msg 0 1 = 0x30) ∧ (msg.length = 24) ∧ (hcrcOk msg = true) ∧ (beAt msg 8 4 = 1) ∧
    (seqBefore (beAt msg 4 4) (s.tx (streamKey node (beAt msg 1 1))).seq = true) ∧ ((s.alloc clsArq 8192).1.isSome = true) :=
  ⟨{ peered with lnd := { banks := readyBanks } }.setTx (streamKey 7 1) { seq := 9 }, 7, rteMsg 0x30 1 0 0 5 1, by decide +kernel,
    by decide +kernel, by decide +kernel, by decide +kernel, by decide +kernel, by decide +kernel⟩

theorem witness_NaksAndLostStripes_2 :
    ∃ (s : State) (node : Nat) (q : Nat) (key : Nat) (msg : List Byte), (beAt msg 0 1 = 0x33) ∧ (msg.length = 24) ∧ (hcrcOk msg = true) ∧
    (beAt msg 8 4 = 1) ∧ (q = beAt msg 4 4) ∧ (key = streamKey node (beAt msg 1 1)) ∧ (s.cle.insts = []) ∧
    (seqBefore q (s.rx key).next = false) ∧ ((∀ u ∈ (s.rx key).stripes, u.seq ≠ q)) ∧ (q ≠ (s.rx key).next) ∧ ((∀ u ∈ (s.rx key).stripes,
    u.seq ≠ (s.rx key).next)) :=
  ⟨peered, 7, 5, streamKey 7 1, rteMsg 0x33 1 0 0 5 1, by decide +kernel, by decide +kernel, by decide +kernel, by decide +kernel,
    by decide +kernel, by decide +kernel, by decide +kernel, by decide +kernel, by decide +kernel, by decide +kernel, by decide +kernel⟩

theorem witness_NaksAndLostStripes_3 :
    ∃ (s : State) (node : Nat) (vc : Nat) (seq : Nat) (y : RxStripe) (c : Instr), (s.waitingStripe node vc seq = some y) :=
  ⟨peered.setRx (streamKey 7 1) { stripes := [{ seq := 2, k := 2, m := 0, firstPkt := 0, tFirst := 0 }] }, 7, 1, 2,
    { seq := 2, k := 2, m := 0, firstPkt := 0, tFirst := 0 }, .stripeDeadline 7 1 2, by decide +kernel⟩

theorem witness_NaksAndLostStripes_4 :
    ∃ (s : State) (node : Nat) (vc : Nat) (seq : Nat) (d : Nat) (y : RxStripe), (s.waitingStripe node vc seq = some y) ∧ (y.nextNak = some d) ∧
    (d ≤ s.mono) ∧ (s.f A.routeRseqCtrl 28 4 ≤ y.naks) :=
  ⟨peered.setRx (streamKey 7 1) { stripes := [{ seq := 2, k := 2, m := 0, firstPkt := 0, tFirst := 0, naks := 15, nextNak := some 5 }] }, 7,
    1, 2, 5, { seq := 2, k := 2, m := 0, firstPkt := 0, tFirst := 0, naks := 15, nextNak := some 5 }, by decide +kernel, by decide +kernel,
    by decide +kernel, by decide +kernel⟩

theorem witness_StreamsReportsAndDelays_1 :
    ∃ (s : State) (node : Nat) (vc : Nat) (e : Nat) (x : TxStream), (vc < 8) ∧ (x = s.tx (streamKey node vc)) ∧ (s.peerOf node = some e) ∧
    (0 < s.peerK e) ∧ (x.area ≠ []) ∧ (x.area.length ≤ s.peerK e * 8192) ∧ (x.waiting = []) ∧
    (s.elapsed x.openedAt (s.f A.routeTimerCtrl 0 16) = true) ∧ (s.queueFull e vc = false) :=
  ⟨peered.setTx (streamKey 7 1) txFilled, 7, 1, 1, txFilled, by decide +kernel, by decide +kernel, by decide +kernel, by decide +kernel,
    by decide +kernel, by decide +kernel, by decide +kernel, by decide +kernel, by decide +kernel⟩

theorem witness_StreamsReportsAndDelays_2 :
    ∃ (s : State) (r : Nat) (q : Nat) (key : Nat) (e : Nat) (x : TxStream), ((s.wfq r q).items.length < 4096) ∧ (s.rte.txs = [(key, x)]) ∧
    (x.held = true) ∧ (s.peerOf (key / 8) = some e) ∧ (0 < s.peerK e) ∧ (x.area ≠ []) ∧ (x.area.length ≤ s.peerK e * 8192) ∧ (x.waiting = []) ∧
    (s.elapsed x.openedAt (s.f A.routeTimerCtrl 0 16) = true) ∧ (s.queueFull e (key % 8) = false) :=
  ⟨{ peered with rte := { txs := [(streamKey 7 1, { txFilled with held := true })] } }, 0, 5, streamKey 7 1, 1,
    { txFilled with held := true }, by decide +kernel, by decide +kernel, by decide +kernel, by decide +kernel, by decide +kernel,
    by decide +kernel, by decide +kernel, by decide +kernel, by decide +kernel, by decide +kernel⟩

theorem witness_StreamsReportsAndDelays_3 :
    ∃ (s : State) (node : Nat) (msg : List Byte), (beAt msg 0 1 = 0x31) ∧ (msg.length = 48) ∧ (hcrcOk msg = true) :=
  ⟨peered, 7, withHcrc (beBytes 1 0x31 ++ [0, 0,
    0] ++ beBytes 4 5000 ++ (List.replicate 7 (beBytes 4 0xFFFFFFFF)).flatten ++ beBytes 4 0 ++ beBytes 4 0), by decide +kernel,
    by decide +kernel, by decide +kernel⟩

theorem witness_StreamsReportsAndDelays_4 :
    ∃ (s : State), (s.elapsed s.rte.lastReport 1000000 = true) :=
  ⟨peered, by decide +kernel⟩

theorem witness_StreamsReportsAndDelays_5 :
    ∃ (s : State) (key : Nat) (d : RouteDelay) (m : Int), (s.now / 1000000 ≠ s.rte.lastInterval / 1000000) ∧ (s.rte.delays = [(key, d)]) ∧
    (d.intMin = some m) ∧ (d.dref = none) :=
  ⟨{ peered with rte := { delays := [(56, { intMin := some 4000 })] } }, 56, { intMin := some 4000 }, 4000, by decide +kernel,
    by decide +kernel, by decide +kernel, by decide +kernel⟩

theorem witness_StreamsReportsAndDelays_6 :
    ∃ (s : State) (node : Nat) (r : Nat), ((s.delay node r).dref ≠ none) ∧ (s.elapsed (s.delay node r).lastSample 1000000000 = true) :=
  ⟨{ peered with rte := { delays := [(56, { dref := some 4000 })] } }, 7, 0, by decide +kernel, by decide +kernel⟩

theorem witness_GoingDownIsToldAndTaken_1 :
    ∃ (s : State) (v : Word), (s.accepts A.routeDownCtrl = true) ∧ (bit v 0 = true) ∧ (s.rte.downAt = none) :=
  ⟨framed, 1, by decide +kernel, by decide +kernel, by decide +kernel⟩

theorem witness_GoingDownIsToldAndTaken_2 :
    ∃ (s : State) (node : Nat) (p : Fin 16) (msg : List Byte), (beAt msg 0 1 = 0x32) ∧ (msg.length = 24) ∧ (hcrcOk msg = true) ∧
    (beAt msg 2 1 = 1) :=
  ⟨framed, 7, 2, rteMsg 0x32 0 1 0 0 0, by decide +kernel, by decide +kernel, by decide +kernel, by decide +kernel⟩

theorem witness_GoingDownIsToldAndTaken_3 :
    ∃ (s : State) (node : Nat) (p : Fin 16) (msg : List Byte), (beAt msg 0 1 = 0x32) ∧ (msg.length = 24) ∧ (hcrcOk msg = true) ∧
    (beAt msg 2 1 ≠ 1) :=
  ⟨running (instOf 1 4), 7, 2, rteMsg 0x32 0 0 0 0 0, by decide +kernel, by decide +kernel, by decide +kernel, by decide +kernel⟩

theorem witness_GoingDownIsToldAndTaken_4 :
    ∃ (s : State) (p : Fin 16), ((s.port p).downMark = true) ∧ (s.elapsedSince (s.port p).clearSince 1000000 = true) :=
  ⟨framed.setPort 2 { downMark := true, clearSince := some 5 }, 2, by decide +kernel, by decide +kernel⟩

theorem witness_TheSchedulerSendsTheRightCell_1 :
    ∃ (s : State) (p : Fin 16) (c : CtrlCell) (rest : List CtrlCell) (n : Nat) (i : Nat) (k : KeySlot), (s.portSends p = true) ∧
    (s.portRole p = 1) ∧ ((s.sa (saNumber 0 (s.portPeer p) (s.portRoute p))).switchAt = none) ∧ (s.ctrlQueue p = c :: rest) ∧ (c.peer ≠ 64) ∧
    (n = saNumber 0 c.peer (s.portRoute p)) ∧ ((s.sa n).inState .txCurrent = some i) ∧ (k = (s.sa n).slot i) ∧ (k.ctr < 2 ^ 47) :=
  ⟨framed.queueCtrl 2 { peer := 1, node := 7, msg := rteMsg 0x30 1 0 0 5 1 }, 2, { peer := 1, node := 7, msg := rteMsg 0x30 1 0 0 5 1 }, [],
    saNumber 0 1 0, 0, txSa.s0, by decide +kernel, by decide +kernel, by decide +kernel, by decide +kernel, by decide +kernel,
    by decide +kernel, by decide +kernel, by decide +kernel, by decide +kernel⟩

theorem witness_TheSchedulerSendsTheRightCell_2 :
    ∃ (s : State) (p : Fin 16) (q : Nat) (f : Nat) (tm : Nat) (n : Nat) (i : Nat) (x : ShardCell) (k : KeySlot), (s.portSends p = true) ∧
    (s.portRole p = 1) ∧ ((s.sa (saNumber 0 (s.portPeer p) (s.portRoute p))).switchAt = none) ∧ (s.ctrlQueue p = []) ∧ (s.bestQueue p = some (q,
    x, f, tm)) ∧ (n = saNumber 0 x.peer (s.portRoute p)) ∧ ((s.sa n).inState .txCurrent = some i) ∧ (k = (s.sa n).slot i) ∧ (k.ctr < 2 ^ 47) :=
  ⟨framed.setWfq 0 9 { items := [(shardOf [1, 2, 3], 77, 999999999000)], flast := 77 }, 2, 9, 77, 999999999000, saNumber 0 1 0, 0, shardOf [1,
    2, 3], txSa.s0, by decide +kernel, by decide +kernel, by decide +kernel, by decide +kernel, by decide +kernel, by decide +kernel,
    by decide +kernel, by decide +kernel, by decide +kernel⟩

theorem witness_TheSchedulerSendsTheRightCell_3 :
    ∃ (s : State), (s.now / max 1 s.sched.period ≠ s.sched.lastSample / max 1 s.sched.period) :=
  ⟨framed.setWfq 0 9 { items := [(shardOf [1, 2, 3], 77, 999999999000)], flast := 77 }, by decide +kernel⟩

theorem witness_KeysAreLoadedScheduledAndCleared_1 :
    ∃ (s : State) (v : Word), (s.accepts A.secSaCmd = true) ∧ (bit v 0 = true) ∧ (bit v 1 = false) ∧ (bit v 2 = false) :=
  ⟨((peered.setReg (A.secKey 0) 5).setReg A.secSaSel 0x41#32).setReg A.secEpoch 3, 1, by decide +kernel, by decide +kernel, by decide +kernel,
    by decide +kernel⟩

theorem witness_KeysAreLoadedScheduledAndCleared_2 :
    ∃ (s : State) (v : Word) (i : Nat), (s.accepts A.secSaCmd = true) ∧ (bit v 0 = false) ∧ (bit v 1 = true) ∧ (bit v 2 = false) ∧
    (s.scheduleCheck = 0) ∧ ((s.sa s.saSel).inState .txArmed = some i) :=
  ⟨({ peered with sec := { sas := [(8, { txSa with s1 := { txSa.s0 with state := .txArmed, epoch := 3 } })] } }).setReg A.secSaSel 0x01#32, 2,
    1, by decide +kernel, by decide +kernel, by decide +kernel, by decide +kernel, by decide +kernel, by decide +kernel⟩

theorem witness_KeysAreLoadedScheduledAndCleared_3 :
    ∃ (s : State) (v : Word), (s.accepts A.secSaCmd = true) ∧ (bit v 0 = false) ∧ (bit v 1 = false) ∧ (bit v 2 = true) :=
  ⟨peered.setReg A.secSaSel 0x01#32, 4, by decide +kernel, by decide +kernel, by decide +kernel, by decide +kernel⟩

theorem witness_KeysAreLoadedScheduledAndCleared_4 :
    ∃ (s : State) (n : Fin 512) (at' : Nat) (i : Nat), ((s.sa n).switchAt = some at') ∧ (s.hasReached at' = true) ∧
    ((s.sa n).inState .txArmed = some i) ∧ (i < 2) :=
  ⟨{ peered with sec := { sas := [(8, { txSa with s1 := { txSa.s0 with state := .txArmed, epoch := 3 }, switchAt := some 5 })] } }, 8, 5, 1,
    by decide +kernel, by decide +kernel, by decide +kernel, by decide +kernel⟩

theorem witness_AlarmsEraseEveryKey_1 :
    ∃ (s : State) (a : Fin 512), (Nat.land a s.alarmArmed ≠ 0) :=
  ⟨peered, 1, by decide +kernel⟩

theorem witness_AlarmsEraseEveryKey_2 :
    ∃ (s : State) (a : Fin 512), (Nat.land a s.alarmArmed = 0) :=
  ⟨{ peered with boot := { peered.boot with fuses := { lifecycle := [] } } }, 1, by decide +kernel⟩

theorem witness_AlarmsEraseEveryKey_3 :
    ∃ (s : State) (v : Word), (s.accepts A.secEraseCtrl = true) ∧ (bit v 0 = true) ∧ (nfld s.alarmArmed 8 1 = 1) :=
  ⟨peered, 1, by decide +kernel, by decide +kernel, by decide +kernel⟩

theorem witness_AlarmsEraseEveryKey_4 :
    ∃ (s : State), (s.sec.erasing = true) :=
  ⟨{ peered with sec := { peered.sec with erasing := true } }, by decide +kernel⟩

theorem witness_AlarmsEraseEveryKey_5 :
    ∃ (s : State), (s.sec.erasing = true) ∧ (s.sec.retried = false) :=
  ⟨{ peered with sec := { peered.sec with erasing := true } }, by decide +kernel, by decide +kernel⟩

theorem witness_AlarmsEraseEveryKey_6 :
    ∃ (s : State) (v : Word), (s.accepts A.secAlarmLatch = true) ∧ (s.f A.secAlarmStatus 0 9 = 0) :=
  ⟨peered.setReg A.secAlarmLatch 0x1F#32, 3, by decide +kernel, by decide +kernel⟩

theorem witness_RingsTrackRelockAndAreSpared_1 :
    ∃ (s : State) (q : Fin 8) (r : Fin 136) (err : Int) (g : Ring), (g = (s.quad q).ring r) ∧ (g.mode = .locked) ∧ ((s.quad q).light = true) ∧
    (err.natAbs ≤ 500) :=
  ⟨lit { mode := .locked, heater := 500, trackRun := 1, outRun := 2 }, 1, 3, 400,
    { mode := .locked, heater := 500, trackRun := 1, outRun := 2 }, by decide +kernel, by decide +kernel, by decide +kernel, by decide +kernel⟩

theorem witness_RingsTrackRelockAndAreSpared_2 :
    ∃ (s : State) (q : Fin 8) (r : Fin 136) (err : Int) (g : Ring), (g = (s.quad q).ring r) ∧ (g.mode = .locked) ∧ ((s.quad q).light = true) ∧
    (err.natAbs ≤ 500) ∧ (4 ≤ g.outRun) :=
  ⟨lit { mode := .locked, heater := 500, trackRun := 1, outRun := 4 }, 1, 3, 400,
    { mode := .locked, heater := 500, trackRun := 1, outRun := 4 }, by decide +kernel, by decide +kernel, by decide +kernel, by decide +kernel,
    by decide +kernel⟩

theorem witness_RingsTrackRelockAndAreSpared_3 :
    ∃ (s : State) (q : Fin 8) (r : Fin 136) (err : Int) (g : Ring), (g = (s.quad q).ring r) ∧ (g.mode = .locked) ∧ ((s.quad q).light = true) ∧
    (500 < err.natAbs) ∧ (g.trackRun = 1) :=
  ⟨lit { mode := .locked, heater := 500, trackRun := 1 }, 1, 3, -600, { mode := .locked, heater := 500, trackRun := 1 }, by decide +kernel,
    by decide +kernel, by decide +kernel, by decide +kernel, by decide +kernel⟩

theorem witness_RingsTrackRelockAndAreSpared_4 :
    ∃ (s : State) (q : Fin 8) (r : Fin 136) (err : Int) (g : Ring), (g = (s.quad q).ring r) ∧ (g.mode = .locked) ∧ ((s.quad q).light = true) ∧
    ((∀ i, i < 34 → ((s.quad q).ring (r.val / 34 * 34 + i)).mode.unsettled = false)) :=
  ⟨lit { mode := .locked }, 1, 3, -60, { mode := .locked }, by decide +kernel, by decide +kernel, by decide +kernel, by decide +kernel⟩

theorem witness_RingsTrackRelockAndAreSpared_5 :
    ∃ (s : State) (q : Fin 8) (r : Fin 136) (crossing : Bool) (g : Ring) (xs : List Nat), (g = (s.quad q).ring r) ∧
    ((g.mode = .sweep ∨ g.mode = .resweep)) ∧ ((s.quad q).light = true) ∧ (g.heater = g.h) ∧ ((crossing = true → ∀ y,
    g.xs.getLast? = some y → y + 500 ≤ g.h)) ∧ (xs = (if crossing then g.xs ++ [g.h] else g.xs)) ∧ (xs.length < 16) ∧ (g.h + 20 ≤ 34000) :=
  ⟨lit { mode := .sweep, heater := 1000, h := 1000, xs := [400] }, 1, 3, true, { mode := .sweep, heater := 1000, h := 1000, xs := [400] },
    [400, 1000], by decide +kernel, by decide +kernel, by decide +kernel, by decide +kernel, by decide +kernel, by decide +kernel,
    by decide +kernel, by decide +kernel⟩

theorem witness_RingsTrackRelockAndAreSpared_6 :
    ∃ (s : State) (q : Fin 8) (r : Fin 136) (g : Ring) (n : Nat), (g = (s.quad q).ring r) ∧ (g.mode = .sweep) ∧ ((s.quad q).light = true) ∧
    (g.heater = g.h) ∧ ((∀ y, g.xs.getLast? = some y → y + 500 ≤ g.h)) ∧ (g.xs.length = 15) ∧ (g.gap = some n) ∧ (ringPos r ≠ 16) :=
  ⟨lit { mode := .sweep, heater := 30000, h := 30000, xs := (List.range 15).map (· * 1000), gap := some 4 }, 1, 3,
    { mode := .sweep, heater := 30000, h := 30000, xs := (List.range 15).map (· * 1000), gap := some 4 }, 4, by decide +kernel,
    by decide +kernel, by decide +kernel, by decide +kernel, by decide +kernel, by decide +kernel, by decide +kernel, by decide +kernel⟩

theorem witness_RingsTrackRelockAndAreSpared_7 :
    ∃ (s : State) (q : Fin 8) (r : Fin 136) (g : Ring), (g = (s.quad q).ring r) ∧ (g.mode = .relock) :=
  ⟨lit { mode := .relock }, 1, 3, { mode := .relock }, by decide +kernel, by decide +kernel⟩

theorem witness_RingsTrackRelockAndAreSpared_8 :
    ∃ (s : State) (q : Fin 8) (r : Fin 136) (g : Ring), (g = (s.quad q).ring r) ∧ (g.mode = .relock) :=
  ⟨lit { mode := .relock }, 1, 3, { mode := .relock }, by decide +kernel, by decide +kernel⟩

theorem witness_RingsTrackRelockAndAreSpared_9 :
    ∃ (s : State) (q : Fin 8) (r : Fin 136) (g : Ring) (w : Nat), (g = (s.quad q).ring r) ∧ (g.mode = .jump) ∧ (g.carries = some w) ∧ (w < 16) ∧
    (ringPos r = 16) :=
  ⟨spareAt { mode := .jump, carries := some 4 }, 1, 16, { mode := .jump, carries := some 4 }, 4, by decide +kernel, by decide +kernel,
    by decide +kernel, by decide +kernel, by decide +kernel⟩

theorem witness_RingsTrackRelockAndAreSpared_10 :
    ∃ (s : State) (q : Fin 8), ((s.quad q).heaterReason = true) ∧ (s.elapsedSince (s.quad q).trackOkSince 1000000 = true) ∧ ((∀ k,
    k < 8 → k ≠ q.val → (s.quad k).heaterReason = false)) :=
  ⟨{ live with power := { live.power with heater := true }, opt := { quads := [(1, { heaterReason := true, trackOkSince := some 0 })] } }, 1,
    by decide +kernel, by decide +kernel, by decide +kernel⟩

theorem witness_RingsTrackRelockAndAreSpared_11 :
    ∃ (s : State) (q : Fin 8) (on : Bool) (c : Instr), ((on, c) ∈ [(false, Instr.laserLightLoss q), (true, .laserLightReturn q)]) :=
  ⟨lit { mode := .locked }, 1, false, .laserLightLoss 1, by decide +kernel⟩

theorem witness_RingsTrackRelockAndAreSpared_12 :
    ∃ (s : State) (q : Fin 8) (r : HeatReq) (d : Int), (((s.quad q).grantAt = none ∨ s.elapsedSince (s.quad q).grantAt 1000 = true)) ∧
    ((s.quad q).backlog = [r]) ∧ (r.cls = .tracking) ∧ (r.due ≤ s.mono) ∧ (d = (r.target : Int) - ((s.quad q).ring r.ring).heater) ∧
    ((s.quad q).comps r.ring d = []) :=
  ⟨{ live with opt := { quads := [(1, { rings := [(3, { mode := .locked, heater := 100 })], light := true, backlog := [{ cls := .tracking, ring := 3, target := 150, size := 50 }] })] } },
    1, { cls := .tracking, ring := 3, target := 150, size := 50 }, 50, by decide +kernel, by decide +kernel, by decide +kernel,
    by decide +kernel, by decide +kernel, by decide +kernel⟩

theorem witness_LasersFadeSwitchAndReturn_1 :
    ∃ (s : State) (q : Fin 8) (powers : List Int) (refs : List Int) (serial : Nat) (fade : Int), ((s.source (s.feed4 q)).serial = some serial) ∧
    (s.reference serial = some refs) ∧ (powers.length = 16) ∧ ((s.quad q).switch = none) ∧
    (fade = (List.zipWith (fun p r => p - r) powers refs).foldl (fun a b => if b < a then b else a) 32767) ∧ (-32768 ≤ fade) :=
  ⟨fed, 1, List.replicate 16 (-20), List.replicate 16 100, 77, -120, by decide +kernel, by decide +kernel, by decide +kernel,
    by decide +kernel, by decide +kernel, by decide +kernel⟩

theorem witness_LasersFadeSwitchAndReturn_2 :
    ∃ (s : State) (q : Fin 8) (e : Nat), (s.matching q = some e) ∧ ((s.source e).en = true) ∧ ((s.source e).stable = true) ∧
    ((s.source e).matched = false) :=
  ⟨{ fed.setClaimed 1 8 with opt := { sources := [(8, { en := true, stable := true })] } }, 1, 8, by decide +kernel, by decide +kernel,
    by decide +kernel, by decide +kernel⟩

theorem witness_LasersFadeSwitchAndReturn_3 :
    ∃ (s : State) (q : Fin 8) (sw : LaserSwitch), ((s.quad q).switch = some sw) ∧ (sw.moved = false) :=
  ⟨{ fed with opt := { quads := [(1, { switch := some { target := 8, back := false, decided := 0 } })] } }, 1,
    { target := 8, back := false, decided := 0 }, by decide +kernel, by decide +kernel⟩

theorem witness_LasersFadeSwitchAndReturn_4 :
    ∃ (s : State) (q : Fin 8) (sw : LaserSwitch), ((s.quad q).switch = some sw) ∧ (sw.moved = true) ∧ (sw.relocked = false) ∧ (sw.target < 10) :=
  ⟨{ fed with opt := { quads := [(1, { switch := some { target := 8, back := false, decided := 0, moved := true } })] } }, 1,
    { target := 8, back := false, decided := 0, moved := true }, by decide +kernel, by decide +kernel, by decide +kernel, by decide +kernel⟩

theorem witness_LasersFadeSwitchAndReturn_5 :
    ∃ (s : State) (q : Fin 8) (sw : LaserSwitch), ((s.quad q).switch = some sw) ∧ (sw.relocked = true) ∧ (s.elapsed sw.decided 10000000 = true) :=
  ⟨{ fed with opt := { quads := [(1, { switch := some { target := 1, back := true, decided := 0, moved := true, relocked := true } })] } }, 1,
    { target := 1, back := true, decided := 0, moved := true, relocked := true }, by decide +kernel, by decide +kernel, by decide +kernel⟩

theorem witness_LasersFadeSwitchAndReturn_6 :
    ∃ (s : State) (q : Fin 8) (powers : List Int) (serial : Nat), ((s.source (s.feed4 q)).serial = some serial) ∧ (s.reference serial = none) ∧
    (s.elapsedSince (s.quad q).stableSince 10000000 = true) ∧ (powers.length = 16) ∧ (s.boot.recordBytes + 4160 ≤ 0x100000) :=
  ⟨{ fed with boot := {} }, 1, List.replicate 16 50, 77, by decide +kernel, by decide +kernel, by decide +kernel, by decide +kernel,
    by decide +kernel⟩

theorem witness_LasersFadeSwitchAndReturn_7 :
    ∃ (s : State) (q : Fin 8) (v : Word), (s.accepts (A.optLaserCmd q) = true) ∧ (bit v 0 = true) ∧
    (((s.quad q).switch.isSome = true ∨ (s.quad q).pendingCmd ≠ .none)) :=
  ⟨{ fed with opt := { quads := [(1, { switch := some { target := 8, back := false, decided := 0 } })] } }, 1, 1, by decide +kernel,
    by decide +kernel, by decide +kernel⟩

theorem witness_LasersFadeSwitchAndReturn_8 :
    ∃ (s : State) (q : Fin 8) (v : Word), (s.accepts (A.optLaserCmd q) = true) ∧ (bit v 0 = true) ∧ ((s.quad q).switch = none) ∧
    ((s.quad q).pendingCmd = .none) ∧ (8 ≤ s.feed4 q) :=
  ⟨fed.setF (A.optLaserStatus 1) 0 4 8, 1, 1, by decide +kernel, by decide +kernel, by decide +kernel, by decide +kernel, by decide +kernel⟩

theorem witness_LasersFadeSwitchAndReturn_9 :
    ∃ (s : State) (q : Fin 8) (v : Word), (s.accepts (A.optLaserCmd q) = true) ∧ (bit v 0 = true) ∧ ((s.quad q).switch = none) ∧
    ((s.quad q).pendingCmd = .none) ∧ (s.feed4 q < 8) ∧ (s.claimed q ≠ 0xF) ∧ ((s.source (s.claimed q)).stable = true) ∧
    ((s.source (s.claimed q)).matched = true) ∧ (bit v 2 = false) :=
  ⟨{ fed.setClaimed 1 8 with opt := { sources := [(8, { en := true, stable := true, matched := true })] } }, 1, 1, by decide +kernel,
    by decide +kernel, by decide +kernel, by decide +kernel, by decide +kernel, by decide +kernel, by decide +kernel, by decide +kernel,
    by decide +kernel⟩

theorem witness_LasersFadeSwitchAndReturn_10 :
    ∃ (s : State) (q : Fin 8) (v : Word), (s.accepts (A.optLaserCmd q) = true) ∧ (bit v 0 = true) ∧ ((s.quad q).switch = none) ∧
    ((s.quad q).pendingCmd = .none) ∧ (s.feed4 q < 8) ∧ (s.claimed q ≠ 0xF) ∧ ((s.source (s.claimed q)).stable = false) :=
  ⟨{ fed.setClaimed 1 8 with opt := { sources := [(8, { en := true })] } }, 1, 1, by decide +kernel, by decide +kernel, by decide +kernel,
    by decide +kernel, by decide +kernel, by decide +kernel, by decide +kernel⟩

theorem witness_LasersFadeSwitchAndReturn_11 :
    ∃ (s : State) (q : Fin 8) (v : Word), (s.accepts (A.optLaserCmd q) = true) ∧ (bit v 0 = true) ∧ ((s.quad q).switch = none) ∧
    ((s.quad q).pendingCmd = .none) ∧ (s.feed4 q < 8) ∧ (s.claimed q = 0xF) ∧ ((∀ e,
    (e = 8 ∨ e = 9) → s.spareAbsent e = true ∨ (s.holder e).isSome = true)) :=
  ⟨fed.setF (A.optLaserStatus 1) 8 4 0xF, 1, 1, by decide +kernel, by decide +kernel, by decide +kernel, by decide +kernel, by decide +kernel,
    by decide +kernel, fun e he => by rcases he with rfl | rfl <;> decide +kernel⟩

theorem witness_LasersFadeSwitchAndReturn_12 :
    ∃ (s : State) (q : Fin 8) (v : Word), (s.accepts (A.optLaserCmd q) = true) ∧ (bit v 1 = true) ∧ ((s.quad q).switch = none) ∧
    ((s.quad q).pendingCmd = .none) ∧ (s.feed4 q < 8) :=
  ⟨fed, 1, 2, by decide +kernel, by decide +kernel, by decide +kernel, by decide +kernel, by decide +kernel⟩

theorem witness_LasersFadeSwitchAndReturn_13 :
    ∃ (s : State) (q : Fin 8) (v : Word), (s.accepts (A.optLaserCmd q) = true) ∧ (bit v 1 = true) ∧ ((s.quad q).switch = none) ∧
    ((s.quad q).pendingCmd = .none) ∧ (8 ≤ s.feed4 q) ∧ ((s.source q).stable = false) :=
  ⟨{ fed.setF (A.optLaserStatus 1) 0 4 8 with opt := {} }, 1, 2, by decide +kernel, by decide +kernel, by decide +kernel, by decide +kernel,
    by decide +kernel, by decide +kernel⟩

theorem witness_LasersFadeSwitchAndReturn_14 :
    ∃ (s : State) (q : Fin 8) (v : Word), (s.accepts (A.optLaserCmd q) = true) ∧ (bit v 3 = true) ∧ ((s.quad q).switch = none) ∧
    ((s.claimed q = 0xF ∨ 8 ≤ s.feed4 q)) :=
  ⟨fed.setF (A.optLaserStatus 1) 8 4 0xF, 1, 8, by decide +kernel, by decide +kernel, by decide +kernel, by decide +kernel⟩

theorem witness_LasersFadeSwitchAndReturn_15 :
    ∃ (s : State) (q : Fin 8) (v : Word), (s.accepts (A.optLaserCmd q) = true) ∧ (bit v 3 = true) ∧ ((s.quad q).switch = none) ∧
    (s.claimed q ≠ 0xF) ∧ (s.feed4 q < 8) ∧ (s.noSpare q = false) :=
  ⟨fed.setClaimed 1 8, 1, 8, by decide +kernel, by decide +kernel, by decide +kernel, by decide +kernel, by decide +kernel, by decide +kernel⟩

theorem witness_LasersFadeSwitchAndReturn_16 :
    ∃ (s : State) (q : Fin 8) (timed : Bool) (since : Nat), ((s.quad q).pendingCmd = .back timed since) ∧ (s.elapsed since 2000000000 = true) ∧
    ((s.source q).stable = false) :=
  ⟨{ fed.setF (A.optLaserStatus 1) 0 4 8 with opt := { quads := [(1, { pendingCmd := .back false 0 })], sources := [(1, { en := true })] } },
    1, false, 0, by decide +kernel, by decide +kernel, by decide +kernel⟩

theorem witness_MonitorsFibresAndConcourse_1 :
    ∃ (s : State) (q : Fin 8) (v : Word), (s.accepts (A.optMonSel q) = true) ∧ (bit v 31 = true) :=
  ⟨live, 1, 0x80000003#32, by decide +kernel, by decide +kernel⟩

theorem witness_MonitorsFibresAndConcourse_2 :
    ∃ (s : State) (q : Fin 8) (reading : Nat) (v : Word), ((s.quad q).mon = some v) :=
  ⟨{ live with opt := { quads := [(1, { mon := some 0x80000003#32 })] } }, 1, 0x300, 0x80000003#32, by decide +kernel⟩

theorem witness_MonitorsFibresAndConcourse_3 :
    ∃ (s : State) (q : Fin 8) (v : Word), (s.accepts (A.optCtrl q) = true) ∧ ((s.f A.bootStatus 0 3 < 3 ∨ fld v 0 4 = 0)) :=
  ⟨live.setReg (A.optCtrl 1) 3, 1, 0x10#32, by decide +kernel, by decide +kernel⟩

theorem witness_MonitorsFibresAndConcourse_4 :
    ∃ (s : State) (e : Fin 10) (x : Source) (r : LaserStatus), (x = s.source e) :=
  ⟨{ live with opt := { sources := [(1, { badRun := 2 })] } }, 1, { badRun := 2 },
    { stable := true, fault := false, tecAtSetpoint := true, tecAct := 2500, serial := 5 }, by decide +kernel⟩

theorem witness_MonitorsFibresAndConcourse_5 :
    ∃ (s : State) (e : Fin 10) (x : Source), (x = s.source e) :=
  ⟨{ live with opt := { sources := [(1, { badRun := 2 })] } }, 1, { badRun := 2 }, by decide +kernel⟩

theorem witness_MonitorsFibresAndConcourse_8 :
    ∃ (s : State) (q : Fin 8) (k : Fin 8) (v : Word), (s.accepts (A.concSchedCtrl q k) = true) ∧ (bit v 8 = true) ∧
    (s.hasReached (s.concTime q k) = false) ∧ (reached 64 (s.concTime q k) (s.now + 1000) = true) :=
  ⟨(live.setReg64 (A.concSchedTimeLo 1 2) (A.concSchedTimeHi 1 2) 1000000005000), 1, 2, 0x103#32, by decide +kernel, by decide +kernel,
    by decide +kernel, by decide +kernel⟩

theorem witness_MonitorsFibresAndConcourse_9 :
    ∃ (s : State) (q : Fin 8) (k : Fin 8) (c : Nat) (changed : List Nat), (c = s.f (A.concSchedCtrl q k) 0 4) ∧
    (s.b (A.concSchedCtrl q k) 8 = true) ∧ (reached 64 (s.now + 1000) (s.concTime q k) = true) ∧ ((s.quad q).concSwitch = none) ∧
    (s.laserHolds q = false) ∧
    (changed = (List.range 256).filter (fun n => decide (s.concWants q c n ≠ (s.quad q).concOn.contains n) && !s.concRingBad q n)) ∧
    (changed ≠ []) :=
  ⟨((live.setReg (A.concSchedCtrl 1 2) 0x101#32).setReg64 (A.concSchedTimeLo 1 2) (A.concSchedTimeHi 1 2) 1000000000500).setReg (A.concCfg 1 8) 0x44444442#32,
    1, 2, 1,
    (List.range 256).filter (fun n => decide ((((live.setReg (A.concSchedCtrl 1 2) 0x101#32).setReg64 (A.concSchedTimeLo 1 2) (A.concSchedTimeHi 1 2) 1000000000500).setReg (A.concCfg 1 8) 0x44444442#32 : State).concWants (1 : Fin 8) (1 : Nat) n ≠ ((((live.setReg (A.concSchedCtrl 1 2) 0x101#32).setReg64 (A.concSchedTimeLo 1 2) (A.concSchedTimeHi 1 2) 1000000000500).setReg (A.concCfg 1 8) 0x44444442#32 : State).quad (1 : Fin 8)).concOn.contains n) && !(((live.setReg (A.concSchedCtrl 1 2) 0x101#32).setReg64 (A.concSchedTimeLo 1 2) (A.concSchedTimeHi 1 2) 1000000000500).setReg (A.concCfg 1 8) 0x44444442#32 : State).concRingBad (1 : Fin 8) n),
    by decide +kernel, by decide +kernel, by decide +kernel, by decide +kernel, by decide +kernel, rfl, by decide +kernel⟩

theorem witness_MonitorsFibresAndConcourse_10 :
    ∃ (s : State) (q : Fin 8) (n : Fin 256) (sw : ConcSwitch) (on : Bool) (at_ : Nat), ((s.quad q).concSwitch = some sw) ∧
    (sw.waiting.find? (fun e => decide (e.1 = n.val)) = some (n.val, on, some at_)) ∧ (sw.config < 16) ∧ ((s.quad q).concDue = []) :=
  ⟨{ live with opt := { quads := [(1, { concSwitch := some { config := 1, started := 5, waiting := [(7, true, some 5)] } })] } }, 1, 7,
    { config := 1, started := 5, waiting := [(7, true, some 5)] }, true, 5, by decide +kernel, by decide +kernel, by decide +kernel,
    by decide +kernel⟩

theorem witness_MonitorsFibresAndConcourse_11 :
    ∃ (s : State) (q : Fin 8) (n : Fin 256) (sw : ConcSwitch) (on : Bool) (at_ : Nat), ((s.quad q).concSwitch = some sw) ∧
    (sw.waiting.find? (fun e => decide (e.1 = n.val)) = some (n.val, on, some at_)) ∧ (sw.config < 16) ∧ ((s.quad q).concDue = []) ∧
    (s.elapsed at_ 24000 = true) :=
  ⟨{ live with opt := { quads := [(1, { concSwitch := some { config := 1, started := 5, waiting := [(7, true, some 5)] } })] } }, 1, 7,
    { config := 1, started := 5, waiting := [(7, true, some 5)] }, true, 5, by decide +kernel, by decide +kernel, by decide +kernel,
    by decide +kernel, by decide +kernel⟩

theorem witness_FabricMarkersLanesAndCircuits_1 :
    ∃ (s : State) (f : Fin 32), (s.fibreOn f = true) ∧ (s.linkRuns = true) :=
  ⟨linked lanes2, 5, by decide +kernel, by decide +kernel⟩

theorem witness_FabricMarkersLanesAndCircuits_2 :
    ∃ (s : State) (f : Fin 32) (w : Fin 16) (m : List Byte), (s.fibreOn f = true) ∧ (s.linkRuns = true) ∧ (markerGood w m = true) ∧
    (((s.fib f).lane w).good = 1) ∧ (beAt m 9 1 = (((s.fib f).lane w).farMseq + 1) % 256) ∧ ((∀ k,
    k < 16 → (s.waveQualOf f true k).readmitSince = none)) :=
  ⟨linked { lanes := [(2, { good := 1, farMseq := 255 })] }, 5, 2, markerBytes 2 0 0x7 0 0 9 3, by decide +kernel, by decide +kernel,
    by decide +kernel, by decide +kernel, by decide +kernel, by decide +kernel⟩

theorem witness_FabricMarkersLanesAndCircuits_3 :
    ∃ (s : State) (f : Fin 32) (w : Fin 16) (m : List Byte) (c : Instr), (s.fibreOn f = true) ∧ (((s.fib f).lane w).locked = true) ∧
    ((c = .markerLockLoss f w ∨ (c = .dflMarkerReceive f w m ∧ s.linkRuns = true ∧ markerGood w m = false ∧ 3 ≤ ((s.fib f).lane w).missed))) :=
  ⟨linked lanes2, 5, 2, [], .markerLockLoss (5 : Fin 32) (2 : Fin 16), by decide +kernel, by decide +kernel, by decide +kernel⟩

theorem witness_FabricMarkersLanesAndCircuits_4 :
    ∃ (s : State) (f : Fin 32) (w : Fin 16) (l : Lane), (l = (s.fib f).lane w) :=
  ⟨(linked { lanes := [(2, { locked := true, errs := 50, cleanMs := 5 })] }).setReg A.dflLaneThr 40, 5, 2,
    { locked := true, errs := 50, cleanMs := 5 }, by decide +kernel⟩

theorem witness_FabricMarkersLanesAndCircuits_5 :
    ∃ (s : State) (f : Fin 32) (w : Fin 16) (l : Lane), (l = (s.fib f).lane w) ∧ (s.errOut f w = true) ∧ (l.locked = true) ∧ (1000 ≤ l.cleanMs) :=
  ⟨(linked { lanes := [(2, { locked := true, cleanMs := 1000 })] }).setB (A.dflLaneOut 5) 2 true, 5, 2, { locked := true, cleanMs := 1000 },
    by decide +kernel, by decide +kernel, by decide +kernel, by decide +kernel⟩

theorem witness_FabricMarkersLanesAndCircuits_6 :
    ∃ (s : State) (f : Fin 32) (c : Fin 32) (v : Word), (s.accepts (A.dflCircHostPtr f c) = true) :=
  ⟨linked {}, 5, 3, 500, by decide +kernel⟩

theorem witness_FabricMarkersLanesAndCircuits_7 :
    ∃ (s : State) (f : Fin 32) (c : Fin 32) (v : Word), ∃ n, (s.accepts (A.dflCircHostPtr f c) = true) ∧ (s.circValid f c = true) ∧
    (s.circTx f c = true) ∧ (n = (v.toNat + 0x100000000 - s.devPtr f c) % 0x100000000) ∧ (0 < n) ∧ (n ≤ 240) ∧
    (s.mayInject (s.fib f) (s.circVc f c) 1 = true) :=
  ⟨((linked {}).setReg (A.dflCirc 5 12) 0x1B#32).setReg (A.dflCircDevPtr 5 3) 0xFFFFFFF0#32, 5, 3, 0x10, 32, by decide +kernel,
    by decide +kernel, by decide +kernel, by decide +kernel, by decide +kernel, by decide +kernel, by decide +kernel⟩

theorem witness_FabricFlitsAreSentTakenAndReplayed_1 :
    ∃ (s : State) (f : Fin 32) (w : Nat), (s.fibreOn f = true) ∧ (s.linkRuns = true) ∧ (s.linkUp f = false) ∧ (w < 16) ∧
    (((s.fib f).lane w).locked = true) ∧ (s.b (A.dflLane f) (16 + w) = true) ∧ (s.f (A.dflLane f) 0 16 ≠ 0) :=
  ⟨(linked lanes2).setF (A.dflLinkStatus 5) 0 2 1, 5, 2, by decide +kernel, by decide +kernel, by decide +kernel, by decide +kernel,
    by decide +kernel, by decide +kernel, by decide +kernel⟩

theorem witness_FabricFlitsAreSentTakenAndReplayed_2 :
    ∃ (s : State) (f : Fin 32), (s.linkUp f = true) ∧ (s.linkRuns = true) ∧ ((s.fib f).slotPos < 15) ∧ (s.f (A.dflLane f) 0 16 ≠ 0) ∧
    ((s.fib f).replaying = []) ∧ (s.bestVc f = none) ∧ ((s.fib f).freed = []) :=
  ⟨linked { lanes2 with seq := 9, ackOut := 4, nakDue := true, slotPos := 14 }, 5, by decide +kernel, by decide +kernel, by decide +kernel,
    by decide +kernel, by decide +kernel, by decide +kernel, by decide +kernel⟩

theorem witness_FabricFlitsAreSentTakenAndReplayed_3 :
    ∃ (s : State) (f : Fin 32), ∃ v, ∃ y, ∃ tag, ∃ at_, (s.linkUp f = true) ∧ (s.linkRuns = true) ∧ ((s.fib f).slotPos < 15) ∧
    (s.f (A.dflLane f) 0 16 ≠ 0) ∧ ((s.fib f).replaying = []) ∧ (s.bestVc f = some (v, y, tag, at_)) ∧ ((y.sop = false ∨ y.eop = false)) ∧
    ((s.fib f).freed = []) ∧ ((s.fib f).held.length < 256) :=
  ⟨linked { lanes2 with seq := 4095, credits := [(2, 1)], queues := [(2, { items := [(waitingFlit, 3, 4)] })] }, 5, 2, waitingFlit, 3, 4,
    by decide +kernel, by decide +kernel, by decide +kernel, by decide +kernel, by decide +kernel, by decide +kernel, by decide +kernel,
    by decide +kernel, by decide +kernel⟩

theorem witness_FabricFlitsAreSentTakenAndReplayed_4 :
    ∃ (s : State) (f : Fin 32) (w : Fin 16) (slot : List Byte) (b : List Byte), (s.fibreOn f = true) ∧ (s.linkRuns = true) ∧
    (slot.length = 256) ∧ (((s.fib f).lane w).locked = true) ∧ (s.b (A.dflLane f) (16 + w.val) = true) ∧ (s.linkUp f = true) ∧
    (b = (dflScramble ((s.fib f).lane w).rxScr slot).2) ∧ (beAt b 8 8 ≠ crc64 (b.take 8 ++ b.drop 16)) ∧ ((s.fib f).nakSent = false) :=
  ⟨linked lanes2, 5, 2, slotOf (0 :: goodFlit.drop 1 : List Byte), 0 :: goodFlit.drop 1, by decide +kernel, by decide +kernel,
    by decide +kernel, by decide +kernel, by decide +kernel, by decide +kernel, by decide +kernel, by decide +kernel, by decide +kernel⟩

theorem witness_FabricFlitsAreSentTakenAndReplayed_5 :
    ∃ (s : State) (f : Fin 32) (w : Fin 16) (slot : List Byte) (b : List Byte), (s.fibreOn f = true) ∧ (s.linkRuns = true) ∧
    (slot.length = 256) ∧ (((s.fib f).lane w).locked = true) ∧ (s.b (A.dflLane f) (16 + w.val) = true) ∧ (s.linkUp f = true) ∧
    (b = (dflScramble ((s.fib f).lane w).rxScr slot).2) ∧ (beAt b 8 8 = crc64 (b.take 8 ++ b.drop 16)) ∧
    (flSeq b ≠ ((s.fib f).ackOut + 1) % 4096) :=
  ⟨linked { lanes2 with ackOut := 7 }, 5, 2, slotOf (goodFlit : List Byte), goodFlit, by decide +kernel, by decide +kernel, by decide +kernel,
    by decide +kernel, by decide +kernel, by decide +kernel, by decide +kernel, by decide +kernel, by decide +kernel⟩

theorem witness_FabricFlitsAreSentTakenAndReplayed_6 :
    ∃ (s : State) (f : Fin 32) (w : Fin 16) (slot : List Byte) (b : List Byte), (s.fibreOn f = true) ∧ (s.linkRuns = true) ∧
    (slot.length = 256) ∧ (((s.fib f).lane w).locked = true) ∧ (s.b (A.dflLane f) (16 + w.val) = true) ∧ (s.linkUp f = true) ∧
    (b = (dflScramble ((s.fib f).lane w).rxScr slot).2) ∧ (beAt b 8 8 = crc64 (b.take 8 ++ b.drop 16)) ∧
    (flSeq b = ((s.fib f).ackOut + 1) % 4096) ∧ (flType b = 0) ∧ (flNak b = false) :=
  ⟨linked { lanes2 with held := [{ seq := 4095, req := waitingFlit, cvc := 0, credit := 0 }, { seq := 5, req := waitingFlit, cvc := 0, credit := 0 }] },
    5, 2, slotOf (flitBytes idleFlit 1 4095 false 3 7 : List Byte), flitBytes idleFlit 1 4095 false 3 7, by decide +kernel, by decide +kernel,
    by decide +kernel, by decide +kernel, by decide +kernel, by decide +kernel, by decide +kernel, by decide +kernel, by decide +kernel,
    by decide +kernel, by decide +kernel⟩

theorem witness_FabricFlitsAreSentTakenAndReplayed_7 :
    ∃ (s : State) (f : Fin 32) (w : Fin 16) (slot : List Byte) (b : List Byte) (v : Nat) (p : List Byte), (s.fibreOn f = true) ∧
    (s.linkRuns = true) ∧ (slot.length = 256) ∧ (((s.fib f).lane w).locked = true) ∧ (s.b (A.dflLane f) (16 + w.val) = true) ∧
    (s.linkUp f = true) ∧ (b = (dflScramble ((s.fib f).lane w).rxScr slot).2) ∧ (beAt b 8 8 = crc64 (b.take 8 ++ b.drop 16)) ∧
    (flSeq b = ((s.fib f).ackOut + 1) % 4096) ∧ (flType b = 1) ∧ (flNak b = false) ∧ (flSop b = true) ∧ (flEop b = true) ∧ (v = flVc b) ∧
    (s.scheduledVc v = false) ∧ (0 < flLen b) ∧ (flLen b ≤ 240) ∧ (p = (b.drop 16).take (flLen b)) ∧
    ((s.fib f).partials.get (fun _ => []) v = []) ∧ (((s.fib f).circHeld.filter (fun h => decide (h.1 = v))).length < s.allotment v) ∧
    (packetGood v p = true) ∧ (beAt p 4 4 = s.nodeId) ∧ (((beAt p 0 1 ≠ 3 ∧ beAt p 0 1 ≠ 4) ∨ beAt p 12 4 = 0)) :=
  ⟨linked lanes2, 5, 2, slotOf (goodFlit : List Byte), goodFlit, 0, (goodFlit.drop 16).take 48, by decide +kernel, by decide +kernel,
    by decide +kernel, by decide +kernel, by decide +kernel, by decide +kernel, by decide +kernel, by decide +kernel, by decide +kernel,
    by decide +kernel, by decide +kernel, by decide +kernel, by decide +kernel, by decide +kernel, by decide +kernel, by decide +kernel,
    by decide +kernel, by decide +kernel, by decide +kernel, by decide +kernel, by decide +kernel, by decide +kernel, by decide +kernel⟩

theorem witness_FabricFlitsAreSentTakenAndReplayed_8 :
    ∃ (s : State) (f : Fin 32), (s.linkUp f = true) ∧ ((s.fib f).held ≠ []) ∧ (s.elapsed (s.fib f).ackAt (s.f (A.dflLinkCtrl f) 11 16) = true) :=
  ⟨linked { held := [{ seq := 4095, req := waitingFlit, cvc := 0, credit := 0 }] }, 5, by decide +kernel, by decide +kernel,
    by decide +kernel⟩

theorem witness_FabricFlitsAreSentTakenAndReplayed_9 :
    ∃ (s : State) (f : Fin 32), (s.linkUp f = true) ∧ (s.elapsed (s.fib f).lastHeard (s.f (A.dflLinkCtrl f) 1 10 * 1000) = true) :=
  ⟨linked lanes2, 5, by decide +kernel, by decide +kernel⟩

theorem witness_StepTakesTheFrontCommand_1 :
    ∃ (s : State) (c : Instr) (rest : List Instr), (s.pending = c :: rest) :=
  ⟨{ live with pending := [.dflPmLatch, .slotEntryBoundary 3] }, .dflPmLatch, [.slotEntryBoundary 3], by decide +kernel⟩

theorem witness_EveryStepKeepsTheCanonicalForm_1 :
    ∃ s t : State, s.memoryForm = true ∧ s.registerForm = true ∧ step s = .next t :=
  ⟨State.reset, _, by decide +kernel, by decide +kernel, rfl⟩

end Sys2Proof.Tests
end

section
namespace Sys2Proof.Machine

namespace State

/-! ### The canonical form goes through every operation

One lemma for each operation of the model that answers a state, in the model's order. A proof follows the operation's own shape:
a chain of calls is a chain of lemmas, a choice is `ite` (or `split`, for a match), a loop is `foldl`, and setting fields other
than the memories and the registers is `frame`. -/

/-- Every memory and both register maps have their canonical form. -/
def Canonical (s : State) : Prop := s.memoryForm = true ∧ s.registerForm = true

theorem Canonical.gallery_wf {s : State} (h : s.Canonical) : s.gallery.wf zeroByte = true := ((memoryForm_iff s).mp h.1).1
theorem Canonical.bar4_wf {s : State} (h : s.Canonical) : s.bar4.wf zeroByte = true := ((memoryForm_iff s).mp h.1).2.1
theorem Canonical.hostMem_wf {s : State} (h : s.Canonical) : s.hostMem.wf zeroByte = true := ((memoryForm_iff s).mp h.1).2.2.1
theorem Canonical.flash_wf {s : State} (h : s.Canonical) : s.flash.wf erasedByte = true := ((memoryForm_iff s).mp h.1).2.2.2.1
theorem Canonical.bootMem_wf {s : State} (h : s.Canonical) : s.bootMem.wf zeroByte = true := ((memoryForm_iff s).mp h.1).2.2.2.2
theorem Canonical.regs_wf {s : State} (h : s.Canonical) : s.regs.wf regReset = true := ((registerForm_iff s).mp h.2).1
theorem Canonical.staged_wf {s : State} (h : s.Canonical) : s.staged.wf regReset = true := ((registerForm_iff s).mp h.2).2

section
variable {pending : List Instr} {freeCtr : Nat} {outbox : List Sent} {rlatch : Sparse Word} {commits : Sparse Commit} {power :
  Power} {time : TimeBase} {host : HostIf} {log : ErrLog} {gal : Gallery} {lnd : Landing} {que : Queues} {cle : Cle} {rue : Rue}
  {ports : Sparse LinePort} {rte : RouteLayer} {sched : Scheduler} {sec : Cipher} {opt : Optics} {dfl : Fabric} {boot : Boot} {life
  : Life} {pins : Pins} {faults : Faults} {delivered : List Packet}

/-- A state whose memories and registers are each in their form, whatever its other fields. -/
theorem Canonical.stores {gallery bar4 hostMem flash bootMem : Sparse Byte} {regs staged : Sparse Word}
    (hg : gallery.wf zeroByte = true) (hb : bar4.wf zeroByte = true) (hh : hostMem.wf zeroByte = true)
    (hf : flash.wf erasedByte = true) (hm : bootMem.wf zeroByte = true) (hr : regs.wf regReset = true)
    (hs : staged.wf regReset = true) :
    State.Canonical ⟨pending, freeCtr, outbox, regs, staged, rlatch, commits, power, time, host, log, gallery, bar4, hostMem, flash,
      bootMem, gal, lnd, que, cle, rue, ports, rte, sched, sec, opt, dfl, boot, life, pins, faults, delivered⟩ :=
  ⟨(memoryForm_iff _).mpr ⟨hg, hb, hh, hf, hm⟩, (registerForm_iff _).mpr ⟨hr, hs⟩⟩

/-- Setting fields other than the memories and the registers. -/
theorem Canonical.frame {s : State} (h : s.Canonical) :
    State.Canonical ⟨pending, freeCtr, outbox, s.regs, s.staged, rlatch, commits, power, time, host, log, s.gallery, s.bar4,
      s.hostMem, s.flash, s.bootMem, gal, lnd, que, cle, rue, ports, rte, sched, sec, opt, dfl, boot, life, pins, faults, delivered⟩ :=
  .stores h.gallery_wf h.bar4_wf h.hostMem_wf h.flash_wf h.bootMem_wf h.regs_wf h.staged_wf

end

theorem Canonical.ite {c : Prop} [Decidable c] {s t : State} (hs : s.Canonical) (ht : t.Canonical) : (if c then s else t).Canonical := by
  split
  · exact hs
  · exact ht

theorem Canonical.foldl {α : Type} {f : State → α → State} {l : List α} {s : State} (h : s.Canonical)
    (hf : ∀ t x, t.Canonical → (f t x).Canonical) : (l.foldl f s).Canonical := by
  induction l generalizing s with
  | nil => exact h
  | cons x r ih => exact ih (hf s x h)

theorem Canonical.ite_fst {α : Type} {c : Prop} [Decidable c] {a b : State × α} (ha : a.1.Canonical) (hb : b.1.Canonical) :
    (if c then a else b).1.Canonical := by
  split
  · exact ha
  · exact hb

theorem Canonical.ite_snd {α : Type} {c : Prop} [Decidable c] {a b : α × State} (ha : a.2.Canonical) (hb : b.2.Canonical) :
    (if c then a else b).2.Canonical := by
  split
  · exact ha
  · exact hb

theorem Canonical.foldl_fst {α β : Type} {f : State × β → α → State × β} {l : List α} {p : State × β} (h : p.1.Canonical)
    (hf : ∀ q x, q.1.Canonical → (f q x).1.Canonical) : (l.foldl f p).1.Canonical := by
  induction l generalizing p with
  | nil => exact h
  | cons x r ih => exact ih (hf p x h)

/-- The form of a state is used for the state that is made from it. -/
theorem Canonical.seq {s t : State} (h : s.Canonical) (f : s.Canonical → t.Canonical) : t.Canonical := f h

section
variable {s : State}

/-! #### The operations of Machine/Ops.lean -/

theorem Canonical.setReg (h : s.Canonical) (a : Nat) (v : Word) : (s.setReg a v).Canonical := ⟨h.1, registerForm_setReg a v h.2⟩

theorem Canonical.setSreg (h : s.Canonical) (a : Nat) (v : Word) : (s.setSreg a v).Canonical := ⟨h.1, registerForm_setSreg a v h.2⟩

theorem Canonical.setF (h : s.Canonical) (a lo n v : Nat) : (s.setF a lo n v).Canonical :=
  h.setReg _ _

theorem Canonical.setB (h : s.Canonical) (a lo : Nat) (v : Bool) : (s.setB a lo v).Canonical :=
  h.setF _ _ _ _

theorem Canonical.bumpBy (h : s.Canonical) (a n : Nat) : (s.bumpBy a n).Canonical :=
  h.setReg _ _

theorem Canonical.bump (h : s.Canonical) (a : Nat) : (s.bump a).Canonical :=
  h.bumpBy _ _

theorem Canonical.bumpIf (h : s.Canonical) (c : Bool) (a : Nat) : (s.bumpIf c a).Canonical :=
  .ite (h.bump _) h

theorem Canonical.setReg64 (h : s.Canonical) (lo hi v : Nat) : (s.setReg64 lo hi v).Canonical :=
  (h.setReg _ _).setReg _ _

theorem Canonical.onAccess (h : s.Canonical) (a : Nat) (run : State → State) (hr : ∀ t, t.Canonical → (run t).Canonical) :
    (s.onAccess a run).Canonical :=
  .ite (hr s h) h

theorem Canonical.draw (h : s.Canonical) : (s.draw).2.Canonical :=
  h.frame

theorem Canonical.emit (h : s.Canonical) (e : Sent) : (s.emit e).Canonical :=
  h.frame

theorem Canonical.sendVector (h : s.Canonical) (v : Nat) : (s.sendVector v).Canonical :=
  (h.setB _ _ _).emit _

theorem Canonical.raiseVector (h : s.Canonical) (v : Nat) : (s.raiseVector v).Canonical :=
  .ite (h.setB _ _ _) (h.sendVector _)

theorem Canonical.flushVectors (h : s.Canonical) : s.flushVectors.Canonical :=
  .foldl h fun _ _ h1 => .ite (h1.sendVector _) h1

theorem Canonical.raiseError (h : s.Canonical) (src : Nat) : (s.raiseError src).Canonical :=
  .ite (h.setB _ _ _) ((h.setB _ _ _).raiseVector _)

theorem Canonical.appendLog (h : s.Canonical) (e : LogEntry) : (s.appendLog e).Canonical :=
  h.frame.bumpIf _ _

theorem Canonical.logEvent (h : s.Canonical) (e : Event) : (s.logEvent e).Canonical :=
  .ite ((h.appendLog _).raiseError _) (h.appendLog _)

theorem Canonical.accessError (h : s.Canonical) (kind offset : Nat) : (s.accessError kind offset).Canonical :=
  .ite (h.bump _) ((((h.bump _).setReg _ _).setReg _ _).logEvent _)

theorem Canonical.replaceCriterion (h : s.Canonical) (why : Nat) : (s.replaceCriterion why).Canonical :=
  .ite h (((h.setB _ _ _).setB _ _ _).logEvent _)

theorem Canonical.galWrite (h : s.Canonical) (a : Nat) (bs : List Byte) : (s.galWrite a bs).Canonical :=
  ⟨memoryForm_galWrite a bs h.1, h.2⟩

theorem Canonical.bar4Write (h : s.Canonical) (a : Nat) (bs : List Byte) : (s.bar4Write a bs).Canonical :=
  ⟨memoryForm_bar4Write a bs h.1, h.2⟩

theorem Canonical.hostWrite (h : s.Canonical) (a : Nat) (bs : List Byte) : (s.hostWrite a bs).Canonical :=
  ⟨memoryForm_hostWrite a bs h.1, h.2⟩

theorem Canonical.flashWrite (h : s.Canonical) (a : Nat) (bs : List Byte) : (s.flashWrite a bs).Canonical :=
  ⟨memoryForm_flashWrite a bs h.1, h.2⟩

theorem Canonical.bootWrite (h : s.Canonical) (a : Nat) (bs : List Byte) : (s.bootWrite a bs).Canonical :=
  ⟨memoryForm_bootWrite a bs h.1, h.2⟩

/-! #### The operations of Machine/GalleryOps.lean -/

theorem Canonical.setUnit (h : s.Canonical) (u : Nat) (v : Bool) : (s.setUnit u v).Canonical :=
  h.frame

theorem Canonical.invalidate (h : s.Canonical) (a n : Nat) : (s.invalidate a n).Canonical :=
  .foldl h fun _ _ h1 => h1.setUnit _ _

theorem Canonical.setPoison (h : s.Canonical) (cw : Nat) (v : Bool) : (s.setPoison cw v).Canonical :=
  h.frame

theorem Canonical.galStore (h : s.Canonical) (a : Nat) (bs : List Byte) : (s.galStore a bs).Canonical :=
  (h.galWrite _ _).frame

theorem Canonical.noteUncorrectable (h : s.Canonical) (cw code : Nat) : (s.noteUncorrectable cw code).Canonical :=
  ((Canonical.ite (h.bump _) (h.bump _)).setPoison _ _).logEvent _

theorem Canonical.recordUnit (h : s.Canonical) (kind index : Nat) (payload : List Byte) : (s.recordUnit kind index
    payload).Canonical :=
  h.frame

theorem Canonical.retireChannel (h : s.Canonical) (c : Nat) : (s.retireChannel c).Canonical :=
  .ite h (.ite (((h.frame.setB _ _ _).logEvent _).replaceCriterion _) (h.setF _ _ _ _).frame)

theorem Canonical.repairRow (h : s.Canonical) (r : Row) : (s.repairRow r).Canonical :=
  .ite h (.ite (h.retireChannel _) h.frame)

/-! #### The operations of Machine/PowerOps.lean -/

theorem Canonical.setOcc (h : s.Canonical) (n : Nat) (x : PhaseOcc) : (s.setOcc n x).Canonical :=
  h.frame

theorem Canonical.moveOpp (h : s.Canonical) : s.moveOpp.Canonical :=
  .ite (.ite (h.frame.emit _) h.frame) h

theorem Canonical.showPower (h : s.Canonical) : s.showPower.Canonical :=
  h.setF _ _ _ _

theorem Canonical.showReasons (h : s.Canonical) : s.showReasons.Canonical :=
  (h.setF _ _ _ _).showPower

theorem Canonical.chooseOpp (h : s.Canonical) : s.chooseOpp.Canonical :=
  h.frame.moveOpp.showReasons

theorem Canonical.phaseTake (h : s.Canonical) (n groups : Nat) : (s.phaseTake n groups).Canonical :=
  h.frame.chooseOpp

theorem Canonical.learn (h : s.Canonical) (n : Nat) (o : PhaseOcc) : (s.learn n o).Canonical :=
  ((h.setReg _ _).setF _ _ _ _).setReg _ _

theorem Canonical.phaseRelease (h : s.Canonical) (n : Nat) : (s.phaseRelease n).Canonical :=
  .ite h (.ite ((Canonical.ite (h.learn _ _) h).setOcc _ _).chooseOpp (h.setOcc _ _).chooseOpp)

theorem Canonical.wakeEvent (h : s.Canonical) : s.wakeEvent.Canonical :=
  .ite h.frame h

/-! #### The operations of Machine/QueueOps.lean -/

theorem Canonical.setQueue (h : s.Canonical) (q : Nat) (x : Queue) : (s.setQueue q x).Canonical :=
  h.frame

theorem Canonical.qWrite (h : s.Canonical) (q off : Nat) (bs : List Byte) : (s.qWrite q off bs).Canonical :=
  .ite (h.bar4Write _ _) (h.galStore _ _)

theorem Canonical.qHalt (h : s.Canonical) (q reason : Nat) : (s.qHalt q reason).Canonical :=
  h.setQueue _ _

theorem Canonical.qMemoryError (h : s.Canonical) (q off n : Nat) : (s.qMemoryError q off n).Canonical := by
  unfold State.qMemoryError
  split
  · exact (h.noteUncorrectable _ _).qHalt _ _
  · exact h.qHalt _ _

theorem Canonical.signalToken (h : s.Canonical) (n : Nat) (ok : Bool) : (s.signalToken n ok).Canonical :=
  .ite (h.setReg _ _) ((h.setReg _ _).setB _ _ _)

theorem Canonical.completeEntry (h : s.Canonical) (q : Nat) (e : QEntry) (status flags : Nat) (late : Bool) (detail : Nat) :
    (s.completeEntry q e status flags late detail).Canonical :=
  .ite h ((((h.qWrite _ _ _).setQueue _ _).qWrite _ _ _).seq fun h2 => (Canonical.ite (h2.signalToken _ _) h2).seq fun h3 => .ite
    (h3.raiseVector _) h3)

theorem Canonical.completeStarted (h : s.Canonical) (q : Nat) (e : QEntry) (status flags : Nat) (late : Bool) (detail : Nat) :
    (s.completeStarted q e status flags late detail).Canonical := by
  unfold State.completeStarted
  dsimp only
  split
  · exact h
  · exact ((h.setQueue _ _).phaseRelease _).completeEntry _ _ _ _ _ _

theorem Canonical.examine (h : s.Canonical) (q : Nat) : (s.examine q).Canonical := by
  unfold State.examine
  dsimp only
  split
  · exact h.qMemoryError _ _ _
  · exact .ite (h.setQueue _ _) ((h.setQueue _ _).setQueue _ _)

theorem Canonical.notice (h : s.Canonical) (q : Nat) : (s.notice q).Canonical :=
  .ite (h.examine _) h

theorem Canonical.advanceFetch (h : s.Canonical) (q : Nat) : (s.advanceFetch q).Canonical :=
  (h.setQueue _ _).qWrite _ _ _

theorem Canonical.withdrawFetched (h : s.Canonical) (q : Nat) : (s.withdrawFetched q).Canonical :=
  .foldl (h.setQueue _ _) fun _ _ h1 => h1.completeEntry _ _ _ _ _ _

theorem Canonical.withdrawUnfetched (h : s.Canonical) (q fuel : Nat) : (s.withdrawUnfetched q fuel).Canonical := by
  induction fuel generalizing s with
  | zero => exact h
  | succ n ih =>
    unfold State.withdrawUnfetched
    refine .ite h ?_
    split
    · exact h.qMemoryError _ _ _
    · exact ih ((h.advanceFetch _).completeEntry _ _ _ _ _ _)

theorem Canonical.cancelQueue (h : s.Canonical) (q : Nat) : (s.cancelQueue q).Canonical :=
  .ite ((((Canonical.ite (h.examine _) h).withdrawFetched _).withdrawUnfetched _ _).setQueue _ _) h

theorem Canonical.enableQueue (h : s.Canonical) (q : Nat) : (s.enableQueue q).Canonical :=
  .ite (h.qHalt _ _) ((((h.setB _ _ _).setQueue _ _).qWrite _ _ _).seq fun h1 => (Canonical.ite
    (.stores h1.gallery_wf (Sparse.wf_eraseRange _ _ h1.bar4_wf) h1.hostMem_wf h1.flash_wf h1.bootMem_wf h1.regs_wf h1.staged_wf)
    (.stores (Sparse.wf_eraseRange _ _ h1.gallery_wf) h1.bar4_wf h1.hostMem_wf h1.flash_wf h1.bootMem_wf h1.regs_wf
      h1.staged_wf)).notice _)

theorem Canonical.disableQueue (h : s.Canonical) (q : Nat) : (s.disableQueue q).Canonical :=
  (h.cancelQueue _).setB _ _ _

theorem Canonical.writeQCtrl (h : s.Canonical) (q : Nat) (value : Word) : (s.writeQCtrl q value).Canonical :=
  (Canonical.ite (.ite h.wakeEvent (h.wakeEvent.accessError _ _)) (h.wakeEvent.setReg _ _)).seq fun h2 => (Canonical.ite
    (h2.cancelQueue _) h2).seq fun h3 => .ite (h3.enableQueue _) (.ite (h3.disableQueue _) h3)

theorem Canonical.popFetched (h : s.Canonical) (q : Nat) : (s.popFetched q).Canonical :=
  h.setQueue _ _

theorem Canonical.completeAtStart (h : s.Canonical) (q : Nat) (e : QEntry) (status detail : Nat) :
    (s.completeAtStart q e status detail).Canonical :=
  (h.popFetched _).completeEntry _ _ _ _ _ _

theorem Canonical.beginEntry (h : s.Canonical) (q : Nat) (e : QEntry) : (s.beginEntry q e).Canonical :=
  ((h.popFetched _).setQueue _ _).phaseTake _ _

theorem Canonical.startRow (h : s.Canonical) (q op : Nat) (run : QEntry → State) (hr : ∀ e, (run e).Canonical) :
    (s.startRow q op run).Canonical := by
  unfold State.startRow
  split
  · exact h
  · refine .ite (.ite (h.completeAtStart _ _ _ _) ?_) h
    split
    · exact h.completeAtStart _ _ _ _
    · exact hr _

/-! #### The operations of Machine/Descriptors.lean -/

theorem Canonical.setScalar (h : s.Canonical) (n v : Nat) : (s.setScalar n v).Canonical :=
  h.setReg64 _ _ _

/-! #### The operations of Machine/LineOps.lean -/

theorem Canonical.setPort (h : s.Canonical) (p : Nat) (x : LinePort) : (s.setPort p x).Canonical :=
  h.frame

theorem Canonical.setSa (h : s.Canonical) (n : Nat) (x : SecAssoc) : (s.setSa n x).Canonical :=
  h.frame

theorem Canonical.setDelay (h : s.Canonical) (node r : Nat) (d : RouteDelay) : (s.setDelay node r d).Canonical :=
  h.frame

theorem Canonical.queueCtrl (h : s.Canonical) (p : Nat) (c : CtrlCell) : (s.queueCtrl p c).Canonical :=
  h.frame

theorem Canonical.sendMsg (h : s.Canonical) (e : Nat) (msg : List Byte) : (s.sendMsg e msg).Canonical := by
  unfold State.sendMsg
  split
  · exact h.queueCtrl _ _
  · exact h

theorem Canonical.sendMsgTo (h : s.Canonical) (node : Nat) (msg : List Byte) : (s.sendMsgTo node msg).Canonical := by
  unfold State.sendMsgTo
  split
  · exact h.sendMsg _ _
  · exact h

theorem Canonical.sendMsgAll (h : s.Canonical) (e : Nat) (msg : List Byte) : (s.sendMsgAll e msg).Canonical :=
  .foldl h fun _ _ h1 => h1.queueCtrl _ _

theorem Canonical.setWfq (h : s.Canonical) (r q : Nat) (w : Wfq ShardCell) : (s.setWfq r q w).Canonical :=
  h.frame

theorem Canonical.enqueueShard (h : s.Canonical) (x : ShardCell) : (s.enqueueShard x).Canonical :=
  h.setWfq _ _ _

theorem Canonical.enqueueResent (h : s.Canonical) (x : ShardCell) : (s.enqueueResent x).Canonical := by
  unfold State.enqueueResent
  dsimp only
  split
  · exact h.setWfq _ _ _
  · exact h.setWfq _ _ _

theorem Canonical.setTx (h : s.Canonical) (k : Nat) (x : TxStream) : (s.setTx k x).Canonical :=
  h.frame

theorem Canonical.closeStripe (h : s.Canonical) (e node vc : Nat) : (s.closeStripe e node vc).Canonical :=
  .foldl (.ite h.frame (h.frame.bumpBy _ _)) fun _ _ h4 => h4.enqueueShard _

theorem Canonical.feed (h : s.Canonical) (e node vc fuel : Nat) : (s.feed e node vc fuel).Canonical := by
  induction fuel generalizing s with
  | zero => exact h
  | succ n ih =>
    unfold State.feed
    refine .ite (.ite ((h.setTx _ _).bumpIf _ _) (ih ((h.setTx _ _).closeStripe _ _ _))) ?_
    split
    · exact h
    · exact ih (h.setTx _ _)

theorem Canonical.sendLine (h : s.Canonical) (node vc ptype : Nat) (bytes : List Byte) :
    (s.sendLine node vc ptype bytes).Canonical := by
  unfold State.sendLine
  dsimp only
  split
  · exact h
  · exact (h.setTx _ _).feed _ _ _ _

theorem Canonical.setStripe (h : s.Canonical) (t : Stripe) : (s.setStripe t).Canonical :=
  h.frame

theorem Canonical.placeWithdrawn (h : s.Canonical) (x : ShardCell) : (s.placeWithdrawn x).Canonical := by
  unfold State.placeWithdrawn
  dsimp only
  split
  · exact h
  · exact .ite (((h.setStripe _).enqueueShard _).bump _) (h.setStripe _)

theorem Canonical.withdrawQueue (h : s.Canonical) (r q : Nat) : (s.withdrawQueue r q).Canonical :=
  .ite h (.foldl (((h.setWfq _ _ _).bumpBy _ _).bumpBy _ _) fun _ _ h3 => h3.placeWithdrawn _)

theorem Canonical.withdraw (h : s.Canonical) : s.withdraw.Canonical :=
  .foldl h fun _ _ h1 => h1.withdrawQueue _ _

theorem Canonical.feedAll (h : s.Canonical) : s.feedAll.Canonical := by
  unfold State.feedAll
  refine .foldl h fun _ _ h1 => ?_
  split
  · exact .ite h1 (h1.feed _ _ _ _)
  · exact h1

/-! #### The operations of Machine/Groups.lean -/

theorem Canonical.installGroups (h : s.Canonical) (table : Sparse Byte) : (s.installGroups table).Canonical :=
  ⟨memoryForm_installGroups table h.1, h.2⟩

/-! #### The operations of Machine/LandingOps.lean -/

theorem Canonical.setBuffer (h : s.Canonical) (b : Nat) (c : Option Nat) : (s.setBuffer b c).Canonical :=
  h.frame

theorem Canonical.takeBuffer (h : s.Canonical) {c size : Nat} {r : Nat × Bool × State} (e : s.takeBuffer c size = some r) :
    r.2.2.Canonical := by
  unfold State.takeBuffer at e
  split at e
  · cases e
  · obtain rfl := Option.some.inj e
    exact h.draw.setBuffer _ _

theorem Canonical.alloc (h : s.Canonical) (c size : Nat) : (s.alloc c size).2.Canonical := by
  unfold State.alloc
  split
  next heq => exact (h.takeBuffer heq).bumpIf _ _
  next => exact h.bump _

theorem Canonical.settleMoved (h : s.Canonical) : s.settleMoved.Canonical :=
  h.frame

theorem Canonical.freeBuffer (h : s.Canonical) (c b : Nat) : (s.freeBuffer c b).Canonical := by
  unfold State.freeBuffer
  dsimp only
  split
  · exact (h.bump _).logEvent _
  · exact .ite (h.setBuffer _ _).settleMoved ((h.bump _).logEvent _)

theorem Canonical.freeAll (h : s.Canonical) (c : Nat) (bs : List Nat) : (s.freeAll c bs).Canonical :=
  .foldl h fun _ _ h1 => h1.freeBuffer _ _

theorem Canonical.takeMany (h : s.Canonical) (c n : Nat) : (s.takeMany c n).2.2.1.Canonical := by
  induction n generalizing s with
  | zero => exact h
  | succ k ih =>
    unfold State.takeMany
    split
    next => exact h
    next heq => exact ih (h.takeBuffer heq)

theorem Canonical.reserve (h : s.Canonical) (c n group inst : Nat) : (s.reserve c n group inst).2.Canonical := by
  have ht := h.takeMany c n
  unfold State.reserve
  split
  next heq =>
    rw [heq] at ht
    exact (ht.bumpBy _ _).bump _
  next => exact ((h.frame.bump _).bump _).logEvent _

theorem Canonical.placeBanks (h : s.Canonical) (w : Word) : (s.placeBanks w).Canonical :=
  h.frame

theorem Canonical.markMoving (h : s.Canonical) (w : Word) : (s.markMoving w).Canonical :=
  h.frame

theorem Canonical.setMin (h : s.Canonical) (c p v : Nat) : (s.setMin c p v).Canonical :=
  (h.setF _ _ _ _).setSreg _ _

theorem Canonical.shrinkMinima (h : s.Canonical) (p room fuel : Nat) : (s.shrinkMinima p room fuel).Canonical := by
  induction fuel generalizing s with
  | zero => exact h
  | succ n ih =>
    unfold State.shrinkMinima
    refine .ite h ?_
    split
    · exact h
    · exact ih (h.setMin _ _ _)

theorem Canonical.editStaged (h : s.Canonical) (a : Nat) (g : Word → Word) : (s.editStaged a g).Canonical :=
  (h.setSreg _ _).frame

theorem Canonical.lowerPool (h : s.Canonical) (p : Nat) : (s.lowerPool p).Canonical :=
  (h.setReg _ _).editStaged _ _

theorem Canonical.raisePool (h : s.Canonical) (p : Nat) : (s.raisePool p).Canonical :=
  (h.setReg _ _).editStaged _ _

theorem Canonical.moveForFloors (h : s.Canonical) (p fuel : Nat) : (s.moveForFloors p fuel).Canonical := by
  induction fuel generalizing s with
  | zero => exact h
  | succ n ih =>
    unfold State.moveForFloors
    refine .ite h ?_
    split
    · exact h
    · exact ih ((((h.shrinkMinima _ _ _).frame.lowerPool _).raisePool _).logEvent _)

theorem Canonical.refitPool (h : s.Canonical) (p bank : Nat) : (s.refitPool p bank).Canonical :=
  ((h.shrinkMinima _ _ _).moveForFloors _ _).logEvent _

theorem Canonical.setGood (h : s.Canonical) : s.setGood.Canonical :=
  .ite ((h.setF _ _ _ _).replaceCriterion _) (h.setF _ _ _ _)

theorem Canonical.remarkMoving (h : s.Canonical) : s.remarkMoving.Canonical := by
  unfold State.remarkMoving
  dsimp only
  split
  · exact h
  · exact h.frame.markMoving _

theorem Canonical.retireBank (h : s.Canonical) (n : Nat) : (s.retireBank n).Canonical := by
  unfold State.retireBank
  dsimp only
  split
  · exact h
  · exact ((h.frame.lowerPool _).setGood.refitPool _ _).remarkMoving

/-! #### The operations of Machine/Compress.lean -/

theorem Canonical.countEncoding (h : s.Canonical) (buffer : Option Bool) (n : Nat) : (s.countEncoding buffer n).Canonical := by
  unfold State.countEncoding
  split
  · exact .ite (h.bumpBy _ _) h
  · exact (h.bumpBy _ _).bumpBy _ _

theorem Canonical.encodeChunk (h : s.Canonical) (width : Nat) (bs : List Byte) : (s.encodeChunk width bs).2.Canonical := by
  unfold State.encodeChunk
  dsimp only
  split
  · exact (h.countEncoding _ _).bump _
  · refine .setReg64 ?_ _ _ _
    refine .setReg64 ?_ _ _ _
    refine .bump ?_ _
    refine .foldl (h.countEncoding _ _) fun _ _ h2 => ?_
    split
    · exact h2.bump _
    · exact h2.bump _
    · exact h2.bump _

/-! #### The operations of Machine/FabricOps.lean -/

theorem Canonical.setFib (h : s.Canonical) (f : Nat) (x : Fibre) : (s.setFib f x).Canonical :=
  h.frame

theorem Canonical.admitAll (h : s.Canonical) (f : Nat) : (s.admitAll f).Canonical :=
  h.setFib _ _

theorem Canonical.sendFabricBytes (h : s.Canonical) (vc dst : Nat) (bytes : List Byte) : (s.sendFabricBytes vc dst bytes).Canonical
    :=
  (h.setFib _ _).admitAll _

theorem Canonical.sendFabric (h : s.Canonical) (vc ptype dst : Nat) (body : List Byte) : (s.sendFabric vc ptype dst body).Canonical
    :=
  h.sendFabricBytes _ _ _

theorem Canonical.sendFabricMsg (h : s.Canonical) (dst : Nat) (msg : List Byte) : (s.sendFabricMsg dst msg).Canonical :=
  h.sendFabric _ _ _ _

theorem Canonical.sendOnFibre (h : s.Canonical) (f dst : Nat) (msg : List Byte) : (s.sendOnFibre f dst msg).Canonical :=
  (h.setFib _ _).admitAll _

/-! #### The operations of Machine/ChunkOps.lean -/

theorem Canonical.setInst (h : s.Canonical) (g : Nat) (x : Inst) : (s.setInst g x).Canonical :=
  h.frame

theorem Canonical.makeRoom (h : s.Canonical) (line : Bool) (n fuel : Nat) : (s.makeRoom line n fuel).Canonical := by
  induction fuel generalizing s with
  | zero => exact h
  | succ k ih =>
    unfold State.makeRoom
    refine .ite h ?_
    split
    · exact h
    · exact ih (h.frame.bump _)

theorem Canonical.keepCopy (h : s.Canonical) (k : Kept) : (s.keepCopy k).Canonical :=
  .ite h.frame (h.bump _)

theorem Canonical.transmit (h : s.Canonical) (line : Bool) (node vc : Nat) (compress pinned : Bool) (hdr data : List Byte) :
    (s.transmit line node vc compress pinned hdr data).Canonical :=
  (h.makeRoom _ _ _).seq fun h1 => (Canonical.ite_snd (b := (none, _)) (h1.encodeChunk _ _) h1).seq fun h2 =>
    (h2.keepCopy _).seq fun h3 => .ite (h3.sendLine _ _ _ _) (h3.sendFabric _ _ _ _)

theorem Canonical.unpin (h : s.Canonical) (g n : Nat) (c : Option Nat) : (s.unpin g n c).Canonical :=
  h.frame

theorem Canonical.sendCredit (h : s.Canonical) (g : Nat) (x : Inst) (slot limit : Nat) : (s.sendCredit g x slot limit).Canonical :=
  (h.setInst _ _).sendFabric _ _ _ _

theorem Canonical.creditSource (h : s.Canonical) (g slot : Nat) : (s.creditSource g slot).Canonical := by
  unfold State.creditSource
  dsimp only
  split
  · exact h
  · exact ((h.setInst _ _).bumpIf _ _).seq fun h1 => .ite (h1.sendCredit _ _ _ _) h1

theorem Canonical.creditAll (h : s.Canonical) (g : Nat) : (s.creditAll g).Canonical := by
  unfold State.creditAll
  split
  · exact h
  · exact .foldl h fun _ _ h1 => h1.creditSource _ _

theorem Canonical.flushPeer (h : s.Canonical) (g slot fuel : Nat) : (s.flushPeer g slot fuel).Canonical := by
  induction fuel generalizing s with
  | zero => exact h
  | succ n ih =>
    unfold State.flushPeer
    split
    · exact h
    · dsimp only
      split
      · exact h
      · refine .ite h ?_
        split
        · exact h
        · exact ih ((h.setInst _ _).transmit _ _ _ _ _ _ _)

theorem Canonical.flushOut (h : s.Canonical) (g : Nat) : (s.flushOut g).Canonical := by
  unfold State.flushOut
  split
  · exact h
  · exact .foldl h fun _ _ h1 => h1.flushPeer _ _ _

theorem Canonical.sendChunkTo (h : s.Canonical) (g slot : Nat) (pinned : Bool) (hdr data : List Byte) :
    (s.sendChunkTo g slot pinned hdr data).Canonical := by
  unfold State.sendChunkTo
  split
  · exact h
  · exact .ite (h.transmit _ _ _ _ _ _ _) (h.setInst _ _)

theorem Canonical.writeLocal (h : s.Canonical) (x : Inst) (c : Nat) (data : List Byte) : (s.writeLocal x c data).Canonical :=
  .ite h (.ite (h.galStore _ _) (h.hostWrite _ _))

theorem Canonical.deliver (h : s.Canonical) (g : Nat) (x : Inst) (c : Nat) (k : Carried) : (s.deliver g x c k).Canonical :=
  (Canonical.ite h (.foldl h fun _ _ h1 => h1.transmit _ _ _ _ _ _ _)).writeLocal _ _ _

theorem Canonical.endMap (h : s.Canonical) (x : Inst) (ok : Bool) : (s.endMap x ok).Canonical := by
  unfold State.endMap
  split
  · exact h
  · exact .ite (h.setReg _ _) (h.setF _ _ _ _)

theorem Canonical.endInst (h : s.Canonical) (g status detail : Nat) : (s.endInst g status detail).Canonical := by
  unfold State.endInst
  dsimp only
  split
  · exact h
  · exact (((h.frame.freeAll _ _).unpin _ _ _).endMap _ _).completeStarted _ _ _ _ _ _

theorem Canonical.logInternal (h : s.Canonical) (q index cause : Nat) : (s.logInternal q index cause).2.Canonical :=
  h.logEvent _

theorem Canonical.finishInst (h : s.Canonical) (g : Nat) (x : Inst) (detail : Nat) : (s.finishInst g x detail).Canonical := by
  unfold State.finishInst
  split
  · exact h.endInst _ _ _
  · exact h.endInst _ _ _

theorem Canonical.sendAbort (h : s.Canonical) (gr : Machine.Group) (me : Nat) (msg : List Byte) : (s.sendAbort gr me msg).Canonical
    :=
  .foldl (.foldl h fun _ _ h1 => h1.sendMsgAll _ _) fun _ _ h2 => h2.sendFabricMsg _ _

theorem Canonical.decideAbort (h : s.Canonical) (g : Nat) (gr : Machine.Group) (me n reason : Nat) :
    (s.decideAbort g gr me n reason).Canonical :=
  (h.bump _).sendAbort _ _ _

theorem Canonical.failInst (h : s.Canonical) (g reason status detail : Nat) : (s.failInst g reason status detail).Canonical := by
  unfold State.failInst
  split
  · exact h
  · exact (h.decideAbort _ _ _ _ _).endInst _ _ _

theorem Canonical.abortInst (h : s.Canonical) (g reason : Nat) : (s.abortInst g reason).Canonical := by
  unfold State.abortInst
  split
  · exact h
  · exact h.failInst _ _ _ _

theorem Canonical.internalInst (h : s.Canonical) (g cause : Nat) : (s.internalInst g cause).Canonical := by
  unfold State.internalInst
  dsimp only
  split
  · exact h
  · exact (h.logInternal _ _ _).failInst _ _ _ _

theorem Canonical.checkNorm (h : s.Canonical) (g : Nat) : (s.checkNorm g).Canonical := by
  unfold State.checkNorm
  dsimp only
  split
  · exact h
  · exact .ite (((h.setScalar _ _).setInst _ _).finishInst _ _ _) h

theorem Canonical.shareNorm (h : s.Canonical) (g : Nat) (x : Inst) : (s.shareNorm g x).Canonical :=
  .ite h ((Canonical.foldl (h.setInst _ _) fun _ _ h2 => h2.sendFabricMsg _ _).checkNorm _)

theorem Canonical.settle (h : s.Canonical) (g : Nat) : (s.settle g).Canonical := by
  unfold State.settle
  dsimp only
  split
  · exact h.flushOut _
  · split
    · exact ((h.flushOut _).setInst _ _).creditAll _
    · exact .ite (.ite ((((h.flushOut _).setInst _ _).creditAll _).finishInst _ _ _) (((h.flushOut _).setInst _ _).creditAll _))
          (.ite (((h.flushOut _).setInst _ _).creditAll _) (.ite ((((h.flushOut _).setInst _ _).creditAll _).shareNorm _ _)
          ((((h.flushOut _).setInst _ _).creditAll _).finishInst _ _ _)))

theorem Canonical.setMapBit (h : s.Canonical) (n c : Nat) : (s.setMapBit n c).Canonical :=
  h.galWrite _ _

theorem Canonical.releasePartial (h : s.Canonical) (g : Nat) (x : Inst) (c : Nat) (o : OutSet) : (s.releasePartial g x c
    o).Canonical :=
  .ite (h.setInst _ _) (.foldl (h.setInst _ _) fun _ _ h2 => h2.sendChunkTo _ _ _ _ _)

theorem Canonical.releaseFinal (h : s.Canonical) (g : Nat) (x : Inst) (c : Nat) (o : OutSet) :
    (s.releaseFinal g x c o).Canonical := by
  unfold State.releaseFinal
  extract_lets p k step x₁ x₂ x₃ t u v
  have hu : u.Canonical := .foldl ((h.setInst _ _).unpin _ _ _) fun _ _ h1 => h1.galStore _ _
  have hv : v.Canonical := by
    simp only [v]
    split
    · exact hu.setMapBit _ _
    · exact hu
  exact .foldl (.ite (hv.deliver _ _ _ _) hv) fun _ _ h1 => h1.sendChunkTo _ _ _ _ _

theorem Canonical.release (h : s.Canonical) (g c : Nat) (o : OutSet) : (s.release g c o).Canonical := by
  unfold State.release
  split
  · exact h
  · exact .ite (h.releasePartial _ _ _ _) (h.releaseFinal _ _ _ _)

/-! #### The operations of Machine/CollectiveOps.lean -/

theorem Canonical.takePacket (h : s.Canonical) (p : Packet → Bool) : (s.takePacket p).Canonical :=
  h.frame

theorem Canonical.takeMsg (h : s.Canonical) (line : Bool) (msg : List Byte) : (s.takeMsg line msg).Canonical :=
  h.takePacket _

theorem Canonical.drawKey (h : s.Canonical) (n : Nat) : (s.drawKey n).2.Canonical := by
  unfold State.drawKey
  dsimp only
  split
  · exact h
  · exact h.draw

theorem Canonical.takeMap (h : s.Canonical) (n g inst count : Nat) : (s.takeMap n g inst count).Canonical :=
  (((Canonical.stores (Sparse.wf_eraseRange _ _ h.gallery_wf) h.bar4_wf h.hostMem_wf h.flash_wf h.bootMem_wf h.regs_wf
    h.staged_wf).setReg _ _).setReg _ _).setReg _ _

theorem Canonical.reserveFor (h : s.Canonical) (cls g : Nat) (x : Inst) : (s.reserveFor cls g x).2.Canonical := by
  unfold State.reserveFor
  refine .ite_snd h (.ite_snd h ?_)
  extract_lets n
  have hr := h.reserve cls n g x.number
  split <;> simpa only [*] using hr

theorem Canonical.dropHeld (h : s.Canonical) (g n : Nat) : (s.dropHeld g n).Canonical :=
  h.frame.freeAll _ _

theorem Canonical.abortedBy (h : s.Canonical) (g : Nat) (msg : List Byte) : (s.abortedBy g msg).Canonical := by
  unfold State.abortedBy
  dsimp only
  split
  · exact h
  · exact (Canonical.foldl h fun _ _ h1 => h1.sendFabricMsg _ _).endInst _ _ _

theorem Canonical.takeScalar (h : s.Canonical) (g : Nat) (msg : List Byte) : (s.takeScalar g msg).Canonical := by
  unfold State.takeScalar
  dsimp only
  split
  · exact h
  · exact .ite ((h.setInst _ _).checkNorm _) h

theorem Canonical.openMsgs (h : s.Canonical) (g : Nat) (x : Inst) : (s.openMsgs g x).Canonical :=
  (Canonical.foldl h fun _ _ h1 => h1.sendFabricMsg _ _).seq fun h2 => .ite (.foldl (.foldl h2 fun _ _ h3 => h3.sendFabricMsg _ _)
    fun _ _ h5 => h5.sendMsgTo _ _) h2

theorem Canonical.openInst (h : s.Canonical) (q : Nat) (e : QEntry) (gr : Machine.Group) (me : Nat) :
    (s.openInst q e gr me).Canonical := by
  unfold State.openInst
  extract_lets d g late s₁ r₁ x₁ r₂ map _ x₂ s₂ _ s₃ held s₄ s₅
  have hr : r₂.2.Canonical := ((h.beginEntry _ _).drawKey _).reserveFor _ _ _
  have h₂ : s₂.Canonical := by
    simp only [s₂]
    clear_value map
    split
    · exact hr.takeMap _ _ _ _
    · exact hr
  have h₅ : s₅.Canonical := ((h₂.frame.setInst _ _).dropHeld _ _).openMsgs _ _
  split
  · exact h₅.abortedBy _ _
  · exact .ite (h₅.abortInst _ _) ((Canonical.foldl h₅ fun _ _ h1 => h1.takeScalar _ _).settle _)

theorem Canonical.startCle (h : s.Canonical) (q : Nat) (e : QEntry) : (s.startCle q e).Canonical := by
  unfold State.startCle
  dsimp only
  refine .ite (h.completeAtStart _ _ _ _) ?_
  split
  · exact h.completeAtStart _ _ _ _
  · split
    · exact ((h.noteUncorrectable _ _).logInternal _ _ _).completeAtStart _ _ _ _
    · split
      · exact h.completeAtStart _ _ _ _
      · split
        · exact h.completeAtStart _ _ _ _
        · split
          · exact h.completeAtStart _ _ _ _
          · refine .ite (h.completeAtStart _ _ _ _) ?_
            split
            · exact h.completeAtStart _ _ _ _
            · exact h.openInst _ _ _ _

theorem Canonical.lateRetract (h : s.Canonical) (g n origin : Nat) : (s.lateRetract g n origin).Canonical :=
  (h.bump _).logEvent _

theorem Canonical.useResult (h : s.Canonical) (g c : Nat) (k : Carried) : (s.useResult g c k).Canonical := by
  unfold State.useResult
  dsimp only
  split
  · exact h
  · exact .foldl (.ite ((h.setInst _ _).deliver _ _ _ _) (h.setInst _ _)) fun _ _ h3 => h3.sendChunkTo _ _ _ _ _

theorem Canonical.useWaiting (h : s.Canonical) (g fuel : Nat) : (s.useWaiting g fuel).Canonical := by
  induction fuel generalizing s with
  | zero => exact h
  | succ n ih =>
    unfold State.useWaiting
    split
    · exact h
    · split
      · exact h
      · exact ih ((h.useResult _ _ _).settle _)

theorem Canonical.takeResult (h : s.Canonical) (g c : Nat) (k : Carried) : (s.takeResult g c k).Canonical := by
  unfold State.takeResult
  dsimp only
  split
  · exact h
  · exact .ite (((h.setInst _ _).settle _).useWaiting _ _) ((h.useResult _ _ _).settle _)

theorem Canonical.checkFailed (h : s.Canonical) (g c : Nat) (decomp : Bool) : (s.checkFailed g c decomp).Canonical :=
  h.failInst _ _ _ _

theorem Canonical.askResend (h : s.Canonical) (g c slot : Nat) (line decomp free : Bool) :
    (s.askResend g c slot line decomp free).Canonical := by
  unfold State.askResend
  dsimp only
  split
  · exact h
  · exact .ite (h.checkFailed _ _ _) (((h.setInst _ _).bump _).seq fun h1 => .ite (h1.sendMsgTo _ _) (h1.sendFabricMsg _ _))

theorem Canonical.acceptChunk (h : s.Canonical) (g : Nat) (x : Inst) (c slot : Nat) (hd data : List Byte) :
    (s.acceptChunk g x c slot hd data).Canonical :=
  .ite ((h.setInst _ _).takeResult _ _ _) (.ite ((h.setInst _ _).settle _) ((h.setInst _ _).settle _))

theorem Canonical.checkChunk (h : s.Canonical) (line : Bool) (g : Nat) (x : Inst) (c slot : Nat) (hd pay : List Byte) :
    (s.checkChunk line g x c slot hd pay).Canonical := by
  unfold State.checkChunk
  dsimp only
  split
  · exact (((h.bump _).bump _).bumpIf _ _).askResend _ _ _ _ _ _
  · exact .ite ((h.bump _).askResend _ _ _ _ _ _) (.ite (.ite ((h.bump _).abortInst _ _) ((h.bump _).askResend _ _ _ _ _ _))
        (h.acceptChunk _ _ _ _ _ _))

theorem Canonical.testChunk (h : s.Canonical) (line : Bool) (fibre g : Nat) (x : Inst) (hd pay : List Byte) :
    (s.testChunk line fibre g x hd pay).Canonical := by
  unfold State.testChunk
  dsimp only
  refine .ite (.ite (((h.setInst _ _).bump _).abortInst _ _) ((h.setInst _ _).bump _)) ?_
  refine .ite ((h.setInst _ _).bump _) ?_
  refine .ite (((h.setInst _ _).bump _).abortInst _ _) ?_
  split
  · exact ((h.setInst _ _).bump _).bumpIf _ _
  · exact (h.setInst _ _).checkChunk _ _ _ _ _ _ _

theorem Canonical.holdChunk (h : s.Canonical) (line : Bool) (bytes : List Byte) : (s.holdChunk line bytes).Canonical :=
  h.frame

theorem Canonical.receiveChunk (h : s.Canonical) (line : Bool) (fibre : Nat) (bytes : List Byte) :
    (s.receiveChunk line fibre bytes).Canonical := by
  unfold State.receiveChunk
  dsimp only
  refine .ite (h.bump _) ?_
  split
  · exact .ite (.ite (h.testChunk _ _ _ _ _ _) (h.holdChunk _ _)) (.ite (.ite (h.holdChunk _ _) (h.bump _)) (h.bump _))
  · exact .ite (.ite (h.holdChunk _ _) (h.bump _)) (h.bump _)

theorem Canonical.readOwn (h : s.Canonical) (g c : Nat) : (s.readOwn g c).Canonical := by
  unfold State.readOwn
  dsimp only
  split
  · exact h
  · refine .ite h ?_
    split
    · exact (Canonical.ite ((h.noteUncorrectable _ _).invalidate _ _) (h.noteUncorrectable _ _)).checkFailed _ _ _
    · exact .ite (h.takeResult _ _ _) ((h.setInst _ _).settle _)

/-! #### The operations of Machine/RueOps.lean -/

theorem Canonical.chunkBoundary (h : s.Canonical) (phase : Nat) : (s.chunkBoundary phase).Canonical :=
  h.frame.setB _ _ _

theorem Canonical.noteMismatch (h : s.Canonical) (m : LaneMismatch) (phase : Nat) : (s.noteMismatch m phase).Canonical :=
  (Canonical.ite (((h.frame.setB _ _ _).setF _ _ _ _).logEvent _) h.frame).seq fun h2 => .ite (.ite h2.frame (.ite h2
    (((h2.frame.setB _ _ _).setReg _ _).logEvent _))) h2

theorem Canonical.attributeAll (h : s.Canonical) (m : LaneMismatch) (agree : Agreement) (phase : Nat) :
    (s.attributeAll m agree phase).Canonical := by
  unfold State.attributeAll
  split
  · exact (Canonical.ite h.frame h.frame).noteMismatch _ _
  · exact .ite h.frame h.frame
  · exact ((Canonical.ite h.frame h.frame).seq fun h1 => .ite h1.frame h1.frame).noteMismatch _ _

theorem Canonical.retireSet (h : s.Canonical) (r set lane reason : Nat) : (s.retireSet r set lane reason).Canonical :=
  .ite ((((h.setB _ _ _).recordUnit _ _ _).logEvent _).replaceCriterion _) (((h.setB _ _ _).recordUnit _ _ _).logEvent _)

theorem Canonical.retireLane32 (h : s.Canonical) (lane reason : Nat) : (s.retireLane32 lane reason).Canonical :=
  .ite (h.recordUnit _ _ _) (.ite (h.recordUnit _ _ _) (.ite ((h.recordUnit _ _ _).retireSet _ _ _ _) (((h.recordUnit _ _ _).setB _
    _ _).logEvent _)))

theorem Canonical.retireLane64 (h : s.Canonical) (lane reason : Nat) : (s.retireLane64 lane reason).Canonical :=
  .ite (h.recordUnit _ _ _) (.ite (h.recordUnit _ _ _) (.ite (((h.recordUnit _ _ _).setB _ _ _).logEvent _) (((h.recordUnit _ _
    _).setB _ _ _).logEvent _)))

theorem Canonical.retireLane (h : s.Canonical) (l : LaneOut) : (s.retireLane l).Canonical :=
  .ite (h.frame.retireLane64 _ _) (h.frame.retireLane32 _ _)

theorem Canonical.bankCorrected (h : s.Canonical) (n : Nat) : (s.bankCorrected n).Canonical :=
  .ite ((h.frame.recordUnit _ _ _).retireBank _) h.frame

theorem Canonical.bankFailed (h : s.Canonical) (n : Nat) : (s.bankFailed n).Canonical :=
  .ite ((h.recordUnit _ _ _).retireBank _) h

/-! #### The operations of Machine/Chunks.lean -/

theorem Canonical.takeChunk (h : s.Canonical) (line : Bool) (bytes : List Byte) : (s.takeChunk line bytes).Canonical :=
  (h.takePacket _).wakeEvent

theorem Canonical.takeSource (h : s.Canonical) (src : ChunkSource) : (s.takeSource src).Canonical := by
  unfold State.takeSource
  split
  · exact (h.takeChunk _ _).receiveChunk _ _ _
  · exact (h.takeChunk _ _).receiveChunk _ _ _
  · exact h.readOwn _ _

theorem Canonical.loseState (h : s.Canonical) (x : Inst) (c cw : Nat) : (s.loseState x c cw).2.Canonical :=
  .foldl (h.noteUncorrectable _ _) fun _ _ h2 => h2.invalidate _ _

theorem Canonical.putOut (h : s.Canonical) (g c samples : Nat) (o clean : OutSet) : (s.putOut g c samples o clean).Canonical := by
  unfold State.putOut
  dsimp only
  split
  · exact h
  · exact .ite (.ite (h.frame.setInst _ _) ((h.frame.release _ _ _).settle _)) ((h.release _ _ _).settle _)

theorem Canonical.partDone (h : s.Canonical) (g c samples : Nat) (faults : List (Nat × Nat)) (x : Inst) :
    (s.partDone g c samples faults x).Canonical :=
  (h.setInst _ _).putOut _ _ _ _ _

theorem Canonical.finalDone (h : s.Canonical) (g c samples : Nat) (faults : List (Nat × Nat)) (x : Inst) :
    (s.finalDone g c samples faults x).Canonical := by
  unfold State.finalDone
  dsimp only
  refine .ite (h.checkFailed _ _ _) ?_
  split
  · exact ((h.loseState _ _ _).setInst _ _).settle _
  · split
    · exact (h.noteUncorrectable _ _).internalInst _ _
    · exact .ite (h.draw.abortInst _ _) ((h.draw.setInst _ _).putOut _ _ _ _ _)

theorem Canonical.chunkDone (h : s.Canonical) (g c samples : Nat) (faults : List (Nat × Nat)) (ecc : LandingEcc) :
    (s.chunkDone g c samples faults ecc).Canonical := by
  unfold State.chunkDone
  dsimp only
  split
  · exact h
  · refine .ite h ?_
    split
    · exact ((h.chunkBoundary _).bankFailed _).internalInst _ _
    · exact .ite (((h.chunkBoundary _).bankCorrected _).partDone _ _ _ _ _) (((h.chunkBoundary _).bankCorrected _).finalDone _ _ _
          _ _)
    · exact .ite ((h.chunkBoundary _).partDone _ _ _ _ _) ((h.chunkBoundary _).finalDone _ _ _ _ _)

theorem Canonical.setVstep (h : s.Canonical) (x : Inst) : (s.setVstep x).Canonical :=
  h.frame

theorem Canonical.endVstep (h : s.Canonical) (x : Inst) (status detail : Nat) : (s.endVstep x status detail).Canonical :=
  (h.frame.freeAll _ _).completeStarted _ _ _ _ _ _

theorem Canonical.settleVstep (h : s.Canonical) (x : Inst) : (s.settleVstep x).Canonical := by
  unfold State.settleVstep
  dsimp only
  refine .ite (h.setVstep _) ?_
  split
  · exact (h.logInternal _ _ _).endVstep _ _ _
  · exact h.endVstep _ _ _
  · exact h.endVstep _ _ _

theorem Canonical.releaseVstep (h : s.Canonical) (x : Inst) (c : Nat) (o : OutSet) : (s.releaseVstep x c o).Canonical :=
  (Canonical.foldl h fun _ _ h1 => h1.galStore _ _).settleVstep _

theorem Canonical.vstepChunk (h : s.Canonical) (q i c samples : Nat) (faults : List (Nat × Nat)) :
    (s.vstepChunk q i c samples faults).Canonical := by
  unfold State.vstepChunk
  split
  · exact h
  · refine .ite h ?_
    extract_lets phase t a n xp sp r u
    have ht : t.Canonical := h.chunkBoundary _
    have hr : r.2.Canonical := by
      simp only [r]
      clear_value sp
      split
      · exact ht.loseState _ _ _
      · exact ht
    have hu : u.Canonical := by
      simp only [u]
      clear_value xp
      split
      · exact .ite ((hr.noteUncorrectable _ _).invalidate _ _) (hr.noteUncorrectable _ _)
      · exact hr
    exact .ite (hu.settleVstep _) (.ite (.ite (ht.frame.setVstep _) ((ht.frame.setVstep _).releaseVstep _ _ _))
      ((ht.setVstep _).releaseVstep _ _ _))

theorem Canonical.openVstep (h : s.Canonical) (q : Nat) (e : QEntry) : (s.openVstep q e).Canonical :=
  (((h.beginEntry _ _).drawKey _).reserveFor _ _ _).frame

theorem Canonical.startVstep (h : s.Canonical) (q : Nat) (e : QEntry) : (s.startVstep q e).Canonical := by
  unfold State.startVstep
  dsimp only
  refine .ite (h.completeAtStart _ _ _ _) ?_
  split
  · exact h.completeAtStart _ _ _ _
  · refine .ite (h.completeAtStart _ _ _ _) ?_
    split
    · exact h.completeAtStart _ _ _ _
    · exact h.openVstep _ _

theorem Canonical.dropCompare (h : s.Canonical) (n : Nat) : (s.dropCompare n).Canonical :=
  h.frame

theorem Canonical.releaseHeld (h : s.Canonical) (m : Compare) (clean : Bool) : (s.releaseHeld m clean).Canonical := by
  unfold State.releaseHeld
  dsimp only
  refine .ite ?_ ?_
  · split
    · split
      · exact h.releaseVstep _ _ _
      · exact h
    · exact h
  · split
    · refine .ite ?_ h
      split
      · exact (h.release _ _ _).settle _
      · exact h
    · exact h

theorem Canonical.compareDone (h : s.Canonical) (n : Nat) (result : Option LaneMismatch) : (s.compareDone n result).Canonical := by
  unfold State.compareDone
  dsimp only
  split
  · exact h
  · exact .ite h (.ite ((h.dropCompare _).releaseHeld _ _) h.frame)

theorem Canonical.retract (h : s.Canonical) (m : Compare) : (s.retract m).Canonical := by
  unfold State.retract
  refine .ite ?_ ?_
  · split
    · exact h.endVstep _ _ _
    · exact h
  · split
    · exact h.failInst _ _ _ _
    · split
      · exact h
      · split
        · exact h
        · exact (h.decideAbort _ _ _ _ _).lateRetract _ _ _

theorem Canonical.logMismatch (h : s.Canonical) (m : Compare) (agree : Agreement) (held retracted : Bool) (phase : Nat) (b :
    LaneMismatch) :
    (s.logMismatch m agree held retracted phase b).Canonical :=
  (h.logEvent _).attributeAll _ _ _

theorem Canonical.recomputeDone (h : s.Canonical) (n : Nat) (agree : Agreement) : (s.recomputeDone n agree).Canonical := by
  unfold State.recomputeDone
  dsimp only
  split
  · exact h
  · exact .ite h ((Canonical.foldl (h.dropCompare _) fun _ _ h1 => h1.logMismatch _ _ _ _ _ _).seq fun h2 => .ite (h2.releaseHeld _
        _) (.ite (h2.retract _) h2))

theorem Canonical.retireNext (h : s.Canonical) : s.retireNext.Canonical := by
  unfold State.retireNext
  dsimp only
  split
  · exact h
  · exact h.frame.retireLane _

theorem Canonical.writeShadowCtrl (h : s.Canonical) (value : Word) : (s.writeShadowCtrl value).Canonical :=
  (h.setReg _ _).wakeEvent.seq fun h1 => .ite h1 (h1.logEvent _)

/-! #### The operations of Machine/Transfers.lean -/

theorem Canonical.setMem (h : s.Canonical) (addr n : Nat) {m : Sparse Byte} (hm : m.wf zeroByte = true) :
    (s.setMem addr n m).Canonical :=
  ⟨memoryForm_setMem addr n hm h.1, (Canonical.ite (c := addrGallery addr = true)
    (.stores hm h.bar4_wf h.hostMem_wf h.flash_wf h.bootMem_wf h.regs_wf h.staged_wf)
    (.stores h.gallery_wf h.bar4_wf hm h.flash_wf h.bootMem_wf h.regs_wf h.staged_wf)).2⟩

theorem Canonical.copyBytes (h : s.Canonical) (src dst n : Nat) : (s.copyBytes src dst n).Canonical :=
  h.setMem _ _ (Sparse.wf_moveSparse zeroByte_alike _ _ n (memOf_wf src h.1) (memOf_wf dst h.1))

theorem Canonical.fillBytes (h : s.Canonical) (dst n pattern : Nat) : (s.fillBytes dst n pattern).Canonical := by
  have he := Sparse.wf_eraseRange (placeOf dst) n (memOf_wf dst h.1)
  refine h.setMem _ _ ?_
  split
  · exact he
  · exact Sparse.wf_putList zeroByte _ _ he

theorem Canonical.takeXfer (h : s.Canonical) (n : Nat) : (s.takeXfer n).2.1.Canonical := by
  induction n generalizing s with
  | zero => exact h
  | succ k ih =>
    have ha := h.alloc clsXfe 262144
    unfold State.takeXfer
    split
    next heq => rw [heq] at ha; exact ha
    next heq => rw [heq] at ha; exact ih ha

theorem Canonical.openXfer (h : s.Canonical) (q : Nat) (e : QEntry) (need : Nat) : (s.openXfer q e need).Canonical := by
  have ht := h.takeXfer need
  unfold State.openXfer
  dsimp only
  split
  next heq => rw [heq] at ht; exact (ht.beginEntry _ _).frame
  next heq => rw [heq] at ht; exact ((ht.freeAll _ _).logEvent _).completeAtStart _ _ _ _

theorem Canonical.startXfe (h : s.Canonical) (q : Nat) (e : QEntry) (need : Nat) : (s.startXfe q e need).Canonical := by
  unfold State.startXfe
  dsimp only
  split
  · exact h.completeAtStart _ _ _ _
  · refine .ite (h.completeAtStart _ _ _ _) ?_
    split
    · exact h.completeAtStart _ _ _ _
    · exact h.openXfer _ _ _

theorem Canonical.endXfer (h : s.Canonical) (x : Xfer) (status detail : Nat) : (s.endXfer x status detail).Canonical :=
  (h.frame.freeAll _ _).completeStarted _ _ _ _ _ _

theorem Canonical.copyFailed (h : s.Canonical) (x : Xfer) (n : Nat) (host : Bool) : (s.copyFailed x n host).Canonical :=
  (Canonical.ite ((h.copyBytes _ _ _).invalidate _ _) (h.copyBytes _ _ _)).seq fun h2 => ((Canonical.ite (h2.emit _)
    h2).logInternal _ _ _).endXfer _ _ _

theorem Canonical.copyDone (h : s.Canonical) (x : Xfer) : (s.copyDone x).Canonical :=
  (Canonical.ite (.foldl (h.copyBytes _ _ _) fun _ _ h2 => h2.setUnit _ _) (h.copyBytes _ _ _)).endXfer _ _ _

theorem Canonical.transferDone (h : s.Canonical) (q i : Nat) (hostFail : Option Nat) : (s.transferDone q i hostFail).Canonical := by
  unfold State.transferDone
  dsimp only
  split
  · exact h
  · refine .ite h ?_
    refine .ite ((h.fillBytes _ _ _).endXfer _ _ _) ?_
    refine .ite ?_ ?_
    · split
      · exact h.copyDone _
      · exact (Canonical.ite ((h.noteUncorrectable _ _).invalidate _ _) (h.noteUncorrectable _ _)).copyFailed _ _ _
    · split
      · exact .ite (h.copyFailed _ _ _) (h.copyDone _)
      · exact h.copyDone _

/-! #### The operations of Machine/Modes.lean -/

theorem Canonical.showAlarm (h : s.Canonical) : s.showAlarm.Canonical :=
  h.frame

theorem Canonical.noteKeyLoss (h : s.Canonical) (before : State) : (s.noteKeyLoss before).Canonical :=
  .foldl h fun _ _ h1 => .ite h1.frame h1

theorem Canonical.routesChanged (h : s.Canonical) : s.routesChanged.Canonical :=
  h.withdraw.feedAll

theorem Canonical.clearStaging (h : s.Canonical) : s.clearStaging.Canonical :=
  .foldl (h.setReg _ _) fun _ _ h1 => h1.setReg _ _

theorem Canonical.eraseKeys (h : s.Canonical) : s.eraseKeys.Canonical :=
  (h.frame.clearStaging.noteKeyLoss _).routesChanged

theorem Canonical.latchAlarms (h : s.Canonical) (asserted : Nat) : (s.latchAlarms asserted).Canonical :=
  .ite h (h.setF _ _ _ _).eraseKeys.showAlarm

theorem Canonical.pulseAlarm (h : s.Canonical) (src : Nat) : (s.pulseAlarm src).Canonical :=
  h.latchAlarms _

theorem Canonical.checkAlarms (h : s.Canonical) : s.checkAlarms.Canonical :=
  h.latchAlarms _

theorem Canonical.stopStarted (h : s.Canonical) (p : Nat → Bool) : (s.stopStarted p).Canonical :=
  (Canonical.foldl (.foldl (.foldl h fun _ _ h1 => (h1.logInternal _ _ _).endInst _ _ _) fun _ _ h4 => (h4.logInternal _ _
    _).endVstep _ _ _) fun _ _ h7 => (h7.logInternal _ _ _).endXfer _ _ _).frame

theorem Canonical.darkenAll (h : s.Canonical) : s.darkenAll.Canonical :=
  .foldl h fun _ _ h1 => h1.frame

theorem Canonical.enterSafe (h : s.Canonical) (cause : Nat) : (s.enterSafe cause).Canonical :=
  .ite h ((h.stopStarted _).frame.darkenAll.eraseKeys.showPower.showAlarm.logEvent _)

/-! #### The operations of Machine/RegWrite.lean -/

theorem Canonical.writeFields (h : s.Canonical) (a : Nat) (value : Word) : (s.writeFields a value).Canonical := by
  unfold State.writeFields
  dsimp only
  split
  · exact h
  · exact .ite (h.setReg _ _) ((h.setReg _ _).setSreg _ _)

/-! #### The operations of Machine/Gallery.lean -/

theorem Canonical.loseShard (h : s.Canonical) (a : Nat) : (s.loseShard a).Canonical := by
  unfold State.loseShard
  dsimp only
  split
  · exact h
  · exact h.frame

theorem Canonical.loseKept (h : s.Canonical) (k : Kept) : (s.loseKept k).Canonical := by
  unfold State.loseKept
  dsimp only
  refine .ite ?_ h.frame
  split
  · exact h.frame
  · exact .ite (h.frame.setInst _ _) h.frame

theorem Canonical.loseCopy (h : s.Canonical) (line : Bool) (a : Nat) : (s.loseCopy line a).Canonical := by
  unfold State.loseCopy
  dsimp only
  split
  · exact h
  · exact h.loseKept _
  · exact h.frame

theorem Canonical.loseSpill (h : s.Canonical) (a : Nat) : (s.loseSpill a).Canonical := by
  unfold State.loseSpill
  dsimp only
  split
  · exact h
  · split
    · exact h
    · exact ((h.setInst _ _).bump _).askResend _ _ _ _ _ _

theorem Canonical.loseMap (h : s.Canonical) (a : Nat) : (s.loseMap a).Canonical := by
  unfold State.loseMap
  dsimp only
  split
  · exact h
  · exact h.internalInst _ _

theorem Canonical.lostAt (h : s.Canonical) (a : Nat) : (s.lostAt a).Canonical := by
  unfold State.lostAt
  split
  · exact h.qHalt _ _
  · split
    · exact h.loseShard _
    · exact h.loseCopy _ _
    · exact h.loseCopy _ _
    · exact h.invalidate _ _
    · exact h.loseSpill _
    · exact h
    · exact h
    · exact h
    · exact h.loseMap _
    · exact h
    · exact h
    · exact h

theorem Canonical.rateError (h : s.Canonical) (c : Nat) : (s.rateError c).Canonical :=
  .ite (h.frame.retireChannel _) h.frame

theorem Canonical.readCorrected (h : s.Canonical) (r : Row) (a symbols : Nat) : (s.readCorrected r a symbols).Canonical :=
  ((h.bump _).logEvent _).seq fun h1 => .ite ((h1.frame.rateError _).repairRow _) (h1.frame.rateError _)

theorem Canonical.patrolRead (h : s.Canonical) (a symbols bank row : Nat) : (s.patrolRead a symbols bank row).Canonical :=
  .ite h (.ite ((h.noteUncorrectable _ _).lostAt _) (.ite h (.ite (h.readCorrected _ _ _) (((h.noteUncorrectable _ _).lostAt
    _).repairRow _))))

theorem Canonical.rowRepaired (h : s.Canonical) : s.rowRepaired.Canonical := by
  unfold State.rowRepaired
  dsimp only
  split
  · exact h
  · exact (((h.frame.bump _).logEvent _).recordUnit _ _ _).seq fun h2 => .ite (h2.retireChannel _) h2

theorem Canonical.channelRetired (h : s.Canonical) (c : Nat) : (s.channelRetired c).Canonical :=
  .ite (((((h.frame.setB _ _ _).setF _ _ _ _).bump _).logEvent _).recordUnit _ _ _) h

theorem Canonical.sendRefill (h : s.Canonical) (r : Refill) (bytes : List Byte) : (s.sendRefill r bytes).Canonical :=
  h.sendLine _ _ _ _

theorem Canonical.setRefill (h : s.Canonical) (n : Nat) (r : Refill) : (s.setRefill n r).Canonical :=
  h.frame

theorem Canonical.refillOutcome (h : s.Canonical) (n code : Nat) (lost : Option (Nat × Nat)) :
    (s.refillOutcome n code lost).Canonical := by
  unfold State.refillOutcome
  dsimp only
  refine .raiseVector ?_ _
  split
  · exact ((h.setReg _ _).setReg _ _).setReg _ _
  · exact ((h.setReg _ _).setReg _ _).setReg _ _

theorem Canonical.endRefill (h : s.Canonical) (n code : Nat) (whole tell : Bool) : (s.endRefill n code whole tell).Canonical := by
  unfold State.endRefill
  dsimp only
  split
  · exact h
  · exact (Canonical.ite (h.sendRefill _ _) h).frame.refillOutcome _ _ _

theorem Canonical.invalidateExtent (h : s.Canonical) (u n : Nat) : (s.invalidateExtent u n).Canonical :=
  h.frame

theorem Canonical.sendRequest (h : s.Canonical) (n : Nat) (r : Refill) : (s.sendRequest n r).Canonical :=
  (h.setRefill _ _).sendRefill _ _

theorem Canonical.startRefill (h : s.Canonical) (n : Nat) : (s.startRefill n).Canonical :=
  .ite ((h.setReg _ _).refillOutcome _ _ _) (.ite ((h.setReg _ _).refillOutcome _ _ _) (((((h.setReg _ _).setReg _ _).setReg _
    _).setReg _ _).seq fun h3 => .ite (h3.setRefill _ _) ((h3.invalidateExtent _ _).sendRequest _ _)))

theorem Canonical.writeRefillCtrl (h : s.Canonical) (n : Nat) (value : Word) : (s.writeRefillCtrl n value).Canonical :=
  .ite (.ite (h.wakeEvent.endRefill _ _ _ _) h.wakeEvent) (.ite ((h.wakeEvent.writeFields _ _).startRefill _)
    (h.wakeEvent.writeFields _ _))

theorem Canonical.sendUnits (h : s.Canonical) (n fuel : Nat) : (s.sendUnits n fuel).Canonical := by
  induction fuel generalizing s with
  | zero => exact h
  | succ k ih =>
    unfold State.sendUnits
    split
    · exact h
    · refine .ite h (.ite (ih (.sendRefill (.setRefill ?_ _ _) _ _)) (ih ((h.setRefill _ _).sendRefill _ _)))
      split
      · exact (h.noteUncorrectable _ _).setUnit _ _
      · exact h

theorem Canonical.withRefill (h : s.Canonical) (node : Nat) (msg : List Byte) (run : State → State)
    (hr : ∀ t, t.Canonical → (run t).Canonical) : (s.withRefill node msg run).Canonical :=
  hr _ (h.takePacket _)

theorem Canonical.refillRequested (h : s.Canonical) (node : Nat) (msg : List Byte) : (s.refillRequested node msg).Canonical := by
  unfold State.refillRequested
  dsimp only
  refine .ite h ?_
  split
  · exact .ite ((h.setRefill _ _).sendUnits _ _) ((h.sendLine _ _ _ _).endRefill _ _ _ _)
  · split
    · exact (h.sendLine _ _ _ _).endRefill _ _ _ _
    · exact h.sendLine _ _ _ _

theorem Canonical.sinkGoesOn (h : s.Canonical) (n : Nat) (r : Refill) : (s.sinkGoesOn n r).Canonical :=
  .ite (((h.setRefill _ _).sendRefill _ _).endRefill _ _ _ _) (h.setRefill _ _)

theorem Canonical.askAgain (h : s.Canonical) (n : Nat) (r : Refill) : (s.askAgain n r).Canonical :=
  (h.bump _).sendRequest _ _

theorem Canonical.refillUnitCame (h : s.Canonical) (node : Nat) (msg : List Byte) : (s.refillUnitCame node msg).Canonical := by
  unfold State.refillUnitCame
  dsimp only
  refine .ite h ?_
  split
  · exact h
  · exact .ite (h.setRefill _ _) (.ite (.ite (h.setRefill _ _) ((h.setRefill _ _).askAgain _ _)) (.ite ((h.setRefill _
        _).sinkGoesOn _ _) (.ite (((((h.setRefill _ _).galStore _ _).setUnit _ _).setReg _ _).sinkGoesOn _ _) (.ite ((h.setRefill _
        _).endRefill _ _ _ _) ((h.setRefill _ _).askAgain _ _)))))

theorem Canonical.refillAcked (h : s.Canonical) (node : Nat) (msg : List Byte) : (s.refillAcked node msg).Canonical := by
  unfold State.refillAcked
  dsimp only
  refine .ite h ?_
  split
  · exact h
  · exact .ite ((h.setRefill _ _).endRefill _ _ _ _) ((h.setRefill _ _).sendUnits _ _)

theorem Canonical.refillEnded (h : s.Canonical) (node : Nat) (msg : List Byte) : (s.refillEnded node msg).Canonical := by
  unfold State.refillEnded
  refine .ite h ?_
  split
  · exact h
  · exact h.endRefill _ _ _ _

theorem Canonical.refillAsks (h : s.Canonical) (n : Nat) : (s.refillAsks n).Canonical := by
  unfold State.refillAsks
  split
  · exact h
  · exact .ite (h.sendRequest _ _) h

theorem Canonical.refillAcks (h : s.Canonical) (n : Nat) : (s.refillAcks n).Canonical := by
  unfold State.refillAcks
  split
  · exact h
  · exact .ite ((h.setRefill _ _).sendRefill _ _) h

theorem Canonical.refillPeerGone (h : s.Canonical) (n : Nat) : (s.refillPeerGone n).Canonical := by
  unfold State.refillPeerGone
  split
  · exact h
  · exact h.endRefill _ _ _ _

theorem Canonical.bar2Read (h : s.Canonical) (offset len : Nat) : (s.bar2Read offset len).Canonical :=
  (Canonical.foldl (.ite h h.draw) fun _ _ h3 => .ite ((h3.noteUncorrectable _ _).invalidate _ _) (h3.noteUncorrectable _ _)).seq
    fun h5 => (Canonical.ite (h5.bumpIf _ _) ((h5.bumpIf _ _).emit _)).emit _

theorem Canonical.bar2Write (h : s.Canonical) (offset : Nat) (bytes : List Byte) (poisoned : Bool) :
    (s.bar2Write offset bytes poisoned).Canonical :=
  .ite (h.accessError _ _) ((Canonical.foldl h fun _ _ h1 => h1.galStore _ _).seq fun h2 => .ite (h2.accessError _ _) h2)

/-! #### The operations of Machine/Collectives.lean -/

theorem Canonical.withMsg (h : s.Canonical) (line : Bool) (msg : List Byte) (run : State → State)
    (hr : ∀ t, t.Canonical → (run t).Canonical) : (s.withMsg line msg run).Canonical :=
  (h.takeMsg _ _).wakeEvent.seq fun h1 => .ite (hr _ h1) (h1.bump _)

theorem Canonical.hear (h : s.Canonical) (g : Nat) (x : Inst) (slot : Nat) : (s.hear g x slot).Canonical :=
  h.setInst _ _

theorem Canonical.takeOpen (h : s.Canonical) (msg : List Byte) : (s.takeOpen msg).Canonical := by
  unfold State.takeOpen
  dsimp only
  split
  · exact h
  · exact (h.hear _ _ _).settle _

theorem Canonical.takeResend (h : s.Canonical) (line : Bool) (msg : List Byte) : (s.takeResend line msg).Canonical := by
  unfold State.takeResend
  extract_lets g t
  have ht : t.Canonical := by
    simp only [t]
    split
    · exact h.hear _ _ _
    · exact h
  refine .ite ht ?_
  split
  · exact ht
  · dsimp only
    split
    · exact (ht.frame.bump _).seq fun h1 => .ite (h1.sendLine _ _ _ _) (h1.sendFabric _ _ _ _)
    · exact .ite ((ht.bump _).sendMsgTo _ _) ((ht.bump _).sendFabricMsg _ _)

theorem Canonical.takeNotRetained (h : s.Canonical) (msg : List Byte) : (s.takeNotRetained msg).Canonical := by
  unfold State.takeNotRetained
  dsimp only
  split
  · exact h
  · split
    · exact h.hear _ _ _
    · exact (h.hear _ _ _).checkFailed _ _ _

theorem Canonical.holdMsg (h : s.Canonical) (msg : List Byte) : (s.holdMsg msg).Canonical := by
  have ha := h.alloc clsMsg msg.length
  unfold State.holdMsg
  split
  next heq => rw [heq] at ha; exact ha.frame
  next heq => rw [heq] at ha; exact ha.frame

theorem Canonical.takeAbort (h : s.Canonical) (msg : List Byte) : (s.takeAbort msg).Canonical := by
  unfold State.takeAbort
  dsimp only
  refine .ite h ?_
  split
  · exact (h.frame.bump _).abortedBy _ _
  · exact .ite ((h.frame.bump _).holdMsg _) (.ite ((h.frame.bump _).lateRetract _ _ _) (h.frame.bump _))

theorem Canonical.takeArrive (h : s.Canonical) (line : Bool) (msg : List Byte) : (s.takeArrive line msg).Canonical := by
  unfold State.takeArrive
  dsimp only
  split
  · exact h
  · exact .ite ((Canonical.ite (.foldl (h.hear _ _ _) fun _ _ h2 => h2.sendFabricMsg _ _) (h.hear _ _ _)).settle _) h

theorem Canonical.takeNormSum (h : s.Canonical) (msg : List Byte) : (s.takeNormSum msg).Canonical := by
  unfold State.takeNormSum
  dsimp only
  split
  · exact h.takeScalar _ _
  · exact .ite (h.holdMsg _) h

theorem Canonical.takeCredit (h : s.Canonical) (node : Nat) (body : List Byte) : (s.takeCredit node body).Canonical := by
  unfold State.takeCredit
  dsimp only
  split
  · exact h
  · refine .ite ?_ h
    split
    · exact h
    · exact (h.hear _ _ _).settle _

theorem Canonical.refreshCredit (h : s.Canonical) (g : Nat) : (s.refreshCredit g).Canonical := by
  unfold State.refreshCredit
  split
  · exact h
  · refine .foldl h fun _ _ h1 => ?_
    split
    · exact h1
    · exact .ite (h1.sendCredit _ _ _ _) h1

theorem Canonical.resendTimeout (h : s.Canonical) (g c slot : Nat) : (s.resendTimeout g c slot).Canonical := by
  unfold State.resendTimeout
  split
  · exact h
  · split
    · exact h
    · exact h.askResend _ _ _ _ _ _

theorem Canonical.writeAbortCtrl (h : s.Canonical) (value : Word) : (s.writeAbortCtrl value).Canonical := by
  unfold State.writeAbortCtrl
  dsimp only
  split
  · exact .ite ((h.setReg _ _).wakeEvent.abortInst _ _) (h.setReg _ _).wakeEvent
  · exact (h.setReg _ _).wakeEvent

theorem Canonical.releaseMap (h : s.Canonical) (n : Nat) : (s.releaseMap n).Canonical :=
  .ite (h.wakeEvent.setReg _ _) h.wakeEvent

theorem Canonical.expireRetention (h : s.Canonical) : s.expireRetention.Canonical :=
  (h.bumpBy _ _).frame

theorem Canonical.unblock (h : s.Canonical) (g : Nat) : (s.unblock g).Canonical := by
  unfold State.unblock
  split
  · exact h
  · refine .settle ?_ _
    refine .foldl h fun _ _ h1 => ?_
    split
    · exact h1.releasePartial _ _ _ _
    · exact h1

/-! #### The operations of Machine/Cipher.lean -/

theorem Canonical.coreMismatch (h : s.Canonical) (cnt : Nat) : (s.coreMismatch cnt).Canonical :=
  .ite ((h.bump _).frame.pulseAlarm _) (h.bump _).frame

theorem Canonical.nextCounter (h : s.Canonical) {n : Nat} {r : KeySlot × Nat × State} (e : s.nextCounter n = some r) :
    r.2.2.Canonical := by
  unfold State.nextCounter at e
  dsimp only at e
  split at e
  · cases e
  · obtain rfl := Option.some.inj e
    exact (Canonical.ite (((h.setSa _ _).bump _).logEvent _) (h.setSa _ _)).seq fun h1 => .ite (h1.noteKeyLoss _).routesChanged h1

theorem Canonical.acceptCell (h : s.Canonical) (n slot ctr : Nat) : (s.acceptCell n slot ctr).Canonical :=
  .ite (h.setSa _ _) (h.setSa _ _)

theorem Canonical.loadSlot (h : s.Canonical) : s.loadSlot.Canonical :=
  .ite h.frame (h.setSa _ _)

theorem Canonical.setCmdStatus (h : s.Canonical) (c : Nat) : (s.setCmdStatus c).Canonical :=
  h.setF _ _ _ _

theorem Canonical.saLoad (h : s.Canonical) : s.saLoad.Canonical :=
  (Canonical.ite h.loadSlot h).clearStaging.setCmdStatus _

theorem Canonical.switchEpoch (h : s.Canonical) (n : Nat) : (s.switchEpoch n).Canonical := by
  unfold State.switchEpoch
  dsimp only
  split
  · exact h.setSa _ _
  · exact ((h.setSa _ _).bump _).routesChanged

theorem Canonical.switchIfDue (h : s.Canonical) (n : Nat) : (s.switchIfDue n).Canonical := by
  unfold State.switchIfDue
  split
  · exact .ite (h.switchEpoch _) h
  · exact h

theorem Canonical.saSchedule (h : s.Canonical) : s.saSchedule.Canonical :=
  .ite (h.setCmdStatus _) (.ite (((h.setCmdStatus _).setSa _ _).switchEpoch _) (((h.setCmdStatus _).setSa _ _).switchIfDue _))

theorem Canonical.saClear (h : s.Canonical) : s.saClear.Canonical :=
  (((h.setSa _ _).setCmdStatus _).noteKeyLoss _).routesChanged

theorem Canonical.writeSaCmd (h : s.Canonical) (value : Word) : (s.writeSaCmd value).Canonical :=
  (Canonical.ite h.saLoad h).seq fun h1 => (Canonical.ite h1.saSchedule h1).seq fun h2 => .ite h2.saClear h2

theorem Canonical.holdDownEnd (h : s.Canonical) (n : Nat) : (s.holdDownEnd n).Canonical :=
  h.setSa _ _

theorem Canonical.eraseVerified (h : s.Canonical) (ok : Bool) : (s.eraseVerified ok).Canonical :=
  .ite h (.ite (((h.frame.setB _ _ _).bump _).logEvent _) (.ite (h.frame.setB _ _ _) (((((h.frame.setB _ _ _).setB _ _ _).logEvent
    _).enterSafe _).replaceCriterion _)))

theorem Canonical.writeErase (h : s.Canonical) (value : Word) : (s.writeErase value).Canonical :=
  .ite (h.pulseAlarm _) h

theorem Canonical.clearLatch (h : s.Canonical) (value : Word) : (s.clearLatch value).Canonical :=
  (h.writeFields _ _).checkAlarms.showAlarm

/-! #### The operations of Machine/BootOps.lean -/

theorem Canonical.endStep (h : s.Canonical) (n : Nat) : (s.endStep n).Canonical :=
  h.setB _ _ _

theorem Canonical.setWaveQual (h : s.Canonical) (f : Nat) (tx : Bool) (w : Nat) (x : Qual) : (s.setWaveQual f tx w x).Canonical :=
  h.frame

theorem Canonical.setPortQual (h : s.Canonical) (p : Nat) (x : Qual) : (s.setPortQual p x).Canonical :=
  h.frame

theorem Canonical.showFibres (h : s.Canonical) : s.showFibres.Canonical :=
  .foldl h fun _ _ h1 => .ite (h1.setB _ _ _) h1

theorem Canonical.serve (h : s.Canonical) (code : Nat) : (s.serve code).Canonical :=
  .ite (Canonical.foldl (h.setF _ _ _ _) fun _ _ h2 => h2.notice _).checkAlarms (h.setF _ _ _ _)

theorem Canonical.reducedIfDue (h : s.Canonical) : s.reducedIfDue.Canonical :=
  .ite (h.serve _) h

theorem Canonical.readyIfDue (h : s.Canonical) : s.readyIfDue.Canonical :=
  .ite ((h.serve _).frame.showReasons.raiseVector _).checkAlarms h

theorem Canonical.progress (h : s.Canonical) : s.progress.Canonical :=
  .ite (Canonical.ite (h.showFibres.endStep _) h.showFibres).reducedIfDue.readyIfDue h.showFibres

theorem Canonical.noteNewBad (h : s.Canonical) (kind index : Nat) : (s.noteNewBad kind index).Canonical :=
  ((h.bump _).setB _ _ _).logEvent _

theorem Canonical.newBad (h : s.Canonical) (kind index reason : Nat) : (s.newBad kind index reason).Canonical :=
  (h.recordUnit _ _ _).noteNewBad _ _

/-! #### The operations of Machine/PortOps.lean -/

theorem Canonical.pmAdd (h : s.Canonical) (p k n : Nat) : (s.pmAdd p k n).Canonical :=
  .ite (h.setPort _ _) h

theorem Canonical.noteDefects (h : s.Canonical) (p : Nat) : (s.noteDefects p).Canonical :=
  .ite (h.setPort _ _) h

theorem Canonical.setDefect (h : s.Canonical) (p d : Nat) (v : Bool) : (s.setDefect p d v).Canonical :=
  .ite h (.ite (((h.setB _ _ _).setB _ _ _).noteDefects _) (h.setB _ _ _))

theorem Canonical.setAlign (h : s.Canonical) (p a : Nat) : (s.setAlign p a).Canonical :=
  .ite h (((h.setPort _ _).setF _ _ _ _).seq fun h1 => .ite (h1.pmAdd _ _ _) h1)

theorem Canonical.settlePort (h : s.Canonical) (p : Nat) (before : State) : (s.settlePort p before).Canonical :=
  .ite (h.setPort _ _) (h.setPort _ _).routesChanged

theorem Canonical.refreshLos (h : s.Canonical) (p : Nat) : (s.refreshLos p).Canonical :=
  (Canonical.ite ((h.setDefect _ _ _).setAlign _ _) (h.setDefect _ _ _)).settlePort _ _

theorem Canonical.refreshIds (h : s.Canonical) (p : Nat) : (s.refreshIds p).Canonical :=
  ((h.setDefect _ _ _).setDefect _ _ _).settlePort _ _

theorem Canonical.driveLp (h : s.Canonical) (p : Nat) : (s.driveLp p).Canonical :=
  h.frame

theorem Canonical.deactivate (h : s.Canonical) (p : Nat) : (s.deactivate p).Canonical :=
  ((Canonical.ite (h.emit _) h).setB _ _ _).setPort _ _

theorem Canonical.applyApp (h : s.Canonical) (p : Nat) : (s.applyApp p).Canonical :=
  (Canonical.foldl h fun _ _ h1 => h1.emit _).emit _

theorem Canonical.portOn (h : s.Canonical) (p : Nat) : (s.portOn p).Canonical :=
  (((((h.frame.setB _ _ _).setB _ _ _).setB _ _ _).driveLp _).refreshLos _).setDefect _ _ _

theorem Canonical.portOff (h : s.Canonical) (p : Nat) : (s.portOff p).Canonical :=
  (((((h.deactivate _).setReg _ _).setReg _ _).driveLp _).setPort _ _).routesChanged

theorem Canonical.leavePortOut (h : s.Canonical) (p : Nat) : (s.leavePortOut p).Canonical :=
  .ite h (((h.frame.setB _ _ _).setB _ _ _).seq fun h2 => ((Canonical.ite ((h2.setB _ _ _).portOff _) h2).logEvent _).progress)

theorem Canonical.writeLineCtrl (h : s.Canonical) (p : Nat) (value : Word) : (s.writeLineCtrl p value).Canonical :=
  .ite (h.accessError _ _) (.ite (.ite (((h.writeFields _ _).portOn _).leavePortOut _) ((h.writeFields _ _).portOn _)) (.ite
    ((h.writeFields _ _).portOff _) ((h.writeFields _ _).refreshIds _)))

/-! #### The operations of Machine/Time.lean -/

theorem Canonical.setTimeState (h : s.Canonical) (v : Nat) : (s.setTimeState v).Canonical :=
  h.setF _ _ _ _

theorem Canonical.stepTime (h : s.Canonical) (dev : Nat) : (s.stepTime dev).Canonical :=
  (h.frame.bump _).logEvent _

theorem Canonical.stepAtEdge (h : s.Canonical) : s.stepAtEdge.Canonical := by
  unfold State.stepAtEdge
  dsimp only
  split
  · exact h.frame.stepTime _
  · exact h

theorem Canonical.ppsEdge (h : s.Canonical) : s.ppsEdge.Canonical :=
  .ite h.frame.stepAtEdge.frame (h.bump _)

theorem Canonical.acquire (h : s.Canonical) : s.acquire.Canonical :=
  h.frame.setTimeState _

theorem Canonical.discipline (h : s.Canonical) (err : ℤ) : (s.discipline err).Canonical := by
  unfold State.discipline
  dsimp only
  split
  · exact h.acquire
  · exact .ite h (.ite (.ite (h.frame.setTimeState _) h.frame) h.frame)
  · exact .ite (.ite (.ite h.frame.acquire (.ite h.frame h.frame)) h.frame) h.frame
  · exact .ite h.acquire (h.frame.setTimeState _)

theorem Canonical.acceptTod (h : s.Canonical) (edge sec : Nat) : (s.acceptTod edge sec).Canonical := by
  unfold State.acceptTod
  dsimp only
  split
  · exact h.frame
  · exact (h.frame.setReg _ _).discipline _

theorem Canonical.takeTod (h : s.Canonical) (msg : List Byte) : (s.takeTod msg).Canonical := by
  unfold State.takeTod
  split
  · exact .ite (h.acceptTod _ _) (h.bump _)
  · exact h
  · exact h.bump _

theorem Canonical.enterHoldover (h : s.Canonical) : s.enterHoldover.Canonical :=
  .ite (((h.setTimeState _).bump _).logEvent _) h

theorem Canonical.writeTimeCtrl (h : s.Canonical) (value : Word) : (s.writeTimeCtrl value).Canonical :=
  .ite ((h.writeFields _ _).stepTime _) (h.writeFields _ _)

theorem Canonical.sendSyncs (h : s.Canonical) : s.sendSyncs.Canonical :=
  .foldl h fun _ _ h1 => h1.sendOnFibre _ _ _

theorem Canonical.withTiming (h : s.Canonical) (line : Bool) (mtype : Nat) (msg : List Byte) (run : State → State)
    (hr : ∀ t, t.Canonical → (run t).Canonical) : (s.withTiming line mtype msg run).Canonical :=
  (h.takeMsg _ _).seq fun h1 => .ite (h1.bump _) (.ite (hr _ h1) h1)

theorem Canonical.setPeerTime (h : s.Canonical) (e : Nat) (x : PeerTime) : (s.setPeerTime e x).Canonical :=
  h.frame

theorem Canonical.sendProbe (h : s.Canonical) (e : Nat) : (s.sendProbe e).Canonical :=
  (h.setPeerTime _ _).sendMsg _ _

theorem Canonical.answerProbe (h : s.Canonical) (line : Bool) (port : Nat) (msg : List Byte) :
    (s.answerProbe line port msg).Canonical :=
  .ite (.ite ((h.sendMsgTo _ _).bump _) h) ((h.sendFabricMsg _ _).bump _)

theorem Canonical.offsetAlarm (h : s.Canonical) (e : Nat) (x : PeerTime) : (s.offsetAlarm e x).Canonical :=
  .ite ((h.bump _).logEvent _) h

theorem Canonical.takeEcho (h : s.Canonical) (port e : Nat) (msg : List Byte) : (s.takeEcho port e msg).Canonical :=
  .ite ((h.setPeerTime _ _).offsetAlarm _ _) h

theorem Canonical.steered (h : s.Canonical) : s.steered.Canonical :=
  .ite h.frame (.ite h.frame h.draw.frame)

theorem Canonical.countThrottle (h : s.Canonical) : s.countThrottle.Canonical :=
  .foldl h fun _ _ h1 => h1.bumpIf _ _

theorem Canonical.tick (h : s.Canonical) : s.tick.Canonical :=
  .ite h.steered.frame.countThrottle h.steered.frame

/-! #### The operations of Machine/Sched.lean -/

theorem Canonical.popQueue (h : s.Canonical) (r q f : Nat) : (s.popQueue r q f).Canonical :=
  .ite h.frame (h.setWfq _ _ _)

theorem Canonical.noteDrop (h : s.Canonical) (p : Nat) : (s.noteDrop p).Canonical :=
  .ite (h.frame.leavePortOut _) h.frame

theorem Canonical.encrypt (h : s.Canonical) (p n mism : Nat) (cell : Nat → Nat → List Byte) : (s.encrypt p n mism cell).Canonical
    := by
  induction mism generalizing s with
  | zero =>
    unfold State.encrypt
    split
    next => exact h
    next heq => exact (h.nextCounter heq).setPort _ _
  | succ m ih =>
    unfold State.encrypt
    split
    next => exact h
    next heq => exact ih ((h.nextCounter heq).coreMismatch _)

theorem Canonical.protect (h : s.Canonical) (p n mism : Nat) (cell : Nat → Nat → List Byte) : (s.protect p n mism cell).Canonical
    := by
  unfold State.protect
  refine .ite (h.encrypt _ _ _ _) ?_
  extract_lets drop
  have hd : ∀ t : State, t.Canonical → (drop t).Canonical := by
    intro t ht
    simp only [drop]
    split
    next => exact ht
    next heq => exact (ht.nextCounter heq).coreMismatch _
  exact (hd _ (hd _ (hd _ h))).noteDrop _

theorem Canonical.setQstat (h : s.Canonical) (k : Nat) (x : QStat) : (s.setQstat k x).Canonical :=
  h.frame

theorem Canonical.sendCtrl (h : s.Canonical) (p : Nat) (c : CtrlCell) (mism : Nat) : (s.sendCtrl p c mism).Canonical :=
  (h.frame.bump _).seq fun h1 => .ite (h1.draw.setPort _ _) (h1.protect _ _ _ _)

theorem Canonical.sendShard (h : s.Canonical) (p q : Nat) (x : ShardCell) (f t mism : Nat) :
    (s.sendShard p q x f t mism).Canonical := by
  unfold State.sendShard
  dsimp only
  refine .protect ?_ _ _ _ _
  split
  · exact ((h.popQueue _ _ _).setQstat _ _).setStripe _
  · exact (h.popQueue _ _ _).setQstat _ _

theorem Canonical.selectCell (h : s.Canonical) (p mism : Nat) : (s.selectCell p mism).Canonical := by
  unfold State.selectCell
  dsimp only
  refine .ite h ?_
  split
  · exact .ite ((Canonical.ite (h.switchIfDue _) h).sendCtrl _ _ _) (.ite (h.switchIfDue _) h)
  · refine .ite ?_ (.ite (h.switchIfDue _) h)
    split
    · exact (Canonical.ite (h.switchIfDue _) h).sendShard _ _ _ _ _ _
    · exact .ite (h.switchIfDue _) h

theorem Canonical.sampleFibre (h : s.Canonical) (f : Nat) : (s.sampleFibre f).Canonical :=
  h.setFib _ _

theorem Canonical.sampleDepth (h : s.Canonical) : s.sampleDepth.Canonical :=
  .ite h (.foldl (.foldl h.frame fun _ _ h2 => h2.sampleFibre _) fun _ _ h4 => h4.setQstat _ _)

theorem Canonical.latchSched (h : s.Canonical) : s.latchSched.Canonical :=
  ((h.setReg _ _).setReg _ _).frame

/-! #### The operations of Machine/Route.lean -/

theorem Canonical.nextCell (h : s.Canonical) (p : Nat) : (s.nextCell p).2.Canonical :=
  (h.setPort _ _).bumpBy _ _

theorem Canonical.handOver (h : s.Canonical) (node vc ptype : Nat) (bytes : List Byte) : (s.handOver node vc ptype bytes).Canonical
    :=
  .ite (h.sendFabricBytes _ _ _) h.frame

theorem Canonical.setRx (h : s.Canonical) (k : Nat) (x : RxStream) : (s.setRx k x).Canonical :=
  h.frame

theorem Canonical.parsePackets (h : s.Canonical) (node vc fuel : Nat) : (s.parsePackets node vc fuel).Canonical := by
  induction fuel generalizing s with
  | zero => exact h
  | succ n ih =>
    unfold State.parsePackets
    exact .ite h (.ite (ih (h.setRx _ _)) (.ite h (.ite ((h.setRx _ _).bump _) (.ite h (ih ((h.setRx _ _).handOver _ _ _ _))))))

theorem Canonical.deliverStripes (h : s.Canonical) (node vc fuel : Nat) : (s.deliverStripes node vc fuel).Canonical := by
  induction fuel generalizing s with
  | zero => exact h
  | succ n ih =>
    unfold State.deliverStripes
    dsimp only
    split
    · exact h
    · refine .ite (ih (h.setRx _ _)) ?_
      split
      · exact h
      · exact ih ((h.setRx _ _).parsePackets _ _ _)

theorem Canonical.deliverAll (h : s.Canonical) (node vc : Nat) : (s.deliverAll node vc).Canonical :=
  h.deliverStripes _ _ _

theorem Canonical.sampleDelay (h : s.Canonical) (node r : Nat) (v : ℤ) : (s.sampleDelay node r v).Canonical :=
  h.setDelay _ _ _

theorem Canonical.noteIncarnation (h : s.Canonical) (node inc : Nat) : (s.noteIncarnation node inc).Canonical :=
  .ite h h.frame

theorem Canonical.holdShard (h : s.Canonical) (node vc : Nat) (t : RxStripe) (i : Nat) (bytes : List Byte) :
    (s.holdShard node vc t i bytes).Canonical :=
  .ite (((h.setRx _ _).bumpIf _ _).deliverAll _ _) (h.setRx _ _)

theorem Canonical.erased (h : s.Canonical) : s.erased.Canonical :=
  h.bump _

theorem Canonical.takeShard (h : s.Canonical) (p node vc : Nat) (body : List Byte) (marked : Bool) :
    (s.takeShard p node vc body marked).Canonical :=
  .ite h.erased (.ite (((h.noteIncarnation _ _).sampleDelay _ _ _).bump _) (.ite ((h.noteIncarnation _ _).sampleDelay _ _ _).erased
    (.ite (((h.noteIncarnation _ _).sampleDelay _ _ _).bump _) (.ite (((h.noteIncarnation _ _).sampleDelay _ _ _).bump _)
    (((h.noteIncarnation _ _).sampleDelay _ _ _).holdShard _ _ _ _ _)))))

theorem Canonical.takeControl (h : s.Canonical) (node : Nat) (msg : List Byte) : (s.takeControl node msg).Canonical :=
  .ite h.frame (.ite (h.withTiming _ _ _ _ (fun _ h1 => h1)) (h.bump _))

theorem Canonical.takeBody (h : s.Canonical) (p : Nat) (cell body : List Byte) (marked : Bool) :
    (s.takeBody p cell body marked).Canonical :=
  .ite (h.bump _) (.ite (h.takeShard _ _ _ _ _) (.ite (h.takeControl _ _) (h.bump _)))

theorem Canonical.takeCell (h : s.Canonical) (p : Nat) (cell : List (Byte × Bool)) (agree retry : Bool) :
    (s.takeCell p cell agree retry).Canonical := by
  unfold State.takeCell
  extract_lets bytes fail
  have hfail : ∀ (t : State) (c : Nat), t.Canonical → (fail t c).Canonical := fun _ _ ht => (ht.bump _).bumpIf _ _
  have hcore : (if agree then s else s.coreMismatch 4).Canonical := .ite h (h.coreMismatch _)
  split
  · exact hfail _ _ h
  · dsimp only
    split
    · exact hfail _ _ h
    · exact hfail _ _ h
    · exact hfail _ _ hcore
    · exact (hcore.acceptCell _ _ _).takeBody _ _ _ _

theorem Canonical.receiveCell (h : s.Canonical) (p : Nat) (agree retry : Bool) : (s.receiveCell p agree retry).Canonical := by
  have hn := h.nextCell p
  unfold State.receiveCell
  refine .ite h ?_
  split
  next heq => rw [heq] at hn; exact hn
  next heq => rw [heq] at hn; exact hn.takeCell _ _ _ _

theorem Canonical.abortForStripe (h : s.Canonical) (node vc : Nat) : (s.abortForStripe node vc).Canonical := by
  unfold State.abortForStripe
  refine .foldl h fun _ _ h1 => ?_
  split
  · exact h1
  · exact .ite (h1.abortInst _ _) h1

theorem Canonical.loseStripe (h : s.Canonical) (node vc seq : Nat) : (s.loseStripe node vc seq).Canonical :=
  .ite h ((((h.setRx _ _).bump _).abortForStripe _ _).deliverAll _ _)

theorem Canonical.sendNak (h : s.Canonical) (node vc : Nat) (t : RxStripe) : (s.sendNak node vc t).Canonical :=
  ((h.setRx _ _).bump _).sendMsgTo _ _

theorem Canonical.resendStripe (h : s.Canonical) (t : Stripe) (have_ : Nat) : (s.resendStripe t have_).Canonical :=
  (Canonical.foldl (h.setStripe _) fun _ _ h2 => h2.enqueueResent _).bumpBy _ _

theorem Canonical.answerNak (h : s.Canonical) (node : Nat) (msg : List Byte) : (s.answerNak node msg).Canonical :=
  .foldl ((Canonical.foldl h fun _ _ h1 => h1.resendStripe _ _).bumpBy _ _) fun _ _ h4 => h4.sendMsgTo _ _

theorem Canonical.stageNak (h : s.Canonical) (node : Nat) (msg : List Byte) : (s.stageNak node msg).Canonical := by
  have ha := h.alloc clsArq 8192
  unfold State.stageNak
  split
  next heq => rw [heq] at ha; exact (ha.answerNak _ _).freeBuffer _ _
  next heq => rw [heq] at ha; exact ha.frame

theorem Canonical.withRoute (h : s.Canonical) (node mtype : Nat) (msg : List Byte) (run : State → State)
    (hr : ∀ t, t.Canonical → (run t).Canonical) : (s.withRoute node mtype msg run).Canonical :=
  (h.takePacket _).seq fun h1 => .ite (hr _ h1) (h1.bump _)

theorem Canonical.takeReport (h : s.Canonical) (node : Nat) (msg : List Byte) : (s.takeReport node msg).Canonical :=
  .foldl h fun _ _ h1 => h1.setDelay _ _ _

theorem Canonical.peerGoesDown (h : s.Canonical) (node : Nat) : (s.peerGoesDown node).Canonical := by
  unfold State.peerGoesDown
  dsimp only
  refine .foldl ?_ fun _ _ h3 => ?_
  · refine .foldl h fun _ _ h1 => ?_
    split
    · exact h1
    · exact .ite (h1.abortInst _ _) h1
  · split
    · exact .ite (h3.refillPeerGone _) h3
    · exact h3

theorem Canonical.markPort (h : s.Canonical) (p : Nat) : (s.markPort p).Canonical :=
  (h.setPort _ _).settlePort _ _

theorem Canonical.clearMark (h : s.Canonical) (p : Nat) : (s.clearMark p).Canonical :=
  .ite ((h.setPort _ _).settlePort _ _) h

theorem Canonical.sendGoingDown (h : s.Canonical) (downUs : Nat) : (s.sendGoingDown downUs).Canonical :=
  .foldl (.foldl h fun _ _ h1 => h1.sendMsgAll _ _) fun _ _ h3 => h3.queueCtrl _ _

theorem Canonical.startDown (h : s.Canonical) (value : Word) : (s.startDown value).Canonical :=
  .ite (h.sendGoingDown _).frame h

theorem Canonical.fillOut (h : s.Canonical) (node vc : Nat) : (s.fillOut node vc).Canonical := by
  unfold State.fillOut
  dsimp only
  split
  · exact h
  · exact .ite h (.ite ((h.setTx _ _).bumpIf _ _) (((h.setTx _ _).closeStripe _ _ _).feed _ _ _ _))

theorem Canonical.queueRoom (h : s.Canonical) (route queue : Nat) : (s.queueRoom route queue).Canonical :=
  .ite h (Canonical.foldl h fun _ _ h1 => .ite (h1.fillOut _ _) h1).feedAll

theorem Canonical.sendReports (h : s.Canonical) : s.sendReports.Canonical :=
  .ite h (.foldl h.frame fun _ _ h2 => h2.sendMsg _ _)

theorem Canonical.setDref (h : s.Canonical) (node r : Nat) (v : Option ℤ) : (s.setDref node r v).Canonical :=
  .foldl (((h.setDelay _ _ _).bump _).logEvent _) fun _ _ h3 => h3.logEvent _

theorem Canonical.endInterval (h : s.Canonical) (node r : Nat) : (s.endInterval node r).Canonical := by
  unfold State.endInterval
  dsimp only
  split
  · exact h
  · split
    · exact h.setDref _ _ _
    · exact .ite (h.setDref _ _ _) (h.setDelay _ _ _)

theorem Canonical.endIntervals (h : s.Canonical) : s.endIntervals.Canonical :=
  .ite h (.foldl h.frame fun _ _ h2 => h2.endInterval _ _)

theorem Canonical.expireDref (h : s.Canonical) (node r : Nat) : (s.expireDref node r).Canonical :=
  .ite (h.setDref _ _ _) h

theorem Canonical.retryOne (h : s.Canonical) (w : Waiting) : (s.retryOne w).Canonical := by
  unfold State.retryOne
  refine .ite (h.stageNak _ _) ?_
  split
  · exact .ite (h.abortedBy _ _) (h.takeScalar _ _)
  · exact .ite (h.holdMsg _) (.ite (h.lateRetract _ _ _) h)

theorem Canonical.retryAlloc (h : s.Canonical) : s.retryAlloc.Canonical :=
  .foldl h.frame fun _ _ h2 => h2.retryOne _

/-! #### The operations of Machine/Span.lean -/

theorem Canonical.rxAlign (h : s.Canonical) (p : Nat) (frame : List Byte) : (s.rxAlign p frame).Canonical := by
  unfold State.rxAlign
  dsimp only
  split
  · exact .ite (h.setAlign _ _) h
  · exact .ite (.ite (h.setAlign _ _) (h.setPort _ _)) (h.setAlign _ _)
  · exact .ite (.ite (h.setAlign _ _) (h.setPort _ _)) (h.setPort _ _)

theorem Canonical.rxBip (h : s.Canonical) (p : Nat) (f : List Byte) : (s.rxBip p f).Canonical := by
  unfold State.rxBip
  dsimp only
  refine .setPort ?_ _ _
  split
  · exact (Canonical.ite (h.setPort _ _) (((h.setPort _ _).pmAdd _ _ _).pmAdd _ _ _)).seq fun h2 => (Canonical.ite h2 ((h2.pmAdd _
        _ _).pmAdd _ _ _)).seq fun h3 => .ite (h3.setPort _ _) h3
  · exact h

theorem Canonical.rxRei (h : s.Canonical) (p : Nat) (f : List Byte) : (s.rxRei p f).Canonical :=
  (Canonical.ite ((h.setPort _ _).pmAdd _ _ _) (h.setPort _ _)).seq fun h2 => (Canonical.ite (h2.pmAdd _ _ _) h2).seq fun h3 =>
    .ite (h3.setPort _ _) h3

theorem Canonical.rxIndications (h : s.Canonical) (p : Nat) (f : List Byte) : (s.rxIndications p f).Canonical := by
  unfold State.rxIndications
  extract_lets x srdi prdi ais a b c t upd
  have hupd : ∀ (t : State) (d n : Nat) (v : Nat × Nat), t.Canonical → (upd t d n v).Canonical := fun _ _ _ _ ht =>
    .ite (ht.setDefect _ _ _) (.ite (ht.setDefect _ _ _) ht)
  exact hupd _ _ _ _ (hupd _ _ _ _ (hupd _ _ _ _ (h.setPort _ _)))

theorem Canonical.rxMfas (h : s.Canonical) (p v : Nat) : (s.rxMfas p v).Canonical := by
  unfold State.rxMfas
  dsimp only
  refine .ite (.ite ((h.setPort _ _).setDefect _ _ _) (h.setPort _ _)) ?_
  split
  · exact h.setPort _ _
  · exact .ite (h.setPort _ _) (.ite ((h.setPort _ _).setDefect _ _ _) (h.setPort _ _))

theorem Canonical.rxSection (h : s.Canonical) (p : Nat) (msg : List Byte) : (s.rxSection p msg).Canonical :=
  .ite h (.ite (((h.setPort _ _).setReg _ _).setReg _ _) (h.setPort _ _))

theorem Canonical.rxComms (h : s.Canonical) (p mfas : Nat) (part : List Byte) : (s.rxComms p mfas part).Canonical :=
  .ite (h.setPort _ _) (.ite ((h.setPort _ _).rxSection _ _) (h.setPort _ _))

theorem Canonical.rxTrace (h : s.Canonical) (p mfas : Nat) (b : Byte) : (s.rxTrace p mfas b).Canonical :=
  .ite (h.setPort _ _) (.ite (.ite (.foldl (h.setPort _ _) fun _ _ h2 => h2.setReg _ _) (h.setPort _ _)) (h.setPort _ _))

theorem Canonical.rxDelay (h : s.Canonical) (p : Nat) (f : List Byte) : (s.rxDelay p f).Canonical :=
  h.setReg _ _

theorem Canonical.rxPayload (h : s.Canonical) (p : Nat) (f : List Byte) (bad : List Nat) : (s.rxPayload p f bad).Canonical :=
  (Canonical.ite (h.pmAdd _ _ _) h).seq fun h1 => .ite h1 (.ite (h1.setPort _ _) (.ite (h1.setPort _ _) h1))

theorem Canonical.rxInFrame (h : s.Canonical) (p : Nat) (frame : List Byte) (fec : FecCounts) : (s.rxInFrame p frame fec).Canonical
    :=
  (((((h.pmAdd _ _ _).pmAdd _ _ _).rxBip _ _).rxMfas _ _).rxIndications _ _).seq fun h2 => ((Canonical.ite (h2.rxRei _ _)
    ((((h2.rxRei _ _).rxComms _ _ _).rxTrace _ _ _).seq fun h4 => .ite (h4.rxDelay _ _) h4)).refreshIds _).rxPayload _ _ _

theorem Canonical.rxFrame (h : s.Canonical) (p : Nat) (frame : List Byte) (fec : FecCounts) : (s.rxFrame p frame fec).Canonical :=
  .ite h ((((h.pmAdd _ _ _).pmAdd _ _ _).pmAdd _ _ _).seq fun h1 => (Canonical.ite ((h1.rxAlign _ _).rxInFrame _ _ _) (h1.rxAlign _
    _)).settlePort _ _)

theorem Canonical.fillFrame (h : s.Canonical) (p : Nat) : (s.fillFrame p).2.Canonical := by
  unfold State.fillFrame
  exact .ite_snd h (.ite_snd h.draw (.ite_snd h.draw h.draw))

theorem Canonical.txFrame (h : s.Canonical) (p : Nat) : (s.txFrame p).Canonical :=
  .ite h ((Canonical.ite (((h.fillFrame _).setPort _ _).pmAdd _ _ _) (.ite (((h.fillFrame _).setPort _ _).pmAdd _ _ _)
    ((h.fillFrame _).setPort _ _))).emit _)

theorem Canonical.lofTimer (h : s.Canonical) (p : Nat) (clear : Bool) : (s.lofTimer p clear).Canonical :=
  .ite (.ite ((h.setDefect _ _ _).settlePort _ _) h) (.ite ((h.setDefect _ _ _).settlePort _ _) h)

theorem Canonical.recentre (h : s.Canonical) (p : Nat) : (s.recentre p).Canonical :=
  h.draw.setPort _ _

theorem Canonical.refChange (h : s.Canonical) (p : Nat) (lost : Bool) : (s.refChange p lost).Canonical :=
  .ite (h.setPort _ _) (((h.setPort _ _).setDefect _ _ _).recentre _)

theorem Canonical.degrade (h : s.Canonical) (p : Nat) : (s.degrade p).Canonical :=
  (Canonical.ite ((h.setPort _ _).setDefect _ _ _) (.ite ((h.setPort _ _).setDefect _ _ _) (h.setPort _ _))).seq fun h2 => .ite
    (h2.setDefect _ _ _) (.ite (h2.setDefect _ _ _) h2)

theorem Canonical.latchPm (h : s.Canonical) (p : Nat) : (s.latchPm p).Canonical :=
  ((((Canonical.foldl (.ite (h.degrade _) h) fun _ _ h2 => h2.setReg _ _).setReg _ _).setReg _ _).setPort _ _).noteDefects _

theorem Canonical.addClass (h : s.Canonical) (p i : Nat) (un : Bool) (c : SecondClass) : (s.addClass p i un c).Canonical :=
  .ite (h.bump _) ((h.bumpIf _ _).bumpIf _ _)

theorem Canonical.addCpm (h : s.Canonical) (p : Nat) : (s.addCpm p).Canonical := by
  unfold State.addCpm
  dsimp only
  split
  · exact h
  · exact .ite h (.foldl (h.setPort _ _) fun _ _ h2 => h2.addClass _ _ _ _)

theorem Canonical.logModule (h : s.Canonical) (p vendor : Nat) : (s.logModule p vendor).Canonical :=
  h.logEvent _

theorem Canonical.insertModule (h : s.Canonical) (p : Nat) : (s.insertModule p).Canonical :=
  .ite h ((((h.draw.setReg _ _).setB _ _ _).logModule _ _).seq fun h2 => ((Canonical.ite h2.frame h2).driveLp _).refreshLos _)

theorem Canonical.endPulse (h : s.Canonical) (p : Nat) : (s.endPulse p).Canonical :=
  h.frame

theorem Canonical.removeModule (h : s.Canonical) (p : Nat) : (s.removeModule p).Canonical :=
  .ite h (((((((h.endPulse _).setPort _ _).setReg _ _).setB _ _ _).logModule _ _).driveLp _).refreshLos _)

theorem Canonical.readModule (h : s.Canonical) (p : Nat) (m : ModuleFlags) : (s.readModule p m).Canonical :=
  .ite h ((((h.setF _ _ _ _).setB _ _ _).setB _ _ _).seq fun h1 => (Canonical.ite (h1.logModule _ _) h1).refreshLos _)

theorem Canonical.moduleReady (h : s.Canonical) (p : Nat) (advertised : Bool) : (s.moduleReady p advertised).Canonical :=
  .ite h (.ite ((((h.setF _ _ _ _).setB _ _ _).deactivate _).applyApp _) ((h.setF _ _ _ _).setB _ _ _))

theorem Canonical.dataPathUp (h : s.Canonical) (p : Nat) : (s.dataPathUp p).Canonical :=
  .ite h ((h.setB _ _ _).setPort _ _)

theorem Canonical.cmis (h : s.Canonical) (p : Nat) (value : Word) (reply : Option Byte) : (s.cmis p value reply).Canonical := by
  unfold State.cmis
  dsimp only
  refine .ite (h.writeFields _ _) ?_
  refine .ite ((h.writeFields _ _).setF _ _ _ _) ?_
  refine .ite ((h.writeFields _ _).setF _ _ _ _) ?_
  split
  · exact (h.writeFields _ _).setF _ _ _ _
  · exact .ite (((h.writeFields _ _).setF _ _ _ _).emit _) ((((h.writeFields _ _).setF _ _ _ _).setF _ _ _ _).emit _)

/-! #### The operations of Machine/Fabric.lean -/

theorem Canonical.setQuad (h : s.Canonical) (q : Nat) (x : Quad) : (s.setQuad q x).Canonical :=
  h.frame

theorem Canonical.sendMarkers (h : s.Canonical) (f : Nat) : (s.sendMarkers f).Canonical :=
  .ite h ((Canonical.foldl (h.setF _ _ _ _) fun _ _ h2 => (h2.setFib _ _).emit _).setFib _ _)

theorem Canonical.leaveLaneOut (h : s.Canonical) (f w : Nat) : (s.leaveLaneOut f w).Canonical :=
  .ite (h.setFib _ _) (((h.setFib _ _).setB _ _ _).bump _)

theorem Canonical.loseLock (h : s.Canonical) (f w : Nat) : (s.loseLock f w).Canonical :=
  .ite ((h.setFib _ _).leaveLaneOut _ _) (h.setFib _ _)

theorem Canonical.readmitted (h : s.Canonical) (f : Nat) : (s.readmitted f).Canonical :=
  .ite h (Canonical.foldl h fun _ _ h1 => h1.setWaveQual _ _ _ _).progress

theorem Canonical.takeMarker (h : s.Canonical) (f w : Nat) (m : List Byte) : (s.takeMarker f w m).Canonical :=
  .ite h (.ite (.ite ((((h.setFib _ _).setF _ _ _ _).readmitted _).seq fun h1 => .ite (h1.setF _ _ _ _) h1) (h.setFib _ _)) (.ite
    ((h.setFib _ _).loseLock _ _) (h.setFib _ _)))

theorem Canonical.laneWindow (h : s.Canonical) (f w : Nat) : (s.laneWindow f w).Canonical :=
  .ite ((h.setFib _ _).leaveLaneOut _ _) (h.setFib _ _)

theorem Canonical.readmitLane (h : s.Canonical) (f w : Nat) : (s.readmitLane f w).Canonical :=
  .ite ((h.setB _ _ _).bump _) h

theorem Canonical.linkDown (h : s.Canonical) (f : Nat) : (s.linkDown f).Canonical :=
  ((h.setFib _ _).setF _ _ _ _).setReg _ _

theorem Canonical.linkHold (h : s.Canonical) (f : Nat) : (s.linkHold f).Canonical :=
  .ite ((h.linkDown _).bump _) h

theorem Canonical.linkUpNow (h : s.Canonical) (f : Nat) : (s.linkUpNow f).Canonical :=
  .ite (((h.setFib _ _).setF _ _ _ _).admitAll _) h

theorem Canonical.setDevPtr (h : s.Canonical) (f c v : Nat) : (s.setDevPtr f c v).Canonical :=
  h.setReg _ _

theorem Canonical.ringWrite (h : s.Canonical) (f c p : Nat) (bs : List Byte) : (s.ringWrite f c p bs).Canonical :=
  .ite (h.galStore _ _) ((h.galStore _ _).galStore _ _)

theorem Canonical.drainCircuit (h : s.Canonical) (f c fuel : Nat) : (s.drainCircuit f c fuel).Canonical := by
  induction fuel generalizing s with
  | zero => exact h
  | succ n ih =>
    unfold State.drainCircuit
    split
    · exact h
    · exact .ite h (ih (((h.setFib _ _).ringWrite _ _ _ _).setDevPtr _ _ _))

theorem Canonical.feedCircuit (h : s.Canonical) (f c fuel : Nat) : (s.feedCircuit f c fuel).Canonical := by
  induction fuel generalizing s with
  | zero => exact h
  | succ n ih =>
    unfold State.feedCircuit
    exact .ite h (ih ((h.setFib _ _).setDevPtr _ _ _))

theorem Canonical.feedCircuits (h : s.Canonical) (f : Nat) : (s.feedCircuits f).Canonical :=
  .foldl h fun _ _ h1 => .ite (h1.feedCircuit _ _ _) h1

theorem Canonical.writeHostPtr (h : s.Canonical) (f c : Nat) (value : Word) : (s.writeHostPtr f c value).Canonical :=
  .ite (h.setReg _ _) (.ite ((h.setReg _ _).feedCircuit _ _ _) ((h.setReg _ _).drainCircuit _ _ _))

theorem Canonical.putFlit (h : s.Canonical) (f : Nat) (bytes : List Byte) : (s.putFlit f bytes).Canonical :=
  (h.setFib _ _).emit _

theorem Canonical.popFlit (h : s.Canonical) (f v : Nat) (y : FlitReq) (tag at_ : Nat) : (s.popFlit f v y tag at_).Canonical :=
  h.setFib _ _

theorem Canonical.sendFlit (h : s.Canonical) (f : Nat) : (s.sendFlit f).Canonical := by
  unfold State.sendFlit
  dsimp only
  refine .ite h ?_
  split
  · exact (h.setFib _ _).putFlit _ _
  · refine .ite ((h.setFib _ _).putFlit _ _) ?_
    split
    · exact (h.setFib _ _).putFlit _ _
    · exact ((((h.popFlit _ _ _ _ _).setFib _ _).putFlit _ _).admitAll _).feedCircuits _

theorem Canonical.startReplay (h : s.Canonical) (f : Nat) : (s.startReplay f).Canonical :=
  (h.setFib _ _).bump _

theorem Canonical.replayTimeout (h : s.Canonical) (f : Nat) : (s.replayTimeout f).Canonical :=
  .ite (h.startReplay _) h

theorem Canonical.takeAck (h : s.Canonical) (f : Nat) (b : List Byte) : (s.takeAck f b).Canonical := by
  unfold State.takeAck
  extract_lets x covered held rtt v y t u
  have hu : u.Canonical := by
    simp only [u]
    clear_value rtt
    split
    · exact (h.setFib _ _).setReg _ _
    · exact h.setFib _ _
  exact .ite (hu.startReplay _) hu

theorem Canonical.takeFabricPacket (h : s.Canonical) (f vc : Nat) (p : List Byte) : (s.takeFabricPacket f vc p).Canonical :=
  .ite (h.bump _) (.ite (.ite (h.bump _) (h.sendLine _ _ _ _)) h.frame)

theorem Canonical.takeData (h : s.Canonical) (f : Nat) (b : List Byte) : (s.takeData f b).Canonical :=
  ((h.bumpIf _ _).bumpIf _ _).seq fun h1 => .ite ((h1.setFib _ _).takeFabricPacket _ _ _) (h1.setFib _ _)

theorem Canonical.takeCircuit (h : s.Canonical) (f : Nat) (b : List Byte) : (s.takeCircuit f b).Canonical :=
  .ite ((h.setFib _ _).bump _) (((h.setFib _ _).bumpIf _ _).drainCircuit _ _ _)

theorem Canonical.dropFlit (h : s.Canonical) (f : Nat) : (s.dropFlit f).Canonical :=
  .ite h ((h.setFib _ _).bump _)

theorem Canonical.takeFlit (h : s.Canonical) (f : Nat) (b : List Byte) : (s.takeFlit f b).Canonical :=
  .ite ((h.bump _).dropFlit _) (.ite (h.dropFlit _) (.ite (((h.setFib _ _).takeAck _ _).takeData _ _) (.ite (((h.setFib _
    _).takeAck _ _).takeCircuit _ _) ((h.setFib _ _).takeAck _ _))))

theorem Canonical.takeSlot (h : s.Canonical) (f w : Nat) (slot : List Byte) : (s.takeSlot f w slot).Canonical :=
  .ite h (.ite ((h.setFib _ _).takeFlit _ _) (h.setFib _ _))

theorem Canonical.latchFabric (h : s.Canonical) : s.latchFabric.Canonical :=
  ((h.setReg _ _).setReg _ _).frame

/-! #### The operations of Machine/Optics.lean -/

theorem Canonical.setRing (h : s.Canonical) (q r : Nat) (g : Machine.Ring) : (s.setRing q r g).Canonical :=
  h.setQuad _ _

theorem Canonical.showLock (h : s.Canonical) (q r : Nat) (locked : Bool) : (s.showLock q r locked).Canonical := by
  unfold State.showLock
  split
  · exact h.setB _ _ _
  · exact h

theorem Canonical.askHeater (h : s.Canonical) (q : Nat) (cls : HeatClass) (r target : Nat) : (s.askHeater q cls r target).Canonical
    :=
  h.setQuad _ _

theorem Canonical.leaveFibreOut (h : s.Canonical) (f : Nat) : (s.leaveFibreOut f).Canonical :=
  .ite (.ite (h.setB _ _ _) (h.setB _ _ _).frame) h

theorem Canonical.leaveWaveOut (h : s.Canonical) (q r w : Nat) : (s.leaveWaveOut q r w).Canonical :=
  .ite h ((((h.setWaveQual _ _ _ _).setB _ _ _).bump _).seq fun h2 => ((Canonical.ite ((h2.logEvent _).replaceCriterion _)
    (h2.logEvent _)).leaveFibreOut _).progress)

theorem Canonical.coverWave (h : s.Canonical) (q r : Nat) : (s.coverWave q r).Canonical := by
  unfold State.coverWave
  dsimp only
  refine .ite h ?_
  split
  · exact h
  · exact .ite h ((h.setRing _ _ _).askHeater _ _ _ _)
  · exact h.leaveWaveOut _ _ _
  · exact h.leaveWaveOut _ _ _
  · exact h.leaveWaveOut _ _ _
  · exact h.leaveWaveOut _ _ _
  · exact h.leaveWaveOut _ _ _

theorem Canonical.coverAll (h : s.Canonical) (q r : Nat) : (s.coverAll q r).Canonical :=
  .foldl h fun _ _ h1 => .ite (h1.coverWave _ _) h1

theorem Canonical.dropRing (h : s.Canonical) (q r : Nat) : (s.dropRing q r).Canonical := by
  unfold State.dropRing
  dsimp only
  refine .ite ?_ ((((h.showLock _ _ _).setRing _ _ _).askHeater _ _ _ _).coverWave _ _)
  split
  · exact ((((h.showLock _ _ _).setRing _ _ _).askHeater _ _ _ _).setF _ _ _ _).leaveWaveOut _ _ _
  · exact ((((h.showLock _ _ _).setRing _ _ _).askHeater _ _ _ _).setF _ _ _ _).coverAll _ _

theorem Canonical.failRing (h : s.Canonical) (q r reason : Nat) : (s.failRing q r reason).Canonical :=
  .ite h ((Canonical.ite h (.ite (h.newBad _ _ _) (h.recordUnit _ _ _))).dropRing _ _)

theorem Canonical.startSweep (h : s.Canonical) (q r : Nat) (service : Bool) : (s.startSweep q r service).Canonical :=
  ((h.showLock _ _ _).setRing _ _ _).askHeater _ _ _ _

theorem Canonical.sweepFailed (h : s.Canonical) (q r : Nat) : (s.sweepFailed q r).Canonical :=
  .ite (h.failRing _ _ _) ((h.setRing _ _ _).askHeater _ _ _ _)

theorem Canonical.lockRing (h : s.Canonical) (q r heater : Nat) : (s.lockRing q r heater).Canonical :=
  ((h.setRing _ _ _).askHeater _ _ _ _).showLock _ _ _

theorem Canonical.sweepEnded (h : s.Canonical) (q r gap : Nat) (xs : List Nat) : (s.sweepEnded q r gap xs).Canonical :=
  .ite (.ite ((((h.draw.setRing _ _ _).setRing _ _ _).askHeater _ _ _ _).coverAll _ _) ((h.draw.setRing _ _ _).lockRing _ _ _))
    (.ite (h.failRing _ _ _) ((h.bump _).lockRing _ _ _))

theorem Canonical.sweepStep (h : s.Canonical) (q r : Nat) (crossing : Bool) : (s.sweepStep q r crossing).Canonical := by
  unfold State.sweepStep
  dsimp only
  refine .ite h ?_
  refine .ite (h.sweepFailed _ _) ?_
  split
  · exact .ite (h.sweepEnded _ _ _ _) (.ite (h.sweepFailed _ _) ((h.setRing _ _ _).askHeater _ _ _ _))
  · exact .ite (h.sweepFailed _ _) ((h.setRing _ _ _).askHeater _ _ _ _)

theorem Canonical.sweepFibre (h : s.Canonical) (f : Nat) : (s.sweepFibre f).Canonical :=
  .foldl h fun _ _ h1 => .ite (.ite (.ite h1 (h1.coverWave _ _)) (h1.dropRing _ _)) (.ite (h1.startSweep _ _ _) h1)

theorem Canonical.raiseHeater (h : s.Canonical) (q : Nat) : (s.raiseHeater q).Canonical :=
  (Canonical.foldl (h.setQuad _ _) fun _ _ h2 => h2.setB _ _ _).frame.showReasons

theorem Canonical.noteTracking (h : s.Canonical) (q : Nat) : (s.noteTracking q).Canonical :=
  .ite (h.setQuad _ _) (.ite (h.setQuad _ _) h)

theorem Canonical.startRelock (h : s.Canonical) (q r : Nat) : (s.startRelock q r).Canonical :=
  (h.showLock _ _ _).setRing _ _ _

theorem Canonical.pegUpdate (h : s.Canonical) (q r : Nat) (error : ℤ) (inLock : Bool) : (s.pegUpdate q r error inLock).Canonical :=
  .ite h (.ite (h.draw.failRing _ _ _) (((h.draw.setRing _ _ _).askHeater _ _ _ _).seq fun h2 => (Canonical.ite ((h2.bump
    _).raiseHeater _) h2).seq fun h3 => .ite ((h3.noteTracking _).startRelock _ _) (h3.noteTracking _)))

theorem Canonical.fineTrim (h : s.Canonical) (q r : Nat) (error : ℤ) : (s.fineTrim q r error).Canonical :=
  .ite (h.setRing _ _ _) h

theorem Canonical.relockDone (h : s.Canonical) (q r : Nat) (ok : Bool) : (s.relockDone q r ok).Canonical :=
  .ite h (.ite ((((h.draw.setRing _ _ _).askHeater _ _ _ _).bump _).showLock _ _ _) (h.startSweep _ _ _))

theorem Canonical.jumpDone (h : s.Canonical) (q r : Nat) (ok : Bool) : (s.jumpDone q r ok).Canonical := by
  unfold State.jumpDone
  dsimp only
  split
  · exact h
  · exact .ite h (.ite (((((h.setRing _ _ _).setF _ _ _ _).bump _).showLock _ _ _).logEvent _) (h.startSweep _ _ _))

theorem Canonical.heaterClear (h : s.Canonical) (q : Nat) : (s.heaterClear q).Canonical :=
  .ite h.frame.showReasons h

theorem Canonical.makeStep (h : s.Canonical) (q : Nat) (r : HeatReq) (comps : List (Nat × ℤ)) : (s.makeStep q r comps).Canonical :=
  h.setQuad _ _

theorem Canonical.grantOne (q : Nat) {acc : State × Nat × Bool} (h : acc.1.Canonical) (r : HeatReq) :
    (State.grantOne q acc r).1.Canonical := by
  obtain ⟨s, used, full⟩ := acc
  have hs : s.Canonical := h
  unfold State.grantOne
  exact .ite_fst (hs.setQuad _ _) (.ite_fst ((Canonical.ite hs (hs.bump _)).setQuad _ _) (hs.makeStep _ _ _))

theorem Canonical.adjustVhtr (h : s.Canonical) : s.adjustVhtr.Canonical :=
  .ite (.ite h.draw (h.draw.frame.emit _)) h

theorem Canonical.grantHeat (h : s.Canonical) (q : Nat) : (s.grantHeat q).Canonical :=
  .ite h ((Canonical.foldl_fst (p := (_, _)) (h.setQuad _ _) fun _ _ h1 => .grantOne _ h1 _).setF _ _ _ _).adjustVhtr

theorem Canonical.setSource (h : s.Canonical) (e : Nat) (x : Source) : (s.setSource e x).Canonical :=
  h.frame

theorem Canonical.setFadeState (h : s.Canonical) (q v : Nat) : (s.setFadeState q v).Canonical :=
  h.setF _ _ _ _

theorem Canonical.setNoSpare (h : s.Canonical) (q : Nat) (v : Bool) : (s.setNoSpare q v).Canonical :=
  h.setB _ _ _

theorem Canonical.setClaimed (h : s.Canonical) (q v : Nat) : (s.setClaimed q v).Canonical :=
  h.setF _ _ _ _

theorem Canonical.setLaserCmdStatus (h : s.Canonical) (q v : Nat) : (s.setLaserCmdStatus q v).Canonical :=
  h.setF _ _ _ _

theorem Canonical.lightSource (h : s.Canonical) (e : Nat) : (s.lightSource e).Canonical :=
  .ite (h.setSource _ _) h

theorem Canonical.darkenSource (h : s.Canonical) (e : Nat) : (s.darkenSource e).Canonical :=
  h.frame

theorem Canonical.claimSpare (h : s.Canonical) (q : Nat) : (s.claimSpare q).Canonical := by
  unfold State.claimSpare
  split
  · exact ((h.lightSource _).setClaimed _ _).setNoSpare _ _
  · exact h.setNoSpare _ _

theorem Canonical.decideSwitch (h : s.Canonical) (q : Nat) : (s.decideSwitch q).Canonical := by
  unfold State.decideSwitch
  dsimp only
  refine .ite h ?_
  split
  · exact h
  · exact (Canonical.ite h (h.setLaserCmdStatus _ _)).setQuad _ _

theorem Canonical.logFade (h : s.Canonical) (q : Nat) (cls : Cls) : (s.logFade q cls).Canonical :=
  h.logEvent _

theorem Canonical.fadeOn (h : s.Canonical) (q : Nat) : (s.fadeOn q).Canonical :=
  (Canonical.ite (((h.setFadeState _ _).bump _).logFade _ _) h).seq fun h1 => (Canonical.ite (.ite ((Canonical.ite (h1.claimSpare
    _) h1).seq fun h2 => .ite (h2.setFadeState _ _) (.ite (h2.setFadeState _ _) h2)) (h1.setFadeState _ _)) h1).seq fun h3 =>
    (Canonical.ite (h3.setFadeState _ _) h3).seq fun h4 => (Canonical.ite ((h4.setFadeState _ _).logFade _ _) h4).decideSwitch _

theorem Canonical.offerSpare (h : s.Canonical) : s.offerSpare.Canonical := by
  unfold State.offerSpare
  dsimp only
  refine .ite h ?_
  split
  · exact h
  · exact (h.claimSpare _).fadeOn _

theorem Canonical.dropClaim (h : s.Canonical) (q : Nat) : (s.dropClaim q).Canonical :=
  (h.darkenSource _).setClaimed _ _

theorem Canonical.fadeOff (h : s.Canonical) (q : Nat) : (s.fadeOff q).Canonical :=
  .ite h (.ite (.ite (.ite (((h.setFadeState _ _).setNoSpare _ _).dropClaim _).offerSpare ((h.setFadeState _ _).setNoSpare _ _))
    (h.setFadeState _ _)) h)

theorem Canonical.measureFade (h : s.Canonical) (q : Nat) (powers : List ℤ) : (s.measureFade q powers).Canonical := by
  unfold State.measureFade
  dsimp only
  split
  · exact h
  · exact .ite h (((((((h.setF _ _ _ _).setQuad _ _).fadeOff _).fadeOff _).fadeOff _).fadeOff _).fadeOn _)

theorem Canonical.sourceReady (h : s.Canonical) (q : Nat) : (s.sourceReady q).Canonical := by
  unfold State.sourceReady
  dsimp only
  split
  · exact h
  · exact .ite (h.draw.frame.decideSwitch _) h

theorem Canonical.showPass (h : s.Canonical) (q : Nat) : (s.showPass q).Canonical :=
  .foldl h fun _ _ h1 => h1.setF _ _ _ _

theorem Canonical.concBegin (h : s.Canonical) (q c : Nat) : (s.concBegin q c).Canonical :=
  .ite (((h.setF _ _ _ _).bump _).showPass _) (((h.setQuad _ _).setB _ _ _).showPass _)

theorem Canonical.concFire (h : s.Canonical) (q k : Nat) : (s.concFire q k).Canonical :=
  .ite (.ite h ((h.bumpIf _ _).setQuad _ _)) (((h.setQuad _ _).setB _ _ _).concBegin _ _)

theorem Canonical.concNext (h : s.Canonical) (q : Nat) : (s.concNext q).Canonical := by
  unfold State.concNext
  dsimp only
  split
  · exact h
  · exact .ite h (h.concFire _ _)

theorem Canonical.concArm (h : s.Canonical) (q k : Nat) (value : Word) : (s.concArm q k value).Canonical :=
  .ite (.ite (((h.writeFields _ _).bump _).concFire _ _) (h.writeFields _ _)) ((h.writeFields _ _).setQuad _ _)

theorem Canonical.concStart (h : s.Canonical) (q k : Nat) : (s.concStart q k).Canonical :=
  .ite (h.concFire _ _) h

theorem Canonical.concRingEnd (h : s.Canonical) (q n : Nat) (sw : ConcSwitch) : (s.concRingEnd q n sw).Canonical :=
  .ite (((((h.setQuad _ _).setF _ _ _ _).bump _).showPass _).concNext _) (h.setQuad _ _)

theorem Canonical.concSettled (h : s.Canonical) (q n : Nat) : (s.concSettled q n).Canonical := by
  unfold State.concSettled
  dsimp only
  split
  · exact h
  · split
    · exact ((h.setQuad _ _).bump _).concRingEnd _ _ _
    · exact h

theorem Canonical.failConcRing (h : s.Canonical) (q n : Nat) : (s.failConcRing q n).Canonical :=
  (((h.setQuad _ _).setB _ _ _).bump _).logEvent _

theorem Canonical.concTimeout (h : s.Canonical) (q n : Nat) : (s.concTimeout q n).Canonical := by
  unfold State.concTimeout
  split
  · exact h
  · split
    · exact .ite (((h.failConcRing _ _).recordUnit _ _ _).concRingEnd _ _ _) h
    · exact h

theorem Canonical.moveSelector (h : s.Canonical) (q : Nat) : (s.moveSelector q).Canonical := by
  unfold State.moveSelector
  dsimp only
  split
  · exact h.decideSwitch _
  · exact .ite (h.decideSwitch _) ((h.decideSwitch _).setQuad _ _)

theorem Canonical.switchRelocked (h : s.Canonical) (q : Nat) : (s.switchRelocked q).Canonical := by
  unfold State.switchRelocked
  dsimp only
  split
  · exact h
  · exact .ite h ((((h.setQuad _ _).setF _ _ _ _).bump _).seq fun h2 => (Canonical.ite h2 (h2.logEvent _)).concNext _)

theorem Canonical.switchStable (h : s.Canonical) (q : Nat) : (s.switchStable q).Canonical := by
  unfold State.switchStable
  dsimp only
  split
  · exact h
  · exact .ite ((((h.setQuad _ _).setFadeState _ _).setNoSpare _ _).seq fun h2 => .ite (h2.dropClaim _).offerSpare (h2.darkenSource
        _)) h

theorem Canonical.captureReference (h : s.Canonical) (q : Nat) (powers : List ℤ) : (s.captureReference q powers).Canonical := by
  unfold State.captureReference
  split
  · exact h
  · exact .ite h (h.recordUnit _ _ _)

theorem Canonical.cmdSwitch (h : s.Canonical) (q : Nat) (value : Word) : (s.cmdSwitch q value).Canonical :=
  .ite (h.writeFields _ _) (.ite ((h.writeFields _ _).setLaserCmdStatus _ _) (.ite ((h.writeFields _ _).setLaserCmdStatus _ _)
    ((((Canonical.ite ((h.writeFields _ _).claimSpare _) (h.writeFields _ _)).setLaserCmdStatus _ _).setQuad _ _).decideSwitch _)))

theorem Canonical.startReturn (h : s.Canonical) (q : Nat) (timed : Bool) : (s.startReturn q timed).Canonical :=
  (((h.lightSource _).setLaserCmdStatus _ _).setQuad _ _).decideSwitch _

theorem Canonical.cmdReturn (h : s.Canonical) (q : Nat) (value : Word) : (s.cmdReturn q value).Canonical :=
  .ite (h.writeFields _ _) (.ite ((h.writeFields _ _).setLaserCmdStatus _ _) (.ite ((h.writeFields _ _).setLaserCmdStatus _ _)
    ((h.writeFields _ _).startReturn _ _)))

theorem Canonical.cmdRelease (h : s.Canonical) (q : Nat) (value : Word) : (s.cmdRelease q value).Canonical :=
  .ite (h.writeFields _ _) (.ite ((h.writeFields _ _).setLaserCmdStatus _ _) (.ite ((h.writeFields _ _).setLaserCmdStatus _ _)
    ((((h.writeFields _ _).dropClaim _).setLaserCmdStatus _ _).seq fun h2 => (Canonical.ite ((h2.setQuad _ _).setFadeState _ _)
    (h2.setQuad _ _)).offerSpare)))

theorem Canonical.returnTimeout (h : s.Canonical) (q : Nat) : (s.returnTimeout q).Canonical := by
  unfold State.returnTimeout
  dsimp only
  split
  · exact .ite (((h.setQuad _ _).darkenSource _).setLaserCmdStatus _ _) h
  · exact h
  · exact h

theorem Canonical.monGo (h : s.Canonical) (q : Nat) (value : Word) : (s.monGo q value).Canonical :=
  .ite ((h.writeFields _ _).setQuad _ _) (h.writeFields _ _)

theorem Canonical.monDone (h : s.Canonical) (q reading : Nat) : (s.monDone q reading).Canonical := by
  unfold State.monDone
  dsimp only
  split
  · exact h
  · exact .ite ((h.setQuad _ _).setReg _ _) ((h.setQuad _ _).draw.setReg _ _)

theorem Canonical.fibreEnable (h : s.Canonical) (q : Nat) (value : Word) : (s.fibreEnable q value).Canonical :=
  (Canonical.ite ((h.writeFields _ _).darkenSource _) (.ite (((h.writeFields _ _).setF _ _ _ _).lightSource _) (h.writeFields _
    _))).seq fun h2 => .ite h2 (.foldl h2 fun _ _ h3 => .ite (((Canonical.foldl h3 fun _ _ h4 => h4.setWaveQual _ _ _ _).setB _ _
    _).sweepFibre _) h3)

theorem Canonical.spareGone (h : s.Canonical) (e : Nat) : (s.spareGone e).Canonical := by
  unfold State.spareGone
  dsimp only
  split
  · exact h
  · exact .ite h ((((h.dropClaim _).setQuad _ _).claimSpare _).fadeOn _)

theorem Canonical.pollSource (h : s.Canonical) (e : Nat) (reply : Option LaserStatus) : (s.pollSource e reply).Canonical :=
  (Canonical.ite (.foldl (h.setSource _ _) fun _ _ h2 => .ite (h2.setQuad _ _) h2) (h.setSource _ _)).seq fun h3 => .ite h3.frame
    (.ite (h3.frame.spareGone _) (.ite h3.frame.offerSpare h3.frame))

theorem Canonical.detachFibre (h : s.Canonical) (f : Nat) : (s.detachFibre f).Canonical :=
  (Canonical.foldl ((h.setReg _ _).bumpBy _ _) fun _ _ h2 => h2.frame).setB _ _ _

theorem Canonical.detachArray (h : s.Canonical) (q : Nat) : (s.detachArray q).Canonical := by
  unfold State.detachArray
  dsimp only
  exact (Canonical.foldl (.foldl (h.setB _ _ _) fun _ _ h2 => .ite h2.frame (by
    split
    · exact h2.frame
    · exact .ite (h2.frame.startReturn _ _) (h2.frame.spareGone _))) fun _ _ h6 => .ite (h6.detachFibre _) h6).seq fun h7 => .ite
          (h7.replaceCriterion _) h7

theorem Canonical.attachArray (h : s.Canonical) (q : Nat) : (s.attachArray q).Canonical :=
  .ite (h.setB _ _ _).offerSpare (h.setB _ _ _)

/-! #### The operations of Machine/Power.lean -/

theorem Canonical.showBubble (h : s.Canonical) : s.showBubble.Canonical :=
  h.setF _ _ _ _

theorem Canonical.accrue (h : s.Canonical) (e : Nat × Nat) : (s.accrue e).Canonical :=
  .ite h (h.setOcc _ _)

theorem Canonical.noteBand (h : s.Canonical) : s.noteBand.Canonical :=
  .ite h h.frame

theorem Canonical.countReasons (h : s.Canonical) : s.countReasons.Canonical :=
  .foldl h fun _ _ h1 => .ite (h1.setReg64 _ _ _) h1

theorem Canonical.powerTick (h : s.Canonical) (x : PowerSample) : (s.powerTick x).Canonical :=
  (((Canonical.foldl h fun _ _ h1 => h1.accrue _).setF _ _ _ _).setF _ _ _ _).noteBand.seq fun h4 => (Canonical.ite (h4.frame.setB
    _ _ _) h4.frame).showBubble.showReasons.countReasons

theorem Canonical.pmbusRead (h : s.Canonical) (readings : List (Option Nat)) : (s.pmbusRead readings).Canonical := by
  unfold State.pmbusRead
  dsimp only
  exact (Canonical.foldl h fun _ _ h1 => by
    split
    · exact (h1.setF _ _ _ _).setB _ _ _
    · exact h1.setB _ _ _).seq fun h2 => .ite h2 ((h2.setF _ _ _ _).setB _ _ _).frame

theorem Canonical.pmbusStale (h : s.Canonical) : s.pmbusStale.Canonical :=
  .ite (h.setB _ _ _) h

theorem Canonical.pmbusAlert (h : s.Canonical) (low : Bool) : (s.pmbusAlert low).Canonical :=
  .ite ((h.setB _ _ _).logEvent _) (h.setB _ _ _)

theorem Canonical.oppDown (h : s.Canonical) : s.oppDown.Canonical :=
  .ite h.frame.moveOpp.showReasons h

theorem Canonical.oppUp (h : s.Canonical) : s.oppUp.Canonical :=
  .ite h.frame.moveOpp.showReasons h

theorem Canonical.oppSettled (h : s.Canonical) : s.oppSettled.Canonical := by
  unfold State.oppSettled
  dsimp only
  split
  · exact h
  · exact (Canonical.ite ((h.frame.setF _ _ _ _).emit _) (h.frame.setF _ _ _ _)).moveOpp.showReasons

theorem Canonical.capUnmet (h : s.Canonical) : s.capUnmet.Canonical :=
  .ite (h.setB _ _ _) h

theorem Canonical.thermalStep (h : s.Canonical) : s.thermalStep.Canonical :=
  .ite h.frame.moveOpp.showBubble.showReasons h

theorem Canonical.setDroop (h : s.Canonical) (v : Bool) : (s.setDroop v).Canonical :=
  h.frame.showReasons

theorem Canonical.setIlim (h : s.Canonical) (v : Bool) : (s.setIlim v).Canonical :=
  .ite (h.frame.setB _ _ _).showBubble.showReasons h

theorem Canonical.setBrake (h : s.Canonical) (v : Bool) : (s.setBrake v).Canonical :=
  .ite (h.frame.setB _ _ _).showReasons h

theorem Canonical.idleEntry (h : s.Canonical) : s.idleEntry.Canonical :=
  .ite h.frame.showPower h

theorem Canonical.computeWake (h : s.Canonical) : s.computeWake.Canonical :=
  .ite h.frame.showPower h

theorem Canonical.staggerStart (h : s.Canonical) : s.staggerStart.Canonical := by
  unfold State.staggerStart
  dsimp only
  split
  · exact .ite h.frame h
  · exact h

theorem Canonical.prestart (h : s.Canonical) (q : Nat) : (s.prestart q).Canonical := by
  unfold State.prestart
  dsimp only
  split
  · exact h
  · exact .ite h.frame h

theorem Canonical.phaseClear (h : s.Canonical) (n : Nat) (value : Word) : (s.phaseClear n value).Canonical :=
  (Canonical.ite ((h.writeFields _ _).setB _ _ _) (h.writeFields _ _)).seq fun h2 => (Canonical.ite (((h2.setReg _ _).setReg _
    _).setReg _ _) h2).chooseOpp

theorem Canonical.heatForecast (h : s.Canonical) : s.heatForecast.Canonical :=
  .ite h.draw.frame h

theorem Canonical.tecSend (h : s.Canonical) (e : Nat) : (s.tecSend e).Canonical :=
  (h.setF _ _ _ _).frame

theorem Canonical.safeWithNotice (h : s.Canonical) (cause : Nat) : (s.safeWithNotice cause).Canonical :=
  (Canonical.ite (h.sendGoingDown _) h).enterSafe _

theorem Canonical.overtemp (h : s.Canonical) : s.overtemp.Canonical :=
  .ite (h.safeWithNotice _) h

theorem Canonical.safeWrite (h : s.Canonical) (value : Word) : (s.safeWrite value).Canonical :=
  .ite ((h.writeFields _ _).safeWithNotice _) (h.writeFields _ _)

/-! #### The operations of Machine/Commit.lean -/

theorem Canonical.setCommit (h : s.Canonical) (b : Block) (c : Commit) : (s.setCommit b c).Canonical :=
  h.frame

theorem Canonical.showOutcome (h : s.Canonical) (b : Block) (last reason item : Nat) : (s.showOutcome b last reason item).Canonical
    :=
  ((h.setF _ _ _ _).setF _ _ _ _).setReg _ _

theorem Canonical.checkSet (h : s.Canonical) (b : Block) (x : StagedSet) : (s.checkSet b x).1.Canonical := by
  unfold State.checkSet
  dsimp only
  split
  · exact (h.noteUncorrectable _ _).logEvent _
  · exact .ite (h.markMoving _) h

theorem Canonical.submit (h : s.Canonical) (b : Block) : (s.submit b).Canonical :=
  .ite (h.showOutcome _ _ _ _) (((h.checkSet _ _).setCommit _ _).setF _ _ _ _)

theorem Canonical.commitGo (h : s.Canonical) (b : Block) : (s.commitGo b).Canonical :=
  .ite ((Canonical.ite h.wakeEvent h).submit _) (.ite (h.accessError _ _) h)

theorem Canonical.applySet (h : s.Canonical) (b : Block) (x : StagedSet) : (s.applySet b x).Canonical :=
  .stores h.gallery_wf h.bar4_wf h.hostMem_wf h.flash_wf h.bootMem_wf
    (Sparse.wf_foldl_put regReset _ _ x.regs (Sparse.wf_filter regReset _ h.regs_wf)) h.staged_wf

theorem Canonical.moveUnits (h : s.Canonical) (oldBase oldUnits : Nat) : (s.moveUnits oldBase oldUnits).Canonical :=
  h.frame

theorem Canonical.moveTable (h : s.Canonical) (old new : Nat) : (s.moveTable old new).Canonical :=
  ⟨memoryForm_moveTable old new h.1, h.2⟩

theorem Canonical.applyGal (h : s.Canonical) (x : StagedSet) : (s.applyGal x).Canonical :=
  ((h.applySet _ _).moveUnits _ _).seq fun h1 => (Canonical.ite h1 ((h1.moveTable _ _).moveTable _ _).frame).seq fun h3 => .ite
    (h3.setF _ _ _ _) ((h3.setF _ _ _ _).frame.setB _ _ _)

theorem Canonical.endCircuits (h : s.Canonical) (f : Nat) : (s.endCircuits f).Canonical :=
  h.setFib _ _

theorem Canonical.applyFibre (h : s.Canonical) (f : Nat) : (s.applyFibre f).Canonical :=
  (Canonical.foldl (h.endCircuits _) fun _ _ h2 => h2.drainCircuit _ _ _).feedCircuits _

theorem Canonical.abortUnreached (h : s.Canonical) : s.abortUnreached.Canonical := by
  unfold State.abortUnreached
  refine .foldl h fun _ _ h1 => ?_
  split
  · exact h1
  · exact .ite (h1.abortInst _ _) h1

theorem Canonical.applyBlock (h : s.Canonical) (b : Block) (x : StagedSet) : (s.applyBlock b x).Canonical := by
  unfold State.applyBlock
  split
  · exact (h.applySet _ _).installGroups _
  · exact ((h.applySet _ _).placeBanks _).setB _ _ _
  · exact h
  · exact (h.applySet _ _).setB _ _ _
  · exact ((h.applySet _ _).setB _ _ _).routesChanged.abortUnreached
  · exact .foldl (h.applySet _ _) fun _ _ h1 => h1.applyFibre _
  · exact h.applySet _ _

theorem Canonical.commitDone (h : s.Canonical) (b : Block) : (s.commitDone b).Canonical :=
  .ite (((h.setB _ _ _).setF _ _ _ _).raiseVector _) ((h.setB _ _ _).setF _ _ _ _)

theorem Canonical.effectNow (h : s.Canonical) (b : Block) (x : StagedSet) : (s.effectNow b x).Canonical :=
  ((h.setCommit _ _).applyBlock _ _).commitDone _

theorem Canonical.showWaiting (h : s.Canonical) (b : Block) : (s.showWaiting b).Canonical := by
  unfold State.showWaiting
  split
  · exact h.setB _ _ _
  · exact h.setB _ _ _
  · exact h.setB _ _ _
  · exact h

theorem Canonical.accept (h : s.Canonical) (b : Block) (x : StagedSet) : (s.accept b x).Canonical :=
  (((h.setF _ _ _ _).setCommit _ _).setB _ _ _).seq fun h2 => (Canonical.ite (h2.applyGal _) h2).seq fun h3 => .ite (h3.effectNow _
    _) (h3.showWaiting _)

theorem Canonical.checkDone (h : s.Canonical) (b : Block) : (s.checkDone b).Canonical := by
  unfold State.checkDone
  dsimp only
  split
  · exact h
  · exact .ite ((h.setF _ _ _ _).accept _ _) ((h.setCommit _ _).showOutcome _ _ _ _)

theorem Canonical.takesEffect (h : s.Canonical) (b : Block) : (s.takesEffect b).Canonical := by
  unfold State.takesEffect
  dsimp only
  split
  · exact h
  · split
    · exact (h.frame.setB _ _ _).effectNow _ _
    · exact h.effectNow _ _
    · exact .ite (h.effectNow _ _) h

/-! #### The operations of Machine/Reset.lean -/

theorem Canonical.unpowered (h : s.Canonical) : s.unpowered.Canonical :=
  .stores (Sparse.wf_nil _) (Sparse.wf_nil _) h.hostMem_wf h.flash_wf (Sparse.wf_nil _) (Sparse.wf_nil _) (Sparse.wf_nil _)

theorem Canonical.enterReset (h : s.Canonical) : s.enterReset.Canonical :=
  (((Canonical.stores h.gallery_wf h.unpowered.bar4_wf h.unpowered.hostMem_wf h.unpowered.flash_wf h.unpowered.bootMem_wf
    h.unpowered.regs_wf h.unpowered.staged_wf).setF _ _ _ _).setF _ _ _ _).showAlarm

theorem Canonical.noticeEnds (h : s.Canonical) : s.noticeEnds.Canonical := by
  unfold State.noticeEnds
  split
  · exact .ite h.enterReset h
  · exact h

theorem Canonical.powerFail (h : s.Canonical) : s.powerFail.Canonical :=
  .ite h.frame h.frame.enterReset

theorem Canonical.perstLow (h : s.Canonical) : s.perstLow.Canonical :=
  .ite h.frame h.frame.enterReset

theorem Canonical.alwaysOnUp (h : s.Canonical) : s.alwaysOnUp.Canonical :=
  h.unpowered.frame

/-! #### The operations of Machine/Image.lean -/

theorem Canonical.addLicence (h : s.Canonical) (l : List Byte) : (s.addLicence l).Canonical :=
  h.frame.setReg _ _

theorem Canonical.rejectLicence (h : s.Canonical) (l : List Byte) : (s.rejectLicence l).Canonical :=
  (h.bump _).logEvent _

theorem Canonical.takeLicences (h : s.Canonical) (img : List Byte) : (s.takeLicences img).Canonical :=
  .foldl h fun _ _ h1 => .ite (h1.addLicence _) (h1.rejectLicence _)

theorem Canonical.installLicence (h : s.Canonical) (value : Word) : (s.installLicence value).Canonical :=
  (h.writeFields _ _).seq fun h1 => .ite h1 (.ite ((h1.rejectLicence _).setF _ _ _ _) (.ite (h1.setF _ _ _ _) ((h1.addLicence
    _).setF _ _ _ _)))

/-! #### The operations of Machine/Boot.lean -/

theorem Canonical.dropCore (h : s.Canonical) (n : Nat) : (s.dropCore n).Canonical :=
  (Canonical.ite (h.frame.replaceCriterion _) h.frame).seq fun h2 => .foldl (.ite (h2.setF _ _ _ _) h2) fun _ _ h4 => h4.notice _

theorem Canonical.dropQuadSeq (h : s.Canonical) (q : Nat) : (s.dropQuadSeq q).Canonical := by
  unfold State.dropQuadSeq
  dsimp only
  split
  · exact (Canonical.foldl h fun _ _ h1 => h1.setReg _ _).setQuad _ _
  · exact ((Canonical.foldl h fun _ _ h1 => h1.setReg _ _).setQuad _ _).concRingEnd _ _ _

theorem Canonical.dropUnit (h : s.Canonical) (cls n : Nat) (pegs : Bool) : (s.dropUnit cls n pegs).Canonical := by
  unfold State.dropUnit
  split
  · exact h.dropCore _
  · exact .ite (h.failRing _ _ _) h
  · exact h.dropQuadSeq _
  · exact .ite (h.leavePortOut _) h
  · exact h

theorem Canonical.retireCtrl (h : s.Canonical) (cls n rounds : Nat) : (s.retireCtrl cls n rounds).Canonical :=
  .ite h ((((h.frame.recordUnit _ _ _).bump _).logEvent _).dropUnit _ _ _)

theorem Canonical.sendSegment (h : s.Canonical) (cls pass seg : Nat) (target : Option Nat) :
    (s.sendSegment cls pass seg target).Canonical := by
  unfold State.sendSegment
  split
  · exact h
  · exact h.emit _

theorem Canonical.broadcast (h : s.Canonical) (cls : Nat) : (s.broadcast cls).Canonical := by
  unfold State.broadcast
  split
  · exact h
  · exact .foldl h fun _ _ h1 => .foldl h1 fun _ _ h2 => h2.sendSegment _ _ _ _

theorem Canonical.loadClasses (h : s.Canonical) : s.loadClasses.Canonical :=
  .foldl h.frame fun _ _ h2 => h2.broadcast _

theorem Canonical.classLoaded (h : s.Canonical) (cls : Nat) : (s.classLoaded cls).Canonical :=
  .ite (.ite h.frame h.frame) ((Canonical.ite h.frame h.frame).seq fun h3 => .ite (h3.endStep _).progress h3)

theorem Canonical.pollRound (h : s.Canonical) (cls : Nat) (missing : List (Nat × List Nat)) : (s.pollRound cls missing).Canonical :=
  .ite h (.ite (h.classLoaded _) (.ite ((Canonical.foldl h fun _ _ h1 => h1.retireCtrl _ _ _).classLoaded _) (Canonical.foldl (.ite
    (h.bumpBy _ _) h) fun _ _ h3 => .foldl h3 fun _ _ h4 => (h4.sendSegment _ _ _ _).bump _).frame))

theorem Canonical.drawNonce (h : s.Canonical) : s.drawNonce.Canonical :=
  (h.draw.draw.setReg _ _).setReg _ _

theorem Canonical.exitReset (h : s.Canonical) : s.exitReset.Canonical :=
  .ite h (h.drawNonce.draw.frame.setF _ _ _ _)

theorem Canonical.finishFuses (h : s.Canonical) : s.finishFuses.Canonical :=
  h.frame

theorem Canonical.attKeyIfDue (h : s.Canonical) : s.attKeyIfDue.Canonical :=
  .ite h.draw.frame h

theorem Canonical.applyKnown (h : s.Canonical) : s.applyKnown.Canonical :=
  .foldl h fun _ _ h1 => .ite (h1.frame.dropUnit _ _ _) (.ite (h1.setB _ _ _) h1)

theorem Canonical.runImage (h : s.Canonical) (img : List Byte) : (s.runImage img).Canonical :=
  ((h.frame.setReg64 _ _ _).frame.takeLicences _).applyKnown.endStep _

theorem Canonical.bootFlash (h : s.Canonical) : s.bootFlash.Canonical := by
  have h1 := h.attKeyIfDue
  unfold State.bootFlash
  dsimp only
  split
  · exact (h1.setF _ _ _ _).setB _ _ _
  · exact ((Canonical.stores h1.gallery_wf h1.bar4_wf h1.hostMem_wf h1.flash_wf (Sparse.wf_putList zeroByte _ 0 (Sparse.wf_nil _))
      h1.regs_wf h1.staged_wf).setF _ _ _ _).runImage _

theorem Canonical.bootRom (h : s.Canonical) : s.bootRom.Canonical :=
  .ite h (h.exitReset.showPower.showAlarm.seq fun h1 => .ite (h1.setF _ _ _ _) (h1.finishFuses.checkAlarms.seq fun h2 => .ite
    h2.frame h2.bootFlash))

theorem Canonical.releaseReset (h : s.Canonical) : s.releaseReset.Canonical :=
  .ite h.frame.bootRom h.frame

theorem Canonical.recStatus (h : s.Canonical) (v : Nat) : (s.recStatus v).Canonical :=
  h.setF _ _ _ _

theorem Canonical.checkRecovery (h : s.Canonical) : s.checkRecovery.Canonical := by
  unfold State.checkRecovery
  exact .ite (h.recStatus _) (.ite (((h.recStatus _).setF _ _ _ _).runImage _) (h.recStatus _))

theorem Canonical.writeCopy (h : s.Canonical) (ok : Bool) : (s.writeCopy ok).Canonical :=
  .ite (h.recStatus _) (.ite (h.recStatus _) ((h.flashWrite _ _).recStatus _))

theorem Canonical.writeRecCtrl (h : s.Canonical) (value : Word) (flashOk : Bool) : (s.writeRecCtrl value flashOk).Canonical :=
  .ite (h.writeFields _ _) (.ite ((h.writeFields _ _).writeCopy _) (h.writeFields _ _).checkRecovery)

theorem Canonical.updStatus (h : s.Canonical) (v : Nat) : (s.updStatus v).Canonical :=
  h.setF _ _ _ _

theorem Canonical.startUpdate (h : s.Canonical) : s.startUpdate.Canonical := by
  unfold State.startUpdate
  dsimp only
  refine .ite (h.updStatus _) ?_
  split
  · exact (h.noteUncorrectable _ _).updStatus _
  · exact .ite (h.updStatus _) (.ite (h.updStatus _) ((h.frame.setF _ _ _ _).updStatus _).loadClasses)

theorem Canonical.updateGo (h : s.Canonical) (value : Word) : (s.updateGo value).Canonical :=
  .ite (h.writeFields _ _).startUpdate (h.writeFields _ _)

theorem Canonical.updateEnds (h : s.Canonical) : s.updateEnds.Canonical :=
  .ite (h.frame.updStatus _) h

theorem Canonical.switchClass (h : s.Canonical) (cls : Nat) : (s.switchClass cls).Canonical :=
  h.frame.updateEnds

theorem Canonical.switchCore (h : s.Canonical) (n : Nat) : (s.switchCore n).Canonical :=
  .ite (.ite (h.frame.switchClass _) h.frame) h

theorem Canonical.bankSwitch (h : s.Canonical) (cls n : Nat) : (s.bankSwitch cls n).Canonical :=
  .ite h (.ite (h.switchCore _) (h.switchClass _))

theorem Canonical.bankTimeout (h : s.Canonical) : s.bankTimeout.Canonical :=
  .ite ((h.setF _ _ _ _).switchClass _) h

theorem Canonical.svnBurn (h : s.Canonical) (value : Word) : (s.svnBurn value).Canonical :=
  .ite (h.writeFields _ _).frame (h.writeFields _ _)

theorem Canonical.endStep2 (h : s.Canonical) : s.endStep2.Canonical :=
  .ite (h.endStep _).progress h

theorem Canonical.retireUntrained (h : s.Canonical) (c : Nat) : (s.retireUntrained c).Canonical :=
  .ite h (.ite (h.retireChannel _) (((h.setF _ _ _ _).setB _ _ _).setF _ _ _ _))

theorem Canonical.failTraining (h : s.Canonical) (c : Nat) : (s.failTraining c).Canonical :=
  (Canonical.ite (((h.retireUntrained _).bump _).logEvent _) (h.retireUntrained _)).newBad _ _ _

theorem Canonical.trained (h : s.Canonical) (failed : List Nat) : (s.trained failed).Canonical :=
  .ite h (Canonical.foldl (.foldl h fun _ _ h1 => h1.retireUntrained _) fun _ _ h3 => h3.failTraining _).frame.endStep2

theorem Canonical.landingTested (h : s.Canonical) (failed : List Nat) : (s.landingTested failed).Canonical :=
  .ite h (((Canonical.foldl (Canonical.foldl h fun _ _ h1 => h1.newBad _ _ _).frame fun _ _ h4 => h4.lowerPool _).placeBanks
    _).setGood.seq fun h6 => (Canonical.ite h6 (h6.refitPool _ _)).seq fun h7 => (Canonical.ite (h7.setF _ _ _ _)
    h7).frame.endStep2)

theorem Canonical.laneMeasured (h : s.Canonical) (p l : Nat) (pass : Bool) : (s.laneMeasured p l pass).Canonical :=
  .ite h (.ite (h.leavePortOut _) (.ite h.frame ((h.frame.setPortQual _ _).setB _ _ _).routesChanged.progress))

theorem Canonical.waveFailed (h : s.Canonical) (f : Nat) (tx : Bool) (w : Nat) : (s.waveFailed f tx w).Canonical :=
  .ite (h.leaveWaveOut _ _ _) ((h.setWaveQual _ _ _ _).failRing _ _ _)

theorem Canonical.waveMeasured (h : s.Canonical) (f : Nat) (tx : Bool) (w : Nat) (pass : Bool) :
    (s.waveMeasured f tx w pass).Canonical :=
  .ite h (.ite ((h.setWaveQual _ _ _ _).setB _ _ _).progress (h.waveFailed _ _ _))

theorem Canonical.readmitTimeout (h : s.Canonical) (f w : Nat) : (s.readmitTimeout f w).Canonical :=
  .ite (h.leaveWaveOut _ _ _) h

theorem Canonical.endStep4 (h : s.Canonical) : s.endStep4.Canonical :=
  .ite (h.endStep _).progress h

theorem Canonical.vectorTested (h : s.Canonical) (c : Nat) (pass : Bool) : (s.vectorTested c pass).Canonical :=
  .ite h (Canonical.ite h.frame (h.frame.noteNewBad _ _)).endStep4

theorem Canonical.knownLane (h : s.Canonical) (f64 : Bool) (lane : Nat) : (s.knownLane f64 lane).Canonical :=
  .ite h.frame (.ite (h.frame.setB _ _ _) (h.frame.setB _ _ _))

theorem Canonical.knownRue (h : s.Canonical) (n : Nat) : (s.knownRue n).Canonical :=
  .foldl h fun _ _ h1 => .ite (h1.knownLane _ _) (.ite (h1.knownLane _ _) (.ite (h1.setB _ _ _) h1))

theorem Canonical.newBadLane (h : s.Canonical) (u : Bool × Nat) : (s.newBadLane u).Canonical :=
  .ite h ((h.retireLane _).noteNewBad _ _)

theorem Canonical.rueTested (h : s.Canonical) (n : Nat) (failed : List (Bool × Nat)) : (s.rueTested n failed).Canonical :=
  .ite h (Canonical.foldl (h.knownRue _) fun _ _ h1 => h1.newBadLane _).frame.endStep4

/-! #### The operations of Machine/Life.lean -/

theorem Canonical.lcStatus (h : s.Canonical) (v : Nat) : (s.lcStatus v).Canonical :=
  h.setF _ _ _ _

theorem Canonical.transition (h : s.Canonical) (target : Nat) : (s.transition target).Canonical := by
  unfold State.transition
  extract_lets t _ u
  have hu : u.Canonical := ((h.pulseAlarm _).eraseKeys.enterSafe _).frame
  exact .ite hu.frame hu.enterReset

theorem Canonical.writeLcCtrl (h : s.Canonical) (value : Word) : (s.writeLcCtrl value).Canonical :=
  .ite (h.writeFields _ _) (.ite ((h.writeFields _ _).lcStatus _) (.ite ((h.writeFields _ _).lcStatus _) (.ite ((h.writeFields _
    _).lcStatus _) (((h.writeFields _ _).lcStatus _).transition _))))

theorem Canonical.returnErased (h : s.Canonical) : s.returnErased.Canonical :=
  .ite h ((Canonical.stores (Sparse.wf_nil _) h.bar4_wf h.hostMem_wf (Sparse.wf_eraseRange _ _ h.flash_wf) h.bootMem_wf h.regs_wf
    h.staged_wf).seq fun h1 => .ite h1.bootFlash h1.enterReset)

theorem Canonical.dbgResult (h : s.Canonical) (v : Nat) : (s.dbgResult v).Canonical :=
  h.setF _ _ _ _

theorem Canonical.eraseCmp (h : s.Canonical) : s.eraseCmp.Canonical :=
  ((Canonical.stores h.gallery_wf h.bar4_wf h.hostMem_wf h.flash_wf h.bootMem_wf (Sparse.wf_filter regReset _ h.regs_wf)
    (Sparse.wf_filter regReset _ h.staged_wf)).setB _ _ _).setSreg _ _

theorem Canonical.dropTrace (h : s.Canonical) : s.dropTrace.Canonical :=
  h.frame

theorem Canonical.endLevel (h : s.Canonical) : s.endLevel.Canonical :=
  .ite h ((h.setF _ _ _ _).frame.seq fun h2 => .ite (h2.enterSafe _) h2.dropTrace.checkAlarms)

theorem Canonical.takeLevel (h : s.Canonical) (level notAfter monoLimit : Nat) : (s.takeLevel level notAfter monoLimit).Canonical :=
  (((h.pulseAlarm _).eraseKeys.eraseCmp.setF _ _ _ _).setB _ _ _).seq fun h2 => (Canonical.ite h2.frame.dropTrace h2.frame).seq fun
    h4 => .ite (h4.enterSafe _) h4.checkAlarms

theorem Canonical.presentToken (h : s.Canonical) : s.presentToken.Canonical := by
  unfold State.presentToken
  exact .ite ((h.dbgResult _).drawNonce.takeLevel _ _ _) (h.dbgResult _).drawNonce

theorem Canonical.writeDbgCtrl (h : s.Canonical) (value : Word) : (s.writeDbgCtrl value).Canonical :=
  (Canonical.ite (h.writeFields _ _).presentToken (h.writeFields _ _)).seq fun h2 => (Canonical.ite h2.endLevel h2).seq fun h3 =>
    .ite (h3.takeLevel _ _ _) h3

theorem Canonical.debugExpire (h : s.Canonical) : s.debugExpire.Canonical :=
  .ite h.endLevel h

theorem Canonical.doeAnswer (h : s.Canonical) (bytes : List Byte) : (s.doeAnswer bytes).Canonical :=
  h.frame.emit _

theorem Canonical.attBlock (h : s.Canonical) : s.attBlock.Canonical :=
  .ite h (h.frame.setF _ _ _ _)

theorem Canonical.attestWith (h : s.Canonical) (nonce : List Byte) : (s.attestWith nonce).Canonical :=
  .ite (h.doeAnswer _) (.ite (h.doeAnswer _) ((h.attBlock.setF _ _ _ _).frame.doeAnswer _))

theorem Canonical.attRequest (h : s.Canonical) (request : List Byte) : (s.attRequest request).Canonical :=
  .ite h (.ite (h.doeAnswer _) (.ite (h.doeAnswer _) (.ite (h.attestWith _) (h.doeAnswer _))))

theorem Canonical.attRefill (h : s.Canonical) : s.attRefill.Canonical :=
  .ite h (h.setF _ _ _ _).frame

theorem Canonical.doeDiscover (h : s.Canonical) (request : List Byte) : (s.doeDiscover request).Canonical := by
  unfold State.doeDiscover
  refine .ite h ?_
  split
  · exact h.doeAnswer _
  · exact h.doeAnswer _
  · exact h.doeAnswer _

/-! #### The operations of Machine/HostOps.lean -/

theorem Canonical.muteQueue (h : s.Canonical) (q : Nat) : (s.muteQueue q).Canonical :=
  (h.setB _ _ _).setQueue _ _

theorem Canonical.resetVectors (h : s.Canonical) : s.resetVectors.Canonical :=
  .stores h.gallery_wf h.bar4_wf h.hostMem_wf h.flash_wf h.bootMem_wf (Sparse.wf_filter regReset _ h.regs_wf) h.staged_wf

theorem Canonical.hostReset (h : s.Canonical) : s.hostReset.Canonical :=
  .ite h (((Canonical.foldl h fun _ _ h1 => h1.muteQueue _).resetVectors.setReg _ _).seq fun h1 =>
    .stores h1.gallery_wf (Sparse.wf_nil _) h1.hostMem_wf h1.flash_wf h1.bootMem_wf h1.regs_wf h1.staged_wf)

theorem Canonical.busMasterOn (h : s.Canonical) : s.busMasterOn.Canonical :=
  h.frame.flushVectors

theorem Canonical.unmaskVector (h : s.Canonical) (v : Nat) : (s.unmaskVector v).Canonical :=
  .ite ((h.setB _ _ _).sendVector _) (h.setB _ _ _)

theorem Canonical.heartbeatLost (h : s.Canonical) (c : Nat) : (s.heartbeatLost c).Canonical := by
  unfold State.heartbeatLost
  dsimp only
  exact .ite h (.ite ((h.stopStarted _).frame.retireCtrl _ _ _) (h.stopStarted _).frame)

theorem Canonical.coreRestarted (h : s.Canonical) (c : Nat) : (s.coreRestarted c).Canonical :=
  .ite (.foldl h.frame fun _ _ h2 => .ite (h2.notice _) h2) h

theorem Canonical.clearSuspect (h : s.Canonical) : s.clearSuspect.Canonical :=
  (((h.setF _ _ _ _).setF _ _ _ _).setReg _ _).frame

theorem Canonical.writeErrCtrl (h : s.Canonical) (value : Word) : (s.writeErrCtrl value).Canonical :=
  .ite (h.writeFields _ _).clearSuspect (h.writeFields _ _)

theorem Canonical.meshCheck (h : s.Canonical) (fault : Bool) : (s.meshCheck fault).Canonical :=
  .ite h (h.frame.setB _ _ _).checkAlarms

/-! #### The operations of Machine/Read.lean -/

theorem Canonical.readReg (h : s.Canonical) (addr : Nat) : (s.readReg addr).Canonical :=
  h.frame.emit _

/-! #### The operations of Machine/Write.lean -/

theorem Canonical.writeFadeThr (h : s.Canonical) (q : Nat) (value : Word) : (s.writeFadeThr q value).Canonical :=
  .ite (h.writeFields _ _) (h.accessError _ _)

theorem Canonical.writeQBase (h : s.Canonical) (q a : Nat) (value : Word) : (s.writeQBase q a value).Canonical :=
  .ite (h.accessError _ _) (h.writeFields _ _)

theorem Canonical.writeRefillReg (h : s.Canonical) (n a : Nat) (value : Word) : (s.writeRefillReg n a value).Canonical :=
  .ite h (h.writeFields _ _)

theorem Canonical.writeLaserCmd (h : s.Canonical) (q : Nat) (value : Word) : (s.writeLaserCmd q value).Canonical :=
  ((h.cmdSwitch _ _).cmdReturn _ _).cmdRelease _ _

theorem Canonical.writeVctrl (h : s.Canonical) (v : Nat) (value : Word) : (s.writeVctrl v value).Canonical :=
  .ite (h.writeFields _ _) ((h.writeFields _ _).unmaskVector _)

theorem Canonical.writeVecMask (h : s.Canonical) (value : Word) : (s.writeVecMask value).Canonical :=
  .ite ((h.writeFields _ _).raiseVector _) (h.writeFields _ _)

theorem Canonical.writeAccessInfo (h : s.Canonical) (value : Word) : (s.writeAccessInfo value).Canonical :=
  .ite (h.setReg _ _) h

theorem Canonical.writeLinkCtrl (h : s.Canonical) (f : Nat) (value : Word) : (s.writeLinkCtrl f value).Canonical :=
  .ite ((h.writeFields _ _).linkDown _) (h.writeFields _ _)

theorem Canonical.writeModCtrl (h : s.Canonical) (p : Nat) (value : Word) : (s.writeModCtrl p value).Canonical :=
  (h.writeFields _ _).driveLp _

theorem Canonical.writeCmis (h : s.Canonical) (p : Nat) (value : Word) : (s.writeCmis p value).Canonical :=
  h.draw.cmis _ _ _

theorem Canonical.writeMapCtrl (h : s.Canonical) (n : Nat) (value : Word) : (s.writeMapCtrl n value).Canonical :=
  .ite (h.releaseMap _) h

theorem Canonical.writeRecWin (h : s.Canonical) (i : Nat) (value : Word) : (s.writeRecWin i value).Canonical :=
  h.bootWrite _ _

theorem Canonical.writeRec (h : s.Canonical) (value : Word) : (s.writeRec value).Canonical :=
  h.draw.writeRecCtrl _ _

theorem Canonical.writeCommit (h : s.Canonical) (b : Block) (value : Word) : (s.writeCommit b value).Canonical :=
  .ite (h.commitGo _) h

theorem Canonical.wakeWrite (h : s.Canonical) (a : Nat) : (s.wakeWrite a).Canonical :=
  .ite h.wakeEvent h

theorem Canonical.writeTop (h : s.Canonical) (a i : Nat) (value : Word) : (s.writeTop a i value).Canonical :=
  .ite (h.writeLcCtrl _) (.ite (h.writeDbgCtrl _) (.ite (h.writeVctrl _ _) (h.writeFields _ _)))

theorem Canonical.writePwr (h : s.Canonical) (a i : Nat) (value : Word) : (s.writePwr a i value).Canonical :=
  .ite (h.safeWrite _) (.ite (h.phaseClear _ _) (h.writeFields _ _))

theorem Canonical.writeSec (h : s.Canonical) (a : Nat) (value : Word) : (s.writeSec a value).Canonical :=
  .ite (h.writeSaCmd _) (.ite (h.clearLatch _) (.ite (h.writeErase _) (h.writeFields _ _)))

theorem Canonical.writeLine (h : s.Canonical) (a p : Nat) (value : Word) : (s.writeLine a p value).Canonical :=
  .ite (h.writeLineCtrl _ _) (.ite (h.writeModCtrl _ _) (.ite (h.writeCmis _ _) ((h.writeFields _ _).refreshIds _)))

theorem Canonical.writeGal (h : s.Canonical) (a i : Nat) (value : Word) : (s.writeGal a i value).Canonical :=
  .ite (h.writeCommit _ _) (.ite (h.writeRefillCtrl _ _) (.ite (h.wakeEvent.writeRefillReg _ _ _) (h.writeFields _ _)))

theorem Canonical.writeCle (h : s.Canonical) (a i : Nat) (value : Word) : (s.writeCle a i value).Canonical :=
  .ite (h.writeCommit _ _) (.ite (h.writeAbortCtrl _) (.ite (h.writeMapCtrl _ _) (h.writeFields _ _)))

theorem Canonical.writeOpt (h : s.Canonical) (a q k : Nat) (value : Word) : (s.writeOpt a q k value).Canonical :=
  .ite (h.fibreEnable _ _) (.ite (h.writeFadeThr _ _) (.ite (h.writeLaserCmd _ _) (.ite (h.monGo _ _) (.ite (h.concArm _ _ _) (.ite
    (h.writeCommit _ _) (h.writeFields _ _))))))

theorem Canonical.writeDfl (h : s.Canonical) (a i j : Nat) (value : Word) : (s.writeDfl a i j value).Canonical :=
  .ite (h.writeCommit _ _) (.ite (h.writeLinkCtrl _ _) (.ite (h.writeHostPtr _ _ _) (h.writeFields _ _)))

theorem Canonical.writeQue (h : s.Canonical) (a i : Nat) (value : Word) : (s.writeQue a i value).Canonical :=
  .ite (h.writeQCtrl _ _) (.ite (h.writeQBase _ _ _) (h.writeFields _ _))

theorem Canonical.writeErr (h : s.Canonical) (a : Nat) (value : Word) : (s.writeErr a value).Canonical :=
  .ite (h.writeErrCtrl _) (.ite (h.writeAccessInfo _) (.ite (h.writeVecMask _) (h.writeFields _ _)))

theorem Canonical.writeBoot (h : s.Canonical) (a i : Nat) (value : Word) : (s.writeBoot a i value).Canonical :=
  .ite (h.svnBurn _) (.ite (h.installLicence _) (.ite (h.updateGo _) (.ite (h.writeRec _) (.ite (h.writeRecWin _ _) (h.writeFields
    _ _)))))

theorem Canonical.writeWord (h : s.Canonical) (a : Nat) (value : Word) : (s.writeWord a value).Canonical := by
  unfold State.writeWord
  dsimp only
  split
  · exact h.accessError _ _
  · split
    · exact (h.wakeWrite _).writeTop _ _ _
    · exact (h.wakeWrite _).writePwr _ _ _
    · exact .ite ((h.wakeWrite _).writeTimeCtrl _) ((h.wakeWrite _).writeFields _ _)
    · exact (h.wakeWrite _).writeSec _ _
    · exact (h.wakeWrite _).writeLine _ _ _
    · exact (h.wakeWrite _).writeLine _ _ _
    · exact .ite ((h.wakeWrite _).writeCommit _ _) (.ite ((h.wakeWrite _).startDown _) ((h.wakeWrite _).writeFields _ _))
    · exact .ite ((h.wakeWrite _).writeCommit _ _) ((h.wakeWrite _).writeFields _ _)
    · exact (h.wakeWrite _).writeGal _ _ _
    · exact .ite ((h.wakeWrite _).writeShadowCtrl _) ((h.wakeWrite _).writeFields _ _)
    · exact (h.wakeWrite _).writeCle _ _ _
    · exact .ite ((h.wakeWrite _).writeCommit _ _) ((h.wakeWrite _).writeFields _ _)
    · exact (h.wakeWrite _).writeOpt _ _ _ _
    · exact (h.wakeWrite _).writeDfl _ _ _ _
    · exact (h.wakeWrite _).writeQue _ _ _
    · exact (h.wakeWrite _).writeErr _ _
    · exact (h.wakeWrite _).writeBoot _ _ _
    · exact (h.wakeWrite _).writeFields _ _

theorem Canonical.hostWord (h : s.Canonical) (addr size : Nat) (value : Word) (poisoned : Bool) :
    (s.hostWord addr size value poisoned).Canonical :=
  .ite (h.accessError _ _) (.ite (h.accessError _ _) (h.writeWord _ _))

/-! #### The operations of Machine/BringUp.lean -/

theorem Canonical.configFault (h : s.Canonical) (k : Nat) : (s.configFault k).Canonical :=
  ((h.setB _ _ _).bump _).logEvent _

theorem Canonical.configCommit (h : s.Canonical) (b : Block) (k : Nat) : (s.configCommit b k).Canonical :=
  ((h.submit _).checkDone _).seq fun h1 => .ite (h1.configFault _) h1

theorem Canonical.applyEntry (h : s.Canonical) (k : Nat) (e : List Byte) : (s.applyEntry k e).Canonical := by
  unfold State.applyEntry
  dsimp only
  split
  · exact .ite ((h.hostWord _ _ _ _).configFault _) (h.hostWord _ _ _ _)
  · split
    · exact h.configCommit _ _
    · exact h.configFault _
  · exact h.configFault _

theorem Canonical.applyConfig (h : s.Canonical) (step : Nat) : (s.applyConfig step).Canonical :=
  .foldl h fun _ _ h1 => .ite (h1.applyEntry _ _) h1

theorem Canonical.bootTables (h : s.Canonical) (e : List Byte) : (s.bootTables e).Canonical :=
  (((Canonical.foldl h fun _ _ h1 => h1.writeFields _ _).setSreg _ _).setSreg _ _).seq fun h3 => .ite ((h3.setF _ _ _ _).accept _
    _) ((h3.showOutcome _ _ _ _).configFault _)

theorem Canonical.stepWork (h : s.Canonical) (n : Nat) : (s.stepWork n).Canonical := by
  unfold State.stepWork
  dsimp only
  split
  · exact h.loadClasses
  · exact (Canonical.foldl (Canonical.foldl h fun _ _ h1 => h1.bootTables _).frame fun _ _ h4 => h4.sweepFibre _).progress
  · exact h.frame
  · exact h

theorem Canonical.beginStep (h : s.Canonical) (n : Nat) : (s.beginStep n).Canonical :=
  .ite h.bootRom (.ite (((h.setF _ _ _ _).applyConfig _).stepWork _) h)

/-! #### The operations of Machine/Queues.lean -/

theorem Canonical.queueWrites (h : s.Canonical) (q : Nat) (ws : List (Nat × List Byte)) : (s.queueWrites q ws).Canonical :=
  .foldl h fun _ _ h1 => .ite (h1.qWrite _ _ _) h1

theorem Canonical.writeTail (h : s.Canonical) (q : Nat) (tail : Word) (before : List (Nat × List Byte)) :
    (s.writeTail q tail before).Canonical :=
  ((h.queueWrites _ _).qWrite _ _ _).wakeEvent.notice _

theorem Canonical.writeHead (h : s.Canonical) (q : Nat) (head : Word) : (s.writeHead q head).Canonical :=
  .ite ((h.qWrite _ _ _).wakeEvent.notice _) (h.qWrite _ _ _)

theorem Canonical.fetchEntry (h : s.Canonical) (q : Nat) : (s.fetchEntry q).Canonical := by
  unfold State.fetchEntry
  dsimp only
  split
  · exact h.qMemoryError _ _ _
  · exact ((h.advanceFetch _).setQueue _ _).setQueue _ _

theorem Canonical.bar4Failed (h : s.Canonical) (a : Nat) : (s.bar4Failed a).Canonical :=
  .foldl h fun _ _ h1 => .ite (h1.qHalt _ _) h1

theorem Canonical.fetchNext (h : s.Canonical) (q : Nat) (bad : Option (Fin 8)) : (s.fetchNext q bad).Canonical := by
  unfold State.fetchNext
  refine .ite ?_ h
  split
  · exact h.bar4Failed _
  · exact h.fetchEntry _

end

section
variable {s : State}

/-- What a command answers has the form of the state that it is made from. -/
theorem Canonical.of_next {t u : State} (h : t.Canonical) (e : (Host.Outcome.next t : Host.Outcome State Fault Refusal) = .next u) :
    u.Canonical :=
  Host.Outcome.next.inj e ▸ h

/-- Every command keeps the canonical form. -/
theorem Canonical.exec (h : s.Canonical) {t : State} (c : Instr) (e : exec c s = .next t) : t.Canonical := by
  cases c with
  | registerWrite => exact (h.onAccess _ _ fun _ h1 => h1.hostWord _ _ _ _).of_next e
  | latchingRegisterRead => exact (h.onAccess _ _ fun _ h1 => h1.readReg _).of_next e
  | commitGo => exact (h.commitGo _).of_next e
  | commitCheckDone => exact (h.checkDone _).of_next e
  | commitTakesEffect => exact (h.takesEffect _).of_next e
  | queueEnable => exact (h.onAccess _ _ fun _ h1 => h1.writeQCtrl _ _).of_next e
  | queueDisable => exact (h.onAccess _ _ fun _ h1 => h1.writeQCtrl _ _).of_next e
  | queueCancel => exact (h.onAccess _ _ fun _ h1 => h1.writeQCtrl _ _).of_next e
  | sqTailWrite => exact (h.writeTail _ _ _).of_next e
  | cqHeadWrite => exact (h.writeHead _ _).of_next e
  | descriptorFetch => exact (h.fetchNext _ _).of_next e
  | tokenCountWrite => exact (h.onAccess _ _ fun _ h1 => (h1.setReg _ _).wakeEvent).of_next e
  | allreduce => exact (h.startRow _ _ _ fun _ => h.startCle _ _).of_next e
  | reduceScatter => exact (h.startRow _ _ _ fun _ => h.startCle _ _).of_next e
  | allgather => exact (h.startRow _ _ _ fun _ => h.startCle _ _).of_next e
  | broadcast => exact (h.startRow _ _ _ fun _ => h.startCle _ _).of_next e
  | reduce => exact (h.startRow _ _ _ fun _ => h.startCle _ _).of_next e
  | step => exact (h.startRow _ _ _ fun _ => h.startCle _ _).of_next e
  | norm => exact (h.startRow _ _ _ fun _ => h.startCle _ _).of_next e
  | send => exact (h.startRow _ _ _ fun _ => h.startCle _ _).of_next e
  | recv => exact (h.startRow _ _ _ fun _ => h.startCle _ _).of_next e
  | barrier => exact (h.startRow _ _ _ fun _ => h.startCle _ _).of_next e
  | vstep => exact (h.startRow _ _ _ fun _ => h.startVstep _ _).of_next e
  | vstepChunkDone => exact (h.vstepChunk _ _ _ _ _).of_next e
  | copy => exact (h.startRow _ _ _ fun _ => h.startXfe _ _ _).of_next e
  | fill => exact (h.startRow _ _ _ fun _ => h.startXfe _ _ _).of_next e
  | xfeTransferDone => exact (h.transferDone _ _ _).of_next e
  | chunkReceive => exact (h.takeSource _).of_next e
  | chunkArithmeticDone => exact (h.chunkDone _ _ _ _ _).of_next e
  | shadowCompareDone => exact (h.compareDone _ _).of_next e
  | chunkRecomputeDone => exact (h.recomputeDone _ _).of_next e
  | laneRetire => exact h.retireNext.of_next e
  | rueShadowCtrlWrite => exact (h.onAccess _ _ fun _ h1 => h1.writeShadowCtrl _).of_next e
  | openReceive => exact (h.withMsg _ _ _ fun _ h1 => h1.takeOpen _).of_next e
  | resendReceive => exact (h.withMsg _ _ _ fun _ h1 => h1.takeResend _ _).of_next e
  | notRetainedReceive => exact (h.withMsg _ _ _ fun _ h1 => h1.takeNotRetained _).of_next e
  | abortReceive => exact (h.withMsg _ _ _ fun _ h1 => h1.takeAbort _).of_next e
  | arriveReceive => exact (h.withMsg _ _ _ fun _ h1 => h1.takeArrive _ _).of_next e
  | normSumReceive => exact (h.withMsg _ _ _ fun _ h1 => h1.takeNormSum _).of_next e
  | creditReceive => exact ((h.takePacket _).wakeEvent.takeCredit _ _).of_next e
  | creditRefresh => exact (h.refreshCredit _).of_next e
  | resendTimeout => exact (h.resendTimeout _ _ _).of_next e
  | progressTimeout =>
    refine .of_next ?_ e
    split
    · exact .ite (h.abortInst _ _) h
    · exact h
  | routeLossHoldExpire =>
    refine .of_next ?_ e
    split
    · exact .ite (h.abortInst _ _) h
    · exact h
  | keyLossHoldExpire =>
    refine .of_next ?_ e
    split
    · exact .ite (h.failInst _ _ _ _) h
    · exact h
  | cleAbortGo => exact (h.onAccess _ _ fun _ h1 => h1.writeAbortCtrl _).of_next e
  | mapRelease => exact (h.onAccess _ _ fun _ h1 => h1.releaseMap _).of_next e
  | keepExpire => exact h.frame.of_next e
  | retentionExpire => exact h.expireRetention.of_next e
  | retentionRoomFreed => exact (Canonical.foldl h fun _ _ h1 => h1.unblock _).of_next e
  | allocRetry => exact h.retryAlloc.of_next e
  | scrubPatrolRead => exact (h.patrolRead _ _ _ _).of_next e
  | rowRepairDone => exact h.rowRepaired.of_next e
  | channelRetireDone => exact (h.channelRetired _).of_next e
  | refillStart => exact (h.onAccess _ _ fun _ h1 => h1.writeRefillCtrl _ _).of_next e
  | refillStop => exact (h.onAccess _ _ fun _ h1 => h1.writeRefillCtrl _ _).of_next e
  | refillRequestReceive => exact (h.withRefill _ _ _ fun _ h1 => h1.refillRequested _ _).of_next e
  | refillUnitReceive => exact (h.withRefill _ _ _ fun _ h1 => h1.refillUnitCame _ _).of_next e
  | refillAckReceive => exact (h.withRefill _ _ _ fun _ h1 => h1.refillAcked _ _).of_next e
  | refillEndReceive => exact (h.withRefill _ _ _ fun _ h1 => h1.refillEnded _ _).of_next e
  | refillRequestTimer => exact (h.refillAsks _).of_next e
  | refillAckTimer => exact (h.refillAcks _).of_next e
  | refillPeerLost =>
    refine .of_next ?_ e
    split
    · exact .ite (h.refillPeerGone _) h
    · exact h
  | refillKeyTimeout =>
    refine .of_next ?_ e
    split
    · exact .ite (h.endRefill _ _ _ _) h
    · exact h
  | bar2Read => exact (h.bar2Read _ _).of_next e
  | bar2Write => exact (h.bar2Write _ _ _).of_next e
  | bar2BaseWrite => exact (h.onAccess _ _ fun _ h1 => h1.writeFields _ _).of_next e
  | spanFrameReceive => exact (h.rxFrame _ _ _).of_next e
  | spanFrameTransmit => exact (h.txFrame _).of_next e
  | lineSignalLoss => exact ((h.setPort _ _).refreshLos _).of_next e
  | lineSignalRestore => exact ((h.setPort _ _).refreshLos _).of_next e
  | dlofDeclareTimer => exact (h.lofTimer _ _).of_next e
  | dlofClearTimer => exact (h.lofTimer _ _).of_next e
  | modrefLoss => exact (h.refChange _ _).of_next e
  | modrefReturn => exact (h.refChange _ _).of_next e
  | linePmLatch => exact (h.latchPm _).of_next e
  | lineCpmAdd => exact (h.addCpm _).of_next e
  | moduleInsert => exact (h.insertModule _).of_next e
  | moduleRemove => exact (h.removeModule _).of_next e
  | moduleInterrupt => exact (h.readModule _ _).of_next e
  | modulePoll => exact (h.readModule _ _).of_next e
  | moduleReady => exact (h.moduleReady _ _).of_next e
  | moduleDatapathActivated => exact (h.dataPathUp _).of_next e
  | moduleResetPulseEnd => exact (Canonical.ite (h.endPulse _) h).of_next e
  | lineEnable => exact (h.onAccess _ _ fun _ h1 => h1.writeLineCtrl _ _).of_next e
  | lineDisable => exact (h.onAccess _ _ fun _ h1 => h1.writeLineCtrl _ _).of_next e
  | cmisGo => exact (h.onAccess _ _ fun _ h1 => h1.cmis _ _ _).of_next e
  | cellReceive => exact (h.receiveCell _ _ _).of_next e
  | nakReceive => exact (h.withRoute _ _ _ _ fun _ h1 => (h1.bump _).stageNak _ _).of_next e
  | goneReceive => exact (h.withRoute _ _ _ _ fun _ h1 => .foldl h1 fun _ _ h2 => h2.loseStripe _ _ _).of_next e
  | reportReceive => exact (h.withRoute _ _ _ _ fun _ h1 => h1.takeReport _ _).of_next e
  | goingDownReceive => exact (h.withRoute _ _ _ _ fun _ h1 => .ite (h1.markPort _) (h1.peerGoesDown _)).of_next e
  | stripeDeadline =>
    refine .of_next ?_ e
    split
    · exact .ite (h.sendNak _ _ _) h
    · exact h
  | nakRepeatTimer =>
    refine .of_next ?_ e
    split
    · split
      · exact .ite h (.ite (h.loseStripe _ _ _) (h.sendNak _ _ _))
      · exact h
    · exact h
  | stripeFillTimeout => exact (h.fillOut _ _).of_next e
  | stripeQueueRoom => exact (h.queueRoom _ _).of_next e
  | reportTimer => exact h.sendReports.of_next e
  | delayIntervalEnd => exact h.endIntervals.of_next e
  | drefExpire => exact (h.expireDref _ _).of_next e
  | orderlyResetGo => exact (h.onAccess _ _ fun _ h1 => h1.startDown _).of_next e
  | goingDownNoticeExpire => exact h.noticeEnds.of_next e
  | portMarkClear => exact (h.clearMark _).of_next e
  | portCellSelect => exact (h.selectCell _ _).of_next e
  | schedDepthSample => exact h.sampleDepth.of_next e
  | schedPmLatch => exact h.latchSched.of_next e
  | saLoad => exact (h.onAccess _ _ fun _ h1 => h1.writeSaCmd _).of_next e
  | saSchedule => exact (h.onAccess _ _ fun _ h1 => h1.writeSaCmd _).of_next e
  | saClear => exact (h.onAccess _ _ fun _ h1 => h1.writeSaCmd _).of_next e
  | epochSwitch => exact (h.switchIfDue _).of_next e
  | rxHolddownExpire => exact (h.holdDownEnd _).of_next e
  | alarmAssert => exact (h.setF _ _ _ _).checkAlarms.of_next e
  | keyEraseComplete => exact (h.eraseVerified _).of_next e
  | eraseGo => exact (h.onAccess _ _ fun _ h1 => h1.writeErase _).of_next e
  | alarmLatchClear => exact (h.onAccess _ _ fun _ h1 => h1.clearLatch _).of_next e
  | pegUpdate => exact (h.pegUpdate _ _ _ _).of_next e
  | pegFineTrim => exact (h.fineTrim _ _ _).of_next e
  | pegSweepStep => exact (h.sweepStep _ _ _).of_next e
  | localRelockDone => exact (h.relockDone _ _ _).of_next e
  | spareRingJumpDone => exact (h.jumpDone _ _ _).of_next e
  | heaterReasonClear => exact (h.heaterClear _).of_next e
  | laserLightLoss => exact (h.setQuad _ _).of_next e
  | laserLightReturn => exact (h.setQuad _ _).of_next e
  | heaterGrant => exact (h.grantHeat _).of_next e
  | fadeMeasure => exact (h.measureFade _ _).of_next e
  | spareSourceReady => exact (h.sourceReady _).of_next e
  | laserSwitch => exact (h.moveSelector _).of_next e
  | laserSwitchRelockDone => exact (h.switchRelocked _).of_next e
  | laserSwitchStable => exact (h.switchStable _).of_next e
  | laserReferenceCapture => exact (h.captureReference _ _).of_next e
  | laserSwitchCmd => exact (h.onAccess _ _ fun _ h1 => h1.cmdSwitch _ _).of_next e
  | laserReturnCmd => exact (h.onAccess _ _ fun _ h1 => h1.cmdReturn _ _).of_next e
  | laserReleaseCmd => exact (h.onAccess _ _ fun _ h1 => h1.cmdRelease _ _).of_next e
  | returnPrimaryTimeout => exact (h.returnTimeout _).of_next e
  | monitorGo => exact (h.onAccess _ _ fun _ h1 => h1.monGo _ _).of_next e
  | monitorReadingDone => exact (h.monDone _ _).of_next e
  | optFibreEnable => exact (h.onAccess _ _ fun _ h1 => h1.fibreEnable _ _).of_next e
  | lcbStatusPoll => exact (h.pollSource _ _).of_next e
  | dflMarkerReceive => exact (h.takeMarker _ _ _).of_next e
  | dflMarkerSend => exact (h.sendMarkers _).of_next e
  | flitReceive => exact (h.takeSlot _ _ _).of_next e
  | flitSend => exact (h.sendFlit _).of_next e
  | replayTimeout => exact (h.replayTimeout _).of_next e
  | laneErrorWindow => exact (h.laneWindow _ _).of_next e
  | laneReadmit => exact (h.readmitLane _ _).of_next e
  | linkHoldExpire => exact (h.linkHold _).of_next e
  | linkTrainingDone => exact (h.linkUpNow _).of_next e
  | circuitHostPtrWrite => exact (h.onAccess _ _ fun _ h1 => h1.writeHostPtr _ _ _).of_next e
  | slotEntryBoundary => exact (h.setFib _ _).of_next e
  | dflPmLatch => exact h.latchFabric.of_next e
  | concSchedArm => exact (h.onAccess _ _ fun _ h1 => h1.concArm _ _ _).of_next e
  | concourseSwitchStart => exact (h.concStart _ _).of_next e
  | concourseRingSettled => exact (h.concSettled _ _).of_next e
  | concourseRingTimeout => exact (h.concTimeout _ _).of_next e
  | syncSend => exact h.sendSyncs.of_next e
  | syncReceive => exact (h.withTiming _ _ _ _ fun _ h1 => h1.bump _).of_next e
  | probeTimer => exact (Canonical.foldl h fun _ _ h1 => h1.sendProbe _).of_next e
  | probeReceive => exact (h.withTiming _ _ _ _ fun _ h1 => h1.answerProbe _ _ _).of_next e
  | echoReceive =>
    refine .of_next (h.withTiming _ _ _ _ fun _ h1 => ?_) e
    split
    · exact h1.takeEcho _ _ _
    · exact h1
  | ppsEdge => exact h.ppsEdge.of_next e
  | todMessageReceive => exact (h.takeTod _).of_next e
  | holdoverTimeout => exact h.enterHoldover.of_next e
  | timeSet => exact (h.onAccess _ _ fun _ h1 => h1.writeTimeCtrl _).of_next e
  | ref10mChange => exact h.frame.of_next e
  | powerControlTick => exact (h.powerTick _).of_next e
  | pmbusRead => exact (h.pmbusRead _).of_next e
  | pmbusStaleTimeout => exact h.pmbusStale.of_next e
  | oppStepDown => exact h.oppDown.of_next e
  | oppStepUp => exact h.oppUp.of_next e
  | oppTransitionDone => exact h.oppSettled.of_next e
  | capUnmetDetect => exact h.capUnmet.of_next e
  | droopDetect => exact (h.setDroop _).of_next e
  | droopRestore => exact (h.setDroop _).of_next e
  | ilimAssert => exact (h.setIlim _).of_next e
  | ilimRelease => exact (h.setIlim _).of_next e
  | pwrbrkAssert => exact (h.setBrake _).of_next e
  | pwrbrkRelease => exact (h.setBrake _).of_next e
  | thermalStep => exact h.thermalStep.of_next e
  | overtempSafe => exact h.overtemp.of_next e
  | idleEntry => exact h.idleEntry.of_next e
  | computeWake => exact h.computeWake.of_next e
  | staggerGroupStart => exact h.staggerStart.of_next e
  | prestartWake => exact (h.prestart _).of_next e
  | phaseClear => exact (h.onAccess _ _ fun _ h1 => h1.phaseClear _ _).of_next e
  | heatForecastSend => exact h.heatForecast.of_next e
  | tecSetpointSend => exact (h.tecSend _).of_next e
  | safeWrite => exact (h.onAccess _ _ fun _ h1 => h1.safeWrite _).of_next e
  | resetRelease => exact h.releaseReset.of_next e
  | bringupStepBegin => exact (h.beginStep _).of_next e
  | firmwarePollRound => exact (h.pollRound _ _).of_next e
  | galleryTrainingDone => exact (h.trained _).of_next e
  | landingTestDone => exact (h.landingTested _).of_next e
  | linkQualified link =>
    cases link with
    | lane => exact (h.laneMeasured _ _ _).of_next e
    | wave => exact (h.waveMeasured _ _ _ _).of_next e
  | qualWaitTimeout link =>
    cases link with
    | lane => exact (Canonical.ite (h.leavePortOut _) h).of_next e
    | wave => exact (Canonical.ite (h.waveFailed _ _ _) h).of_next e
  | txSpareReadmitTimeout => exact (h.readmitTimeout _ _).of_next e
  | vectorUnitTestDone => exact (h.vectorTested _ _).of_next e
  | rueSetTestDone => exact (h.rueTested _ _).of_next e
  | recoveryGo => exact (h.onAccess _ _ fun _ h1 => h1.draw.writeRecCtrl _ _).of_next e
  | recoveryFlashWrite => exact (h.onAccess _ _ fun _ h1 => h1.writeRecCtrl _ _).of_next e
  | licenceInstall => exact (h.onAccess _ _ fun _ h1 => h1.installLicence _).of_next e
  | firmwareUpdateGo => exact (h.onAccess _ _ fun _ h1 => h1.updateGo _).of_next e
  | controllerBankSwitch => exact (h.bankSwitch _ _).of_next e
  | ccBankSwitchTimeout => exact h.bankTimeout.of_next e
  | svnBurn => exact (h.onAccess _ _ fun _ h1 => h1.svnBurn _).of_next e
  | lifecycleAdvance => exact (h.onAccess _ _ fun _ h1 => h1.writeLcCtrl _).of_next e
  | returnEraseDone => exact h.returnErased.of_next e
  | debugTokenPresent => exact (h.onAccess _ _ fun _ h1 => h1.writeDbgCtrl _).of_next e
  | debugOpen => exact (h.onAccess _ _ fun _ h1 => h1.writeDbgCtrl _).of_next e
  | debugClose => exact (h.onAccess _ _ fun _ h1 => h1.writeDbgCtrl _).of_next e
  | debugExpire => exact h.debugExpire.of_next e
  | attestGetKey => exact (h.attRequest _).of_next e
  | attest => exact (h.attRequest _).of_next e
  | attestBucketRefill => exact h.attRefill.of_next e
  | doeDiscovery => exact (h.doeDiscover _).of_next e
  | doeAbort => exact h.frame.of_next e
  | hostReset => exact h.hostReset.of_next e
  | busMasterEnable => exact h.busMasterOn.of_next e
  | msixUnmask => exact (h.unmaskVector _).of_next e
  | ccHeartbeatTimeout => exact (h.heartbeatLost _).of_next e
  | ccRestartDone => exact (h.coreRestarted _).of_next e
  | suspectClear => exact (h.onAccess _ _ fun _ h1 => h1.writeErrCtrl _).of_next e
  | fibreArrayDetach => exact (h.detachArray _).of_next e
  | powerFail => exact h.powerFail.of_next e
  | meshCheck => exact (h.meshCheck _).of_next e
  | pmbusAlert => exact (h.pmbusAlert _).of_next e
  | alwaysOnPowerUp => exact h.alwaysOnUp.of_next e
  | fundamentalResetAssert => exact h.perstLow.of_next e
  | fibreArrayAttach => exact (h.attachArray _).of_next e
  | markerLockLoss => exact (Canonical.ite (h.loseLock _ _) h).of_next e

/-- Every step keeps the canonical form: a command does, and a nanosecond on an empty queue does. -/
theorem Canonical.step {t : State} (h : s.Canonical) (e : step s = .next t) : t.Canonical := by
  unfold Machine.step at e
  split at e
  · exact .of_next h.tick e
  · exact h.frame.exec _ e

end

end State

/-- Settles O60: the form of the memories and of the registers goes through every operation, every command and every step. -/
theorem everyStepKeepsTheCanonicalForm : Obligations.EveryStepKeepsTheCanonicalForm :=
  fun _ _ hm hr e => State.Canonical.step ⟨hm, hr⟩ e
end Sys2Proof.Machine
end

section
/-! The machine after reset, and register writes that are only recorded (00_scope.md R5, R7; 19_faults_and_spares.md R353). -/
namespace Sys2Proof.Machine

/-! ### The machine after reset -/

@[simp] theorem State.reset_reg (a : Nat) : State.reset.reg a = regReset a := Sparse.get_nil regReset a
@[simp] theorem State.reset_sreg (a : Nat) : State.reset.sreg a = regReset a := Sparse.get_nil regReset a
@[simp] theorem State.reset_bar4Byte (a : Nat) : State.reset.bar4Byte a = 0 := Sparse.get_nil zeroByte a
theorem State.reset_memoryForm : State.reset.memoryForm = true := rfl
theorem State.reset_registerForm : State.reset.registerForm = true := rfl

/-- Settles O59: every map of the machine after reset is the empty one, whose reads are the defaults. -/
theorem resetMeetsTheInvariant : Obligations.ResetMeetsTheInvariant :=
  ⟨State.reset_memoryForm, State.reset_registerForm, rfl, State.reset_bar4Byte, fun a => ⟨State.reset_reg a, State.reset_sreg a⟩⟩

/-! ### What an entry of the log leaves as it was -/

/-- Raising a vector changes no register but its pending bits. -/
theorem State.raiseVector_reg (s : State) {v a : Nat} (h : a ≠ A.topMsixPba (v / 32)) : (s.raiseVector v).reg a = s.reg a := by
  unfold State.raiseVector State.sendVector
  split <;> simp [State.reg_setB_ne _ _ _ h]

/-- Whether a register is one that an entry of the log writes by itself: the lost entries, the vector's sources and the pending
bits (R340, R346, R347). -/
def isLogReg (a : Nat) : Bool := decide (a = A.errLogLost) || decide (a = A.errVecStatus) || (decide (0xA000 ≤ a) && decide (a < 0xA040))

theorem State.raiseError_reg (s : State) (src : Nat) {a : Nat} (h : isLogReg a = false) : (s.raiseError src).reg a = s.reg a := by
  have hs : a ≠ A.errVecStatus := by rintro rfl; exact absurd h (by decide)
  have hp (v : Nat) (hv : v < 512) : a ≠ A.topMsixPba (v / 32) := by
    rintro rfl
    simp [isLogReg, A.topMsixPba] at h
    omega
  unfold State.raiseError
  dsimp only
  split
  · exact State.reg_setB_ne s _ _ hs
  · rw [State.raiseVector_reg _ (hp (State.f _ A.topIrqCtrl 0 9) (fld_lt _ 0 9)), State.reg_setB_ne s _ _ hs]

theorem State.appendLog_reg (s : State) (e : LogEntry) {a : Nat} (h : a ≠ A.errLogLost) : (s.appendLog e).reg a = s.reg a := by
  unfold State.appendLog State.bumpIf
  dsimp only
  split
  · rw [State.reg_bump_ne _ h]; rfl
  · rfl

theorem State.logEvent_reg (s : State) (e : Event) {a : Nat} (h : isLogReg a = false) : (s.logEvent e).reg a = s.reg a := by
  have hl : a ≠ A.errLogLost := by rintro rfl; exact absurd h (by decide)
  unfold State.logEvent
  dsimp only
  split
  · rw [State.raiseError_reg _ _ h, State.appendLog_reg s _ hl]
  · exact State.appendLog_reg s _ hl

/-! ### Register-access errors (R353) -/

theorem State.accessError_recorded {s : State} (kind offset : Nat) (h : s.b A.errAccessInfo 31 = true) :
    s.accessError kind offset = s.bump A.errAccessCount := by
  have : (s.bump A.errAccessCount).b A.errAccessInfo 31 = true := by rw [State.b_bump_ne _ _ (by decide), h]
  simp only [State.accessError, this, if_true]

theorem State.accessError_first {s : State} (kind offset : Nat) (h : s.b A.errAccessInfo 31 = false) :
    s.accessError kind offset =
      (((s.bump A.errAccessCount).setReg A.errAccessAddr (BitVec.ofNat 32 offset)).setReg A.errAccessInfo
        (BitVec.ofNat 32 (0x80000000 + kind))).logEvent { code := 0x0B01, cls := .info, reason := kind, arg0 := offset } := by
  have : (s.bump A.errAccessCount).b A.errAccessInfo 31 = false := by rw [State.b_bump_ne _ _ (by decide), h]
  simp only [State.accessError, this, Bool.false_eq_true, if_false]

/-- Every access error is counted. -/
theorem State.accessError_count (s : State) (kind offset : Nat) :
    (s.accessError kind offset).reg A.errAccessCount = BitVec.ofNat 32 (min 0xFFFFFFFF ((s.reg A.errAccessCount).toNat + 1)) := by
  cases h : s.b A.errAccessInfo 31 with
  | true => rw [State.accessError_recorded _ _ h, State.reg_bump_same]
  | false =>
    rw [State.accessError_first _ _ h, State.logEvent_reg _ _ (by decide), State.reg_setReg_ne _ _ (by decide),
      State.reg_setReg_ne _ _ (by decide), State.reg_bump_same]

/-- The first access error after a clear is recorded and logged. -/
theorem State.accessError_records (s : State) (kind offset : Nat) (h : s.b A.errAccessInfo 31 = false) :
    (s.accessError kind offset).reg A.errAccessAddr = BitVec.ofNat 32 offset ∧
      (s.accessError kind offset).reg A.errAccessInfo = BitVec.ofNat 32 (0x80000000 + kind) ∧
      (s.accessError kind offset).log.seq = (s.log.seq + 1) % 0x100000000 := by
  rw [State.accessError_first _ _ h]
  refine ⟨?_, ?_, ?_⟩
  · rw [State.logEvent_reg _ _ (by decide), State.reg_setReg_ne _ _ (by decide), State.reg_setReg_same]
  · rw [State.logEvent_reg _ _ (by decide), State.reg_setReg_same]
  · exact State.logEvent_seq _ _

/-- A later access error leaves the record and the log. -/
theorem State.accessError_keeps_record (s : State) (kind offset : Nat) (h : s.b A.errAccessInfo 31 = true) :
    (s.accessError kind offset).log = s.log ∧ (s.accessError kind offset).reg A.errAccessAddr = s.reg A.errAccessAddr ∧
      (s.accessError kind offset).reg A.errAccessInfo = s.reg A.errAccessInfo := by
  rw [State.accessError_recorded _ _ h]
  exact ⟨rfl, State.reg_bump_ne _ (by decide), State.reg_bump_ne _ (by decide)⟩

/-! ### Register writes (18_host_interface.md R333) -/

theorem exec_registerWrite {s : State} {a : Nat} (size : Nat) (v : Word) (poisoned : Bool) (h : s.accepts a = true) :
    exec (.registerWrite a size v poisoned) s = .next (s.hostWord a size v poisoned) :=
  congrArg _ (State.onAccess_accepted (fun s => s.hostWord a size v poisoned) h)

theorem exec_registerWrite_refused {s : State} {a : Nat} (size : Nat) (v : Word) (poisoned : Bool) (h : s.accepts a = false) :
    exec (.registerWrite a size v poisoned) s = .next s :=
  congrArg _ (State.onAccess_refused (fun s => s.hostWord a size v poisoned) h)

/-- A poisoned, misaligned or stray write is an access error of its kind. -/
theorem State.hostWord_bad (s : State) (a size : Nat) (v : Word) (poisoned : Bool)
    (h : poisoned = true ∨ size ≠ 4 ∨ a % 4 ≠ 0 ∨ regAt a = none) :
    s.hostWord a size v poisoned = s.accessError (if poisoned = true then 6 else if size ≠ 4 ∨ a % 4 ≠ 0 then 1 else 2) a := by
  unfold State.hostWord
  split
  · rfl
  · split
    · rfl
    · next hp hm =>
      obtain hp' | hs | ha | hr := h
      · exact absurd hp' hp
      · exact absurd (.inl hs) hm
      · exact absurd (.inr ha) hm
      · simp only [State.writeWord, hr]

/-- Settles O18: such a write is one access error, which touches only the report registers. -/
theorem badRegisterAccessesAreOnlyRecorded : Obligations.BadRegisterAccessesAreOnlyRecorded := by
  intro s a size kind v poisoned hacc hkind hbad
  refine ⟨s.accessError kind a, ?_, s.accessError_count kind a, s.accessError_records kind a, s.accessError_keeps_record kind a, ?_⟩
  · rw [exec_registerWrite _ _ _ hacc, s.hostWord_bad a size v poisoned hbad, ← hkind]
  · obtain ⟨hregs, hbytes, hengines, hlines, hlight, hbase, -⟩ := OnlyReports.accessError s kind a
    exact ⟨hbytes, hengines, hlines, hlight, hbase, hregs⟩

end Sys2Proof.Machine
end

section
/-! Plain register writes and latching reads (00_scope.md R8, R9; 14_time.md R263). -/
namespace Sys2Proof.Machine

/-! ### What a register keeps of a written word -/

@[simp] theorem RegRow.clampAll_nil {r : RegRow} (w : Word) (h : r.clamps = []) : r.clampAll w = w := by simp [RegRow.clampAll, h]

/-- One bit of the effective value after a write. -/
theorem RegRow.effective_getLsbD (r : RegRow) (old v : Word) {k : Nat} (hk : k < 32) :
    (r.effective old v).getLsbD k =
      if Nat.testBit (Nat.lor r.rw r.wo) k then (r.clampAll v).getLsbD k
      else old.getLsbD k && !(Nat.testBit r.w1c k && v.getLsbD k) := by
  simp only [RegRow.effective, BitVec.getLsbD_or, BitVec.getLsbD_and, BitVec.getLsbD_not, BitVec.getLsbD_ofNat, hk, decide_true,
    Bool.true_and]
  cases Nat.testBit (Nat.lor r.rw r.wo) k <;> simp

/-- One bit of the staged value after a write. -/
theorem RegRow.staging_getLsbD (r : RegRow) (old v : Word) {k : Nat} (hk : k < 32) :
    (r.staging old v).getLsbD k = if Nat.testBit r.st k then (r.clampAll v).getLsbD k else old.getLsbD k := by
  simp only [RegRow.staging, BitVec.getLsbD_or, BitVec.getLsbD_and, BitVec.getLsbD_not, BitVec.getLsbD_ofNat, hk, decide_true,
    Bool.true_and]
  cases Nat.testBit r.st k <;> simp

/-- A register without staged bits keeps its staged value. -/
theorem RegRow.staging_of_st_zero {r : RegRow} (h : r.st = 0) (old v : Word) : r.staging old v = old := by
  apply BitVec.eq_of_getLsbD_eq
  intro k hk
  simp [r.staging_getLsbD _ _ hk, h]

theorem State.writeFields_row {s : State} {a i j : Nat} {r : RegRow} (v : Word) (h : regAt a = some (r, i, j)) :
    s.writeFields a v = if r.st = 0 then s.setReg a (r.effective (s.reg a) v) else
      (s.setReg a (r.effective (s.reg a) v)).setSreg a (r.staging (s.sreg a) v) := by
  simp only [State.writeFields, h]
  rfl

theorem State.writeFields_reg {s : State} {a i j : Nat} {r : RegRow} (v : Word) (h : regAt a = some (r, i, j)) (b : Nat) :
    (s.writeFields a v).reg b = if b = a then r.effective (s.reg a) v else s.reg b := by
  rw [State.writeFields_row v h]
  split <;> simp [State.reg_setReg]

theorem State.writeFields_sreg {s : State} {a i j : Nat} {r : RegRow} (v : Word) (h : regAt a = some (r, i, j)) (b : Nat) :
    (s.writeFields a v).sreg b = if b = a then r.staging (s.sreg a) v else s.sreg b := by
  rw [State.writeFields_row v h]
  split
  · next hst =>
    rw [RegRow.staging_of_st_zero hst]
    split
    · next hb => rw [hb]; rfl
    · rfl
  · simp [State.sreg_setSreg]

/-- Memories, engines, lines, light and the host function stay: what a register write may change beside these is registers and the
power state. -/
def SameRest (s t : State) : Prop :=
  SameBytes s t ∧ SameEngines s t ∧ SameLines s t ∧ SameLight s t ∧ SameHost s t

theorem SameRest.refl (s : State) : SameRest s s := by
  simp [SameRest, SameBytes, SameEngines, SameLines, SameLight, SameHost]

theorem SameRest.trans {s t u : State} (h : SameRest s t) (g : SameRest t u) : SameRest s u := by
  simp only [SameRest, SameBytes, SameEngines, SameLines, SameLight, SameHost] at h g ⊢
  simp_all

theorem SameRest.setReg (s : State) (a : Nat) (v : Word) : SameRest s (s.setReg a v) := SameRest.refl s

theorem SameRest.setSreg (s : State) (a : Nat) (v : Word) : SameRest s (s.setSreg a v) := SameRest.refl s

theorem SameRest.writeFields (s : State) (a : Nat) (v : Word) : SameRest s (s.writeFields a v) := by
  unfold State.writeFields
  split
  · exact SameRest.refl s
  · dsimp only
    split
    · exact SameRest.setReg s _ _
    · exact (SameRest.setReg s _ _).trans (SameRest.setSreg _ _ _)

/-! ### A wake event marks the power state alone (15_power_and_thermal.md R287, R288) -/

@[simp] theorem State.wakeWrite_reg (s : State) (a b : Nat) : (s.wakeWrite a).reg b = s.reg b := by
  unfold State.wakeWrite State.wakeEvent
  split
  · split <;> rfl
  · rfl

@[simp] theorem State.wakeWrite_sreg (s : State) (a b : Nat) : (s.wakeWrite a).sreg b = s.sreg b := by
  unfold State.wakeWrite State.wakeEvent
  split
  · split <;> rfl
  · rfl

theorem SameRest.wakeWrite (s : State) (a : Nat) : SameRest s (s.wakeWrite a) := by
  unfold State.wakeWrite State.wakeEvent
  split
  · split
    · exact SameRest.refl s
    · exact SameRest.refl s
  · exact SameRest.refl s

/-! ### A plain register -/

/-- A register of PIN, CMP, RUE, LND, TIME or ROUTE that starts no action stores the word by its access types. -/
theorem State.hostWord_plain (s : State) {a i j : Nat} {r : RegRow} (v : Word) (ha : a % 4 = 0) (hrow : regAt a = some (r, i, j))
    (hblk : a / 0x100000 ∈ [0x12, 0xC, 0xA, 0x8, 0x2, 0x6])
    (hact : a ∉ [A.cmpCommit, A.rueShadowCtrl, A.lndCommit, A.timeCtrl, A.routeCommit, A.routeDownCtrl]) :
    s.hostWord a 4 v false = (s.wakeWrite a).writeFields a v := by
  simp only [List.mem_cons, List.not_mem_nil, or_false, not_or] at hblk hact
  obtain ⟨hcmp, hrue, hlnd, htime, hroute, hdown⟩ := hact
  have hw : s.hostWord a 4 v false = s.writeWord a v := by simp [State.hostWord, ha]
  rw [hw, State.writeWord]
  simp only [hrow]
  obtain h | h | h | h | h | h := hblk <;> simp only [h]
  · rw [if_neg hcmp]
  · rw [if_neg hrue]
  · rw [if_neg hlnd]
  · rw [if_neg htime]
  · rw [if_neg hroute, if_neg hdown]

/-! ### Reads latch the companion words -/

theorem exec_latchingRegisterRead {s : State} {a : Nat} (h : s.accepts a = true) :
    exec (.latchingRegisterRead a) s = .next (s.readReg a) :=
  congrArg _ (State.onAccess_accepted (fun s => s.readReg a) h)

theorem State.readReg_outbox (s : State) (a : Nat) : (s.readReg a).outbox = s.outbox ++ [.readData a (s.readWord (a / 4 * 4))] := rfl

/-- A latched word reads what was latched. -/
theorem State.readWord_companion (s : State) {a : Nat} (h : isCompanion a = true) : s.readWord a = s.rlatch.get (fun _ => 0) a := by
  simp [State.readWord, h]

/-- Any other word reads its present value. -/
theorem State.readWord_present (s : State) {a : Nat} (h : isCompanion a = false) : s.readWord a = s.present a := by
  simp [State.readWord, h]

/-- A list of words latched together reads each word's value. -/
theorem Sparse.get_foldl_put_same (f : Nat → Word) (keys : List Nat) (m : Sparse Word) (b : Nat) :
    (keys.foldl (fun (m : Sparse Word) k => m.put (fun _ => 0) k (f k)) m).get (fun _ => 0) b =
      if b ∈ keys then f b else m.get (fun _ => 0) b := by
  induction keys generalizing m with
  | nil => simp
  | cons k ks ih =>
    rw [List.foldl_cons, ih, Sparse.get_put]
    by_cases hb : b = k
    · simp [hb]
    · simp [hb]

theorem State.readReg_outbox_word (s : State) {a : Nat} (ha : a / 4 * 4 = a) (hc : isCompanion a = false) :
    (s.readReg a).outbox = s.outbox ++ [.readData a (s.present a)] := by
  rw [s.readReg_outbox, ha, s.readWord_present hc]

/-- A companion that a read latches is read back as it was at that moment. -/
theorem State.readWord_readReg (s : State) {a b : Nat} (hc : isCompanion b = true) (hb : b ∈ companions (a / 4 * 4)) :
    (s.readReg a).readWord b = s.present b := by
  rw [State.readWord_companion _ hc]
  exact (Sparse.get_foldl_put_same s.present _ _ b).trans (if_pos hb)

/-! ### The words of device time (R263) -/

theorem State.present_timeNowSubns (s : State) : s.present A.timeNowSubns = BitVec.ofNat 32 (s.time.dev % 0x10000) := rfl
theorem State.present_timeNowNs (s : State) : s.present A.timeNowNs = BitVec.ofNat 32 (s.time.dev / 0x10000 % 1000000000) := rfl
theorem State.present_timeNowSecLo (s : State) :
    s.present A.timeNowSecLo = BitVec.ofNat 32 (s.time.dev / 0x10000 / 1000000000) :=
  BitVec.eq_of_toNat_eq (by
    have h : s.present A.timeNowSecLo = BitVec.ofNat 32 (s.time.dev / 0x10000 / 1000000000 % 0x100000000) := rfl
    simp [h])
theorem State.present_timeNowSecHi (s : State) :
    s.present A.timeNowSecHi = BitVec.ofNat 32 (s.time.dev / 0x10000 / 1000000000 / 0x100000000 % 0x10000) := rfl
theorem State.present_timeNow64Lo (s : State) : s.present A.timeNow64Lo = BitVec.ofNat 32 s.now :=
  BitVec.eq_of_toNat_eq (by
    have h : s.present A.timeNow64Lo = BitVec.ofNat 32 (s.now % 0x100000000) := rfl
    simp [h])
theorem State.present_timeNow64Hi (s : State) : s.present A.timeNow64Hi = BitVec.ofNat 32 (s.now / 0x100000000) := rfl

/-- Settles O19: a plain write is `writeFields`, whose bits follow the access types; a read is `readReg`, which sets only the latch. -/
theorem registersAreWrittenAndRead : Obligations.RegistersAreWrittenAndRead := by
  refine ⟨?_, fun s a size v poisoned h => exec_registerWrite_refused size v poisoned h, ?_, ?_, ?_⟩
  · intro s a i j v r hacc ha hrow hblk hact
    have hreg : ((s.wakeWrite a).writeFields a v).reg a = r.effective (s.reg a) v := by simp [State.writeFields_reg v hrow]
    have hsreg : ((s.wakeWrite a).writeFields a v).sreg a = r.staging (s.sreg a) v := by simp [State.writeFields_sreg v hrow]
    obtain ⟨hbytes, hengines, hlines, hlight, hhost⟩ := (SameRest.wakeWrite s a).trans (SameRest.writeFields _ a v)
    refine ⟨(s.wakeWrite a).writeFields a v, ?_, ?_, ?_, ?_, ?_, ?_, hbytes, hengines, hlines, hlight, hhost, ?_⟩
    · rw [exec_registerWrite _ _ _ hacc, s.hostWord_plain v ha hrow hblk hact]
    · intro k hk htake hclamp
      simp only [hreg, r.effective_getLsbD _ _ hk, htake, r.clampAll_nil v hclamp, if_true]
    · intro k hk htake hclear
      simp only [hreg, r.effective_getLsbD _ _ hk, htake, hclear, Bool.true_and, Bool.false_eq_true, if_false]
    · intro k hk htake hclear
      simp only [hreg, r.effective_getLsbD _ _ hk, htake, hclear, Bool.false_and, Bool.not_false, Bool.and_true, Bool.false_eq_true,
        if_false]
    · intro k hk hst hclamp
      simp only [hsreg, r.staging_getLsbD _ _ hk, hst, r.clampAll_nil v hclamp, if_true]
    · intro k hk hst
      simp only [hsreg, r.staging_getLsbD _ _ hk, hst, Bool.false_eq_true, if_false]
    · intro b hb
      have hb : b ≠ a := by simpa using hb
      simp [State.writeFields_reg v hrow, State.writeFields_sreg v hrow, hb]
  · intro s a hacc
    exact ⟨s.readReg a, exec_latchingRegisterRead hacc, s.readReg_outbox a, rfl, rfl, rfl,
      ⟨fun _ => rfl, fun _ => rfl, fun _ => rfl, fun _ => rfl, fun _ => rfl⟩, ⟨rfl, rfl, rfl, rfl, rfl, rfl⟩, ⟨rfl, rfl, rfl, rfl⟩,
      ⟨rfl, rfl⟩, ⟨rfl, rfl, rfl, rfl, rfl, rfl⟩, fun _ _ => ⟨rfl, rfl⟩⟩
  · intro s hacc
    refine ⟨s.readReg A.timeNowSubns, exec_latchingRegisterRead hacc, ?_, ?_, ?_, ?_⟩
    · rw [s.readReg_outbox_word (by decide) (by decide), s.present_timeNowSubns]
    · rw [s.readWord_readReg (by decide) (by decide), s.present_timeNowNs]
    · rw [s.readWord_readReg (by decide) (by decide), s.present_timeNowSecLo]
    · rw [s.readWord_readReg (by decide) (by decide), s.present_timeNowSecHi]
  · intro s hacc
    refine ⟨s.readReg A.timeNow64Lo, exec_latchingRegisterRead hacc, ?_, ?_⟩
    · rw [s.readReg_outbox_word (by decide) (by decide), s.present_timeNow64Lo]
    · rw [s.readWord_readReg (by decide) (by decide), s.present_timeNow64Hi]

end Sys2Proof.Machine
end

section
/-! Line ports turned on and off, and the CMIS mailbox (08_span_framer.md R171, R172, R386; 16_bring_up_and_image.md R305). What a
change of a port's or key's state does to waiting cells touches only routes, the scheduler and four counters (10 R200, R201). -/
namespace Sys2Proof.Machine

/-! ### Cells move between queues (10_line_scheduler.md R193, R200, R201) -/

/-- Counters that moving cells counts in: shards that found no key, and cells withdrawn, requeued and streams held. -/
def isCellCount (a : Nat) : Bool := [A.secCnt 8, A.schedCnt 0, A.schedCnt 1, A.schedCnt 2].contains a

/-- Only routes, the scheduler and the counters of cells change, and the incarnation stays. -/
def OnlyCells (s t : State) : Prop :=
  t = { s with rte := t.rte, sched := t.sched, regs := t.regs } ∧ t.rte.incarnation = s.rte.incarnation ∧
    ∀ a, isCellCount a = false → t.reg a = s.reg a

theorem OnlyCells.refl (s : State) : OnlyCells s s := ⟨rfl, rfl, fun _ _ => rfl⟩

theorem OnlyCells.trans {s t u : State} (h : OnlyCells s t) (g : OnlyCells t u) : OnlyCells s u := by
  obtain ⟨h1, h2, h3⟩ := h
  obtain ⟨g1, g2, g3⟩ := g
  refine ⟨?_, g2.trans h2, fun a ha => (g3 a ha).trans (h3 a ha)⟩
  rw [g1, h1]

theorem OnlyCells.foldl {α : Type} {run : State → α → State} (h : ∀ s x, OnlyCells s (run s x)) (xs : List α) (s : State) :
    OnlyCells s (xs.foldl run s) := by
  induction xs generalizing s with
  | nil => exact OnlyCells.refl s
  | cons x xs ih => exact (h s x).trans (ih _)

theorem OnlyCells.bumpBy (s : State) {a : Nat} (n : Nat) (h : isCellCount a = true) : OnlyCells s (s.bumpBy a n) :=
  ⟨rfl, rfl, fun b hb => State.reg_setReg_ne s _ (by rintro rfl; rw [h] at hb; cases hb)⟩

theorem OnlyCells.bumpIf (s : State) {a : Nat} (c : Bool) (h : isCellCount a = true) : OnlyCells s (s.bumpIf c a) := by
  cases c with
  | false => exact OnlyCells.refl s
  | true => exact OnlyCells.bumpBy s 1 h

theorem OnlyCells.setTx (s : State) (k : Nat) (x : TxStream) : OnlyCells s (s.setTx k x) := ⟨rfl, rfl, fun _ _ => rfl⟩
theorem OnlyCells.setWfq (s : State) (r q : Nat) (w : Wfq ShardCell) : OnlyCells s (s.setWfq r q w) := ⟨rfl, rfl, fun _ _ => rfl⟩
theorem OnlyCells.setStripe (s : State) (t : Stripe) : OnlyCells s (s.setStripe t) := ⟨rfl, rfl, fun _ _ => rfl⟩
theorem OnlyCells.enqueueShard (s : State) (x : ShardCell) : OnlyCells s (s.enqueueShard x) := OnlyCells.setWfq s _ _ _

theorem OnlyCells.closeStripe (s : State) (e node vc : Nat) : OnlyCells s (s.closeStripe e node vc) := by
  unfold State.closeStripe
  dsimp only
  refine OnlyCells.trans ?_ (OnlyCells.foldl (fun s i => OnlyCells.enqueueShard s _) _ _)
  have hkeep (t : State) (l : List Stripe) : OnlyCells t { t with rte := { t.rte with retained := l } } := ⟨rfl, rfl, fun _ _ => rfl⟩
  split
  · exact (OnlyCells.setTx s _ _).trans (hkeep _ _)
  · exact ((OnlyCells.setTx s _ _).trans (hkeep _ _)).trans (OnlyCells.bumpBy _ _ (by decide))

theorem OnlyCells.feed (s : State) (e node vc fuel : Nat) : OnlyCells s (s.feed e node vc fuel) := by
  induction fuel generalizing s with
  | zero => exact OnlyCells.refl s
  | succ n ih =>
    unfold State.feed
    dsimp only
    split
    · split
      · exact (OnlyCells.setTx s _ _).trans (OnlyCells.bumpIf _ _ (by decide))
      · exact ((OnlyCells.setTx s _ _).trans (OnlyCells.closeStripe _ _ _ _)).trans (ih _)
    · split
      · exact OnlyCells.refl s
      · exact (OnlyCells.setTx s _ _).trans (ih _)

theorem OnlyCells.placeWithdrawn (s : State) (x : ShardCell) : OnlyCells s (s.placeWithdrawn x) := by
  unfold State.placeWithdrawn
  split
  · exact OnlyCells.refl s
  · dsimp only
    split
    · exact ((OnlyCells.setStripe s _).trans (OnlyCells.enqueueShard _ _)).trans (OnlyCells.bumpBy _ _ (by decide))
    · exact OnlyCells.setStripe s _

theorem OnlyCells.withdrawQueue (s : State) (r q : Nat) : OnlyCells s (s.withdrawQueue r q) := by
  unfold State.withdrawQueue
  dsimp only
  split
  · exact OnlyCells.refl s
  · exact (((OnlyCells.setWfq s _ _ _).trans (OnlyCells.bumpBy _ _ (by decide))).trans (OnlyCells.bumpBy _ _ (by decide))).trans
      (OnlyCells.foldl OnlyCells.placeWithdrawn _ _)

theorem OnlyCells.feedAll (s : State) : OnlyCells s s.feedAll := by
  refine OnlyCells.foldl (fun s x => ?_) _ _
  split
  · split
    · exact OnlyCells.refl s
    · exact OnlyCells.feed s _ _ _ _
  · exact OnlyCells.refl s

theorem OnlyCells.routesChanged (s : State) : OnlyCells s s.routesChanged :=
  (OnlyCells.foldl (fun s _ => OnlyCells.withdrawQueue s _ _) _ _).trans (OnlyCells.feedAll _)

/-! ### A port's defects and alignment (08_span_framer.md R153, R158) -/

/-- The status, defect latch and module status of port `p`, and the counters of cells. -/
def isPortStatus (p a : Nat) : Bool := [A.lineStatus p, A.lineDefectLatch p, A.lineModStatus p].contains a || isCellCount a

/-- What a port's defects can do: ports, routes, the scheduler, pins, faces, and the registers of the port's status. -/
def OnlyPort (p : Nat) (s t : State) : Prop :=
  t = { s with ports := t.ports, rte := t.rte, sched := t.sched, pins := t.pins, outbox := t.outbox, regs := t.regs } ∧
    t.rte.incarnation = s.rte.incarnation ∧ t.pins.mainPg = s.pins.mainPg ∧ t.pins.perst = s.pins.perst ∧
    ∀ a, isPortStatus p a = false → t.reg a = s.reg a

theorem OnlyPort.refl (p : Nat) (s : State) : OnlyPort p s s := ⟨rfl, rfl, rfl, rfl, fun _ _ => rfl⟩

theorem OnlyPort.trans {p : Nat} {s t u : State} (h : OnlyPort p s t) (g : OnlyPort p t u) : OnlyPort p s u := by
  obtain ⟨h1, h2, h3, h4, h5⟩ := h
  obtain ⟨g1, g2, g3, g4, g5⟩ := g
  refine ⟨?_, g2.trans h2, g3.trans h3, g4.trans h4, fun a ha => (g5 a ha).trans (h5 a ha)⟩
  rw [g1, h1]

theorem OnlyCells.onlyPort {s t : State} (p : Nat) (h : OnlyCells s t) : OnlyPort p s t := by
  obtain ⟨h1, h2, h3⟩ := h
  have hpins : t.pins = s.pins := by rw [h1]
  refine ⟨?_, h2, by rw [hpins], by rw [hpins], fun a ha => h3 a (Bool.or_eq_false_iff.mp ha).2⟩
  rw [h1]

theorem OnlyPort.setReg (p : Nat) (s : State) {a : Nat} (v : Word) (h : isPortStatus p a = true) : OnlyPort p s (s.setReg a v) :=
  ⟨rfl, rfl, rfl, rfl, fun b hb => State.reg_setReg_ne s _ (by rintro rfl; rw [h] at hb; cases hb)⟩

theorem OnlyPort.setPort (p : Nat) (s : State) (q : Nat) (x : LinePort) : OnlyPort p s (s.setPort q x) :=
  ⟨rfl, rfl, rfl, rfl, fun _ _ => rfl⟩

theorem OnlyPort.emit (p : Nat) (s : State) (e : Sent) : OnlyPort p s (s.emit e) := ⟨rfl, rfl, rfl, rfl, fun _ _ => rfl⟩

theorem OnlyPort.driveLp (p : Nat) (s : State) : OnlyPort p s (s.driveLp p) := ⟨rfl, rfl, rfl, rfl, fun _ _ => rfl⟩

theorem isPortStatus_lineStatus (p : Nat) : isPortStatus p (A.lineStatus p) = true := by simp [isPortStatus]
theorem isPortStatus_lineDefectLatch (p : Nat) : isPortStatus p (A.lineDefectLatch p) = true := by simp [isPortStatus]
theorem isPortStatus_lineModStatus (p : Nat) : isPortStatus p (A.lineModStatus p) = true := by simp [isPortStatus]

theorem OnlyPort.noteDefects (p : Nat) (s : State) : OnlyPort p s (s.noteDefects p) := by
  unfold State.noteDefects
  dsimp only
  split
  · exact OnlyPort.setPort p s _ _
  · exact OnlyPort.refl p s

theorem OnlyPort.pmAdd (p : Nat) (s : State) (k n : Nat) : OnlyPort p s (s.pmAdd p k n) := by
  unfold State.pmAdd
  dsimp only
  split
  · exact OnlyPort.setPort p s _ _
  · exact OnlyPort.refl p s

theorem OnlyPort.setDefect (p : Nat) (s : State) (d : Nat) (v : Bool) : OnlyPort p s (s.setDefect p d v) := by
  unfold State.setDefect
  split
  · exact OnlyPort.refl p s
  · dsimp only
    have h1 : OnlyPort p s (s.setB (A.lineStatus p) d v) := OnlyPort.setReg p s _ (isPortStatus_lineStatus p)
    split
    · exact (h1.trans (OnlyPort.setReg p _ _ (isPortStatus_lineDefectLatch p))).trans (OnlyPort.noteDefects p _)
    · exact h1

theorem OnlyPort.setAlign (p : Nat) (s : State) (a : Nat) : OnlyPort p s (s.setAlign p a) := by
  unfold State.setAlign
  dsimp only
  split
  · exact OnlyPort.refl p s
  · have h1 (x : LinePort) : OnlyPort p s ((s.setPort p x).setF (A.lineStatus p) 0 2 a) :=
      (OnlyPort.setPort p s p x).trans (OnlyPort.setReg p _ _ (isPortStatus_lineStatus p))
    split
    · exact (h1 _).trans (OnlyPort.pmAdd p _ _ _)
    · exact h1 _

theorem OnlyPort.settlePort (p : Nat) (s before : State) : OnlyPort p s (s.settlePort p before) := by
  have hroutes (t : State) : OnlyPort p t (if t.portUsable p = before.portUsable p then t else t.routesChanged) := by
    split
    · exact OnlyPort.refl p t
    · exact (OnlyCells.routesChanged t).onlyPort p
  exact (OnlyPort.setPort p s _ _).trans (hroutes _)

theorem OnlyPort.refreshLos (p : Nat) (s : State) : OnlyPort p s (s.refreshLos p) := by
  unfold State.refreshLos
  dsimp only
  refine OnlyPort.trans ?_ (OnlyPort.settlePort p _ _)
  split
  · exact (OnlyPort.setDefect p s _ _).trans (OnlyPort.setAlign p _ _)
  · exact OnlyPort.setDefect p s _ _

theorem OnlyPort.deactivate (p : Nat) (s : State) : OnlyPort p s (s.deactivate p) := by
  unfold State.deactivate
  dsimp only
  refine OnlyPort.trans (t := if s.modPresent p then s.emit (.cmisWrite p 0x10 128 0x0F) else s) ?_
    ((OnlyPort.setReg p _ _ (isPortStatus_lineModStatus p)).trans (OnlyPort.setPort p _ _ _))
  split
  · exact OnlyPort.emit p s _
  · exact OnlyPort.refl p s

theorem OnlyPort.portOff (p : Nat) (s : State) : OnlyPort p s (s.portOff p) := by
  unfold State.portOff
  dsimp only
  have h1 : OnlyPort p s ((((s.deactivate p).setReg (A.lineStatus p) 0).setReg (A.lineDefectLatch p) 0).driveLp p) :=
    (((OnlyPort.deactivate p s).trans (OnlyPort.setReg p _ _ (isPortStatus_lineStatus p))).trans
      (OnlyPort.setReg p _ _ (isPortStatus_lineDefectLatch p))).trans (OnlyPort.driveLp p _)
  exact (h1.trans (OnlyPort.setPort p _ _ _)).trans ((OnlyCells.routesChanged _).onlyPort p)

end Sys2Proof.Machine
end

section
/-! LINE_CTRL turns a port on and off, and CMIS_GO makes one access (08_span_framer.md R171, R172; 16_bring_up_and_image.md R305). -/
namespace Sys2Proof.Machine

/-- A stored write changes registers alone. -/
theorem State.writeFields_eq (s : State) (a : Nat) (v : Word) :
    s.writeFields a v = { s with regs := (s.writeFields a v).regs, staged := (s.writeFields a v).staged } := by
  unfold State.writeFields
  split
  · rfl
  · dsimp only
    split <;> rfl

theorem State.writeFields_outbox (s : State) (a : Nat) (v : Word) : (s.writeFields a v).outbox = s.outbox := by
  rw [State.writeFields_eq]

theorem State.serdesRetired_writeFields (s : State) (a p : Nat) (v : Word) :
    (s.writeFields a v).serdesRetired p = s.serdesRetired p := by
  rw [State.writeFields_eq]
  rfl

/-- Registers and faces alone change. -/
def OnlyRegs (s t : State) : Prop := t = { s with regs := t.regs, staged := t.staged, outbox := t.outbox }

theorem OnlyRegs.trans {s t u : State} (h : OnlyRegs s t) (g : OnlyRegs t u) : OnlyRegs s u := by
  unfold OnlyRegs at h g ⊢
  rw [g, h]

theorem OnlyRegs.setF (s : State) (a lo n v : Nat) : OnlyRegs s (s.setF a lo n v) := rfl
theorem OnlyRegs.emit (s : State) (e : Sent) : OnlyRegs s (s.emit e) := rfl

theorem OnlyRegs.writeFields (s : State) (a : Nat) (v : Word) : OnlyRegs s (s.writeFields a v) := by
  unfold OnlyRegs
  conv_lhs => rw [State.writeFields_eq, ← s.writeFields_outbox a v]

theorem OnlyRegs.frame {s t : State} (h : OnlyRegs s t) :
    SameBytes s t ∧ SameEngines s t ∧ SameLines s t ∧ SameLight s t ∧ SameBase s t ∧ SameHost s t := by
  rw [h]
  exact ⟨⟨fun _ => rfl, fun _ => rfl, fun _ => rfl, fun _ => rfl, fun _ => rfl⟩, ⟨rfl, rfl, rfl, rfl, rfl, rfl⟩, ⟨rfl, rfl, rfl, rfl⟩,
    ⟨rfl, rfl⟩, ⟨rfl, rfl, rfl, rfl, rfl, rfl⟩, ⟨rfl, rfl, rfl, rfl⟩⟩

/-! ### LINE_CTRL -/

/-- ENABLE of LINE_CTRL is a bit that a write takes, and no stored range covers it. -/
theorem lineCtrl_row (p : Fin 16) : ∃ r : RegRow, ∃ i j, regAt (A.lineCtrl p) = some (r, i, j) ∧ Nat.testBit (Nat.lor r.rw r.wo) 0 = true ∧
    r.clamps = [⟨4, 4, 2, 8⟩, ⟨8, 4, 2, 15⟩] := by
  have h : ∀ p : Fin 16, (regAt (A.lineCtrl p)).map (fun x => (Nat.testBit (Nat.lor x.1.rw x.1.wo) 0, x.1.clamps)) =
      some (true, [⟨4, 4, 2, 8⟩, ⟨8, 4, 2, 15⟩]) := by decide
  obtain ⟨⟨r, i, j⟩, hrow, hr⟩ := Option.map_eq_some_iff.mp (h p)
  exact ⟨r, i, j, hrow, congrArg Prod.fst hr, congrArg Prod.snd hr⟩

/-- A write of LINE_CTRL stores ENABLE as written. -/
theorem State.portEnabled_writeFields (s : State) (p : Fin 16) (v : Word) :
    (s.writeFields (A.lineCtrl p) v).portEnabled p = bit v 0 := by
  obtain ⟨r, i, j, hrow, htake, hclamps⟩ := lineCtrl_row p
  rw [State.portEnabled, State.b, bit_eq_getLsbD, bit_eq_getLsbD, State.writeFields_reg v hrow, if_pos rfl,
    r.effective_getLsbD _ _ (by omega), htake, if_pos rfl]
  simp only [RegRow.clampAll, hclamps, List.foldl]
  rw [setFld_getLsbD _ _ _ _ _ (by omega), if_neg (by omega), setFld_getLsbD _ _ _ _ _ (by omega), if_neg (by omega)]

/-- A write of ENABLE that LINE16 does not license is an access error of kind 7. -/
theorem State.writeLineCtrl_unlicensed (s : State) {p : Nat} {v : Word} (hp : 8 ≤ p) (hv : bit v 0 = true) (hl : s.licensed 0 = false) :
    s.writeLineCtrl p v = s.accessError 7 (A.lineCtrl p) := by
  simp [State.writeLineCtrl, hp, hv, hl]

/-- A write that raises ENABLE of a port whose sequencers are good turns it on. -/
theorem State.writeLineCtrl_on (s : State) {p : Nat} {v : Word} (hl : p < 8 ∨ s.licensed 0 = true) (hoff : s.portEnabled p = false)
    (hv : bit v 0 = true) (hgood : s.serdesRetired p = false) :
    s.writeLineCtrl p v = (s.writeFields (A.lineCtrl p) v).portOn p := by
  have hlic : ¬ (8 ≤ p ∧ bit v 0 = true ∧ (!s.licensed 0) = true) := by
    rintro ⟨hp, -, hn⟩
    obtain h | h := hl
    · omega
    · simp [h] at hn
  have hret : (s.writeFields (A.lineCtrl p) v).serdesRetired p = false := by rw [State.serdesRetired_writeFields, hgood]
  rw [State.writeLineCtrl, if_neg hlic]
  dsimp only
  simp only [hoff, hv, hret, Bool.not_false, Bool.and_self, if_true, Bool.false_eq_true, if_false]

/-- A write that lowers ENABLE turns the port off. -/
theorem State.writeLineCtrl_off (s : State) {p : Nat} {v : Word} (hon : s.portEnabled p = true) (hv : bit v 0 = false) :
    s.writeLineCtrl p v = (s.writeFields (A.lineCtrl p) v).portOff p := by
  simp [State.writeLineCtrl, hon, hv]

/-! ### A port that is turned on or off -/

/-- The state in which a port that is turned on starts: OOF, to be qualified, and no neighbour accepted. -/
def State.portStarts (s : State) (p : Nat) : State :=
  let x := s.port p
  let s := s.setPort p { lastLatch := x.lastLatch, history := x.history, unavailable := x.unavailable, pm := x.pm,
                         sigLost := x.sigLost, refLost := x.refLost, framerOn := s.b (A.lineModStatus p) 4, resetPulse := x.resetPulse, outSince := some s.mono }
  let s := (s.setPortQual p { since := s.mono })
  let s := { s with boot := { s.boot with hostLanes := s.boot.hostLanes.erase p } }
  ((s.setB A.bootLinkQual p false).setB A.bootLinkQual (16 + p) false).setB (A.lineNbrRxPort p) 8 false

/-- After it starts, only the port's defects are brought up to date. -/
theorem OnlyPort.portOn (s : State) (p : Nat) : OnlyPort p (s.portStarts p) (s.portOn p) :=
  ((OnlyPort.driveLp p _).trans (OnlyPort.refreshLos p _)).trans (OnlyPort.setDefect p _ _ _)

/-- Memories, engines, cipher, light, power and the host function stay. -/
def SameButPorts (s t : State) : Prop :=
  SameBytes s t ∧ SameEngines s t ∧ t.sec = s.sec ∧ SameLight s t ∧ t.power = s.power ∧ SameHost s t

theorem SameButPorts.refl (s : State) : SameButPorts s s :=
  ⟨⟨fun _ => rfl, fun _ => rfl, fun _ => rfl, fun _ => rfl, fun _ => rfl⟩, ⟨rfl, rfl, rfl, rfl, rfl, rfl⟩, rfl, ⟨rfl, rfl⟩, rfl,
    ⟨rfl, rfl, rfl, rfl⟩⟩

theorem SameButPorts.trans {s t u : State} (h : SameButPorts s t) (g : SameButPorts t u) : SameButPorts s u := by
  simp only [SameButPorts, SameBytes, SameEngines, SameLight, SameHost] at h g ⊢
  simp_all

theorem OnlyPort.sameButPorts {p : Nat} {s t : State} (h : OnlyPort p s t) : SameButPorts s t := by
  rw [h.1]
  exact SameButPorts.refl s

theorem SameButPorts.writeFields (s : State) (a : Nat) (v : Word) : SameButPorts s (s.writeFields a v) := by
  rw [State.writeFields_eq]
  exact SameButPorts.refl s

theorem SameButPorts.setB (s : State) (a lo : Nat) (v : Bool) : SameButPorts s (s.setB a lo v) := SameButPorts.refl s
theorem SameButPorts.setPort (s : State) (p : Nat) (x : LinePort) : SameButPorts s (s.setPort p x) := SameButPorts.refl s
theorem SameButPorts.boot (s : State) (x : Boot) : SameButPorts s { s with boot := x } := SameButPorts.refl s

theorem SameButPorts.portStarts (s : State) (p : Nat) : SameButPorts s (s.portStarts p) :=
  (((((SameButPorts.setPort s p _).trans (SameButPorts.boot _ _)).trans (SameButPorts.boot _ _)).trans
    (SameButPorts.setB _ _ _ _)).trans (SameButPorts.setB _ _ _ _)).trans (SameButPorts.setB _ _ _ _)

theorem isPortStatus_lineCtrl (p : Fin 16) : isPortStatus p (A.lineCtrl p) = false := by
  have h : ∀ p : Fin 16, isPortStatus p (A.lineCtrl p) = false := by decide
  exact h p

theorem isPortStatus_bootLinkQual (p : Fin 16) : isPortStatus p A.bootLinkQual = false := by
  have h : ∀ p : Fin 16, isPortStatus p A.bootLinkQual = false := by decide
  exact h p

theorem State.portStarts_reg (s : State) {p a : Nat} (hq : a ≠ A.bootLinkQual) (hn : a ≠ A.lineNbrRxPort p) :
    (s.portStarts p).reg a = s.reg a := by
  rw [State.portStarts, State.reg_setB_ne _ _ _ hn, State.reg_setB_ne _ _ _ hq, State.reg_setB_ne _ _ _ hq]
  exact congrArg (fun m => Sparse.get regReset m a) (rfl : _ = s.regs)

theorem State.portStarts_linkQual (s : State) (p : Fin 16) :
    (s.portStarts p).b A.bootLinkQual p = false ∧ (s.portStarts p).b A.bootLinkQual (16 + p) = false := by
  have hq : A.bootLinkQual ≠ A.lineNbrRxPort p := by unfold A.bootLinkQual A.lineNbrRxPort; omega
  simp only [State.portStarts]
  constructor
  · rw [State.b_setB_ne _ _ _ _ _ _ (by omega) (.inl hq), State.b_setB_ne _ _ _ _ _ _ (by omega) (.inr (by omega)),
      State.b_setB_same _ _ _ _ (by omega)]
  · rw [State.b_setB_ne _ _ _ _ _ _ (by omega) (.inl hq), State.b_setB_same _ _ _ _ (by omega)]

theorem State.portStarts_qual (s : State) (p : Nat) : (s.portStarts p).portQualOf p = { since := s.mono } := by
  have h : (s.portStarts p).boot.portQual = s.boot.portQual.put (fun _ => {}) p { since := s.mono } := rfl
  rw [State.portQualOf, h, Sparse.get_put_same]

/-- A port that is turned on is enabled as its register says, is not left out and is still to be qualified. -/
theorem State.portOn_spec (s : State) (p : Fin 16) :
    (s.portOn p).portEnabled p = s.portEnabled p ∧ ((s.portOn p).portQualOf p).passed = false ∧
      ((s.portOn p).portQualOf p).leftOut = false ∧ (s.portOn p).b A.bootLinkQual p = false ∧
      (s.portOn p).b A.bootLinkQual (16 + p) = false := by
  obtain ⟨hstate, -, -, -, hregs⟩ := OnlyPort.portOn s p
  have hqual : (s.portOn p).portQualOf p = (s.portStarts p).portQualOf p := by
    have : (s.portOn p).boot = (s.portStarts p).boot := by rw [hstate]
    simp only [State.portQualOf, this]
  have hlink : ∀ i, (s.portOn p).b A.bootLinkQual i = (s.portStarts p).b A.bootLinkQual i := fun i => by
    simp only [State.b, hregs _ (isPortStatus_bootLinkQual p)]
  have hctrl : (s.portOn p).reg (A.lineCtrl p) = s.reg (A.lineCtrl p) := by
    rw [hregs _ (isPortStatus_lineCtrl p), s.portStarts_reg (by unfold A.lineCtrl A.bootLinkQual; omega)
      (by unfold A.lineCtrl A.lineNbrRxPort; omega)]
  obtain ⟨hlow, hhigh⟩ := s.portStarts_linkQual p
  refine ⟨by simp only [State.portEnabled, State.b, hctrl], ?_, ?_, by rw [hlink, hlow], by rw [hlink, hhigh]⟩
  · rw [hqual, s.portStarts_qual]
  · rw [hqual, s.portStarts_qual]

theorem State.driveLp_reg (s : State) (p a : Nat) : (s.driveLp p).reg a = s.reg a := rfl

/-- The state that remains of a port that is turned off, before the routes are looked at again. -/
def State.portStops (s : State) (p : Nat) : State :=
  let t := (((s.deactivate p).setReg (A.lineStatus p) 0).setReg (A.lineDefectLatch p) 0).driveLp p
  let x := t.port p
  t.setPort p { x with tx := [], rx := [], delin := .hunt, rxBips := [], txBips := [], lossSince := none, inSince := none,
                       outSince := none, downMark := false, clearSince := none }

theorem OnlyCells.portOff (s : State) (p : Nat) : OnlyCells (s.portStops p) (s.portOff p) := OnlyCells.routesChanged _

theorem isCellCount_lineStatus (p : Fin 16) : isCellCount (A.lineStatus p) = false := by
  have h : ∀ p : Fin 16, isCellCount (A.lineStatus p) = false := by decide
  exact h p

/-- A port that is turned off reads 0 in LINE_STATUS and holds no bytes. -/
theorem State.portOff_spec (s : State) (p : Fin 16) :
    (s.portOff p).reg (A.lineStatus p) = 0 ∧ ((s.portOff p).port p).tx = [] ∧ ((s.portOff p).port p).rx = [] := by
  obtain ⟨hstate, -, hregs⟩ := OnlyCells.portOff s p
  have hport : (s.portOff p).port p = (s.portStops p).port p := by
    have : (s.portOff p).ports = (s.portStops p).ports := by rw [hstate]
    simp only [State.port, this]
  refine ⟨?_, ?_, ?_⟩
  · have hne : A.lineStatus p ≠ A.lineDefectLatch p := by unfold A.lineStatus A.lineDefectLatch; omega
    have hstop : (s.portStops p).reg (A.lineStatus p) =
        (((s.deactivate p).setReg (A.lineStatus p) 0).setReg (A.lineDefectLatch p) 0).reg (A.lineStatus p) := by
      rw [State.portStops, State.setPort_reg, State.driveLp_reg]
    rw [hregs _ (isCellCount_lineStatus p), hstop, State.reg_setReg_ne _ _ hne, State.reg_setReg_same]
  · rw [hport, State.portStops, State.port_setPort, if_pos rfl]
  · rw [hport, State.portStops, State.port_setPort, if_pos rfl]

/-! ### The CMIS mailbox (R172) -/

theorem exec_lineEnable {s : State} (p : Fin 16) (v : Word) (h : s.accepts (A.lineCtrl p) = true) :
    exec (.lineEnable p v) s = .next (s.writeLineCtrl p v) :=
  congrArg _ (State.onAccess_accepted (fun s => s.writeLineCtrl p v) h)

theorem exec_lineDisable {s : State} (p : Fin 16) (v : Word) (h : s.accepts (A.lineCtrl p) = true) :
    exec (.lineDisable p v) s = .next (s.writeLineCtrl p v) :=
  congrArg _ (State.onAccess_accepted (fun s => s.writeLineCtrl p v) h)

theorem exec_cmisGo {s : State} (p : Fin 16) (v : Word) (reply : Option Byte) (h : s.accepts (A.lineCmisCtrl p) = true) :
    exec (.cmisGo p v reply) s = .next (s.cmis p v reply) :=
  congrArg _ (State.onAccess_accepted (fun s => s.cmis p v reply) h)

/-- Without a module an access shows status 3. -/
theorem State.cmis_absent (s : State) {p : Nat} {v : Word} (reply : Option Byte) (hgo : bit v 31 = true)
    (hmod : (s.writeFields (A.lineCmisCtrl p) v).modPresent p = false) :
    s.cmis p v reply = (s.writeFields (A.lineCmisCtrl p) v).setF (A.lineCmisData p) 8 2 3 := by
  simp [State.cmis, hgo, hmod]

/-- A module that does not answer a read gives status 1. -/
theorem State.cmis_unanswered (s : State) {p : Nat} {v : Word} (hgo : bit v 31 = true)
    (hmod : (s.writeFields (A.lineCmisCtrl p) v).modPresent p = true) (hread : bit v 24 = false) :
    s.cmis p v none = (s.writeFields (A.lineCmisCtrl p) v).setF (A.lineCmisData p) 8 2 1 := by
  simp [State.cmis, hgo, hmod, hread]

/-- An answered read shows status 0 and the byte. -/
theorem State.cmis_answered (s : State) {p : Nat} {v : Word} (b : Byte) (hgo : bit v 31 = true)
    (hmod : (s.writeFields (A.lineCmisCtrl p) v).modPresent p = true) (hread : bit v 24 = false) :
    s.cmis p v (some b) = (((s.writeFields (A.lineCmisCtrl p) v).setF (A.lineCmisData p) 8 2 0).setF (A.lineCmisData p) 0 8 b.toNat).emit
      (.cmisRead p (fld v 0 8 + 256 * fld v 8 8) (fld v 16 8)) := by
  simp [State.cmis, hgo, hmod, hread]

/-- CMIS_CTRL has a row in the register map. -/
theorem lineCmisCtrl_row (p : Fin 16) : ∃ r i j, regAt (A.lineCmisCtrl p) = some (r, i, j) := by
  have h : ∀ p : Fin 16, (regAt (A.lineCmisCtrl p)).isSome = true := by decide
  obtain ⟨⟨r, i, j⟩, hrow⟩ := Option.isSome_iff_exists.mp (h p)
  exact ⟨r, i, j, hrow⟩

/-- A write of CMIS_CTRL leaves every other register. -/
theorem State.writeCmisCtrl_reg (s : State) (p : Fin 16) (v : Word) {a : Nat} (h : a ≠ A.lineCmisCtrl p) :
    (s.writeFields (A.lineCmisCtrl p) v).reg a = s.reg a ∧ (s.writeFields (A.lineCmisCtrl p) v).sreg a = s.sreg a := by
  obtain ⟨r, i, j, hrow⟩ := lineCmisCtrl_row p
  exact ⟨by rw [State.writeFields_reg v hrow, if_neg h], by rw [State.writeFields_sreg v hrow, if_neg h]⟩

theorem State.writeCmisCtrl_modPresent (s : State) (p : Fin 16) (v : Word) :
    (s.writeFields (A.lineCmisCtrl p) v).modPresent p = s.modPresent p := by
  have hne : A.lineModStatus p ≠ A.lineCmisCtrl p := by unfold A.lineModStatus A.lineCmisCtrl; omega
  simp only [State.modPresent, State.b, (s.writeCmisCtrl_reg p v hne).1]

/-- An access to a module changes the two mailbox registers and the faces alone. -/
def OnlyMailbox (p : Nat) (s t : State) : Prop := OnlyRegs s t ∧ SameRegs [A.lineCmisCtrl p, A.lineCmisData p] s t

theorem OnlyMailbox.writeFields (s : State) (p : Fin 16) (v : Word) : OnlyMailbox p s (s.writeFields (A.lineCmisCtrl p) v) :=
  ⟨OnlyRegs.writeFields s _ v, fun _ ha => s.writeCmisCtrl_reg p v (by rintro rfl; simp at ha)⟩

/-- Showing a status or a byte in CMIS_DATA. -/
theorem OnlyMailbox.setF {s t : State} {p : Nat} (lo n v : Nat) (h : OnlyMailbox p s t) :
    OnlyMailbox p s (t.setF (A.lineCmisData p) lo n v) := by
  refine ⟨h.1.trans (OnlyRegs.setF t _ lo n v), fun a ha => ?_⟩
  have hne : a ≠ A.lineCmisData p := by rintro rfl; simp at ha
  rw [State.reg_setF_ne t _ _ _ hne, State.setF_sreg]
  exact h.2 a ha

theorem OnlyMailbox.emit {s t : State} {p : Nat} (e : Sent) (h : OnlyMailbox p s t) : OnlyMailbox p s (t.emit e) :=
  ⟨h.1.trans (OnlyRegs.emit t e), h.2⟩

theorem OnlyMailbox.frame {s t : State} {p : Nat} (h : OnlyMailbox p s t) :
    SameBytes s t ∧ SameEngines s t ∧ SameLines s t ∧ SameLight s t ∧ SameBase s t ∧ SameHost s t ∧
      SameRegs [A.lineCmisCtrl p, A.lineCmisData p] s t := by
  obtain ⟨hbytes, hengines, hlines, hlight, hbase, hhost⟩ := h.1.frame
  exact ⟨hbytes, hengines, hlines, hlight, hbase, hhost, h.2⟩

/-- Settles O45: a port that is turned on or off changes only port, route and scheduler state; a CMIS access only its two registers. -/
theorem portsAreTurnedOnAndOff : Obligations.PortsAreTurnedOnAndOff := by
  refine ⟨?_, ?_, ?_, ?_, ?_⟩
  · intro s p v hacc hlic hoff hv hgood
    obtain ⟨hen, hqual⟩ := (s.writeFields (A.lineCtrl p) v).portOn_spec p
    have hframe : SameButPorts s ((s.writeFields (A.lineCtrl p) v).portOn p) :=
      ((SameButPorts.writeFields s _ v).trans (SameButPorts.portStarts _ p)).trans (OnlyPort.portOn _ p).sameButPorts
    obtain ⟨hpassed, hleft, hlow, hhigh⟩ := hqual
    refine ⟨_, by rw [exec_lineEnable p v hacc, s.writeLineCtrl_on hlic hoff hv hgood], ?_, hpassed, hleft, hlow, hhigh, hframe⟩
    rw [hen, s.portEnabled_writeFields, hv]
  · intro s p v hacc hon hv
    obtain ⟨hstatus, htx, hrx⟩ := (s.writeFields (A.lineCtrl p) v).portOff_spec p
    have hoff := OnlyPort.portOff p (s.writeFields (A.lineCtrl p) v)
    refine ⟨_, by rw [exec_lineDisable p v hacc, s.writeLineCtrl_off hon hv], ?_, hstatus, htx, hrx,
      (SameButPorts.writeFields s _ v).trans hoff.sameButPorts⟩
    obtain ⟨-, -, -, -, hregs⟩ := hoff
    rw [State.portEnabled, State.b, hregs _ (isPortStatus_lineCtrl p)]
    exact (s.portEnabled_writeFields p v).trans hv
  · intro s p v hacc hp hv hlic
    obtain ⟨hregs, hbytes, hengines, hlines, hlight, hbase, -⟩ := OnlyReports.accessError s 7 (A.lineCtrl p)
    have hline : isReportReg (A.lineCtrl p) = false := by
      have h : ∀ p : Fin 16, isReportReg (A.lineCtrl p) = false := by decide
      exact h p
    exact ⟨_, by rw [exec_lineEnable p v hacc, s.writeLineCtrl_unlicensed hp hv hlic], (hregs _ hline).1, s.accessError_count _ _, hbytes,
      hengines, hlines, hlight, hbase, hregs⟩
  · intro s p v reply hacc hgo hmod
    refine ⟨s.cmis p v reply, exec_cmisGo p v reply hacc, ?_⟩
    rw [s.cmis_absent reply hgo (by rw [s.writeCmisCtrl_modPresent, hmod])]
    exact ⟨State.f_setF_same _ _ _ _ _ (by omega), by rw [State.setF_outbox, State.writeFields_outbox],
      ((OnlyMailbox.writeFields s p v).setF 8 2 3).frame⟩
  · intro s p v reply hacc hgo hmod hread
    have hmod' : (s.writeFields (A.lineCmisCtrl p) v).modPresent p = true := by rw [s.writeCmisCtrl_modPresent, hmod]
    refine ⟨s.cmis p v reply, exec_cmisGo p v reply hacc, ?_⟩
    cases reply with
    | none =>
      rw [s.cmis_unanswered hgo hmod' hread]
      exact ⟨State.f_setF_same _ _ _ _ _ (by omega), fun b hb => (Option.some_ne_none b hb.symm).elim,
        ((OnlyMailbox.writeFields s p v).setF 8 2 1).frame⟩
    | some b =>
      rw [s.cmis_answered b hgo hmod' hread]
      refine ⟨?_, fun c hc => ?_, ((((OnlyMailbox.writeFields s p v).setF 8 2 0).setF 0 8 b.toNat).emit _).frame⟩
      · rw [State.emit_f, State.f_setF_ne _ _ _ _ _ _ _ _ (by omega) (by omega), State.f_setF_same _ _ _ _ _ (by omega),
          if_neg (Option.some_ne_none b)]
        rfl
      · rw [← Option.some.inj hc]
        refine ⟨?_, ?_⟩
        · rw [State.emit_f, State.f_setF_same _ _ _ _ _ (by omega)]
          exact Nat.mod_eq_of_lt b.isLt
        · rw [State.emit, State.setF_outbox, State.setF_outbox, State.writeFields_outbox]

end Sys2Proof.Machine
end

section
/-! COMMIT: the snapshot, its check and the outcome shown (18_host_interface.md R342-R344). -/
namespace Sys2Proof.Machine

/-! ### The commit record of a block -/

theorem State.commitOf_setCommit (s : State) (b : Block) (c : Commit) : (s.setCommit b c).commitOf b = c := by
  rw [State.commitOf, State.setCommit, Sparse.get_put_same]

theorem State.commitOf_of_commits_eq {s t : State} (h : t.commits = s.commits) (b : Block) : t.commitOf b = s.commitOf b := by
  simp only [State.commitOf, h]

/-- What a command of COMMIT may change beside registers: the commits, the faces, the wake event and the banks of Landing. -/
def OnlyCommit (s t : State) : Prop :=
  t = { s with regs := t.regs, outbox := t.outbox, commits := t.commits, power := t.power, lnd := t.lnd }

theorem OnlyCommit.refl (s : State) : OnlyCommit s s := rfl

theorem OnlyCommit.trans {s t u : State} (h : OnlyCommit s t) (g : OnlyCommit t u) : OnlyCommit s u := by
  unfold OnlyCommit at h g ⊢
  rw [g, h]

theorem OnlyCommit.setReg (s : State) (a : Nat) (v : Word) : OnlyCommit s (s.setReg a v) := rfl
theorem OnlyCommit.setF (s : State) (a lo n v : Nat) : OnlyCommit s (s.setF a lo n v) := rfl
theorem OnlyCommit.setB (s : State) (a lo : Nat) (v : Bool) : OnlyCommit s (s.setB a lo v) := rfl
theorem OnlyCommit.setCommit (s : State) (b : Block) (c : Commit) : OnlyCommit s (s.setCommit b c) := rfl
theorem OnlyCommit.markMoving (s : State) (w : Word) : OnlyCommit s (s.markMoving w) := rfl
theorem OnlyCommit.applySet (s : State) (b : Block) (x : StagedSet) : OnlyCommit s (s.applySet b x) := rfl

theorem OnlyCommit.showOutcome (s : State) (b : Block) (last reason item : Nat) : OnlyCommit s (s.showOutcome b last reason item) :=
  ((OnlyCommit.setF s _ _ _ _).trans (OnlyCommit.setF _ _ _ _ _)).trans (OnlyCommit.setReg _ _ _)

theorem OnlyCommit.raiseVector (s : State) (v : Nat) : OnlyCommit s (s.raiseVector v) := by
  unfold State.raiseVector State.sendVector
  split <;> rfl

theorem OnlyCommit.frame {s t : State} (h : OnlyCommit s t) :
    SameBytes s t ∧ t.que = s.que ∧ t.cle = s.cle ∧ t.rue = s.rue ∧ t.gal = s.gal ∧ t.delivered = s.delivered ∧ SameLines s t ∧
      SameLight s t ∧ t.log = s.log ∧ t.host = s.host ∧ t.rlatch = s.rlatch ∧ ∀ a, t.sreg a = s.sreg a := by
  rw [h]
  exact ⟨⟨fun _ => rfl, fun _ => rfl, fun _ => rfl, fun _ => rfl, fun _ => rfl⟩, rfl, rfl, rfl, rfl, rfl, ⟨rfl, rfl, rfl, rfl⟩,
    ⟨rfl, rfl⟩, rfl, rfl, rfl, fun _ => rfl⟩

/-! ### The registers of COMMIT -/

theorem commitStatus_ne_detail (b : Block) : commitStatus b ≠ commitDetail b := by unfold commitStatus commitDetail; omega
theorem commitStatus_ne_seq (b : Block) : commitStatus b ≠ commitSeq b := by unfold commitStatus commitSeq; omega

theorem busyReason_lt (b : Block) : busyReason b < 256 := by cases b <;> simp [busyReason]

/-- What an outcome shows. -/
theorem State.showOutcome_spec (s : State) (b : Block) {last reason : Nat} (item : Nat) (hl : last < 4) (hr : reason < 256) :
    (s.showOutcome b last reason item).f (commitStatus b) 0 2 = last ∧ (s.showOutcome b last reason item).f (commitStatus b) 16 8 = reason ∧
      (s.showOutcome b last reason item).reg (commitDetail b) = BitVec.ofNat 32 item := by
  unfold State.showOutcome
  refine ⟨?_, ?_, State.reg_setReg_same _ _ _⟩
  · rw [State.f_setReg_ne _ _ _ _ (commitStatus_ne_detail b), State.f_setF_ne _ _ _ _ _ _ _ _ (by omega) (by omega),
      State.f_setF_same _ _ _ _ _ (by omega)]
    exact Nat.mod_eq_of_lt hl
  · rw [State.f_setReg_ne _ _ _ _ (commitStatus_ne_detail b), State.f_setF_same _ _ _ _ _ (by omega)]
    exact Nat.mod_eq_of_lt hr

theorem State.showOutcome_reg (s : State) (b : Block) (last reason item : Nat) {a : Nat} (hs : a ≠ commitStatus b)
    (hd : a ≠ commitDetail b) : (s.showOutcome b last reason item).reg a = s.reg a := by
  unfold State.showOutcome
  rw [State.reg_setReg_ne _ _ hd, State.reg_setF_ne _ _ _ _ hs, State.reg_setF_ne _ _ _ _ hs]

@[simp] theorem State.showOutcome_commits (s : State) (b : Block) (last reason item : Nat) :
    (s.showOutcome b last reason item).commits = s.commits := by
  rw [State.showOutcome, State.setReg_commits, State.setF_commits, State.setF_commits]
@[simp] theorem State.showOutcome_lnd (s : State) (b : Block) (last reason item : Nat) :
    (s.showOutcome b last reason item).lnd = s.lnd := by
  rw [State.showOutcome, State.setReg_lnd, State.setF_lnd, State.setF_lnd]

/-! ### GO (R342, R343) -/

/-- The wake event of a GO. -/
def State.wakeCommit (s : State) (b : Block) : State := if b = .cle ∨ b = .lnd ∨ b = .cmp then s.wakeEvent else s

theorem State.wakeCommit_power (s : State) (b : Block) : s.wakeCommit b = { s with power := (s.wakeCommit b).power } := by
  unfold State.wakeCommit State.wakeEvent
  split
  · split <;> rfl
  · rfl

theorem OnlyCommit.wakeCommit (s : State) (b : Block) : OnlyCommit s (s.wakeCommit b) := by
  rw [State.wakeCommit_power]
  rfl

/-- The refusals of a set do not depend on the power state. -/
theorem State.refusals_power (s : State) (p : Power) (b : Block) (x : StagedSet) :
    ({ s with power := p }).refusals b x = s.refusals b x := by
  cases b <;> rfl

theorem exec_commitGo {s : State} (b : Block) (h : s.power.state = .service) : exec (.commitGo b) s = .next ((s.wakeCommit b).submit b) := by
  have hserved : s.commitServed = true := by simp [State.commitServed, h]
  have hgo : s.commitGo b = (s.wakeCommit b).submit b := by simp [State.commitGo, hserved, State.wakeCommit]
  exact congrArg _ hgo

/-- GO during a check or with a set pending. -/
theorem State.submit_busy {s : State} {b : Block} (h : ((s.commitOf b).checking.isSome || (s.commitOf b).accepted.isSome) = true) :
    s.submit b = s.showOutcome b 2 (busyReason b) 0 := by
  simp only [State.submit, h, if_true]

/-- The check of a set with a readable table; Landing's banks that are to move are marked. -/
theorem State.checkSet_readable {s : State} {b : Block} (x : StagedSet) (h : b = .cle → s.stagedPoison = none) :
    s.checkSet b x = (if b = .lnd ∧ (lowestRefusal (s.refusals b x)).1 = 0 then s.markMoving (x.rd A.lndPoolBanks) else s,
      lowestRefusal (s.refusals b x)) := by
  have hp : (if b = .cle then s.stagedPoison else none) = none := by
    split
    · next hb => exact h hb
    · rfl
  simp only [State.checkSet, hp]

/-- GO of an idle block: the check of its snapshot begins. -/
theorem State.submit_idle {s : State} {b : Block} (hc : s.commitOf b = {}) (hp : b = .cle → s.stagedPoison = none) :
    s.submit b =
      ((s.checkSet b (s.snapshot b)).1.setCommit b
        { checking := some (s.snapshot b, lowestRefusal (s.refusals b (s.snapshot b))) }).setF (commitStatus b) 0 2 1 := by
  simp only [State.submit, hc, s.checkSet_readable _ hp, Option.isSome_none, Bool.or_self, Bool.false_eq_true, if_false]

/-- A check changes no register. -/
theorem State.checkSet_fst {s : State} {b : Block} (x : StagedSet) (h : b = .cle → s.stagedPoison = none) :
    OnlyCommit s (s.checkSet b x).1 ∧ (s.checkSet b x).1.regs = s.regs := by
  rw [s.checkSet_readable x h]
  dsimp only
  split
  · exact ⟨OnlyCommit.markMoving s _, rfl⟩
  · exact ⟨OnlyCommit.refl s, rfl⟩

end Sys2Proof.Machine
end

section
/-! COMMIT: an accepted set replaces the staged registers of its block (18_host_interface.md R343). -/
namespace Sys2Proof.Machine

/-! ### Maps whose entries are filtered or replaced -/

/-- A filter by keys keeps what the kept keys read as. -/
theorem Sparse.get_filter_key {V : Type} (d : Nat → V) (p : Nat → Bool) (m : Sparse V) (k : Nat) :
    Sparse.get d (m.filter (fun e => p e.1)) k = if p k = true then Sparse.get d m k else d k := by
  induction m with
  | nil => simp [Sparse.get]
  | cons e r ih =>
    obtain ⟨j, v⟩ := e
    by_cases hj : p j = true
    · rw [List.filter_cons_of_pos (by simpa using hj)]
      by_cases hk : j = k
      · simp [Sparse.get, ← hk, hj]
      · simp [Sparse.get, hk, ih]
    · rw [List.filter_cons_of_neg (by simpa using hj), ih]
      by_cases hk : j = k
      · simp [← hk, hj]
      · simp [Sparse.get, hk]

theorem Sparse.get_of_not_mem {V : Type} (d : Nat → V) {m : Sparse V} {k : Nat} (h : ∀ e ∈ m, e.1 ≠ k) : Sparse.get d m k = d k := by
  induction m with
  | nil => rfl
  | cons e r ih =>
    obtain ⟨j, v⟩ := e
    rw [Sparse.get, if_neg (h (j, v) List.mem_cons_self), ih (fun e he => h e (List.mem_cons_of_mem _ he))]

/-- Entries of a canonical map written over another map are read back. -/
theorem Sparse.get_foldl_put_entries {V : Type} [DecidableEq V] (d : Nat → V) (es : Sparse V) {lo : Nat}
    (h : Sparse.wfFrom d lo es = true) (m : Sparse V) (k : Nat) :
    Sparse.get d (es.foldl (fun m e => Sparse.put d m e.1 e.2) m) k =
      if ∃ e ∈ es, e.1 = k then Sparse.get d es k else Sparse.get d m k := by
  induction es generalizing m lo with
  | nil => simp
  | cons e r ih =>
    obtain ⟨j, v⟩ := e
    simp only [Sparse.wfFrom, Bool.and_eq_true] at h
    rw [List.foldl_cons, ih h.2]
    by_cases hr : ∃ e ∈ r, e.1 = k
    · obtain ⟨e, he, hek⟩ := hr
      have hj : j ≠ k := by
        have := (Sparse.ne_of_mem d h.2 he).1
        omega
      simp [Sparse.get, hj, show ∃ e ∈ r, e.1 = k from ⟨e, he, hek⟩]
    · by_cases hj : j = k
      · simp [hr, hj, Sparse.get]
      · simp [hr, hj, Sparse.get_put, Ne.symm hj]

/-! ### The staged set -/

/-- The entries of a snapshot are staged registers of its block. -/
def StagedSet.ofBlock (x : StagedSet) (b : Block) : Prop :=
  x.regs.wf regReset = true ∧ ∀ e ∈ x.regs, inBlock b e.1 = true ∧ isStaged e.1 = true

/-- Every staged register of the block reads as in the set, every other register as before. -/
theorem State.applySet_reg (s : State) {b : Block} {x : StagedSet} (hx : x.ofBlock b) (a : Nat) :
    (s.applySet b x).reg a = if inBlock b a = true ∧ isStaged a = true then x.rd a else s.reg a := by
  obtain ⟨hwf, hkeys⟩ := hx
  have h := Sparse.get_foldl_put_entries regReset x.regs hwf (s.regs.filter (fun e => !(inBlock b e.1 && isStaged e.1))) a
  rw [Sparse.get_filter_key regReset (fun k => !(inBlock b k && isStaged k))] at h
  refine Eq.trans h ?_
  by_cases hk : ∃ e ∈ x.regs, e.1 = a
  · obtain ⟨e, he, rfl⟩ := hk
    rw [if_pos ⟨e, he, rfl⟩, if_pos (hkeys e he)]
    rfl
  · rw [if_neg hk]
    by_cases ha : inBlock b a = true ∧ isStaged a = true
    · have hrd : x.rd a = regReset a := by
        exact Sparse.get_of_not_mem regReset (fun e he hea => hk ⟨e, he, hea⟩)
      simp [ha, hrd]
    · have hfree : (!(inBlock b a && isStaged a)) = true := by
        rw [Bool.not_eq_true', Bool.and_eq_false_iff]
        rw [not_and_or, Bool.not_eq_true, Bool.not_eq_true] at ha
        exact ha
      rw [if_neg ha, if_pos hfree]
      rfl

/-! ### DONE (R343) -/

/-- Addresses of a block with staged fields lie above the pending bits. -/
theorem inBlock_above {b : Block} {a : Nat} (h : inBlock b a = true) : 0xA040 ≤ a := by
  simp only [inBlock, Bool.and_eq_true, decide_eq_true_eq] at h
  have : 0x600000 ≤ blockBase b := by cases b <;> simp only [blockBase] <;> omega
  omega

theorem inBlock_commit (b : Block) : inBlock b (commitStatus b) = true ∧ inBlock b (commitDetail b) = true ∧ inBlock b (commitSeq b) = true := by
  have : 0x20000 ≤ blockSize b := by cases b <;> simp [blockSize]
  have hin (k : Nat) (hk : k < 0x20000) : inBlock b (blockBase b + k) = true := by
    simp only [inBlock, Bool.and_eq_true, decide_eq_true_eq]
    omega
  exact ⟨hin _ (by decide), hin _ (by decide), hin _ (by decide)⟩

/-- Raising COMMIT_VECTOR changes no register above the pending bits. -/
theorem State.raiseVector_reg_above (s : State) {v a : Nat} (hv : v < 512) (ha : 0xA040 ≤ a) : (s.raiseVector v).reg a = s.reg a :=
  s.raiseVector_reg (by unfold A.topMsixPba; omega)

/-- DONE takes the number of ACCEPTED, and PENDING clears. -/
def State.markDone (s : State) (b : Block) : State :=
  (s.setB (commitStatus b) 8 false).setF (commitSeq b) 16 16 ((s.setB (commitStatus b) 8 false).f (commitSeq b) 0 16)

theorem State.commitDone_eq (s : State) (b : Block) :
    s.commitDone b = if (s.markDone b).b A.topIrqCtrl 31 then (s.markDone b).raiseVector ((s.markDone b).f A.topIrqCtrl 16 9)
      else s.markDone b := rfl

theorem OnlyCommit.commitDone (s : State) (b : Block) : OnlyCommit s (s.commitDone b) := by
  have h : OnlyCommit s (s.markDone b) := (OnlyCommit.setB s _ _ _).trans (OnlyCommit.setF _ _ _ _ _)
  rw [State.commitDone_eq]
  split
  · exact h.trans (OnlyCommit.raiseVector _ _)
  · exact h

theorem State.commitDone_reg (s : State) (b : Block) {a : Nat} (ha : 0xA040 ≤ a) : (s.commitDone b).reg a = (s.markDone b).reg a := by
  rw [State.commitDone_eq]
  split
  · exact State.raiseVector_reg_above _ (fld_lt _ 16 9) ha
  · rfl

theorem State.markDone_reg (s : State) (b : Block) {a : Nat} (hs : a ≠ commitStatus b) (hq : a ≠ commitSeq b) :
    (s.markDone b).reg a = s.reg a := by
  rw [State.markDone, State.reg_setF_ne _ _ _ _ hq, State.reg_setB_ne _ _ _ hs]

@[simp] theorem State.markDone_commits (s : State) (b : Block) : (s.markDone b).commits = s.commits := by
  rw [State.markDone, State.setF_commits, State.setB_commits]

@[simp] theorem State.markDone_lnd (s : State) (b : Block) : (s.markDone b).lnd = s.lnd := by
  rw [State.markDone, State.setF_lnd, State.setB_lnd]

@[simp] theorem State.raiseVector_commits (s : State) (v : Nat) : (s.raiseVector v).commits = s.commits := by
  unfold State.raiseVector State.sendVector
  split <;> rfl

@[simp] theorem State.raiseVector_lnd (s : State) (v : Nat) : (s.raiseVector v).lnd = s.lnd := by
  unfold State.raiseVector State.sendVector
  split <;> rfl

@[simp] theorem State.commitDone_commits (s : State) (b : Block) : (s.commitDone b).commits = s.commits := by
  rw [State.commitDone_eq]
  split
  · rw [State.raiseVector_commits, State.markDone_commits]
  · exact s.markDone_commits b

@[simp] theorem State.commitDone_lnd (s : State) (b : Block) : (s.commitDone b).lnd = s.lnd := by
  rw [State.commitDone_eq]
  split
  · rw [State.raiseVector_lnd, State.markDone_lnd]
  · exact s.markDone_lnd b

/-- After DONE: nothing pends, and DONE equals ACCEPTED, which stays. -/
theorem State.commitDone_spec (s : State) (b : Block) :
    (s.commitDone b).b (commitStatus b) 8 = false ∧ (s.commitDone b).f (commitSeq b) 16 16 = s.f (commitSeq b) 0 16 ∧
      (s.commitDone b).f (commitSeq b) 0 16 = s.f (commitSeq b) 0 16 ∧
      (s.commitDone b).f (commitStatus b) 0 2 = s.f (commitStatus b) 0 2 := by
  obtain ⟨hst, -, hsq⟩ := inBlock_commit b
  have hne : commitSeq b ≠ commitStatus b := (commitStatus_ne_seq b).symm
  have hseq : (s.setB (commitStatus b) 8 false).f (commitSeq b) 0 16 = s.f (commitSeq b) 0 16 :=
    State.f_setB_ne _ _ _ _ _ _ _ (by omega) (.inl hne)
  refine ⟨?_, ?_, ?_, ?_⟩
  · rw [State.b, s.commitDone_reg b (inBlock_above hst)]
    exact (State.b_setF_ne _ _ _ _ _ _ _ (by omega) (.inl hne.symm)).trans (State.b_setB_same _ _ _ _ (by omega))
  · rw [State.f, s.commitDone_reg b (inBlock_above hsq)]
    refine (State.f_setF_same _ _ _ _ _ (by omega)).trans ?_
    rw [hseq]
    exact Nat.mod_eq_of_lt (fld_lt _ 0 16)
  · rw [State.f, s.commitDone_reg b (inBlock_above hsq)]
    exact (State.f_setF_ne _ _ _ _ _ _ _ _ (by omega) (.inr (.inl (by omega)))).trans hseq
  · rw [State.f, s.commitDone_reg b (inBlock_above hst)]
    exact (State.f_setF_ne _ _ _ _ _ _ _ _ (by omega) (.inl hne.symm)).trans
      (State.f_setB_ne _ _ _ _ _ _ _ (by omega) (.inr (.inl (by omega))))

end Sys2Proof.Machine
end

section
/-! COMMIT: what an accepted set's effect on its block leaves of the set (18_host_interface.md R343; 09 R174; 13 R252). -/
namespace Sys2Proof.Machine

/-! ### The registers that an accepted set determines -/

theorem isStaged_commitStatus (b : Block) : isStaged (commitStatus b) = false := by
  have h : ∀ q : Fin 8, isStaged (commitStatus (.opt q)) = false := by decide
  cases b with
  | opt q => exact h q
  | _ => decide

theorem isStaged_commitSeq (b : Block) : isStaged (commitSeq b) = false := by
  have h : ∀ q : Fin 8, isStaged (commitSeq (.opt q)) = false := by decide
  cases b with
  | opt q => exact h q
  | _ => decide

/-- Staged registers of a block, and the two in which its COMMIT shows status and sequence. -/
def isSetReg (b : Block) (a : Nat) : Bool := inBlock b a && (isStaged a || decide (a = commitStatus b) || decide (a = commitSeq b))

/-- The commits stay, and so do the registers that an accepted set of the block determines. -/
def KeepsSet (b : Block) (s t : State) : Prop := t.commits = s.commits ∧ ∀ a, isSetReg b a = true → t.reg a = s.reg a

theorem KeepsSet.refl (b : Block) (s : State) : KeepsSet b s s := ⟨rfl, fun _ _ => rfl⟩

theorem KeepsSet.trans {b : Block} {s t u : State} (h : KeepsSet b s t) (g : KeepsSet b t u) : KeepsSet b s u :=
  ⟨g.1.trans h.1, fun a ha => (g.2 a ha).trans (h.2 a ha)⟩

theorem KeepsSet.foldl {b : Block} {α : Type} {run : State → α → State} (xs : List α) (s : State)
    (h : ∀ x ∈ xs, ∀ s, KeepsSet b s (run s x)) : KeepsSet b s (xs.foldl run s) := by
  induction xs generalizing s with
  | nil => exact KeepsSet.refl b s
  | cons x xs ih => exact (h x List.mem_cons_self s).trans (ih _ (fun y hy => h y (List.mem_cons_of_mem _ hy)))

theorem KeepsSet.setReg (b : Block) (s : State) {a : Nat} (v : Word) (h : isSetReg b a = false) : KeepsSet b s (s.setReg a v) :=
  ⟨rfl, fun c hc => State.reg_setReg_ne s _ (by rintro rfl; rw [h] at hc; cases hc)⟩

theorem KeepsSet.setB (b : Block) (s : State) {a : Nat} (lo : Nat) (v : Bool) (h : isSetReg b a = false) : KeepsSet b s (s.setB a lo v) :=
  KeepsSet.setReg b s _ h

theorem OnlyCells.keepsSet {b : Block} {s t : State} (h : OnlyCells s t) (hb : ∀ a, isSetReg b a = true → isCellCount a = false) :
    KeepsSet b s t := by
  obtain ⟨hstate, -, hregs⟩ := h
  exact ⟨by rw [hstate], fun a ha => hregs a (hb a ha)⟩

/-! ### DFL: circuits send on (13 R252) -/

/-- The registers of a row lie between its first and its last one. -/
theorem RegRow.index?_bounds {r : RegRow} {a : Nat} {ij : Nat × Nat} (h : r.index? a = some ij) :
    r.base ≤ a ∧ a ≤ r.base + (r.n0 - 1) * r.s0 + (r.n1 - 1) * r.s1 := by
  simp only [RegRow.index?] at h
  split at h
  · next hin =>
    obtain ⟨hbase, hn0, hn1, hmod⟩ := hin
    have h0 : (a - r.base) / r.s0 * r.s0 ≤ (r.n0 - 1) * r.s0 := Nat.mul_le_mul_right _ (by omega)
    have h1 : (a - r.base) % r.s0 / r.s1 * r.s1 ≤ (r.n1 - 1) * r.s1 := Nat.mul_le_mul_right _ (by omega)
    have e0 := Nat.div_add_mod' (a - r.base) r.s0
    have e1 := Nat.div_add_mod' ((a - r.base) % r.s0) r.s1
    omega
  · cases h

/-- An address outside every row with staged fields has none. -/
theorem isStaged_eq_false {a : Nat}
    (h : ∀ r ∈ rowsAt a, r.st ≠ 0 → a < r.base ∨ r.base + (r.n0 - 1) * r.s0 + (r.n1 - 1) * r.s1 < a) : isStaged a = false := by
  unfold isStaged
  split
  · next r i j hrow =>
    obtain ⟨r', hmem, hidx⟩ := List.exists_of_findSome?_eq_some hrow
    obtain ⟨ij, hij, heq⟩ := Option.map_eq_some_iff.mp hidx
    obtain rfl : r' = r := congrArg Prod.fst heq
    have hin := RegRow.index?_bounds hij
    by_contra hst
    have hout := h r' hmem (by simpa using hst)
    omega
  · rfl

/-- The device pointers of circuits are no staged registers. -/
theorem isSetReg_dflCircDevPtr {f c : Nat} (hf : f < 32) (hc : c < 32) : isSetReg .dfl (A.dflCircDevPtr f c) = false := by
  have hrows : ∀ r ∈ dflRows, r.st ≠ 0 → r.base + (r.n0 - 1) * r.s0 + (r.n1 - 1) * r.s1 < 0xE60000 ∨ 0xE64000 ≤ r.base := by
    decide
  have hblk : A.dflCircDevPtr f c / 0x100000 = 0xE := by unfold A.dflCircDevPtr; omega
  have hst : isStaged (A.dflCircDevPtr f c) = false := by
    refine isStaged_eq_false (fun r hr hne => ?_)
    simp only [rowsAt, hblk] at hr
    have hout := hrows r hr hne
    unfold A.dflCircDevPtr
    omega
  have hstatus : A.dflCircDevPtr f c ≠ commitStatus .dfl ∧ A.dflCircDevPtr f c ≠ commitSeq .dfl := by
    simp only [A.dflCircDevPtr, commitStatus, commitSeq, blockBase]
    omega
  simp [isSetReg, hst, hstatus]

theorem KeepsSet.setFib (b : Block) (s : State) (f : Nat) (x : Fibre) : KeepsSet b s (s.setFib f x) := ⟨rfl, fun _ _ => rfl⟩

theorem KeepsSet.galStore (b : Block) (s : State) (a : Nat) (bs : List Byte) : KeepsSet b s (s.galStore a bs) := ⟨rfl, fun _ _ => rfl⟩

theorem KeepsSet.ringWrite (b : Block) (s : State) (f c p : Nat) (bs : List Byte) : KeepsSet b s (s.ringWrite f c p bs) := by
  unfold State.ringWrite
  dsimp only
  split
  · exact KeepsSet.galStore b s _ _
  · exact (KeepsSet.galStore b s _ _).trans (KeepsSet.galStore b _ _ _)

theorem KeepsSet.drainCircuit {f c : Nat} (hf : f < 32) (hc : c < 32) (fuel : Nat) (s : State) :
    KeepsSet .dfl s (s.drainCircuit f c fuel) := by
  induction fuel generalizing s with
  | zero => exact KeepsSet.refl _ s
  | succ n ih =>
    unfold State.drainCircuit
    split
    · exact KeepsSet.refl _ s
    · split
      · exact KeepsSet.refl _ s
      · exact (((KeepsSet.setFib _ s _ _).trans (KeepsSet.ringWrite _ _ _ _ _ _)).trans
          (KeepsSet.setReg _ _ _ (isSetReg_dflCircDevPtr hf hc))).trans (ih _)

theorem KeepsSet.feedCircuit {f c : Nat} (hf : f < 32) (hc : c < 32) (fuel : Nat) (s : State) :
    KeepsSet .dfl s (s.feedCircuit f c fuel) := by
  induction fuel generalizing s with
  | zero => exact KeepsSet.refl _ s
  | succ n ih =>
    unfold State.feedCircuit
    dsimp only
    split
    · exact KeepsSet.refl _ s
    · exact ((KeepsSet.setFib _ s _ _).trans (KeepsSet.setReg _ _ _ (isSetReg_dflCircDevPtr hf hc))).trans (ih _)

theorem KeepsSet.feedCircuits {f : Nat} (hf : f < 32) (s : State) : KeepsSet .dfl s (s.feedCircuits f) := by
  refine KeepsSet.foldl _ s (fun c hc s => ?_)
  split
  · exact KeepsSet.feedCircuit hf (List.mem_range.mp hc) _ s
  · exact KeepsSet.refl _ s

theorem KeepsSet.applyFibre {f : Nat} (hf : f < 32) (s : State) : KeepsSet .dfl s (s.applyFibre f) := by
  unfold State.applyFibre
  dsimp only
  refine ((KeepsSet.setFib _ s f _).trans (KeepsSet.foldl _ _ (fun c hc s => ?_))).trans (KeepsSet.feedCircuits hf _)
  exact KeepsSet.drainCircuit hf (List.mem_range.mp hc) _ s

end Sys2Proof.Machine
end

section
/-! ROUTE: the collectives that an accepted route table leaves without a peer end, and nothing of the table changes by it
(04_collective_engine.md R99; 09_routes.md R174). -/
namespace Sys2Proof.Machine

/-- Registers outside block 6 are none of ROUTE's. -/
theorem isSetReg_route_out {a : Nat} (h : a < 0x600000 ∨ 0x700000 ≤ a) : isSetReg .route a = false := by
  have hin : inBlock .route a = false := by
    rw [Bool.eq_false_iff]
    intro hb
    simp only [inBlock, Bool.and_eq_true, decide_eq_true_eq] at hb
    simp only [blockBase, blockSize] at hb
    omega
  simp [isSetReg, hin]

theorem KeepsSet.setReg_out (s : State) {a : Nat} (v : Word) (h : a < 0x600000 ∨ 0x700000 ≤ a) : KeepsSet .route s (s.setReg a v) :=
  KeepsSet.setReg _ s v (isSetReg_route_out h)

theorem KeepsSet.setF_out (s : State) {a : Nat} (lo n v : Nat) (h : a < 0x600000 ∨ 0x700000 ≤ a) :
    KeepsSet .route s (s.setF a lo n v) := KeepsSet.setReg_out s _ h

theorem KeepsSet.bump_out (s : State) {a : Nat} (h : a < 0x600000 ∨ 0x700000 ≤ a) : KeepsSet .route s (s.bump a) :=
  KeepsSet.setReg_out s _ h

/-- Reports change no register of a block with staged fields. -/
theorem OnlyReports.keepsSet {s t : State} (b : Block) (h : OnlyReports s t) : KeepsSet b s t := by
  obtain ⟨hregs, -, -, -, -, -, -, -, -, -, hcommits⟩ := h
  refine ⟨hcommits, fun a ha => (hregs a ?_).1⟩
  have hin : inBlock b a = true := by
    simp only [isSetReg, Bool.and_eq_true] at ha
    exact ha.1
  have habove := inBlock_above hin
  have hbelow : a < 0xF00000 := by
    simp only [inBlock, Bool.and_eq_true, decide_eq_true_eq] at hin
    have : blockBase b + blockSize b ≤ 0xF00000 := by cases b <;> simp only [blockBase, blockSize] <;> omega
    omega
  simp only [isReportReg, Bool.or_eq_false_iff, Bool.and_eq_false_iff, decide_eq_false_iff_not]
  omega

theorem KeepsSet.logEvent (b : Block) (s : State) (e : Event) : KeepsSet b s (s.logEvent e) := (OnlyReports.logEvent s e).keepsSet b

theorem KeepsSet.raiseVector (b : Block) (s : State) {v : Nat} (h : v < 512) : KeepsSet b s (s.raiseVector v) :=
  (OnlyReports.raiseVector s h).keepsSet b

/-! ### The operating point and the phases (15_power_and_thermal.md R279-R284) -/

theorem KeepsSet.moveOpp (b : Block) (s : State) : KeepsSet b s s.moveOpp := by
  unfold State.moveOpp
  dsimp only
  split
  · split
    · exact ⟨rfl, fun _ _ => rfl⟩
    · exact ⟨rfl, fun _ _ => rfl⟩
  · exact KeepsSet.refl b s

theorem KeepsSet.chooseOpp (s : State) : KeepsSet .route s s.chooseOpp := by
  have hpoint (p : Nat) : KeepsSet .route s { s with power := { s.power with fitPoint := p } } := ⟨rfl, fun _ _ => rfl⟩
  exact (((hpoint _).trans (KeepsSet.moveOpp _ _)).trans (KeepsSet.setF_out _ _ _ _ (by decide))).trans
    (KeepsSet.setF_out _ _ _ _ (by decide))

theorem KeepsSet.learn (s : State) {n : Nat} (hn : n < 16) (o : PhaseOcc) : KeepsSet .route s (s.learn n o) := by
  unfold State.learn
  dsimp only
  refine ((KeepsSet.setReg_out s _ ?_).trans (KeepsSet.setF_out _ _ _ _ ?_)).trans (KeepsSet.setReg_out _ _ ?_)
  · unfold A.pwrPhaseEnv; omega
  · unfold A.pwrPhaseDur; omega
  · unfold A.pwrPhaseUnits; omega

theorem KeepsSet.setOcc (b : Block) (s : State) (n : Nat) (o : PhaseOcc) : KeepsSet b s (s.setOcc n o) := ⟨rfl, fun _ _ => rfl⟩

theorem KeepsSet.phaseRelease (s : State) {n : Nat} (hn : n < 16) : KeepsSet .route s (s.phaseRelease n) := by
  unfold State.phaseRelease
  dsimp only
  split
  · exact KeepsSet.refl _ s
  · split
    · refine KeepsSet.trans ?_ ((KeepsSet.setOcc _ _ _ _).trans (KeepsSet.chooseOpp _))
      split
      · exact KeepsSet.learn s hn _
      · exact KeepsSet.refl _ s
    · exact (KeepsSet.setOcc _ s _ _).trans (KeepsSet.chooseOpp _)

/-! ### Completion of an entry (03 R63-R66) -/

theorem KeepsSet.setQueue (b : Block) (s : State) (q : Nat) (x : Queue) : KeepsSet b s (s.setQueue q x) := ⟨rfl, fun _ _ => rfl⟩

theorem KeepsSet.qWrite (b : Block) (s : State) (q off : Nat) (bs : List Byte) : KeepsSet b s (s.qWrite q off bs) := by
  unfold State.qWrite
  dsimp only
  split
  · exact ⟨rfl, fun _ _ => rfl⟩
  · exact KeepsSet.galStore b s _ _

theorem KeepsSet.signalToken (s : State) (n : Nat) (ok : Bool) : KeepsSet .route s (s.signalToken n ok) := by
  have h1 : KeepsSet .route s (s.setReg (A.queToken n) (BitVec.ofNat 32 (s.tokenCount n + 1))) :=
    KeepsSet.setReg_out s _ (by unfold A.queToken; omega)
  unfold State.signalToken
  dsimp only
  split
  · exact h1
  · exact h1.trans (KeepsSet.setF_out _ _ _ _ (by unfold A.queTokenFail; omega))

theorem KeepsSet.completeEntry (s : State) (q : Nat) (e : QEntry) (status flags : Nat) (late : Bool) (detail : Nat) :
    KeepsSet .route s (s.completeEntry q e status flags late detail) := by
  have hirq (t : State) : KeepsSet .route t (if Desc.irq e.desc then t.raiseVector (t.qVector q) else t) := by
    split
    · exact KeepsSet.raiseVector _ t (fld_lt _ 16 9)
    · exact KeepsSet.refl _ t
  have htoken (t : State) : KeepsSet .route t
      (if Desc.signalEn e.desc then t.signalToken (Desc.signalToken e.desc) (statusOk status) else t) := by
    split
    · exact KeepsSet.signalToken t _ _
    · exact KeepsSet.refl _ t
  unfold State.completeEntry
  split
  · exact KeepsSet.refl _ s
  · exact ((((KeepsSet.qWrite _ s _ _ _).trans (KeepsSet.setQueue _ _ _ _)).trans (KeepsSet.qWrite _ _ _ _ _)).trans (htoken _)).trans
      (hirq _)

theorem Desc.phaseId_lt (d : Desc) : Desc.phaseId d < 16 := by
  unfold Desc.phaseId
  exact Nat.mod_lt _ (by decide)

theorem KeepsSet.completeStarted (s : State) (q : Nat) (e : QEntry) (status flags : Nat) (late : Bool) (detail : Nat) :
    KeepsSet .route s (s.completeStarted q e status flags late detail) := by
  unfold State.completeStarted
  dsimp only
  split
  · exact KeepsSet.refl _ s
  · exact ((KeepsSet.setQueue _ s _ _).trans (KeepsSet.phaseRelease _ (Desc.phaseId_lt _))).trans (KeepsSet.completeEntry _ _ _ _ _ _ _)

/-! ### Landing buffers and messages -/

theorem KeepsSet.freeBuffer (s : State) (c x : Nat) : KeepsSet .route s (s.freeBuffer c x) := by
  unfold State.freeBuffer
  dsimp only
  split
  · exact (KeepsSet.bump_out s (by decide)).trans (KeepsSet.logEvent _ _ _)
  · split
    · exact ⟨rfl, fun _ _ => rfl⟩
    · exact (KeepsSet.bump_out s (by decide)).trans (KeepsSet.logEvent _ _ _)

theorem KeepsSet.freeAll (s : State) (c : Nat) (xs : List Nat) : KeepsSet .route s (s.freeAll c xs) :=
  KeepsSet.foldl xs s (fun x _ s => KeepsSet.freeBuffer s c x)

theorem KeepsSet.sendMsgAll (b : Block) (s : State) (e : Nat) (msg : List Byte) : KeepsSet b s (s.sendMsgAll e msg) :=
  KeepsSet.foldl _ s (fun _ _ _ => ⟨rfl, fun _ _ => rfl⟩)

theorem KeepsSet.sendFabricMsg (b : Block) (s : State) (dst : Nat) (msg : List Byte) : KeepsSet b s (s.sendFabricMsg dst msg) :=
  (KeepsSet.setFib b s _ _).trans (KeepsSet.setFib b _ _ _)

/-! ### A collective ends (04 R99-R101) -/

theorem KeepsSet.endMap (s : State) (x : Inst) (ok : Bool) : KeepsSet .route s (s.endMap x ok) := by
  unfold State.endMap
  split
  · exact KeepsSet.refl _ s
  · split
    · exact KeepsSet.setReg_out s _ (by unfold A.cleMapCtrl; omega)
    · exact KeepsSet.setF_out s _ _ _ (by unfold A.cleMapCtrl; omega)

theorem KeepsSet.endInst (s : State) (g status detail : Nat) : KeepsSet .route s (s.endInst g status detail) := by
  have hcle (t : State) (x : Cle) : KeepsSet .route t { t with cle := x } := ⟨rfl, fun _ _ => rfl⟩
  unfold State.endInst
  split
  · exact KeepsSet.refl _ s
  · exact ((((hcle s _).trans (KeepsSet.freeAll _ _ _)).trans (hcle _ _)).trans (KeepsSet.endMap _ _ _)).trans
      (KeepsSet.completeStarted _ _ _ _ _ _ _)

theorem KeepsSet.sendAbort (b : Block) (s : State) (gr : Group) (me : Nat) (msg : List Byte) : KeepsSet b s (s.sendAbort gr me msg) :=
  (KeepsSet.foldl _ s (fun e _ s => KeepsSet.sendMsgAll b s e msg)).trans
    (KeepsSet.foldl _ _ (fun n _ s => KeepsSet.sendFabricMsg b s n msg))

theorem KeepsSet.decideAbort (s : State) (g : Nat) (gr : Group) (me n reason : Nat) : KeepsSet .route s (s.decideAbort g gr me n reason) :=
  (KeepsSet.bump_out s (by unfold A.cleCnt; omega)).trans (KeepsSet.sendAbort _ _ _ _ _)

theorem KeepsSet.abortInst (s : State) (g reason : Nat) : KeepsSet .route s (s.abortInst g reason) := by
  unfold State.abortInst
  split
  · exact KeepsSet.refl _ s
  · unfold State.failInst
    split
    · exact KeepsSet.refl _ s
    · exact (KeepsSet.decideAbort s _ _ _ _ _).trans (KeepsSet.endInst _ _ _ _)

theorem KeepsSet.abortUnreached (s : State) : KeepsSet .route s s.abortUnreached := by
  refine KeepsSet.foldl _ s (fun i _ s => ?_)
  split
  · exact KeepsSet.refl _ s
  · split
    · exact KeepsSet.abortInst s _ _
    · exact KeepsSet.refl _ s

end Sys2Proof.Machine
end

section
/-! COMMIT: accepted sets take effect (18_host_interface.md R342-R344). -/
namespace Sys2Proof.Machine

/-! ### The effect on a block -/

/-- Beyond the set itself, an accepted set's effect leaves the registers that the set determines. GAL's set has taken effect when it
was accepted. -/
theorem KeepsSet.applyBlock (s : State) {b : Block} (x : StagedSet) (h : b ≠ .gal) : KeepsSet b (s.applySet b x) (s.applyBlock b x) := by
  cases b with
  | gal => exact absurd rfl h
  | cle => exact ⟨rfl, fun _ _ => rfl⟩
  | lnd =>
    have hplace (t : State) (w : Word) : KeepsSet .lnd t (t.placeBanks w) := ⟨rfl, fun _ _ => rfl⟩
    exact (hplace _ _).trans (KeepsSet.setB _ _ _ _ (by decide))
  | cmp => exact KeepsSet.setB _ _ _ _ (by decide)
  | route =>
    have hcells : ∀ a, isSetReg .route a = true → isCellCount a = false := by
      intro a ha
      have hin : inBlock .route a = true := by
        simp only [isSetReg, Bool.and_eq_true] at ha
        exact ha.1
      by_contra hc
      have hcount : isCellCount a = true := by simpa using hc
      simp only [isCellCount, List.contains_eq_mem, List.mem_cons, List.not_mem_nil, or_false, decide_eq_true_eq] at hcount
      obtain rfl | rfl | rfl | rfl := hcount <;> exact absurd hin (by decide)
    exact ((KeepsSet.setB _ _ _ _ (by decide)).trans ((OnlyCells.routesChanged _).keepsSet hcells)).trans (KeepsSet.abortUnreached _)
  | dfl => exact KeepsSet.foldl _ _ (fun f hf s => KeepsSet.applyFibre (List.mem_range.mp hf) s)
  | opt q => exact KeepsSet.refl _ _

/-- Staged registers of the block are among those that its set determines. -/
theorem isSetReg_staged {b : Block} {a : Nat} (hin : inBlock b a = true) (hst : isStaged a = true) : isSetReg b a = true := by
  simp [isSetReg, hin, hst]

theorem isSetReg_commitStatus (b : Block) : isSetReg b (commitStatus b) = true := by
  obtain ⟨hin, -, -⟩ := inBlock_commit b
  simp [isSetReg, hin]

theorem isSetReg_commitSeq (b : Block) : isSetReg b (commitSeq b) = true := by
  obtain ⟨-, -, hin⟩ := inBlock_commit b
  simp [isSetReg, hin]

/-- An accepted set in force: every staged field of the block reads as in the set, and nothing pends. -/
theorem State.effectNow_spec (s : State) {b : Block} {x : StagedSet} (hx : x.ofBlock b) (hb : b ≠ .gal) :
    (s.effectNow b x).commitOf b = { s.commitOf b with accepted := none } ∧ (s.effectNow b x).b (commitStatus b) 8 = false ∧
      (s.effectNow b x).f (commitSeq b) 16 16 = s.f (commitSeq b) 0 16 ∧ (s.effectNow b x).f (commitSeq b) 0 16 = s.f (commitSeq b) 0 16 ∧
      (s.effectNow b x).f (commitStatus b) 0 2 = s.f (commitStatus b) 0 2 ∧
      ∀ a, inBlock b a = true → isStaged a = true → (s.effectNow b x).reg a = x.rd a := by
  obtain ⟨hcommits, hregs⟩ := KeepsSet.applyBlock (s.setCommit b { s.commitOf b with accepted := none }) x hb
  have hset (a : Nat) : ((s.setCommit b { s.commitOf b with accepted := none }).applySet b x).reg a =
      if inBlock b a = true ∧ isStaged a = true then x.rd a else s.reg a := State.applySet_reg _ hx a
  obtain ⟨hpend, hdone, hacc, hlast⟩ :=
    ((s.setCommit b { s.commitOf b with accepted := none }).applyBlock b x).commitDone_spec b
  have hseq : ((s.setCommit b { s.commitOf b with accepted := none }).applyBlock b x).reg (commitSeq b) = s.reg (commitSeq b) := by
    rw [hregs _ (isSetReg_commitSeq b), hset, if_neg (by simp [isStaged_commitSeq])]
  have hstatus : ((s.setCommit b { s.commitOf b with accepted := none }).applyBlock b x).reg (commitStatus b) = s.reg (commitStatus b) := by
    rw [hregs _ (isSetReg_commitStatus b), hset, if_neg (by simp [isStaged_commitStatus])]
  refine ⟨?_, hpend, ?_, ?_, ?_, fun a hin hst => ?_⟩
  · have h : (s.effectNow b x).commits = (s.setCommit b { s.commitOf b with accepted := none }).commits :=
      (State.commitDone_commits _ b).trans hcommits
    rw [State.commitOf_of_commits_eq h, State.commitOf_setCommit]
  · exact hdone.trans (by simp only [State.f, hseq])
  · exact hacc.trans (by simp only [State.f, hseq])
  · exact hlast.trans (by simp only [State.f, hstatus])
  · have hne : a ≠ commitStatus b ∧ a ≠ commitSeq b := by
      constructor
      · rintro rfl; rw [isStaged_commitStatus] at hst; cases hst
      · rintro rfl; rw [isStaged_commitSeq] at hst; cases hst
    rw [State.effectNow, State.commitDone_reg _ _ (inBlock_above hin), State.markDone_reg _ _ hne.1 hne.2,
      hregs _ (isSetReg_staged hin hst), hset, if_pos ⟨hin, hst⟩]

/-! ### Commands of COMMIT -/

theorem State.takesEffect_accepted {s : State} {b : Block} {x : StagedSet} (h : (s.commitOf b).accepted = some x) (hb : b ≠ .gal)
    (hat : s.atBoundary b x = true ∨ b = .dfl) : s.takesEffect b = s.effectNow b x := by
  simp only [State.takesEffect, h]
  cases b with
  | gal => exact absurd rfl hb
  | dfl => rfl
  | _ => exact if_pos (hat.resolve_right (fun e => nomatch e))

theorem State.checkDone_refused {s : State} {b : Block} {x : StagedSet} {reason item : Nat}
    (h : (s.commitOf b).checking = some (x, reason, item)) (hr : 0 < reason) :
    s.checkDone b = (s.setCommit b { s.commitOf b with checking := none }).showOutcome b 2 reason item := by
  simp only [State.checkDone, h, if_neg (Nat.ne_of_gt hr)]

/-- The state in which a set that has been accepted is pending. -/
def State.pends (s : State) (b : Block) (x : StagedSet) : State :=
  let s := s.setF (commitStatus b) 0 2 3
  let s := s.setF (commitSeq b) 0 16 (s.f (commitSeq b) 0 16 + 1)
  (s.setCommit b { checking := none, accepted := some x }).setB (commitStatus b) 8 true

/-- A quad's set takes effect when it is accepted. -/
theorem State.checkDone_opt {s : State} {q : Fin 8} {x : StagedSet} {item : Nat}
    (h : (s.commitOf (.opt q)).checking = some (x, 0, item)) : s.checkDone (.opt q) = (s.pends (.opt q) x).effectNow (.opt q) x := by
  simp only [State.checkDone, h, if_true, State.accept, reduceCtorEq, if_false, State.atBoundary, State.pends]

theorem State.pends_spec (s : State) (b : Block) (x : StagedSet) :
    (s.pends b x).commitOf b = { checking := none, accepted := some x } ∧ (s.pends b x).f (commitStatus b) 0 2 = 3 ∧
      (s.pends b x).f (commitSeq b) 0 16 = (s.f (commitSeq b) 0 16 + 1) % 65536 := by
  have hne : commitSeq b ≠ commitStatus b := (commitStatus_ne_seq b).symm
  have hseq : (s.setF (commitStatus b) 0 2 3).f (commitSeq b) 0 16 = s.f (commitSeq b) 0 16 :=
    State.f_setF_ne _ _ _ _ _ _ _ _ (by omega) (.inl hne)
  unfold State.pends
  refine ⟨?_, ?_, ?_⟩
  · have h (t : State) (c : Commit) : ((t.setCommit b c).setB (commitStatus b) 8 true).commits = (t.setCommit b c).commits :=
      State.setB_commits _ _ _ _
    rw [State.commitOf_of_commits_eq (h _ _), State.commitOf_setCommit]
  · rw [State.f_setB_ne _ _ _ _ _ _ _ (by omega) (.inr (.inl (by omega))), State.setCommit_f,
      State.f_setF_ne _ _ _ _ _ _ _ _ (by omega) (.inl hne.symm), State.f_setF_same _ _ _ _ _ (by omega)]
    decide
  · rw [State.f_setB_ne _ _ _ _ _ _ _ (by omega) (.inl hne), State.setCommit_f, State.f_setF_same _ _ _ _ _ (by omega), hseq]
    exact congrArg ((s.f (commitSeq b) 0 16 + 1) % ·) (by decide)

theorem OnlyCommit.pends (s : State) (b : Block) (x : StagedSet) : OnlyCommit s (s.pends b x) :=
  (((OnlyCommit.setF s _ _ _ _).trans (OnlyCommit.setF _ _ _ _ _)).trans (OnlyCommit.setCommit _ _ _)).trans (OnlyCommit.setB _ _ _ _)

theorem State.pends_lnd (s : State) (b : Block) (x : StagedSet) : (s.pends b x).lnd = s.lnd := by
  rw [State.pends, State.setB_lnd, State.setCommit_lnd, State.setF_lnd, State.setF_lnd]

/-- A quad's effect is on registers alone. -/
theorem OnlyCommit.effectNow_opt (s : State) (q : Fin 8) (x : StagedSet) : OnlyCommit s (s.effectNow (.opt q) x) :=
  ((OnlyCommit.setCommit s _ _).trans (OnlyCommit.applySet _ _ _)).trans (OnlyCommit.commitDone _ _)

theorem State.effectNow_opt_lnd (s : State) (q : Fin 8) (x : StagedSet) : (s.effectNow (.opt q) x).lnd = s.lnd :=
  State.commitDone_lnd ((s.setCommit (.opt q) { s.commitOf (.opt q) with accepted := none }).applySet (.opt q) x) (.opt q)

/-! ### The statement -/

theorem exec_commitCheckDone (s : State) (b : Block) : exec (.commitCheckDone b) s = .next (s.checkDone b) := rfl
theorem exec_commitTakesEffect (s : State) (b : Block) : exec (.commitTakesEffect b) s = .next (s.takesEffect b) := rfl

/-- GO of an idle block shows CHECKING, with the lowest refusal of its snapshot to come. -/
theorem State.submit_checks {s : State} {b : Block} (hc : s.commitOf b = {}) (hp : b = .cle → s.stagedPoison = none) :
    ((s.submit b).commitOf b).checking = some (s.snapshot b, lowestRefusal (s.refusals b (s.snapshot b))) ∧
      ((s.submit b).commitOf b).accepted = none ∧ (s.submit b).f (commitStatus b) 0 2 = 1 ∧ OnlyCommit s (s.submit b) ∧
      ∀ a, a ≠ commitStatus b → (s.submit b).reg a = s.reg a := by
  obtain ⟨honly, hregs⟩ := s.checkSet_fst (s.snapshot b) hp
  have hcommit (t : State) (c : Commit) : ((t.setCommit b c).setF (commitStatus b) 0 2 1).commitOf b = c := by
    rw [State.commitOf_of_commits_eq (State.setF_commits _ _ _ _ _), State.commitOf_setCommit]
  rw [s.submit_idle hc hp, hcommit]
  refine ⟨rfl, rfl, ?_, (honly.trans (OnlyCommit.setCommit _ _ _)).trans (OnlyCommit.setF _ _ _ _ _), fun a ha => ?_⟩
  · rw [State.f_setF_same _ _ _ _ _ (by omega)]
    decide
  · rw [State.reg_setF_ne _ _ _ _ ha, State.setCommit_reg]
    simp only [State.reg, hregs]

/-- Settles O41: every command of COMMIT changes the commits, the two registers that show them and, when a set takes effect, the
staged registers of its block, which read as in the set. -/
theorem commitsAreCheckedAndTakeEffect : Obligations.CommitsAreCheckedAndTakeEffect := by
  refine ⟨?_, ?_, ?_, ?_, ?_⟩
  · intro s b hserv hc hp
    have hpow := s.wakeCommit_power b
    have hc' : (s.wakeCommit b).commitOf b = {} := by rw [hpow]; exact hc
    have hp' : b = .cle → (s.wakeCommit b).stagedPoison = none := fun h => by rw [hpow]; exact hp h
    have hsnap : (s.wakeCommit b).snapshot b = s.snapshot b := by rw [hpow]; rfl
    have href : (s.wakeCommit b).refusals b (s.snapshot b) = s.refusals b (s.snapshot b) := by rw [hpow, s.refusals_power]
    obtain ⟨hcheck, hacc, hshow, honly, hregs⟩ := State.submit_checks hc' hp'
    rw [hsnap, href] at hcheck
    obtain ⟨hbytes, hque, hcle, -, hgal, -, hlines, hlight, hlog, -, -, hsreg⟩ := ((OnlyCommit.wakeCommit s b).trans honly).frame
    refine ⟨_, exec_commitGo b hserv, hcheck, hacc, hshow, hbytes, hque, hcle, hgal, hlines, hlight, hlog, fun a ha => ⟨?_, hsreg a⟩⟩
    rw [hregs a (by simpa using ha), hpow]
    rfl
  · intro s b hserv hbusy
    have hpow := s.wakeCommit_power b
    have hbusy' : (((s.wakeCommit b).commitOf b).checking.isSome || ((s.wakeCommit b).commitOf b).accepted.isSome) = true := by
      rw [hpow]; exact hbusy
    obtain ⟨hlast, hreason, -⟩ := (s.wakeCommit b).showOutcome_spec b 0 (by decide : 2 < 4) (busyReason_lt b)
    have hcommits : ((s.wakeCommit b).showOutcome b 2 (busyReason b) 0).commits = s.commits := by
      rw [State.showOutcome_commits, hpow]
    have hlnd : ((s.wakeCommit b).showOutcome b 2 (busyReason b) 0).lnd = s.lnd := by rw [State.showOutcome_lnd, hpow]
    obtain ⟨hbytes, hque, hcle, hrue, hgal, hdel, hlines, hlight, hlog, hhost, hrlatch, hsreg⟩ :=
      ((OnlyCommit.wakeCommit s b).trans (OnlyCommit.showOutcome _ b 2 (busyReason b) 0)).frame
    refine ⟨(s.wakeCommit b).showOutcome b 2 (busyReason b) 0, by rw [exec_commitGo b hserv, State.submit_busy hbusy'], hlast, hreason,
      hcommits, hbytes, ⟨hque, hcle, hrue, hlnd, hgal, hdel⟩, hlines, hlight, ⟨hhost, hlog, hrlatch, hcommits⟩,
      fun a ha => ⟨?_, hsreg a⟩⟩
    have hne : a ≠ commitStatus b ∧ a ≠ commitDetail b := by simpa using ha
    rw [State.showOutcome_reg _ _ _ _ _ hne.1 hne.2, hpow]
    rfl
  · intro s b x reason item hcheck hpos hlt
    obtain ⟨hlast, hreason, hitem⟩ :=
      (s.setCommit b { s.commitOf b with checking := none }).showOutcome_spec b item (by decide : 2 < 4) hlt
    obtain ⟨hbytes, hque, hcle, hrue, hgal, hdel, hlines, hlight, hlog, -, -, hsreg⟩ :=
      ((OnlyCommit.setCommit s b { s.commitOf b with checking := none }).trans (OnlyCommit.showOutcome _ b 2 reason item)).frame
    have hcommit : ((s.setCommit b { s.commitOf b with checking := none }).showOutcome b 2 reason item).commitOf b =
        { s.commitOf b with checking := none } := by
      rw [State.commitOf_of_commits_eq (State.showOutcome_commits _ _ _ _ _), State.commitOf_setCommit]
    have hlnd : ((s.setCommit b { s.commitOf b with checking := none }).showOutcome b 2 reason item).lnd = s.lnd :=
      State.showOutcome_lnd _ _ _ _ _
    refine ⟨(s.setCommit b { s.commitOf b with checking := none }).showOutcome b 2 reason item,
      by rw [exec_commitCheckDone, State.checkDone_refused hcheck hpos], hlast, hreason, hitem, by rw [hcommit], by rw [hcommit], hbytes,
      ⟨hque, hcle, hrue, hlnd, hgal, hdel⟩, hlines, hlight, hlog, fun a ha => ⟨?_, hsreg a⟩⟩
    have hne : a ≠ commitStatus b ∧ a ≠ commitDetail b := by simpa using ha
    rw [State.showOutcome_reg _ _ _ _ _ hne.1 hne.2, State.setCommit_reg]
  · intro s q x item hcheck hwf hkeys
    obtain ⟨hpcommit, hplast, hpseq⟩ := s.pends_spec (.opt q) x
    obtain ⟨hcommit, hpend, hdone, hacc, hlast, hset⟩ :=
      (s.pends (.opt q) x).effectNow_spec ⟨hwf, hkeys⟩ (fun e => nomatch e : Block.opt q ≠ .gal)
    obtain ⟨hbytes, hque, hcle, hrue, hgal, hdel, hlines, hlight, hlog, -, -, -⟩ :=
      ((OnlyCommit.pends s (.opt q) x).trans (OnlyCommit.effectNow_opt _ q x)).frame
    have hlnd : ((s.pends (.opt q) x).effectNow (.opt q) x).lnd = s.lnd := by
      rw [State.effectNow_opt_lnd, State.pends_lnd]
    refine ⟨(s.pends (.opt q) x).effectNow (.opt q) x, by rw [exec_commitCheckDone, State.checkDone_opt hcheck], hlast.trans hplast, hpend,
      hacc.trans hpseq, hdone.trans hacc.symm, ?_, hset, hbytes, ⟨hque, hcle, hrue, hlnd, hgal, hdel⟩, hlines, hlight, hlog⟩
    rw [hcommit, hpcommit]
  · intro s b x hacc hwf hkeys hgal hat
    obtain ⟨hcommit, hpend, hdone, hseq, -, hset⟩ := s.effectNow_spec ⟨hwf, hkeys⟩ hgal
    exact ⟨s.effectNow b x, by rw [exec_commitTakesEffect, State.takesEffect_accepted hacc hgal hat], by rw [hcommit], hpend, hdone, hseq, hset⟩

end Sys2Proof.Machine
end

section
/-! Entry to RESET and power-up of the always-on domain (00_scope.md R7; 18 R332; 19 R346; 20 R377, R378). -/
namespace Sys2Proof.Machine

/-! ### The log that RESET keeps (19 R346) -/

theorem ErrLog.kept_length (l : ErrLog) : l.kept.entries.length ≤ 64 := by
  simp only [ErrLog.kept, List.length_reverse, List.length_take]
  omega

theorem ErrLog.mem_kept {l : ErrLog} {e : LogEntry} (h : e ∈ l.kept.entries) : e ∈ l.entries ∧ 3 ≤ e.cls := by
  have h := List.mem_of_mem_take (List.mem_reverse.mp h)
  simpa using h

/-! ### Entry to RESET -/

/-- RESET keeps the Gallery's bytes, the log's latest entries and what needs no supply; only the alarm registers and the pins are
not those of a part without power. -/
theorem State.enterReset_eq (s : State) :
    s.enterReset = { s.unpowered with
      gallery := s.gallery, gal := { s.unpowered.gal with poison := s.gal.poison }, log := s.log.kept, power := { state := .reset },
      regs := s.enterReset.regs, pins := s.enterReset.pins } := rfl

/-- What entering RESET from `s` leaves. -/
def EntersReset (s t : State) : Prop :=
  t.power.state = .reset ∧ t.cle = {} ∧ t.que = {} ∧ t.sec.sas = [] ∧ (∀ u, t.unitValid u = false) ∧ (∀ a, t.bar4Byte a = 0) ∧
    (∀ a, t.galByte a = s.galByte a) ∧ (∀ a, t.hostByte a = s.hostByte a) ∧ (∀ a, t.flashByte a = s.flashByte a) ∧
    t.log.seq = s.log.seq ∧ t.log.entries.length ≤ 64 ∧ (∀ e ∈ t.log.entries, e ∈ s.log.entries ∧ 3 ≤ e.cls) ∧
    t.boot.fuses = s.boot.fuses ∧ t.boot.record = s.boot.record ∧ t.pending = s.pending

theorem State.enterReset_spec (s : State) : EntersReset s s.enterReset := by
  rw [State.enterReset_eq]
  exact ⟨rfl, rfl, rfl, rfl, fun _ => rfl, fun _ => rfl, fun _ => rfl, fun _ => rfl, fun _ => rfl, rfl, s.log.kept_length,
    fun _ h => ErrLog.mem_kept h, rfl, rfl, rfl⟩

/-- A pin that moves before RESET is entered changes nothing of what RESET keeps. -/
theorem State.enterReset_pins_spec (s : State) (p : Pins) : EntersReset s ({ s with pins := p }).enterReset :=
  State.enterReset_spec { s with pins := p }

theorem exec_powerFail {s : State} (h : s.held = false) :
    exec .powerFail s = .next ({ s with pins := { s.pins with mainPg := false } }).enterReset := by
  have hheld : ({ s with pins := { s.pins with mainPg := false } } : State).held = false := h
  have hrun : s.powerFail = ({ s with pins := { s.pins with mainPg := false } }).enterReset := by
    simp only [State.powerFail, hheld, Bool.false_eq_true, if_false]
  exact congrArg _ hrun

theorem exec_fundamentalResetAssert {s : State} (h : s.held = false) :
    exec .fundamentalResetAssert s = .next ({ s with pins := { s.pins with perst := true } }).enterReset := by
  have hheld : ({ s with pins := { s.pins with perst := true } } : State).held = false := h
  have hrun : s.perstLow = ({ s with pins := { s.pins with perst := true } }).enterReset := by
    simp only [State.perstLow, hheld, Bool.false_eq_true, if_false]
  exact congrArg _ hrun

theorem exec_goingDownNoticeExpire {s : State} {n : Nat} (h : s.rte.downAt = some n) (hn : n ≤ s.mono) :
    exec .goingDownNoticeExpire s = .next s.enterReset := by
  have hrun : s.noticeEnds = s.enterReset := by simp only [State.noticeEnds, h, if_pos hn]
  exact congrArg _ hrun

end Sys2Proof.Machine
end

section
/-! Bring-up from RESET: nothing that step 0 of bring-up does goes back to RESET, lowers a reset pin or loses the incarnation
(16_bring_up_and_image.md R296-R302; 17 R319; 20 R377). -/
namespace Sys2Proof.Machine

/-- The reset pins and the incarnation stay, and a state that is not RESET does not become RESET. -/
def StaysUp (s t : State) : Prop :=
  t.pins.mainPg = s.pins.mainPg ∧ t.pins.perst = s.pins.perst ∧ t.rte.incarnation = s.rte.incarnation ∧
    (s.power.state ≠ .reset → t.power.state ≠ .reset)

theorem StaysUp.refl (s : State) : StaysUp s s := ⟨rfl, rfl, rfl, id⟩

theorem StaysUp.trans {s t u : State} (h : StaysUp s t) (g : StaysUp t u) : StaysUp s u :=
  ⟨g.1.trans h.1, g.2.1.trans h.2.1, g.2.2.1.trans h.2.2.1, g.2.2.2 ∘ h.2.2.2⟩

theorem StaysUp.foldl {α : Type} {run : State → α → State} (h : ∀ s x, StaysUp s (run s x)) (xs : List α) (s : State) :
    StaysUp s (xs.foldl run s) := by
  induction xs generalizing s with
  | nil => exact StaysUp.refl s
  | cons x xs ih => exact (h s x).trans (ih _)

/-- One of two ways on. -/
theorem StaysUp.ite {s t u : State} (c : Prop) [Decidable c] (h : StaysUp s t) (g : StaysUp s u) : StaysUp s (if c then t else u) := by
  split
  · exact h
  · exact g

theorem StaysUp.setReg (s : State) (a : Nat) (v : Word) : StaysUp s (s.setReg a v) := StaysUp.refl s
theorem StaysUp.setF (s : State) (a lo n v : Nat) : StaysUp s (s.setF a lo n v) := StaysUp.refl s
theorem StaysUp.setB (s : State) (a lo : Nat) (v : Bool) : StaysUp s (s.setB a lo v) := StaysUp.refl s
theorem StaysUp.bump (s : State) (a : Nat) : StaysUp s (s.bump a) := StaysUp.refl s
theorem StaysUp.setReg64 (s : State) (lo hi v : Nat) : StaysUp s (s.setReg64 lo hi v) := StaysUp.refl s
theorem StaysUp.boot (s : State) (x : Boot) : StaysUp s { s with boot := x } := StaysUp.refl s
theorem StaysUp.que (s : State) (x : Queues) : StaysUp s { s with que := x } := StaysUp.refl s
theorem StaysUp.sec (s : State) (x : Cipher) : StaysUp s { s with sec := x } := StaysUp.refl s
theorem StaysUp.setQueue (s : State) (q : Nat) (x : Queue) : StaysUp s (s.setQueue q x) := StaysUp.refl s
theorem StaysUp.setQuad (s : State) (q : Nat) (x : Quad) : StaysUp s (s.setQuad q x) := StaysUp.refl s
theorem StaysUp.setPoison (s : State) (cw : Nat) (v : Bool) : StaysUp s (s.setPoison cw v) := StaysUp.refl s
theorem StaysUp.draw (s : State) : StaysUp s s.draw.2 := StaysUp.refl s
theorem StaysUp.showAlarm (s : State) : StaysUp s s.showAlarm := StaysUp.refl s

theorem StaysUp.bumpIf (s : State) (c : Bool) (a : Nat) : StaysUp s (s.bumpIf c a) := by
  cases c with
  | false => exact StaysUp.refl s
  | true => exact StaysUp.bump s a

theorem OnlyReports.staysUp {s t : State} (h : OnlyReports s t) : StaysUp s t := by
  obtain ⟨-, -, -, ⟨-, hrte, -, -⟩, -, ⟨hpower, -, -, -, hpins, -⟩, -⟩ := h
  rw [StaysUp, hpins, hrte, hpower]
  exact ⟨rfl, rfl, rfl, id⟩

theorem OnlyCells.staysUp {s t : State} (h : OnlyCells s t) : StaysUp s t := by
  obtain ⟨hstate, hinc, -⟩ := h
  have hpins : t.pins = s.pins := by rw [hstate]
  have hpower : t.power = s.power := by rw [hstate]
  rw [StaysUp, hpins, hpower]
  exact ⟨rfl, rfl, hinc, id⟩

theorem OnlyPort.staysUp {p : Nat} {s t : State} (h : OnlyPort p s t) : StaysUp s t := by
  obtain ⟨hstate, hinc, hpg, hperst, -⟩ := h
  have hpower : t.power = s.power := by rw [hstate]
  rw [StaysUp, hpower]
  exact ⟨hpg, hperst, hinc, id⟩

theorem StaysUp.logEvent (s : State) (e : Event) : StaysUp s (s.logEvent e) := (OnlyReports.logEvent s e).staysUp
theorem StaysUp.replaceCriterion (s : State) (n : Nat) : StaysUp s (s.replaceCriterion n) := (OnlyReports.replaceCriterion s n).staysUp

/-! ### Queues are examined (03 R56, R59) -/

theorem StaysUp.qMemoryError (s : State) (q off n : Nat) : StaysUp s (s.qMemoryError q off n) := by
  have hmark (cw code : Nat) : StaysUp s (s.noteUncorrectable cw code) := by
    unfold State.noteUncorrectable
    exact ((StaysUp.ite _ (StaysUp.bump s _) (StaysUp.bump s _)).trans (StaysUp.setPoison _ _ _)).trans (StaysUp.logEvent _ _)
  unfold State.qMemoryError
  split
  · exact (hmark _ _).trans (StaysUp.setQueue _ _ _)
  · exact StaysUp.setQueue s _ _

theorem StaysUp.notice (s : State) (q : Nat) : StaysUp s (s.notice q) := by
  have hexamine : StaysUp s (s.examine q) := by
    unfold State.examine
    split
    · exact StaysUp.qMemoryError s _ _ _
    · exact StaysUp.ite _ (StaysUp.setQueue s _ _) ((StaysUp.setQueue s _ _).trans (StaysUp.setQueue _ _ _))
  exact StaysUp.ite _ hexamine (StaysUp.refl s)

/-! ### Alarms (11_line_cipher.md R217) -/

theorem StaysUp.eraseKeys (s : State) : StaysUp s s.eraseKeys := by
  have hclear (t : State) : StaysUp t t.clearStaging := (StaysUp.setReg t _ _).trans (StaysUp.foldl (fun t _ => StaysUp.setReg t _ _) _ _)
  have hloss (t b : State) : StaysUp t (t.noteKeyLoss b) :=
    StaysUp.foldl (fun t _ => StaysUp.ite _ (StaysUp.sec t _) (StaysUp.refl t)) _ _
  exact (((StaysUp.sec s _).trans (hclear _)).trans (hloss _ _)).trans (OnlyCells.routesChanged _).staysUp

theorem StaysUp.checkAlarms (s : State) : StaysUp s s.checkAlarms := by
  unfold State.checkAlarms State.latchAlarms
  exact StaysUp.ite _ (StaysUp.refl s) (((StaysUp.setF s _ _ _ _).trans (StaysUp.eraseKeys _)).trans (StaysUp.showAlarm _))

/-! ### Progress of bring-up (16 R298, R299) -/

theorem StaysUp.serve (s : State) (code : Nat) : StaysUp s (s.serve code) := by
  unfold State.serve
  exact StaysUp.ite _ (((StaysUp.setF s _ _ _ _).trans (StaysUp.foldl StaysUp.notice _ _)).trans (StaysUp.checkAlarms _))
    (StaysUp.setF s _ _ _ _)

theorem StaysUp.readyIfDue (s : State) : StaysUp s s.readyIfDue := by
  have hservice (t : State) : StaysUp t { t with power := { t.power with state := .service } } := ⟨rfl, rfl, rfl, fun _ h => nomatch h⟩
  have hreasons (t : State) : StaysUp t t.showReasons := (StaysUp.setF t _ _ _ _).trans (StaysUp.setF _ _ _ _ _)
  unfold State.readyIfDue
  refine StaysUp.ite _ ?_ (StaysUp.refl s)
  exact ((((StaysUp.serve s 2).trans (hservice _)).trans (hreasons _)).trans
    (OnlyReports.raiseVector _ (fld_lt _ 0 9)).staysUp).trans (StaysUp.checkAlarms _)

theorem StaysUp.progress (s : State) : StaysUp s s.progress := by
  have hfibres : StaysUp s s.showFibres := StaysUp.foldl (fun t _ => StaysUp.ite _ (StaysUp.setB t _ _ _) (StaysUp.refl t)) _ _
  have hreduced (t : State) : StaysUp t t.reducedIfDue := StaysUp.ite _ (StaysUp.serve t 1) (StaysUp.refl t)
  have hstep (t : State) : StaysUp t (if 3 ≤ t.bootStep ∧ t.linksSettled = true then t.endStep 3 else t) :=
    StaysUp.ite _ (StaysUp.setB t _ _ _) (StaysUp.refl t)
  unfold State.progress
  exact StaysUp.ite _ (((hfibres.trans (hstep _)).trans (hreduced _)).trans (StaysUp.readyIfDue _)) hfibres

theorem StaysUp.leavePortOut (s : State) (p : Nat) : StaysUp s (s.leavePortOut p) := by
  have hoff (t : State) : StaysUp t (if t.portEnabled p then (t.setB (A.lineCtrl p) 0 false).portOff p else t) :=
    StaysUp.ite _ ((StaysUp.setB t _ _ _).trans (OnlyPort.portOff p _).staysUp) (StaysUp.refl t)
  unfold State.leavePortOut
  refine StaysUp.ite _ (StaysUp.refl s) ?_
  exact (((((StaysUp.boot s _).trans (StaysUp.setB _ _ _ _)).trans (StaysUp.setB _ _ _ _)).trans (hoff _)).trans
    (StaysUp.logEvent _ _)).trans (StaysUp.progress _)

/-! ### Retired controllers (16 R309; 13 R259) -/

theorem StaysUp.showPass (s : State) (q : Nat) : StaysUp s (s.showPass q) := StaysUp.foldl (fun t _ => StaysUp.setF t _ _ _ _) _ _

theorem StaysUp.concBegin (s : State) (q c : Nat) : StaysUp s (s.concBegin q c) := by
  unfold State.concBegin
  exact StaysUp.ite _ (((StaysUp.setF s _ _ _ _).trans (StaysUp.bump _ _)).trans (StaysUp.showPass _ _))
    (((StaysUp.setQuad s _ _).trans (StaysUp.setB _ _ _ _)).trans (StaysUp.showPass _ _))

theorem StaysUp.concFire (s : State) (q k : Nat) : StaysUp s (s.concFire q k) := by
  unfold State.concFire
  refine StaysUp.ite _ (StaysUp.ite _ (StaysUp.refl s) ((StaysUp.bumpIf s _ _).trans (StaysUp.setQuad _ _ _))) ?_
  exact ((StaysUp.setQuad s _ _).trans (StaysUp.setB _ _ _ _)).trans (StaysUp.concBegin _ _ _)

theorem StaysUp.concRingEnd (s : State) (q n : Nat) (sw : ConcSwitch) : StaysUp s (s.concRingEnd q n sw) := by
  have hnext (t : State) : StaysUp t (t.concNext q) := by
    unfold State.concNext
    split
    · exact StaysUp.refl t
    · exact StaysUp.ite _ (StaysUp.refl t) (StaysUp.concFire t _ _)
  unfold State.concRingEnd
  refine StaysUp.ite _ ?_ (StaysUp.setQuad s _ _)
  exact ((((StaysUp.setQuad s _ _).trans (StaysUp.setF _ _ _ _ _)).trans (StaysUp.bump _ _)).trans (StaysUp.showPass _ _)).trans (hnext _)

theorem StaysUp.dropQuadSeq (s : State) (q : Nat) : StaysUp s (s.dropQuadSeq q) := by
  have hfail : StaysUp s ((List.range 8).foldl (fun s w => s.setReg (A.concRingFail q w) 0xFFFFFFFF#32) s) :=
    StaysUp.foldl (fun t _ => StaysUp.setReg t _ _) _ _
  unfold State.dropQuadSeq
  dsimp only
  split
  · exact hfail.trans (StaysUp.setQuad _ _ _)
  · exact (hfail.trans (StaysUp.setQuad _ _ _)).trans (StaysUp.concRingEnd _ _ _ _)

theorem StaysUp.dropCore (s : State) (n : Nat) : StaysUp s (s.dropCore n) := by
  unfold State.dropCore
  exact (((StaysUp.que s _).trans (StaysUp.ite _ (StaysUp.replaceCriterion _ _) (StaysUp.refl _))).trans
    (StaysUp.ite _ (StaysUp.setF _ _ _ _ _) (StaysUp.refl _))).trans (StaysUp.foldl StaysUp.notice _ _)

/-- A controller that is known to be retired goes out of use; a Peg's ring waits for its sweep. -/
theorem StaysUp.dropUnit_known (s : State) (cls n : Nat) : StaysUp s (s.dropUnit cls n false) := by
  unfold State.dropUnit
  split
  · exact StaysUp.dropCore s n
  · exact StaysUp.refl s
  · exact StaysUp.dropQuadSeq s n
  · exact StaysUp.ite _ (StaysUp.leavePortOut s _) (StaysUp.refl s)
  · exact StaysUp.refl s

/-! ### Step 0 (16 R300-R302, R306; 17 R318, R328) -/

theorem StaysUp.applyKnown (s : State) : StaysUp s s.applyKnown := by
  refine StaysUp.foldl (fun t u => ?_) _ s
  exact StaysUp.ite _ ((StaysUp.boot t _).trans (StaysUp.dropUnit_known _ _ _))
    (StaysUp.ite _ (StaysUp.setB t _ _ _) (StaysUp.refl t))

theorem StaysUp.takeLicences (s : State) (img : List Byte) : StaysUp s (s.takeLicences img) :=
  StaysUp.foldl (fun t _ => StaysUp.ite _ ((StaysUp.boot t _).trans (StaysUp.setReg _ _ _))
    ((StaysUp.bump t _).trans (StaysUp.logEvent _ _))) _ s

theorem StaysUp.runImage (s : State) (img : List Byte) : StaysUp s (s.runImage img) := by
  unfold State.runImage
  exact (((((StaysUp.boot s _).trans (StaysUp.setReg64 _ _ _ _)).trans (StaysUp.boot _ _)).trans (StaysUp.takeLicences _ _)).trans
    (StaysUp.applyKnown _)).trans (StaysUp.setB _ _ _ _)

theorem StaysUp.bootFlash (s : State) : StaysUp s s.bootFlash := by
  have hkey : StaysUp s s.attKeyIfDue := StaysUp.ite _ ((StaysUp.draw s).trans (StaysUp.boot _ _)) (StaysUp.refl s)
  have hmem (t : State) (m : Sparse Byte) : StaysUp t { t with bootMem := m } := StaysUp.refl t
  unfold State.bootFlash
  dsimp only
  split
  · exact hkey.trans ((StaysUp.setF _ _ _ _ _).trans (StaysUp.setB _ _ _ _))
  · exact hkey.trans (((hmem _ _).trans (StaysUp.setF _ _ _ _ _)).trans (StaysUp.runImage _ _))

/-- Every exit from RESET has an incarnation. -/
theorem State.exitReset_incarnation (s : State) : s.exitReset.rte.incarnation ≠ 0 := by
  unfold State.exitReset
  split
  · next h => exact h
  · exact Nat.ne_of_gt (Nat.add_pos_left Nat.one_pos _)

/-- Leaving RESET keeps the pins and the power state. -/
theorem State.exitReset_keeps (s : State) : s.exitReset.pins = s.pins ∧ s.exitReset.power = s.power := by
  unfold State.exitReset
  split
  · exact ⟨rfl, rfl⟩
  · exact ⟨rfl, rfl⟩

/-- Step 0 from the drawn incarnation on. -/
theorem State.bootRom_staysUp {s : State} (hb : s.power.state = .bringup) (h0 : s.stepDone 0 = false) (hf : s.bootFail = 0)
    (he : s.life.erasing = false) : StaysUp s.exitReset s.bootRom := by
  have hgo : ¬ (s.power.state ≠ .bringup ∨ s.stepDone 0 = true ∨ s.bootFail ≠ 0 ∨ s.life.erasing = true) := by simp [hb, h0, hf, he]
  have hshow : StaysUp s.exitReset s.exitReset.showPower.showAlarm := (StaysUp.setF _ _ _ _ _).trans (StaysUp.showAlarm _)
  have hfuses (t : State) : StaysUp t t.finishFuses := StaysUp.boot t _
  have hlife (t : State) (x : Life) : StaysUp t { t with life := x } := StaysUp.refl t
  rw [State.bootRom, if_neg hgo]
  refine StaysUp.ite _ (hshow.trans (StaysUp.setF _ _ _ _ _)) ?_
  refine (hshow.trans ((hfuses _).trans (StaysUp.checkAlarms _))).trans ?_
  exact StaysUp.ite _ (hlife _ _) (StaysUp.bootFlash _)

/-- The state in which bring-up begins. -/
def State.released (s : State) : State :=
  { s with pins := { s.pins with mainPg := true, perst := false }, power := { s.power with state := .bringup } }

theorem exec_resetRelease {s : State} (h : s.power.state = .reset) : exec .resetRelease s = .next s.released.bootRom := by
  have hrun : s.releaseReset = s.released.bootRom := if_pos (.inl h)
  exact congrArg _ hrun

/-- Settles O22: entry to RESET builds its state anew from what is kept; its release draws an incarnation and stays out of RESET. -/
theorem resetIsEnteredAndLeft : Obligations.ResetIsEnteredAndLeft := by
  refine ⟨?_, ?_, ?_⟩
  · rintro s c (⟨rfl | rfl, hheld⟩ | ⟨rfl, n, hdown, hn⟩)
    · exact ⟨_, exec_powerFail hheld, State.enterReset_pins_spec s _⟩
    · exact ⟨_, exec_fundamentalResetAssert hheld, State.enterReset_pins_spec s _⟩
    · exact ⟨_, exec_goingDownNoticeExpire hdown hn, s.enterReset_spec⟩
  · intro s
    exact ⟨s.alwaysOnUp, rfl, rfl, rfl, rfl, rfl, rfl, rfl, fun _ => rfl, fun _ => rfl⟩
  · intro s hreset h0 hfail herasing
    obtain ⟨hpg, hperst, hinc, hstate⟩ := State.bootRom_staysUp (s := s.released) rfl h0 hfail herasing
    obtain ⟨hpins, hpower⟩ := s.released.exitReset_keeps
    refine ⟨s.released.bootRom, exec_resetRelease hreset, hstate ?_, hpg.trans ?_, hperst.trans ?_, ?_⟩
    · rw [hpower]
      exact fun h => nomatch h
    · rw [hpins]
      rfl
    · rw [hpins]
      rfl
    · rw [hinc]
      exact s.released.exitReset_incarnation

end Sys2Proof.Machine
end

section
/-! Shadow compares and recomputes, the retirement of a lane and the shadow control (02_reduction_arithmetic.md R25, R49-R51;
19_faults_and_spares.md R349). -/
namespace Sys2Proof.Machine

/-! ### Lists with one entry replaced -/

theorem setAt_eq_set {α : Type} (l : List α) (i : Nat) (v : α) : setAt l i v = l.set i v := by
  rw [setAt, List.set_eq_take_append_cons_drop]
  split
  · simp
  · next h =>
    rw [List.take_of_length_le (by omega), List.drop_eq_nil_of_le (by omega)]
    simp

/-! ### Frames -/

/-- Everything but the engines' state, the registers, the error log, the record of repairs, the wake event and the faces stays. -/
def OnlyLanes (s t : State) : Prop :=
  t = { s with rue := t.rue, regs := t.regs, log := t.log, boot := t.boot, power := t.power, outbox := t.outbox }

theorem OnlyLanes.trans {s t u : State} (h : OnlyLanes s t) (g : OnlyLanes t u) : OnlyLanes s u := by
  unfold OnlyLanes at h g ⊢
  rw [g, h]

theorem OnlyLanes.frame {s t : State} (h : OnlyLanes s t) :
    SameBytes s t ∧ t.que = s.que ∧ t.cle = s.cle ∧ t.lnd = s.lnd ∧ t.gal = s.gal ∧ SameLines s t ∧ SameLight s t := by
  rw [h]
  exact ⟨⟨fun _ => rfl, fun _ => rfl, fun _ => rfl, fun _ => rfl, fun _ => rfl⟩, rfl, rfl, rfl, rfl, ⟨rfl, rfl, rfl, rfl⟩, ⟨rfl, rfl⟩⟩

theorem OnlyLanes.setReg (s : State) (a : Nat) (v : Word) : OnlyLanes s (s.setReg a v) := rfl
theorem OnlyLanes.setB (s : State) (a lo : Nat) (v : Bool) : OnlyLanes s (s.setB a lo v) := rfl
theorem OnlyLanes.dropCompare (s : State) (n : Nat) : OnlyLanes s (s.dropCompare n) := rfl
theorem OnlyLanes.boot (s : State) (b : Boot) : OnlyLanes s { s with boot := b } := rfl

/-- An entry of the field-repair record changes bring-up's state alone. -/
theorem State.recordUnit_boot (s : State) (kind index : Nat) (payload : List Byte) :
    s.recordUnit kind index payload = { s with boot := (s.recordUnit kind index payload).boot } := by
  simp only [State.recordUnit]

theorem OnlyLanes.recordUnit (s : State) (kind index : Nat) (payload : List Byte) : OnlyLanes s (s.recordUnit kind index payload) := by
  rw [State.recordUnit_boot]
  exact OnlyLanes.boot s _

theorem OnlyLanes.raiseVector (s : State) (v : Nat) : OnlyLanes s (s.raiseVector v) := by
  unfold State.raiseVector State.sendVector
  split <;> rfl

theorem OnlyLanes.logEvent (s : State) (e : Event) : OnlyLanes s (s.logEvent e) := by
  have hlog : OnlyLanes s (s.appendLog (s.entryOf e)) := by
    unfold State.appendLog State.bumpIf
    dsimp only
    split <;> rfl
  have herr (t : State) (n : Nat) : OnlyLanes t (t.raiseError n) := by
    unfold State.raiseError
    dsimp only
    split
    · rfl
    · exact (OnlyLanes.setB t _ _ _).trans (OnlyLanes.raiseVector _ _)
  unfold State.logEvent
  dsimp only
  split
  · exact hlog.trans (herr _ _)
  · exact hlog

theorem State.wakeEvent_power (s : State) : s.wakeEvent = { s with power := s.wakeEvent.power } := by
  unfold State.wakeEvent
  split <;> rfl

theorem OnlyLanes.wakeEvent (s : State) : OnlyLanes s s.wakeEvent := by
  rw [State.wakeEvent_power]
  rfl

@[simp] theorem State.wakeEvent_reg (s : State) (a : Nat) : s.wakeEvent.reg a = s.reg a := by
  rw [State.wakeEvent_power]
  rfl

@[simp] theorem State.wakeEvent_sreg (s : State) (a : Nat) : s.wakeEvent.sreg a = s.sreg a := by
  rw [State.wakeEvent_power]
  rfl

theorem State.logEvent_rue (s : State) (e : Event) : (s.logEvent e).rue = s.rue := by
  obtain ⟨-, -, ⟨-, -, hrue, -, -, -⟩, -⟩ := OnlyReports.logEvent s e
  exact hrue

theorem State.logEvent_time (s : State) (e : Event) : (s.logEvent e).time = s.time := by
  obtain ⟨-, -, -, -, -, ⟨-, htime, -⟩, -⟩ := OnlyReports.logEvent s e
  exact htime

theorem State.logEvent_boot (s : State) (e : Event) : (s.logEvent e).boot = s.boot := by
  obtain ⟨-, -, -, -, -, ⟨-, -, hboot, -⟩, -⟩ := OnlyReports.logEvent s e
  exact hboot

/-- An entry of the log leaves the registers that are no report registers. -/
theorem State.logEvent_regs (s : State) (e : Event) : SameRegsBut isReportReg s (s.logEvent e) := (OnlyReports.logEvent s e).1

@[simp] theorem State.recordUnit_b (s : State) (kind index : Nat) (payload : List Byte) (a lo : Nat) :
    (s.recordUnit kind index payload).b a lo = s.b a lo := by
  have hb (x : Boot) : ({ s with boot := x } : State).b a lo = s.b a lo := rfl
  rw [State.recordUnit_boot, hb]

@[simp] theorem State.recordUnit_reg (s : State) (kind index : Nat) (payload : List Byte) (a : Nat) :
    (s.recordUnit kind index payload).reg a = s.reg a := by
  have hr (x : Boot) : ({ s with boot := x } : State).reg a = s.reg a := rfl
  rw [State.recordUnit_boot, hr]

@[simp] theorem State.recordUnit_sreg (s : State) (kind index : Nat) (payload : List Byte) (a : Nat) :
    (s.recordUnit kind index payload).sreg a = s.sreg a := by
  have hr (x : Boot) : ({ s with boot := x } : State).sreg a = s.sreg a := rfl
  rw [State.recordUnit_boot, hr]

@[simp] theorem State.recordUnit_rue (s : State) (kind index : Nat) (payload : List Byte) :
    (s.recordUnit kind index payload).rue = s.rue := by
  rw [State.recordUnit_boot]

/-! ### Compares (R49, R50) -/

theorem exec_shadowCompareDone (s : State) (n : Nat) (result : Option LaneMismatch) :
    exec (.shadowCompareDone n result) s = .next (s.compareDone n result) := rfl

theorem exec_chunkRecomputeDone (s : State) (n : Nat) (agree : Agreement) :
    exec (.chunkRecomputeDone n agree) s = .next (s.recomputeDone n agree) := rfl

theorem exec_laneRetire (s : State) : exec .laneRetire s = .next s.retireNext := rfl

/-- A compare that leaves others to come, or that finds or follows a mismatch, only counts down. -/
theorem State.compareDone_counts {s : State} {n : Nat} {m : Compare} {result : Option LaneMismatch} (h : s.rue.compares[n]? = some m)
    (hm : 1 < m.left ∨ (m.left = 1 ∧ (m.bad ≠ [] ∨ result ≠ none))) :
    s.compareDone n result =
      { s with rue := { s.rue with compares := setAt s.rue.compares n { m with left := m.left - 1, bad := m.bad ++ result.toList } } } := by
  have hleft : m.left ≠ 0 := by omega
  have hlast : ¬ (m.left - 1 = 0 ∧ (m.bad ++ result.toList).isEmpty = true) := by
    rintro ⟨hzero, hempty⟩
    obtain h1 | ⟨-, hbad⟩ := hm
    · omega
    · cases result <;> simp_all
  simp only [State.compareDone, h, if_neg hleft, if_neg hlast]

/-! ### Recomputes (R51) -/

/-- The state with a mismatch noted, among those of the last 24 hours, as one of the lane that compared. -/
def State.notesShadow (s : State) (b : LaneMismatch) : State :=
  { s with rue := { s.rue with mismatches := s.rue.mismatches.filter (fun e => !s.elapsed e.2.2 dayNs) ++ [(false, s.shadowOf b, s.mono)] } }

/-- A mismatch in which the recompute agrees with the lane is one of the lane that compared; the third lets that lane be retired. -/
theorem State.attributeAll_lane (s : State) (b : LaneMismatch) (phase : Nat) :
    s.attributeAll b .lane phase =
      if decide (3 ≤ (s.notesShadow b).laneCount false (s.shadowOf b)) && !s.rue.lanesOut.contains (false, s.shadowOf b) &&
          !s.rue.retiring.any (fun r => decide (r.f64 = false) && decide (r.index = s.shadowOf b)) then
        { s.notesShadow b with rue := { (s.notesShadow b).rue with
            retiring := s.rue.retiring ++ [{ f64 := false, index := s.shadowOf b, reason := 2 }] } }
      else s.notesShadow b := rfl

/-- Such a mismatch changes nothing else of the lanes' state, and no register or log. -/
theorem State.attributeAll_lane_spec (s : State) (b : LaneMismatch) (phase : Nat) :
    OnlyLanes s (s.attributeAll b .lane phase) ∧ (s.attributeAll b .lane phase).regs = s.regs ∧
      (s.attributeAll b .lane phase).log = s.log ∧ (s.attributeAll b .lane phase).rue.compares = s.rue.compares ∧
      (false, s.shadowOf b, s.mono) ∈ (s.attributeAll b .lane phase).rue.mismatches := by
  have hnoted : (false, s.shadowOf b, s.mono) ∈ (s.notesShadow b).rue.mismatches := by simp [State.notesShadow]
  rw [State.attributeAll_lane]
  split
  · exact ⟨rfl, rfl, rfl, rfl, hnoted⟩
  · exact ⟨rfl, rfl, rfl, rfl, hnoted⟩

/-- The lane that compared is known by the lanes that are out alone. -/
theorem State.shadowOf_of_lanesOut_eq {s t : State} (h : t.rue.lanesOut = s.rue.lanesOut) (b : LaneMismatch) :
    t.shadowOf b = s.shadowOf b := by
  simp only [State.shadowOf, h]

/-- A recompute that agrees with the lane logs the one mismatch, which is one of the lane that compared. -/
theorem State.recomputeDone_lane {s : State} {n : Nat} {m : Compare} {b : LaneMismatch} (h : s.rue.compares[n]? = some m)
    (hleft : m.left = 0) (hbad : m.bad = [b]) (hheld : m.held = false) :
    ∃ e phase, s.recomputeDone n .lane = ((s.dropCompare n).logEvent e).attributeAll b .lane phase := by
  have hnone : s.stillHeld m = false := by simp [State.stillHeld, hheld]
  simp only [State.recomputeDone, h, hleft, hbad, hnone, ne_eq, not_true_eq_false, List.isEmpty_cons, Bool.false_eq_true, or_self,
    decide_false, Bool.false_and, if_false, List.foldl_cons, List.foldl_nil, State.logMismatch]
  exact ⟨_, _, rfl⟩

/-! ### Lanes (R25, R349) -/

/-- An entry of the field-repair record that leaves its copy room is appended to it. -/
theorem State.recordUnit_appends (s : State) (kind index : Nat) {payload : List Byte} (hlen : payload.length ≤ 16)
    (hroom : s.boot.recordBytes ≤ 0x80000) :
    ∃ e, (s.recordUnit kind index payload).boot.record = s.boot.record ++ [e] ∧ e.kind = kind ∧ e.index = index := by
  have hfit : ¬ 0x100000 < s.boot.recordBytes + roundUp (12 + payload.length + 4) 16 + 4096 := by
    unfold roundUp
    omega
  simp only [State.recordUnit, hfit, decide_false, Bool.false_eq_true, if_false]
  exact ⟨_, rfl, rfl, rfl⟩

/-- The state in which a lane's retirement is recorded and its set's spare is in use. -/
def State.spareTakes (s : State) (lane reason : Nat) : State :=
  (s.recordUnit 0x01 lane (leBytes 4 reason)).setB (A.rueLaneStatus (lane / 4096)) (lane / 128 % 32) true

/-- A lane of a set whose spare is free and good: the spare takes its place, and one entry is logged. -/
theorem State.retireLane32_spared {s : State} {lane : Nat} (reason : Nat) (hlane : lane % 128 < 64)
    (hspare : s.rue.lanesOut.contains (false, lane / 128 * 128 + 64) = false)
    (huse : s.b (A.rueLaneStatus (lane / 4096)) (lane / 128 % 32) = false)
    (hset : s.b (A.rueLaneStatus (lane / 4096)) (16 + lane / 128 % 32) = false) :
    ∃ e, s.retireLane32 lane reason = (s.spareTakes lane reason).logEvent e := by
  have hne : lane % 128 ≠ 64 := by omega
  simp only [State.retireLane32, State.recordUnit_b, State.recordUnit_rue, huse, hset, hspare, hne, false_and, Bool.or_self,
    Bool.false_eq_true, if_false]
  exact ⟨_, rfl⟩

theorem State.spareTakes_reg (s : State) (lane reason : Nat) {a : Nat} (h : a ≠ A.rueLaneStatus (lane / 4096)) :
    (s.spareTakes lane reason).reg a = s.reg a := by
  rw [State.spareTakes, State.reg_setB_ne _ _ _ h, State.recordUnit_reg]

theorem State.spareTakes_sreg (s : State) (lane reason a : Nat) : (s.spareTakes lane reason).sreg a = s.sreg a := by
  rw [State.spareTakes, State.setB_sreg, State.recordUnit_sreg]

theorem State.spareTakes_rue (s : State) (lane reason : Nat) : (s.spareTakes lane reason).rue = s.rue := by
  rw [State.spareTakes, State.setB_rue, State.recordUnit_rue]

theorem State.spareTakes_b (s : State) {lane : Nat} (reason : Nat) (hset : lane / 128 % 32 < 16) :
    (s.spareTakes lane reason).b (A.rueLaneStatus (lane / 4096)) (lane / 128 % 32) = true ∧
      (s.spareTakes lane reason).b (A.rueLaneStatus (lane / 4096)) (16 + lane / 128 % 32) =
        s.b (A.rueLaneStatus (lane / 4096)) (16 + lane / 128 % 32) := by
  constructor
  · exact State.b_setB_same _ _ _ _ (by omega)
  · rw [State.spareTakes, State.b_setB_ne _ _ _ _ _ _ (by omega) (.inr (by omega)), State.recordUnit_b]

theorem OnlyLanes.spareTakes (s : State) (lane reason : Nat) : OnlyLanes s (s.spareTakes lane reason) :=
  (OnlyLanes.recordUnit s _ _ _).trans (OnlyLanes.setB _ _ _ _)

/-- The state in which a lane is out and other retirements wait. -/
def State.laneLeaves (s : State) (lane : Nat) (rest : List LaneOut) : State :=
  { s with rue := { s.rue with retiring := rest, lanesOut := s.rue.lanesOut ++ [(false, lane)] } }

theorem OnlyLanes.laneLeaves (s : State) (lane : Nat) (rest : List LaneOut) : OnlyLanes s (s.laneLeaves lane rest) := rfl

/-- The retirement of the oldest lane that waits, where its set's spare is free. -/
theorem State.retireNext_spared {s : State} {lane reason : Nat} {rest : List LaneOut}
    (h : s.rue.retiring = { f64 := false, index := lane, reason := reason } :: rest) (hlane : lane % 128 < 64)
    (hspare : s.rue.lanesOut.contains (false, lane / 128 * 128 + 64) = false)
    (huse : s.b (A.rueLaneStatus (lane / 4096)) (lane / 128 % 32) = false)
    (hset : s.b (A.rueLaneStatus (lane / 4096)) (16 + lane / 128 % 32) = false) :
    ∃ e, s.retireNext = ((s.laneLeaves lane rest).spareTakes lane reason).logEvent e := by
  have hrun : s.retireNext = (s.laneLeaves lane rest).retireLane32 lane reason := by
    simp only [State.retireNext, h]
    rfl
  have hother : lane / 128 * 128 + 64 ≠ lane := by omega
  rw [hrun]
  refine State.retireLane32_spared reason hlane ?_ huse hset
  simp only [State.laneLeaves, List.contains_eq_mem, List.mem_append, List.mem_singleton, Prod.mk.injEq, true_and, hother, or_false]
  simpa using hspare

/-! ### The shadow control (R49) -/

/-- RUE_SHADOW_CTRL as a write stores it. -/
def shadowCtrlStored (v : Word) : Word := setFld (v &&& 0x0001011F#32) 0 5 (clamp 6 16 (fld v 0 5))

theorem clamp_eq_max_min {lo hi : Nat} (h : lo ≤ hi) (v : Nat) : clamp lo hi v = max lo (min hi v) := by
  unfold clamp
  split
  · omega
  · split <;> omega

/-- N is held to 6 to 16; the two bits are stored as written. -/
theorem shadowCtrlStored_spec (v : Word) : fld (shadowCtrlStored v) 0 5 = max 6 (min 16 (fld v 0 5)) ∧
    fld (shadowCtrlStored v) 8 1 = fld v 8 1 ∧ fld (shadowCtrlStored v) 16 1 = fld v 16 1 := by
  have hbit (k : Nat) (hk : (0x0001011F#32).getLsbD k = true) : fld (v &&& 0x0001011F#32) k 1 = fld v k 1 := by
    apply Nat.eq_of_testBit_eq
    intro i
    rw [fld_testBit, fld_testBit, BitVec.getLsbD_and]
    by_cases hi : i < 1
    · obtain rfl : i = 0 := by omega
      simp [hk]
    · simp [hi]
  refine ⟨?_, ?_, ?_⟩
  · rw [shadowCtrlStored, fld_setFld_same _ _ _ _ (by omega), clamp_eq_max_min (by omega)]
    omega
  · rw [shadowCtrlStored, fld_setFld_ne _ _ _ _ _ _ (by omega) (by omega), hbit 8 (by decide)]
  · rw [shadowCtrlStored, fld_setFld_ne _ _ _ _ _ _ (by omega) (by omega), hbit 16 (by decide)]

theorem exec_rueShadowCtrlWrite {s : State} (v : Word) (h : s.accepts A.rueShadowCtrl = true) :
    exec (.rueShadowCtrlWrite v) s = .next (s.writeShadowCtrl v) :=
  congrArg _ (State.onAccess_accepted (fun s => s.writeShadowCtrl v) h)

/-- The state in which the written shadow control waits for the next chunk boundary. -/
def State.shadowWaits (s : State) (v : Word) : State := (s.setReg A.rueShadowCtrl (shadowCtrlStored v)).wakeEvent

theorem State.writeShadowCtrl_eq (s : State) (v : Word) :
    s.writeShadowCtrl v = if bit v 16 then s.shadowWaits v else (s.shadowWaits v).logEvent { code := 0x0104, cls := .info } := rfl

theorem State.shadowWaits_reg (s : State) (v : Word) (a : Nat) :
    (s.shadowWaits v).reg a = if a = A.rueShadowCtrl then shadowCtrlStored v else s.reg a := by
  rw [State.shadowWaits, State.wakeEvent_reg, State.reg_setReg]

theorem State.shadowWaits_keeps (s : State) (v : Word) :
    OnlyLanes s (s.shadowWaits v) ∧ (s.shadowWaits v).log = s.log ∧ (s.shadowWaits v).rue = s.rue ∧
      ∀ a, (s.shadowWaits v).sreg a = s.sreg a := by
  refine ⟨(OnlyLanes.setReg s _ _).trans (OnlyLanes.wakeEvent _), ?_, ?_, fun a => ?_⟩
  · rw [State.shadowWaits, State.wakeEvent_power]
    rfl
  · rw [State.shadowWaits, State.wakeEvent_power]
    rfl
  · rw [State.shadowWaits, State.wakeEvent_sreg, State.setReg_sreg]

/-- What a write of the shadow control shows: the fields stored, ENABLE = 0 logged. -/
theorem State.writeShadowCtrl_spec (s : State) (v : Word) :
    OnlyLanes s (s.writeShadowCtrl v) ∧ (s.writeShadowCtrl v).reg A.rueShadowCtrl = shadowCtrlStored v ∧
      (s.writeShadowCtrl v).rue = s.rue ∧ (bit v 16 = true → (s.writeShadowCtrl v).log = s.log) ∧
      (bit v 16 = false → (s.writeShadowCtrl v).log.seq = (s.log.seq + 1) % 0x100000000) ∧
      SameRegsBut (fun a => isReportReg a || decide (a = A.rueShadowCtrl)) s (s.writeShadowCtrl v) := by
  obtain ⟨honly, hlog, hrue, hsreg⟩ := s.shadowWaits_keeps v
  have hother {a : Nat} (ha : (isReportReg a || decide (a = A.rueShadowCtrl)) = false) :
      isReportReg a = false ∧ (s.shadowWaits v).reg a = s.reg a := by
    obtain ⟨hrep, hne⟩ := Bool.or_eq_false_iff.mp ha
    exact ⟨hrep, by rw [State.shadowWaits_reg, if_neg (of_decide_eq_false hne)]⟩
  rw [State.writeShadowCtrl_eq]
  cases hbit : bit v 16 with
  | true =>
    rw [if_pos rfl]
    exact ⟨honly, by rw [State.shadowWaits_reg, if_pos rfl], hrue, fun _ => hlog, fun h => absurd h (by decide),
      fun a ha => ⟨(hother ha).2, hsreg a⟩⟩
  | false =>
    rw [if_neg (by simp)]
    refine ⟨honly.trans (OnlyLanes.logEvent _ _), ?_, ?_, fun h => absurd h (by decide), fun _ => ?_, fun a ha => ?_⟩
    · rw [(State.logEvent_regs _ _ _ (by decide)).1, State.shadowWaits_reg, if_pos rfl]
    · rw [State.logEvent_rue, hrue]
    · rw [State.logEvent_seq, hlog]
    · obtain ⟨hrep, hreg⟩ := hother ha
      obtain ⟨hr, hs⟩ := State.logEvent_regs (s.shadowWaits v) { code := 0x0104, cls := .info } a hrep
      exact ⟨hr.trans hreg, hs.trans (hsreg a)⟩

/-- Settles O37: each of the four commands is its own case; what it leaves is `OnlyLanes`. -/
theorem comparesRecomputesAndLanes : Obligations.ComparesRecomputesAndLanes := by
  refine ⟨?_, ?_, ?_, ?_⟩
  · intro s n m result hm hcount
    refine ⟨_, by rw [exec_shadowCompareDone, State.compareDone_counts hm hcount], ?_, fun k hk => ?_, ?_⟩
    · have hn : n < s.rue.compares.length := (List.getElem?_eq_some_iff.mp hm).1
      simp [setAt_eq_set, hn]
    · simp [setAt_eq_set, List.getElem?_set_ne (Ne.symm hk)]
    · exact ⟨⟨fun _ => rfl, fun _ => rfl, fun _ => rfl, fun _ => rfl, fun _ => rfl⟩, rfl, rfl, rfl, rfl, ⟨rfl, rfl, rfl, rfl⟩,
        ⟨rfl, rfl⟩, ⟨rfl, rfl, rfl, rfl⟩, fun _ _ => ⟨rfl, rfl⟩⟩
  · intro s n m b hm hleft hbad hheld
    obtain ⟨e, phase, hrun⟩ := State.recomputeDone_lane hm hleft hbad hheld
    obtain ⟨honly, hregs, hlog, hcompares, hmismatch⟩ := ((s.dropCompare n).logEvent e).attributeAll_lane_spec b phase
    obtain ⟨hbytes, hque, hcle, hlnd, hgal, hlines, hlight⟩ := ((OnlyLanes.dropCompare s n).trans ((OnlyLanes.logEvent _ e).trans honly)).frame
    refine ⟨_, by rw [exec_chunkRecomputeDone, hrun], ?_, ?_, ?_, hbytes, hque, hcle, hlnd, hgal, hlines, hlight, fun a ha => ?_⟩
    · rw [hcompares, State.logEvent_rue]
      rfl
    · have hmono : ((s.dropCompare n).logEvent e).mono = s.mono := congrArg TimeBase.mono (State.logEvent_time _ e)
      have hlane : ((s.dropCompare n).logEvent e).shadowOf b = s.shadowOf b :=
        State.shadowOf_of_lanesOut_eq (by rw [State.logEvent_rue]; rfl) b
      rwa [hmono, hlane] at hmismatch
    · rw [hlog, State.logEvent_seq]
      rfl
    · obtain ⟨hr, hs⟩ := (s.dropCompare n).logEvent_regs e a ha
      refine ⟨?_, ?_⟩
      · rw [State.reg, hregs]
        exact hr
      · rw [State.sreg, honly]
        exact hs
  · intro s lane reason rest hret hrange hlane hset hspare huse hbad hroom
    obtain ⟨e, hrun⟩ := State.retireNext_spared hret hlane hspare huse hbad
    obtain ⟨r, hrecord, hkind, hindex⟩ := (s.laneLeaves lane rest).recordUnit_appends 1 lane (payload := leBytes 4 reason) (by simp) hroom
    obtain ⟨htaken, hgood⟩ := (s.laneLeaves lane rest).spareTakes_b reason hset
    have hstatus : isReportReg (A.rueLaneStatus (lane / 4096)) = false := by
      unfold isReportReg A.rueLaneStatus
      have : lane / 4096 < 4 := by omega
      simp
      omega
    have hafter := ((s.laneLeaves lane rest).spareTakes lane reason).logEvent_regs e
    obtain ⟨hbytes, hque, hcle, hlnd, hgal, hlines, hlight⟩ :=
      ((OnlyLanes.laneLeaves s lane rest).trans ((OnlyLanes.spareTakes _ lane reason).trans (OnlyLanes.logEvent _ e))).frame
    refine ⟨_, r, by rw [exec_laneRetire, hrun], ?_, ?_, ?_, ?_, ?_, hkind, hindex, hbytes, hque, hcle, hlnd, hgal, hlines, hlight,
      fun a ha => ?_⟩
    · rw [State.b, (hafter _ hstatus).1]
      exact htaken
    · rw [State.b, (hafter _ hstatus).1]
      exact hgood.trans hbad
    · rw [State.logEvent_rue, State.spareTakes_rue]
      rfl
    · rw [State.logEvent_rue, State.spareTakes_rue]
      rfl
    · rw [State.logEvent_boot]
      exact hrecord
    · obtain ⟨hrep, hne⟩ := Bool.or_eq_false_iff.mp ha
      obtain ⟨hr, hs⟩ := hafter a hrep
      refine ⟨?_, ?_⟩
      · rw [hr, State.spareTakes_reg _ _ _ (of_decide_eq_false hne)]
        rfl
      · rw [hs, State.spareTakes_sreg]
        rfl
  · intro s v hacc
    obtain ⟨honly, hreg, hrue, hon, hoff, hregs⟩ := s.writeShadowCtrl_spec v
    obtain ⟨hn, hchecked, henable⟩ := shadowCtrlStored_spec v
    obtain ⟨hbytes, hque, hcle, hlnd, hgal, hlines, hlight⟩ := honly.frame
    refine ⟨_, exec_rueShadowCtrlWrite v hacc, ?_, ?_, ?_, hon, hoff, hrue, hbytes, hque, hcle, hlnd, hgal, hlines, hlight, hregs⟩
    · rw [State.f, hreg, hn]
    · rw [State.f, hreg, hchecked]
    · rw [State.f, hreg, henable]

end Sys2Proof.Machine
end

section
/-! Sending chunks and granting credit: what it touches of the block, and of the collective that sends (04_collectives_and_flights.md
R85, R91, R96; 07_compression.md R132, R142; 13_fabric_links_and_concourse.md R251). -/
namespace Sys2Proof.Machine

/-! ### Sending -/

/-- Only kept copies, routes, the scheduler, the fabric's queues and registers below those of the queues change. -/
def OnlySends (s t : State) : Prop :=
  t = { s with cle := { s.cle with kept := t.cle.kept }, rte := t.rte, sched := t.sched, dfl := t.dfl, regs := t.regs } ∧
    ∀ a, 0xF00000 ≤ a → t.reg a = s.reg a

theorem OnlySends.refl (s : State) : OnlySends s s := ⟨rfl, fun _ _ => rfl⟩

theorem OnlySends.trans {s t u : State} (h : OnlySends s t) (g : OnlySends t u) : OnlySends s u := by
  obtain ⟨h1, h2⟩ := h
  obtain ⟨g1, g2⟩ := g
  refine ⟨?_, fun a ha => (g2 a ha).trans (h2 a ha)⟩
  rw [g1, h1]

theorem OnlySends.foldl {α : Type} {run : State → α → State} (h : ∀ s x, OnlySends s (run s x)) (xs : List α) (s : State) :
    OnlySends s (xs.foldl run s) := by
  induction xs generalizing s with
  | nil => exact OnlySends.refl s
  | cons x xs ih => exact (h s x).trans (ih _)

theorem OnlySends.setReg (s : State) {a : Nat} (v : Word) (h : a < 0xF00000) : OnlySends s (s.setReg a v) :=
  ⟨rfl, fun b hb => State.reg_setReg_ne s v (by omega)⟩

theorem OnlySends.bumpBy (s : State) {a : Nat} (n : Nat) (h : a < 0xF00000) : OnlySends s (s.bumpBy a n) := OnlySends.setReg s _ h
theorem OnlySends.bump (s : State) {a : Nat} (h : a < 0xF00000) : OnlySends s (s.bump a) := OnlySends.setReg s _ h

theorem OnlySends.setReg64 (s : State) {lo hi : Nat} (v : Nat) (hl : lo < 0xF00000) (hh : hi < 0xF00000) :
    OnlySends s (s.setReg64 lo hi v) := (OnlySends.setReg s _ hl).trans (OnlySends.setReg _ _ hh)

theorem OnlySends.kept (s : State) (k : List Kept) : OnlySends s { s with cle := { s.cle with kept := k } } := ⟨rfl, fun _ _ => rfl⟩

/-- Moving cells counts in registers below those of the queues. -/
theorem OnlyCells.onlySends {s t : State} (h : OnlyCells s t) : OnlySends s t := by
  obtain ⟨hstate, -, hregs⟩ := h
  refine ⟨?_, fun a ha => hregs a ?_⟩
  · rw [hstate]
  · have hcount : ∀ b ∈ [A.secCnt 8, A.schedCnt 0, A.schedCnt 1, A.schedCnt 2], b < 0xF00000 := by decide
    by_contra hc
    have := hcount a (by simpa only [isCellCount, Bool.not_eq_false, List.contains_eq_mem, decide_eq_true_eq] using hc)
    omega

theorem OnlySends.makeRoom (line : Bool) (n fuel : Nat) (s : State) : OnlySends s (s.makeRoom line n fuel) := by
  induction fuel generalizing s with
  | zero => exact OnlySends.refl s
  | succ k ih =>
    unfold State.makeRoom
    split
    · exact OnlySends.refl s
    · split
      · exact OnlySends.refl s
      · refine ((OnlySends.kept s _).trans (OnlySends.bump _ ?_)).trans (ih _)
        cases line <;> decide

theorem OnlySends.keepCopy (s : State) (k : Kept) : OnlySends s (s.keepCopy k) := by
  unfold State.keepCopy
  split
  · exact OnlySends.kept s _
  · refine OnlySends.bump s ?_
    cases k.line <;> decide

theorem OnlySends.countEncoding (s : State) (buffer : Option Bool) (n : Nat) : OnlySends s (s.countEncoding buffer n) := by
  unfold State.countEncoding
  split
  · split
    · exact OnlySends.bumpBy s _ (by decide)
    · exact OnlySends.refl s
  · exact (OnlySends.bumpBy s _ (by decide)).trans (OnlySends.bumpBy _ _ (by decide))

theorem OnlySends.encodeChunk (s : State) (width : Nat) (bs : List Byte) : OnlySends s (s.encodeChunk width bs).2 := by
  have hblocks (l : List (BlockMode × List Byte)) (t : State) : OnlySends t (l.foldl (fun s b => match b.1 with
      | .zp => s.bump (A.cmpCnt 0)
      | .raw => s.bump (A.cmpCnt 1)
      | .zero => s.bump (A.cmpCnt 2)) t) := by
    refine OnlySends.foldl (fun t b => ?_) l t
    split
    · exact OnlySends.bump t (by decide)
    · exact OnlySends.bump t (by decide)
    · exact OnlySends.bump t (by decide)
  unfold State.encodeChunk
  dsimp only
  split
  · exact (OnlySends.countEncoding s _ _).trans (OnlySends.bump _ (by decide))
  · exact ((((OnlySends.countEncoding s _ _).trans (hblocks _ _)).trans (OnlySends.bump _ (by decide))).trans
      (OnlySends.setReg64 _ _ (by decide) (by decide))).trans (OnlySends.setReg64 _ _ (by decide) (by decide))

theorem OnlySends.sendLine (s : State) (node vc ptype : Nat) (bytes : List Byte) : OnlySends s (s.sendLine node vc ptype bytes) := by
  unfold State.sendLine
  split
  · exact OnlySends.refl s
  · exact ((OnlyCells.setTx s _ _).trans (OnlyCells.feed _ _ _ _ _)).onlySends

theorem OnlySends.setFib (s : State) (f : Nat) (x : Fibre) : OnlySends s (s.setFib f x) := ⟨rfl, fun _ _ => rfl⟩

theorem OnlySends.sendFabric (s : State) (vc ptype dst : Nat) (body : List Byte) : OnlySends s (s.sendFabric vc ptype dst body) := by
  unfold State.sendFabric State.sendFabricBytes State.admitAll
  exact (OnlySends.setFib s _ _).trans (OnlySends.setFib _ _ _)

theorem OnlySends.sendFabricMsg (s : State) (dst : Nat) (msg : List Byte) : OnlySends s (s.sendFabricMsg dst msg) :=
  OnlySends.sendFabric s 0 2 dst msg

theorem OnlySends.transmit (s : State) (line : Bool) (node vc : Nat) (compress pinned : Bool) (hdr data : List Byte) :
    OnlySends s (s.transmit line node vc compress pinned hdr data) := by
  have hsend (t : State) (wire : List Byte) :
      OnlySends t (if line then t.sendLine node vc 1 wire else t.sendFabric 1 1 node wire) := by
    split
    · exact OnlySends.sendLine t _ _ _ _
    · exact OnlySends.sendFabric t _ _ _ _
  unfold State.transmit
  dsimp only
  refine OnlySends.trans ?_ ((OnlySends.keepCopy _ _).trans (hsend _ _))
  split
  · exact (OnlySends.makeRoom _ _ _ s).trans (OnlySends.encodeChunk _ _ _)
  · exact OnlySends.makeRoom _ _ _ s

/-! ### Open collectives -/

theorem Sparse.find?_insert_same {V : Type} (m : Sparse V) (k : Nat) (v : V) :
    (Sparse.insert m k v).find? (fun e => e.1 = k) = some (k, v) := by
  induction m with
  | nil => simp [Sparse.insert]
  | cons e r ih =>
    obtain ⟨j, w⟩ := e
    unfold Sparse.insert
    split
    · next h => simp [Nat.ne_of_lt h, ih]
    · split
      · simp
      · simp

@[simp] theorem State.inst_setInst (s : State) (g : Nat) (x : Inst) : (s.setInst g x).inst g = some x := by
  rw [State.inst, State.setInst]
  simp only [Sparse.find?_insert_same, Option.map_some]

theorem State.inst_of_insts_eq {s t : State} (h : t.cle.insts = s.cle.insts) (g : Nat) : t.inst g = s.inst g := by
  rw [State.inst, State.inst, h]

theorem OnlySends.inst {s t : State} (h : OnlySends s t) (g : Nat) : t.inst g = s.inst g :=
  State.inst_of_insts_eq (by rw [h.1]) g

/-- Only the chunks that wait to be sent and the credit of a collective have changed. -/
def Inst.Sent (x y : Inst) : Prop :=
  y = { x with out := y.out, outNext := y.outNext, granted := y.granted, creditAt := y.creditAt, stalled := y.stalled }

theorem Inst.Sent.refl (x : Inst) : x.Sent x := rfl

theorem Inst.Sent.mk (x : Inst) (out : Sparse (List (Nat × List Byte))) (outNext granted creditAt : Sparse Nat) (stalled : List Nat) :
    x.Sent { x with out := out, outNext := outNext, granted := granted, creditAt := creditAt, stalled := stalled } := rfl

theorem Inst.Sent.trans {x y z : Inst} (h : x.Sent y) (g : y.Sent z) : x.Sent z := by
  unfold Inst.Sent at h g ⊢
  rw [g, h]

theorem Inst.Sent.chunk {x y : Inst} (h : x.Sent y) (c : Nat) : y.chunk c = x.chunk c := by
  rw [h]
  rfl

theorem Inst.Sent.staysOpen {x y : Inst} (h : x.Sent y) (hx : x.staysOpen) : y.staysOpen := by
  rw [h]
  exact hx

/-- Only the collective engine, routes, the scheduler, the fabric's queues and registers below those of the queues change. -/
def OnlyStreams (s t : State) : Prop :=
  t = { s with cle := t.cle, rte := t.rte, sched := t.sched, dfl := t.dfl, regs := t.regs } ∧ ∀ a, 0xF00000 ≤ a → t.reg a = s.reg a

theorem OnlyStreams.refl (s : State) : OnlyStreams s s := ⟨rfl, fun _ _ => rfl⟩

theorem OnlyStreams.trans {s t u : State} (h : OnlyStreams s t) (g : OnlyStreams t u) : OnlyStreams s u := by
  obtain ⟨h1, h2⟩ := h
  obtain ⟨g1, g2⟩ := g
  refine ⟨?_, fun a ha => (g2 a ha).trans (h2 a ha)⟩
  rw [g1, h1]

theorem OnlySends.onlyStreams {s t : State} (h : OnlySends s t) : OnlyStreams s t := by
  obtain ⟨hstate, hregs⟩ := h
  refine ⟨?_, hregs⟩
  rw [hstate]

theorem OnlyStreams.setInst (s : State) (g : Nat) (x : Inst) : OnlyStreams s (s.setInst g x) := ⟨rfl, fun _ _ => rfl⟩
theorem OnlyStreams.unpin (s : State) (g n : Nat) (c : Option Nat) : OnlyStreams s (s.unpin g n c) := ⟨rfl, fun _ _ => rfl⟩

/-- Memories, queues, Landing, light and cipher stay. -/
theorem OnlyStreams.frame {s t : State} (h : OnlyStreams s t) :
    SameBytes s t ∧ t.que = s.que ∧ t.lnd = s.lnd ∧ t.opt = s.opt ∧ t.sec = s.sec := by
  rw [h.1]
  exact ⟨⟨fun _ => rfl, fun _ => rfl, fun _ => rfl, fun _ => rfl, fun _ => rfl⟩, rfl, rfl, rfl, rfl⟩

/-- The open collective of a group only sends. -/
def Streams (g : Nat) (s t : State) : Prop :=
  OnlyStreams s t ∧ ∀ x, s.inst g = some x → ∃ y, t.inst g = some y ∧ x.Sent y

theorem Streams.refl (g : Nat) (s : State) : Streams g s s := ⟨OnlyStreams.refl s, fun x hx => ⟨x, hx, Inst.Sent.refl x⟩⟩

theorem Streams.trans {g : Nat} {s t u : State} (h : Streams g s t) (k : Streams g t u) : Streams g s u := by
  refine ⟨h.1.trans k.1, fun x hx => ?_⟩
  obtain ⟨y, hy, hxy⟩ := h.2 x hx
  obtain ⟨z, hz, hyz⟩ := k.2 y hy
  exact ⟨z, hz, hxy.trans hyz⟩

theorem Streams.foldl {g : Nat} {α : Type} {run : State → α → State} (h : ∀ s x, Streams g s (run s x)) (xs : List α) (s : State) :
    Streams g s (xs.foldl run s) := by
  induction xs generalizing s with
  | nil => exact Streams.refl g s
  | cons x xs ih => exact (h s x).trans (ih _)

theorem OnlySends.streams {s t : State} (g : Nat) (h : OnlySends s t) : Streams g s t :=
  ⟨h.onlyStreams, fun x hx => ⟨x, (h.inst g).trans hx, Inst.Sent.refl x⟩⟩

theorem Streams.setInst {s : State} {g : Nat} {x y : Inst} (h : s.inst g = some x) (hy : x.Sent y) : Streams g s (s.setInst g y) := by
  refine ⟨OnlyStreams.setInst s g y, fun z hz => ⟨y, s.inst_setInst g y, ?_⟩⟩
  obtain rfl : x = z := Option.some.inj (h.symm.trans hz)
  exact hy

theorem Streams.sendChunkTo (s : State) (g slot : Nat) (pinned : Bool) (hdr data : List Byte) :
    Streams g s (s.sendChunkTo g slot pinned hdr data) := by
  unfold State.sendChunkTo
  split
  · exact Streams.refl g s
  · next x hx =>
    split
    · exact (OnlySends.transmit s _ _ _ _ _ _ _).streams g
    · exact Streams.setInst hx (Inst.Sent.mk x _ _ _ _ _)

theorem Streams.flushPeer (g slot fuel : Nat) (s : State) : Streams g s (s.flushPeer g slot fuel) := by
  induction fuel generalizing s with
  | zero => exact Streams.refl g s
  | succ n ih =>
    unfold State.flushPeer
    split
    · exact Streams.refl g s
    · next x hx =>
      dsimp only
      split
      · exact Streams.refl g s
      · split
        · exact Streams.refl g s
        · split
          · exact Streams.refl g s
          · exact ((Streams.setInst hx (Inst.Sent.mk x _ _ _ _ _)).trans ((OnlySends.transmit _ _ _ _ _ _ _ _).streams g)).trans (ih _)

theorem Streams.flushOut (s : State) (g : Nat) : Streams g s (s.flushOut g) := by
  unfold State.flushOut
  split
  · exact Streams.refl g s
  · exact Streams.foldl (fun s _ => Streams.flushPeer g _ _ s) _ s

/-! ### Credit (R251) -/

theorem Streams.sendCredit {s : State} {g : Nat} {x : Inst} (h : s.inst g = some x) (slot limit : Nat) :
    Streams g s (s.sendCredit g x slot limit) := (Streams.setInst h (Inst.Sent.mk x _ _ _ _ _)).trans ((OnlySends.sendFabric _ _ _ _ _).streams g)

theorem OnlySends.bumpIf (s : State) (c : Bool) {a : Nat} (h : a < 0xF00000) : OnlySends s (s.bumpIf c a) := by
  cases c with
  | false => exact OnlySends.refl s
  | true => exact OnlySends.bump s h

theorem Streams.creditSource (s : State) (g slot : Nat) : Streams g s (s.creditSource g slot) := by
  unfold State.creditSource
  split
  · exact Streams.refl g s
  · next x hx =>
    dsimp only
    have hcount (y : Inst) (c : Bool) : OnlySends (s.setInst g y) ((s.setInst g y).bumpIf c (A.lndCnt 5)) :=
      OnlySends.bumpIf _ _ (by decide)
    split
    · refine ((Streams.setInst hx (Inst.Sent.mk x _ _ _ _ _)).trans ((hcount _ _).streams g)).trans (Streams.sendCredit ?_ _ _)
      rw [(hcount _ _).inst, State.inst_setInst]
    · exact (Streams.setInst hx (Inst.Sent.mk x _ _ _ _ _)).trans ((hcount _ _).streams g)

theorem Streams.creditAll (s : State) (g : Nat) : Streams g s (s.creditAll g) := by
  unfold State.creditAll
  split
  · exact Streams.refl g s
  · exact Streams.foldl (fun s y => Streams.creditSource s g y) _ s

/-! ### Completion of chunks (R101) -/

/-- One chunk becomes complete once it is finished and nothing of it waits. -/
def Inst.closeChunk (x : Inst) (e : Nat × Chunk) : Inst :=
  if e.2.finished && !x.isDone e.1 && !x.outPending e.1 then
    { x with done := x.done ++ [e.1], released := x.released + b2n e.2.owed }
  else x

theorem Inst.closeChunks_eq (x : Inst) : x.closeChunks = x.chunks.foldl Inst.closeChunk x := rfl

theorem Inst.foldl_closeChunk (l : List (Nat × Chunk)) (x : Inst) :
    l.foldl Inst.closeChunk x = { x with done := (l.foldl Inst.closeChunk x).done, released := (l.foldl Inst.closeChunk x).released } := by
  induction l generalizing x with
  | nil => rfl
  | cons e r ih =>
    rw [List.foldl_cons, ih]
    unfold Inst.closeChunk
    split <;> rfl

/-- Completing chunks changes which are complete and released alone. -/
theorem Inst.closeChunks_keeps (x : Inst) : x.closeChunks = { x with done := x.closeChunks.done, released := x.closeChunks.released } := by
  rw [Inst.closeChunks_eq]
  exact Inst.foldl_closeChunk x.chunks x

/-- No chunk becomes complete while none is finished. -/
theorem Inst.foldl_closeChunk_unfinished {l : List (Nat × Chunk)} (h : ∀ e ∈ l, e.2.finished = false) (x : Inst) :
    l.foldl Inst.closeChunk x = x := by
  induction l with
  | nil => rfl
  | cons e r ih =>
    have he : x.closeChunk e = x := by simp [Inst.closeChunk, h e List.mem_cons_self]
    rw [List.foldl_cons, he, ih (fun e he => h e (List.mem_cons_of_mem _ he))]

theorem Inst.staysOpen.closeChunks {x : Inst} (h : x.staysOpen) : x.closeChunks = x := by
  rw [Inst.closeChunks_eq, Inst.foldl_closeChunk_unfinished h.2 x]

/-! ### A collective moves on -/

/-- What is left of `settle` once chunks are sent and complete and credit is granted: the collective completes, or stays. -/
def State.endIfDone (u : State) (g : Nat) (z : Inst) : State :=
  if z.op = 0x0A then (if z.allArrived then u.finishInst g z 0 else u)
  else if z.done.length < z.chunkTotal then u
  else if z.op = 0x07 then u.shareNorm g z
  else u.finishInst g z 0

/-- Moving a collective on: it sends, its finished chunks become complete, it grants credit, and it may end. -/
theorem State.settle_cases {s : State} {g : Nat} {x : Inst} (h : s.inst g = some x) :
    ∃ u y z, OnlyStreams s u ∧ u.inst g = some z ∧ x.Sent y ∧ y.closeChunks.Sent z ∧ s.settle g = u.endIfDone g z := by
  obtain ⟨hflush, hsent⟩ := Streams.flushOut s g
  obtain ⟨y, hy, hxy⟩ := hsent x h
  obtain ⟨hcredit, hgranted⟩ := Streams.creditAll ((s.flushOut g).setInst g y.closeChunks) g
  obtain ⟨z, hz, hyz⟩ := hgranted _ (State.inst_setInst _ _ _)
  refine ⟨_, y, z, (hflush.trans (OnlyStreams.setInst _ _ _)).trans hcredit, hz, hxy, hyz, ?_⟩
  simp only [State.settle, hy, hz]
  rfl

/-- A collective with chunks still to come and none finished stays open. -/
theorem State.settle_open {s : State} {g : Nat} {x : Inst} (h : s.inst g = some x) (hop : x.op ≠ 0x0A) (hopen : x.staysOpen) :
    OnlyStreams s (s.settle g) ∧ ∃ y, (s.settle g).inst g = some y ∧ x.Sent y := by
  obtain ⟨u, y, z, hu, hz, hxy, hyz, hsettle⟩ := State.settle_cases h
  rw [(hxy.staysOpen hopen).closeChunks] at hyz
  have hxz := hxy.trans hyz
  have hstay : u.endIfDone g z = u := by
    have hopz : z.op ≠ 0x0A := by
      rw [hxz]
      exact hop
    rw [State.endIfDone, if_neg hopz, if_pos (hxz.staysOpen hopen).1]
  rw [hsettle, hstay]
  exact ⟨hu, z, hz, hxz⟩

end Sys2Proof.Machine
end

section
/-! CHUNK_RECEIVE: a chunk that passes its tests is accumulated once; one that fails changes no chunk
(02_reduction_arithmetic.md R24; 04_collectives_and_flights.md R85, R95, R385). -/
namespace Sys2Proof.Machine

/-! ### Chunks of a collective -/

theorem Sparse.get_mem_or_default {V : Type} (d : Nat → V) (m : Sparse V) (k : Nat) :
    (∃ e ∈ m, Sparse.get d m k = e.2) ∨ Sparse.get d m k = d k := by
  induction m with
  | nil => exact .inr rfl
  | cons e r ih =>
    obtain ⟨j, v⟩ := e
    by_cases h : j = k
    · exact .inl ⟨(j, v), List.mem_cons_self, by simp [Sparse.get, h]⟩
    · rw [Sparse.get, if_neg h]
      exact ih.imp_left fun ⟨e, he, hv⟩ => ⟨e, List.mem_cons_of_mem _ he, hv⟩

theorem Sparse.mem_insert {V : Type} {m : Sparse V} {k : Nat} {v : V} {e : Nat × V} (h : e ∈ Sparse.insert m k v) : e ∈ m ∨ e = (k, v) := by
  induction m with
  | nil => exact .inr (List.mem_singleton.mp h)
  | cons a r ih =>
    obtain ⟨j, w⟩ := a
    unfold Sparse.insert at h
    split at h
    · obtain rfl | hr := List.mem_cons.mp h
      · exact .inl List.mem_cons_self
      · exact (ih hr).imp_left (List.mem_cons_of_mem _)
    · split at h
      · obtain rfl | hr := List.mem_cons.mp h
        · exact .inr rfl
        · exact .inl (List.mem_cons_of_mem _ hr)
      · obtain rfl | hr := List.mem_cons.mp h
        · exact .inr rfl
        · exact .inl hr

theorem Sparse.mem_put {V : Type} [DecidableEq V] {d : Nat → V} {m : Sparse V} {k : Nat} {v : V} {e : Nat × V}
    (h : e ∈ Sparse.put d m k v) : e ∈ m ∨ e = (k, v) := by
  unfold Sparse.put at h
  split at h
  · exact .inl (List.mem_filter.mp h).1
  · exact Sparse.mem_insert h

theorem Sparse.insert_self_mem {V : Type} (m : Sparse V) (k : Nat) (v : V) : (k, v) ∈ Sparse.insert m k v :=
  List.mem_of_find?_eq_some (Sparse.find?_insert_same m k v)

theorem Inst.chunk_setChunk (x : Inst) (c : Nat) (k : Chunk) (j : Nat) : (x.setChunk c k).chunk j = if j = c then k else x.chunk j :=
  Sparse.get_put _ x.chunks c k j

theorem Inst.staysOpen.unfinished {x : Inst} (h : x.staysOpen) (c : Nat) : (x.chunk c).finished = false := by
  obtain ⟨e, he, hv⟩ | hd := Sparse.get_mem_or_default (fun _ => ({} : Chunk)) x.chunks c
  · rw [Inst.chunk, hv]
    exact h.2 e he
  · rw [Inst.chunk, hd]

/-- A collective that stays open does so with one chunk changed to another that is not finished. -/
theorem Inst.staysOpen.setChunk {x : Inst} (h : x.staysOpen) (c : Nat) {k : Chunk} (hk : k.finished = false) : (x.setChunk c k).staysOpen := by
  refine ⟨h.1, fun e he => ?_⟩
  obtain hm | rfl := Sparse.mem_put (d := fun _ => {}) (m := x.chunks) he
  · exact h.2 e hm
  · exact hk

/-- A contribution enters its chunk alone, and does not finish it. -/
theorem Inst.accumulate_eq (x : Inst) (c slot leaves : Nat) (data : List Byte) :
    ∃ k f, x.accumulate c slot leaves data = { x.setChunk c k with flags := f } ∧ k.finished = (x.chunk c).finished :=
  ⟨_, _, rfl, rfl⟩

theorem Inst.accumulate_chunk_ne (x : Inst) {c k : Nat} (slot leaves : Nat) (data : List Byte) (h : k ≠ c) :
    (x.accumulate c slot leaves data).chunk k = x.chunk k := by
  obtain ⟨j, f, hacc, -⟩ := x.accumulate_eq c slot leaves data
  rw [hacc]
  exact (x.chunk_setChunk c j k).trans (if_neg h)

theorem Inst.staysOpen.accumulate {x : Inst} (h : x.staysOpen) (c slot leaves : Nat) (data : List Byte) :
    (x.accumulate c slot leaves data).staysOpen := by
  obtain ⟨k, f, hacc, hk⟩ := x.accumulate_eq c slot leaves data
  rw [hacc]
  exact h.setChunk c (hk.trans (h.unfinished c))

/-- What follows once a contribution has entered a collective that stays open: its chunk holds it, every other chunk is as before. -/
theorem State.settle_accumulated (s : State) (g : Nat) {x : Inst} (c slot leaves : Nat) (data : List Byte) (hop : x.op ≠ 0x0A)
    (hopen : x.staysOpen) :
    let t := (s.setInst g (x.accumulate c slot leaves data)).settle g
    ∃ y, t.inst g = some y ∧ (∀ k, y.chunk k = (x.accumulate c slot leaves data).chunk k) ∧ y.winners = x.winners ∧
      SameBytes s t ∧ t.que = s.que ∧ t.lnd = s.lnd ∧ t.opt = s.opt ∧ t.sec = s.sec := by
  obtain ⟨honly, y, hy, hsent⟩ := State.settle_open (s.inst_setInst g (x.accumulate c slot leaves data)) hop
    (hopen.accumulate c slot leaves data)
  refine ⟨y, hy, hsent.chunk, ?_, ((OnlyStreams.setInst s g _).trans honly).frame⟩
  rw [hsent]
  rfl

/-! ### This gateway's own data (R85, R91) -/

theorem exec_chunkReceive_own (s : State) (g : Fin 4096) (c : Nat) : exec (.chunkReceive (.own g c)) s = .next (s.readOwn g c) := rfl

/-- Own data in the Gallery that is due and reads good enters the accumulator. -/
theorem State.readOwn_accumulates {s : State} {g c : Nat} {x : Inst} (h : s.inst g = some x) (hop : opCarries x.op = false)
    (hc : c < x.chunkTotal) (hreads : x.readsLocal c = true) (hgot : (x.chunk c).got.contains x.self = false)
    (hcarried : (x.chunk c).carried = none) (hfin : (x.chunk c).finished = false) (hready : s.localReady x = true)
    (hgal : addrGallery x.desc.localAddr = true)
    (hgood : s.firstPoison (addrOffset x.desc.localAddr + c * 65536) (chunkBytes x.desc.inFmt (x.elems c)) = none) :
    s.readOwn g c = (s.setInst g (x.accumulate c x.self 1
      (s.galRead (addrOffset x.desc.localAddr + c * 65536) (chunkBytes x.desc.inFmt (x.elems c))))).settle g := by
  have hdue : (!(decide (c < x.chunkTotal) && x.readsLocal c && !(x.chunk c).got.contains x.self && (x.chunk c).carried.isNone &&
      !(x.chunk c).finished && s.localReady x)) = false := by
    simp only [hc, hreads, hgot, hcarried, hfin, hready, decide_true, Bool.not_false, Bool.and_self, Option.isNone_none, Bool.not_true]
  simp only [State.readOwn, h, hdue, hgal, hgood, hop, Bool.false_eq_true, if_false, if_true]

/-! ### Chunks from the fabric (R385) -/

/-- Taking a packet changes the packets that wait and the wake event alone. -/
theorem State.takeChunk_eq (s : State) (line : Bool) (bytes : List Byte) :
    ∃ d p, s.takeChunk line bytes = { s with delivered := d, power := p } := ⟨_, _, State.wakeEvent_power _⟩

/-- Tests 1 and 2 are passed by a good chunk of the open collective. -/
theorem State.receiveChunk_open {s : State} {bytes : List Byte} {x : Inst} (line : Bool) (fibre : Nat) (hlen : 32 ≤ bytes.length)
    (hcrc : hcrcOk (bytes.take 32) = true) (hx : s.inst (hGroup (bytes.take 32)) = some x) (hnum : x.number = hInst (bytes.take 32))
    (hready : s.localReady x = true) :
    s.receiveChunk line fibre bytes = s.testChunk line fibre (hGroup (bytes.take 32)) x (bytes.take 32) (bytes.drop 32) := by
  have hgood : ¬ (bytes.length < 32 ∨ hcrcOk (bytes.take 32) = false) := by simp [hcrc, hlen]
  simp only [State.receiveChunk, if_neg hgood, hx, if_pos hnum, hready, if_true]

/-- A good chunk from the fabric is taken and, when it is of the open collective, goes to the tests that follow. -/
theorem exec_chunkReceive_fabric {s : State} {bytes : List Byte} {x : Inst} (f : Fin 32) (hlen : 32 ≤ bytes.length)
    (hcrc : hcrcOk (bytes.take 32) = true) (hx : s.inst (hGroup (bytes.take 32)) = some x) (hnum : x.number = hInst (bytes.take 32))
    (hready : s.localReady x = true) :
    exec (.chunkReceive (.fabric f bytes)) s = .next ((s.takeChunk false bytes).testChunk false f (hGroup (bytes.take 32)) x
      (bytes.take 32) (bytes.drop 32)) := by
  obtain ⟨d, p, htake⟩ := s.takeChunk_eq false bytes
  have hinst : (s.takeChunk false bytes).inst (hGroup (bytes.take 32)) = some x := by
    rw [htake]
    exact hx
  have htaken : (s.takeChunk false bytes).localReady x = true := by
    rw [htake]
    exact hready
  exact congrArg Host.Outcome.next (State.receiveChunk_open false f hlen hcrc hinst hnum htaken)

/-- The collective with a sign of a member. -/
def Inst.hears (x : Inst) (slot t : Nat) : Inst := { x with heard := x.heard.insert slot t }

/-- The sign of a member as test 3 notes it. -/
theorem Inst.hears_def (x : Inst) (slot t : Nat) : ({ x with heard := x.heard.insert slot t } : Inst) = x.hears slot t := rfl

theorem Inst.hears_expects (x : Inst) (slot t : Nat) (line : Bool) (ctype c y : Nat) :
    (x.hears slot t).expects line ctype c y = x.expects line ctype c y := rfl
theorem Inst.hears_expectFmt (x : Inst) (slot t c y : Nat) : (x.hears slot t).expectFmt c y = x.expectFmt c y := rfl

section
variable {s : State} {fibre g : Nat} {x : Inst} {h pay : List Byte}

/-- A chunk beyond the granted credit is counted (test 4). -/
theorem State.testChunk_beyond (hexp : x.expects false (hType h) (hChunk h) (hSlot h) = true)
    (hwait : (x.plan (hChunk h)).wait ≠ some (hSlot h)) (hcredit : x.granted.get (fun _ => 0) (hSlot h) ≤ hChunk h) :
    s.testChunk false fibre g x h pay = (s.setInst g (x.hears (hSlot h) s.mono)).bump (A.dflFCnt fibre 9) := by
  simp only [State.testChunk, if_neg hwait, Inst.hears_def, Inst.hears_expects, hexp, hcredit, Bool.not_true,
    Bool.not_false, Bool.true_and, decide_true, Bool.false_eq_true, if_false, if_true]

/-- A repeated chunk is counted, and counted as differing where its CRC differs (test 6). -/
theorem State.testChunk_repeated {w : Nat × Nat} (hexp : x.expects false (hType h) (hChunk h) (hSlot h) = true)
    (hwait : (x.plan (hChunk h)).wait ≠ some (hSlot h)) (hcredit : hChunk h < x.granted.get (fun _ => 0) (hSlot h))
    (hfmt : hFmt h = (x.expectFmt (hChunk h) (hSlot h)).1) (hwon : x.winners.find? (fun w => w.1 = hChunk h * 1024 + hSlot h) = some w) :
    s.testChunk false fibre g x h pay =
      ((s.setInst g (x.hears (hSlot h) s.mono)).bump (A.cleCnt 0)).bumpIf (decide (w.2 ≠ hCrc h)) (A.cleCnt 1) := by
  simp only [State.testChunk, if_neg hwait, Inst.hears_def, Inst.hears_expects, Inst.hears_expectFmt,
    hexp, Nat.not_le.mpr hcredit, hfmt, hwon, ne_eq, not_true_eq_false, Bool.not_true, Bool.not_false, Bool.true_and,
    decide_false, Bool.false_eq_true, if_false]

/-- A chunk that no other has come before is decoded and checked (test 7). -/
theorem State.testChunk_first (hexp : x.expects false (hType h) (hChunk h) (hSlot h) = true)
    (hwait : (x.plan (hChunk h)).wait ≠ some (hSlot h)) (hcredit : hChunk h < x.granted.get (fun _ => 0) (hSlot h))
    (hfmt : hFmt h = (x.expectFmt (hChunk h) (hSlot h)).1) (hnew : ∀ w ∈ x.winners, w.1 ≠ hChunk h * 1024 + hSlot h) :
    s.testChunk false fibre g x h pay = (s.setInst g (x.hears (hSlot h) s.mono)).checkChunk false g (x.hears (hSlot h) s.mono)
      (hChunk h) (hSlot h) h pay := by
  have hnone : x.winners.find? (fun w => w.1 = hChunk h * 1024 + hSlot h) = none :=
    List.find?_eq_none.mpr fun w hw => by simpa using hnew w hw
  simp only [State.testChunk, if_neg hwait, Inst.hears_def, Inst.hears_expects, Inst.hears_expectFmt,
    hexp, Nat.not_le.mpr hcredit, hfmt, hnone, ne_eq, not_true_eq_false, Bool.not_true, Bool.not_false, Bool.true_and,
    decide_false, Bool.false_eq_true, if_false]

/-- Uncoded data of the length and CRC that its header gives, and of the length expected, is accepted. -/
theorem State.checkChunk_good {c slot : Nat} (line : Bool) (hcoded : hCoded h = false) (hlen : pay.length = hLen h)
    (hcrc : crc64 pay = hCrc h) (hexpect : hLen h = (x.expectFmt c slot).2) :
    s.checkChunk line g x c slot h pay = s.acceptChunk g x c slot h pay := by
  simp only [State.checkChunk, State.logicalOf, hcoded, hlen, hcrc, hexpect, ne_eq, not_true_eq_false, or_self, Bool.false_eq_true, if_false]

/-- The collective with the winner of a contribution, which is no longer asked for. -/
def Inst.wins (x : Inst) (c slot crc : Nat) : Inst :=
  { x with winners := x.winners.insert (c * 1024 + slot) crc,
           resends := x.resends.filter (fun r => !(decide (r.chunk = c) && decide (r.slot = slot))) }

theorem Inst.wins_def (x : Inst) (c slot crc : Nat) :
    ({ x with winners := x.winners.insert (c * 1024 + slot) crc,
              resends := x.resends.filter (fun r => !(decide (r.chunk = c) && decide (r.slot = slot))) } : Inst) = x.wins c slot crc := rfl

/-- An accepted contribution to this gateway's own partial enters the accumulator. -/
theorem State.acceptChunk_accumulates {c slot : Nat} {data : List Byte} (hop : opCarries x.op = false) (hwait : (x.plan c).wait ≠ some slot)
    (hins : (x.plan c).ins2.contains slot = false) :
    s.acceptChunk g x c slot h data = (s.setInst g ((x.wins c slot (hCrc h)).accumulate c slot (hLeaves h) data)).settle g := by
  have hwins : opCarries (x.wins c slot (hCrc h)).op = false := hop
  simp only [State.acceptChunk, Inst.wins_def, hwait, hwins, hins, or_self, Bool.false_eq_true, if_false]

end

theorem State.reg_bumpIf_ne (s : State) (c : Bool) {a b : Nat} (h : b ≠ a) : (s.bumpIf c a).reg b = s.reg b := by
  cases c with
  | false => rfl
  | true => exact State.reg_bump_ne s h

theorem State.bumpIf_state (s : State) (c : Bool) (a : Nat) : s.bumpIf c a = { s with regs := (s.bumpIf c a).regs } := by
  cases c <;> rfl

/-- What a chunk that fails a test leaves: the collective with the sign of its sender, and counters. -/
theorem State.discarded_frame (s : State) (line : Bool) (bytes : List Byte) (g : Nat) (x : Inst) (slot t : Nat) {regs : List Nat} {u : State}
    (hstate : u = { (s.takeChunk line bytes).setInst g (x.hears slot t) with regs := u.regs })
    (hregs : ∀ a, a ∉ regs → u.reg a = s.reg a) :
    u.inst g = some (x.hears slot t) ∧ SameBytes s u ∧ u.que = s.que ∧ u.lnd = s.lnd ∧
      SameLines s u ∧ SameLight s u ∧ SameRegs regs s u := by
  obtain ⟨d, p, htake⟩ := s.takeChunk_eq line bytes
  have hreg : SameRegs regs s u := by
    refine fun a ha => ⟨hregs a (by simpa using ha), ?_⟩
    rw [hstate, htake]
    rfl
  refine ⟨?_, ?_⟩
  · rw [hstate]
    exact State.inst_setInst _ g _
  · rw [hstate, htake] at hreg ⊢
    exact ⟨⟨fun _ => rfl, fun _ => rfl, fun _ => rfl, fun _ => rfl, fun _ => rfl⟩, rfl, rfl, ⟨rfl, rfl, rfl, rfl⟩, ⟨rfl, rfl⟩, hreg⟩

/-- Settles O34: own data and a good contribution go through `settle_accumulated`; a chunk that fails a test only counts. -/
theorem receivedChunksEnterOrAreDiscarded : Obligations.ReceivedChunksEnterOrAreDiscarded := by
  refine ⟨?_, ?_, ?_⟩
  · intro s g c x hx hop hnorm hopen hc hreads hgot hcarried hready hgal hgood
    obtain ⟨y, hy, hchunk, -, hframe⟩ := s.settle_accumulated g c x.self 1
      (s.galRead (addrOffset x.desc.localAddr + c * 65536) (chunkBytes x.desc.inFmt (x.elems c))) hnorm hopen
    refine ⟨_, y, ?_, hy, hchunk c, fun k hk => (hchunk k).trans (x.accumulate_chunk_ne _ _ _ hk), hframe⟩
    rw [exec_chunkReceive_own, State.readOwn_accumulates hx hop hc hreads hgot hcarried (hopen.unfinished c) hready hgal hgood]
  · intro s f bytes x h c slot hlen hcrc hx hnum hready hop hnorm hopen hexp hwait hins hcredit hfmt hnew hcoded hpay hdata hsize
    obtain ⟨d, p, htake⟩ := s.takeChunk_eq false bytes
    obtain ⟨y, hy, hchunk, hwon, hframe⟩ := ((s.takeChunk false bytes).setInst (hGroup h)
      (x.hears slot (s.takeChunk false bytes).mono)).settle_accumulated (hGroup h)
      (x := (x.hears slot (s.takeChunk false bytes).mono).wins c slot (hCrc h)) c slot (hLeaves h) (bytes.drop 32) hnorm hopen
    refine ⟨_, y, ?_, hy, hchunk c, ?_, fun k hk => (hchunk k).trans (Inst.accumulate_chunk_ne _ _ _ _ hk), ?_⟩
    · rw [exec_chunkReceive_fabric f hlen hcrc hx hnum hready, State.testChunk_first hexp hwait hcredit hfmt hnew,
        State.checkChunk_good (x := x.hears slot _) false hcoded hpay hdata hsize,
        State.acceptChunk_accumulates (x := x.hears slot _) hop hwait hins]
    · rw [hwon]
      exact Sparse.insert_self_mem _ _ _
    · rw [htake] at hframe ⊢
      exact hframe
  · intro s f bytes x h c slot hlen hcrc hx hnum hready hexp hwait
    obtain ⟨d, p, htake⟩ := s.takeChunk_eq false bytes
    have hregs (a : Nat) : ((s.takeChunk false bytes).setInst (hGroup h) (x.hears slot (s.takeChunk false bytes).mono)).reg a = s.reg a := by
      rw [htake]
      rfl
    refine ⟨fun hcredit => ?_, fun w hcredit hfmt hfind => ?_⟩
    · obtain ⟨hinst, hframe⟩ := s.discarded_frame false bytes (hGroup h) x slot (s.takeChunk false bytes).mono (regs := [A.dflFCnt f 9])
        (u := State.bump _ (A.dflFCnt f 9)) rfl fun a ha => (State.reg_bump_ne _ (by simpa using ha)).trans (hregs a)
      refine ⟨_, _, ?_, hinst, fun _ => rfl, ?_, hframe⟩
      · rw [exec_chunkReceive_fabric f hlen hcrc hx hnum hready, State.testChunk_beyond hexp hwait hcredit]
      · rw [State.reg_bump_same, hregs]
    · obtain ⟨hinst, hframe⟩ := s.discarded_frame false bytes (hGroup h) x slot (s.takeChunk false bytes).mono
        (regs := [A.cleCnt 0, A.cleCnt 1]) (u := State.bumpIf (State.bump _ (A.cleCnt 0)) (decide (w.2 ≠ hCrc h)) (A.cleCnt 1))
        (State.bumpIf_state _ _ _) fun a ha => by
          obtain ⟨h0, h1⟩ : a ≠ A.cleCnt 0 ∧ a ≠ A.cleCnt 1 := by simpa using ha
          rw [State.reg_bumpIf_ne _ _ h1, State.reg_bump_ne _ h0, hregs]
      refine ⟨_, _, ?_, hinst, fun _ => rfl, ?_, fun hdiffers => ?_, fun hagrees => ?_, hframe⟩
      · rw [exec_chunkReceive_fabric f hlen hcrc hx hnum hready, State.testChunk_repeated hexp hwait hcredit hfmt hfind]
      · rw [State.reg_bumpIf_ne _ _ (by decide), State.reg_bump_same, hregs]
      · rw [decide_eq_true hdiffers, State.bumpIf_true, State.reg_bump_same, State.reg_bump_ne _ (by decide), hregs]
      · rw [decide_eq_false (not_not_intro hagrees), State.bumpIf_false, State.reg_bump_ne _ (by decide), hregs]

end Sys2Proof.Machine
end

section
/-! What completing a collective touches: its queue's region, and no byte of the Gallery where that region lies in BAR4
(03_command_lists_and_step_programs.md R61-R66; 04_collectives_and_flights.md R101; 05_landing.md R108; 15_power_and_thermal.md R290). -/
namespace Sys2Proof.Machine

/-- Light and cipher stay; and as long as queue `q` lies in BAR4, so do the Gallery's bytes that `p` names. -/
def Spares (q : Nat) (p : Nat → Prop) (s t : State) : Prop :=
  t.opt = s.opt ∧ t.sec = s.sec ∧ (s.qLoc q = 0 → t.qLoc q = 0 ∧ ∀ a, p a → t.galByte a = s.galByte a)

section
variable {q : Nat} {p : Nat → Prop} {s t u : State}

theorem Spares.refl (q : Nat) (p : Nat → Prop) (s : State) : Spares q p s s := ⟨rfl, rfl, fun h => ⟨h, fun _ _ => rfl⟩⟩

theorem Spares.trans (h : Spares q p s t) (g : Spares q p t u) : Spares q p s u := by
  obtain ⟨hopt, hsec, hgal⟩ := h
  obtain ⟨gopt, gsec, ggal⟩ := g
  refine ⟨gopt.trans hopt, gsec.trans hsec, fun hq => ?_⟩
  obtain ⟨ht, hbytes⟩ := hgal hq
  obtain ⟨hu, gbytes⟩ := ggal ht
  exact ⟨hu, fun a ha => (gbytes a ha).trans (hbytes a ha)⟩

theorem Spares.mono {p' : Nat → Prop} (h : Spares q p s t) (hp : ∀ a, p' a → p a) : Spares q p' s t := by
  obtain ⟨hopt, hsec, hgal⟩ := h
  exact ⟨hopt, hsec, fun hq => ⟨(hgal hq).1, fun a ha => (hgal hq).2 a (hp a ha)⟩⟩

theorem State.qLoc_of_reg (h : t.reg (A.queQCtrl q) = s.reg (A.queQCtrl q)) : t.qLoc q = s.qLoc q := by
  rw [State.qLoc, State.qLoc, State.f, State.f, h]

theorem OnlyStreams.spares (h : OnlyStreams s t) : Spares q p s t := by
  obtain ⟨⟨hgal, -⟩, -, -, hopt, hsec⟩ := h.frame
  have hloc := State.qLoc_of_reg (h.2 (A.queQCtrl q) (by unfold A.queQCtrl; omega))
  exact ⟨hopt, hsec, fun hq => ⟨hloc.trans hq, fun a _ => hgal a⟩⟩

/-- Beside that, the collective engine stays, and every byte of the Gallery is spared. -/
def Completes (q : Nat) (s t : State) : Prop := t.cle = s.cle ∧ Spares q (fun _ => True) s t

theorem Completes.refl (q : Nat) (s : State) : Completes q s s := ⟨rfl, Spares.refl q _ s⟩

theorem Completes.trans (h : Completes q s t) (g : Completes q t u) : Completes q s u := ⟨g.1.trans h.1, h.2.trans g.2⟩

theorem Completes.setReg (s : State) {a : Nat} (v : Word) (h : A.queQCtrl q ≠ a) : Completes q s (s.setReg a v) :=
  ⟨rfl, rfl, rfl, fun hq => ⟨(State.qLoc_of_reg (State.reg_setReg_ne s v h)).trans hq, fun _ _ => rfl⟩⟩

/-- A queue's control register is none of those below the queues' block. -/
theorem Completes.setReg_low (s : State) {a : Nat} (v : Word) (h : a < 0xF00000) : Completes q s (s.setReg a v) :=
  Completes.setReg s v (by unfold A.queQCtrl; omega)

/-- A report changes no queue's control register. -/
theorem OnlyReports.completes (h : OnlyReports s t) (hreg : t.reg (A.queQCtrl q) = s.reg (A.queQCtrl q)) : Completes q s t := by
  obtain ⟨-, ⟨hgal, -⟩, ⟨-, hcle, -⟩, ⟨-, -, -, hsec⟩, ⟨hopt, -⟩, -⟩ := h
  exact ⟨hcle, hopt, hsec, fun hq => ⟨(State.qLoc_of_reg hreg).trans hq, fun a _ => hgal a⟩⟩

theorem Completes.logEvent (s : State) (e : Event) : Completes q s (s.logEvent e) := by
  refine (OnlyReports.logEvent s e).completes (State.logEvent_reg s e ?_)
  simp only [isLogReg, A.queQCtrl, A.errLogLost, A.errVecStatus, Bool.or_eq_false_iff, Bool.and_eq_false_iff, decide_eq_false_iff_not]
  omega

theorem Completes.raiseVector (s : State) {v : Nat} (h : v < 512) : Completes q s (s.raiseVector v) := by
  refine (OnlyReports.raiseVector s h).completes (State.raiseVector_reg s ?_)
  unfold A.queQCtrl A.topMsixPba
  omega

/-! ### Landing buffers and the map slot -/

theorem Completes.freeBuffer (s : State) (c b : Nat) : Completes q s (s.freeBuffer c b) := by
  have hcount (n : Nat) (e : Event) (hn : n < 3) : Completes q s ((s.bump (A.lndCnt n)).logEvent e) :=
    (Completes.setReg_low s _ (by unfold A.lndCnt; omega)).trans (Completes.logEvent _ e)
  unfold State.freeBuffer
  dsimp only
  split
  · exact hcount 1 _ (by decide)
  · split
    · exact ⟨rfl, rfl, rfl, fun hq => ⟨hq, fun _ _ => rfl⟩⟩
    · exact hcount 2 _ (by decide)

theorem Completes.freeAll (s : State) (c : Nat) (bs : List Nat) : Completes q s (s.freeAll c bs) := by
  unfold State.freeAll
  induction bs generalizing s with
  | nil => exact Completes.refl q s
  | cons b bs ih => exact (Completes.freeBuffer s c b).trans (ih _)

/-- Ending the hold of a map slot does not move a queue out of BAR4, wherever the slot's register lies. -/
theorem Completes.endMap (s : State) (x : Inst) (ok : Bool) : Completes q s (s.endMap x ok) := by
  unfold State.endMap
  split
  · exact Completes.refl q s
  · next n _ =>
    split
    · refine ⟨rfl, rfl, rfl, fun hq => ⟨?_, fun _ _ => rfl⟩⟩
      by_cases h : A.queQCtrl q = A.cleMapCtrl n
      · rw [State.qLoc, h, State.f, State.reg_setReg_same]
        rfl
      · exact (State.f_setReg_ne s 0 3 1 h).trans hq
    · exact ⟨rfl, rfl, rfl, fun hq => ⟨(State.f_setF_ne s _ 28 2 2 _ 3 1 (by decide) (.inr (.inl (by decide)))).trans hq, fun _ _ => rfl⟩⟩

/-! ### The phase (R290) -/

theorem Completes.moveOpp (s : State) : Completes q s s.moveOpp := by
  unfold State.moveOpp
  dsimp only
  split
  · split
    · exact ⟨rfl, rfl, rfl, fun hq => ⟨hq, fun _ _ => rfl⟩⟩
    · exact ⟨rfl, rfl, rfl, fun hq => ⟨hq, fun _ _ => rfl⟩⟩
  · exact Completes.refl q s

theorem Completes.chooseOpp (s : State) : Completes q s s.chooseOpp := by
  have hpoint (n : Nat) : Completes q s { s with power := { s.power with fitPoint := n } } :=
    ⟨rfl, rfl, rfl, fun hq => ⟨hq, fun _ _ => rfl⟩⟩
  exact (((hpoint _).trans (Completes.moveOpp _)).trans (Completes.setReg_low _ _ (by decide))).trans
    (Completes.setReg_low _ _ (by decide))

theorem Completes.learn (s : State) {n : Nat} (hn : n < 16) (o : PhaseOcc) : Completes q s (s.learn n o) := by
  unfold State.learn
  dsimp only
  refine ((Completes.setReg_low s _ ?_).trans (Completes.setReg_low _ _ ?_)).trans (Completes.setReg_low _ _ ?_)
  · unfold A.pwrPhaseEnv; omega
  · unfold A.pwrPhaseDur; omega
  · unfold A.pwrPhaseUnits; omega

theorem Completes.setOcc (s : State) (n : Nat) (o : PhaseOcc) : Completes q s (s.setOcc n o) :=
  ⟨rfl, rfl, rfl, fun hq => ⟨hq, fun _ _ => rfl⟩⟩

theorem Completes.phaseRelease (s : State) {n : Nat} (hn : n < 16) : Completes q s (s.phaseRelease n) := by
  unfold State.phaseRelease
  dsimp only
  split
  · exact Completes.refl q s
  · split
    · refine Completes.trans ?_ ((Completes.setOcc _ _ _).trans (Completes.chooseOpp _))
      split
      · exact Completes.learn s hn _
      · exact Completes.refl q s
    · exact (Completes.setOcc s _ _).trans (Completes.chooseOpp _)

/-! ### The completion record (R61) -/

theorem Completes.setQueue (s : State) (x : Queue) : Completes q s (s.setQueue q x) :=
  ⟨rfl, rfl, rfl, fun hq => ⟨hq, fun _ _ => rfl⟩⟩

/-- A write of the region of a queue in BAR4 writes BAR4. -/
theorem Completes.qWrite (s : State) (off : Nat) (bs : List Byte) : Completes q s (s.qWrite q off bs) := by
  unfold State.qWrite
  dsimp only
  split
  · exact ⟨rfl, rfl, rfl, fun hq => ⟨hq, fun _ _ => rfl⟩⟩
  · next h => exact ⟨rfl, rfl, rfl, fun hq => absurd hq h⟩

theorem Completes.signalToken (s : State) {n : Nat} (hn : n < 256) (ok : Bool) : Completes q s (s.signalToken n ok) := by
  have hcount : Completes q s (s.setReg (A.queToken n) (BitVec.ofNat 32 (s.tokenCount n + 1))) :=
    Completes.setReg s _ (by unfold A.queQCtrl A.queToken; omega)
  unfold State.signalToken
  dsimp only
  split
  · exact hcount
  · exact hcount.trans (Completes.setReg _ _ (by unfold A.queQCtrl A.queTokenFail; omega))

theorem Completes.completeEntry (s : State) (e : QEntry) (status flags : Nat) (late : Bool) (detail : Nat) :
    Completes q s (s.completeEntry q e status flags late detail) := by
  have htoken (t : State) : Completes q t
      (if Desc.signalEn e.desc then t.signalToken (Desc.signalToken e.desc) (statusOk status) else t) := by
    split
    · exact Completes.signalToken t (BitVec.isLt _) _
    · exact Completes.refl q t
  have hirq (t : State) : Completes q t (if Desc.irq e.desc then t.raiseVector (t.qVector q) else t) := by
    split
    · exact Completes.raiseVector t (fld_lt _ 16 9)
    · exact Completes.refl q t
  unfold State.completeEntry
  split
  · exact Completes.refl q s
  · exact ((((Completes.qWrite s _ _).trans (Completes.setQueue _ _)).trans (Completes.qWrite _ _ _)).trans (htoken _)).trans (hirq _)

theorem Completes.completeStarted (s : State) (e : QEntry) (status flags : Nat) (late : Bool) (detail : Nat) :
    Completes q s (s.completeStarted q e status flags late detail) := by
  unfold State.completeStarted
  dsimp only
  split
  · exact Completes.refl q s
  · exact ((Completes.setQueue s _).trans (Completes.phaseRelease _ (Desc.phaseId_lt _))).trans (Completes.completeEntry _ _ _ _ _ _)

end

/-! ### A collective ends (R101) -/

theorem Sparse.find?_erase_same {V : Type} (m : Sparse V) (k : Nat) : (Sparse.erase m k).find? (fun e => e.1 = k) = none := by
  simp [Sparse.erase]

/-- The state without the open collective of a group. -/
def State.dropInst (s : State) (g : Nat) : State :=
  { s with cle := { s.cle with insts := s.cle.insts.erase g, ended := s.cle.ended.insert g s.mono } }

theorem State.unpin_insts (s : State) (g n : Nat) (c : Option Nat) : (s.unpin g n c).cle.insts = s.cle.insts := rfl

theorem State.endInst_eq {s : State} {g : Nat} {x : Inst} (h : s.inst g = some x) (status detail : Nat) :
    s.endInst g status detail =
      ((((s.dropInst g).freeAll clsRes x.bufs).unpin g x.number none).endMap x (statusOk status)).completeStarted x.q x.entry status x.flags
        x.late detail := by
  simp only [State.endInst, h]
  rfl

/-- A collective that ends is open no more; only its queue's region is written. -/
theorem State.endInst_ends {s : State} {g : Nat} {x : Inst} (h : s.inst g = some x) (status detail : Nat) :
    (s.endInst g status detail).inst g = none ∧ Spares x.q (fun _ => True) s (s.endInst g status detail) := by
  have hdrop : Spares x.q (fun _ => True) s (s.dropInst g) := ⟨rfl, rfl, fun hq => ⟨hq, fun _ _ => rfl⟩⟩
  have hgone : (s.dropInst g).inst g = none := by
    rw [State.inst, State.dropInst, Sparse.find?_erase_same]
    rfl
  obtain ⟨hcle, hfree⟩ := Completes.freeAll (q := x.q) (s.dropInst g) clsRes x.bufs
  have hunpin := OnlyStreams.unpin ((s.dropInst g).freeAll clsRes x.bufs) g x.number none
  obtain ⟨hend, hspares⟩ := (Completes.endMap (q := x.q) (((s.dropInst g).freeAll clsRes x.bufs).unpin g x.number none) x
    (statusOk status)).trans (Completes.completeStarted _ x.entry status x.flags x.late detail)
  rw [State.endInst_eq h]
  have hinsts := (congrArg Cle.insts hend).trans (State.unpin_insts _ _ _ _)
  exact ⟨(State.inst_of_insts_eq (hinsts.trans (congrArg Cle.insts hcle)) g).trans hgone,
    ((hdrop.trans hfree).trans hunpin.spares).trans hspares⟩

theorem State.finishInst_ends {s : State} {g : Nat} {x y : Inst} (h : s.inst g = some x) (detail : Nat) :
    (s.finishInst g y detail).inst g = none ∧ Spares x.q (fun _ => True) s (s.finishInst g y detail) := by
  unfold State.finishInst
  split
  · exact State.endInst_ends h _ _
  · exact State.endInst_ends h _ _

/-- Queue, chunks and the count of applied chunks of a collective stay. -/
def Inst.KeepsChunks (x y : Inst) : Prop := y.q = x.q ∧ y.chunks = x.chunks ∧ y.applied = x.applied

theorem Inst.KeepsChunks.trans {x y z : Inst} (h : x.KeepsChunks y) (k : y.KeepsChunks z) : x.KeepsChunks z := by
  obtain ⟨hq, hchunks, happlied⟩ := h
  obtain ⟨kq, kchunks, kapplied⟩ := k
  exact ⟨kq.trans hq, kchunks.trans hchunks, kapplied.trans happlied⟩

theorem Inst.Sent.keepsChunks {x y : Inst} (h : x.Sent y) : x.KeepsChunks y := by
  rw [h]
  exact ⟨rfl, rfl, rfl⟩

theorem Inst.closeChunks_keepsChunks (x : Inst) : x.KeepsChunks x.closeChunks := by
  rw [x.closeChunks_keeps]
  exact ⟨rfl, rfl, rfl⟩

/-- The collective has ended, or is open with its chunks as they were. -/
def EndsOrKeeps (g : Nat) (x : Inst) (t : State) : Prop := t.inst g = none ∨ ∃ y, t.inst g = some y ∧ x.KeepsChunks y

theorem EndsOrKeeps.of_keeps {g : Nat} {x y : Inst} {t : State} (h : x.KeepsChunks y) (ht : EndsOrKeeps g y t) : EndsOrKeeps g x t :=
  ht.imp_right fun ⟨z, hz, hyz⟩ => ⟨z, hz, h.trans hyz⟩

section
variable {g : Nat} {s : State} {x : Inst}

/-- A NORM whose scalar is complete ends or waits for the others' scalars. -/
theorem State.checkNorm_keeps (h : s.inst g = some x) : EndsOrKeeps g x (s.checkNorm g) ∧ Spares x.q (fun _ => True) s (s.checkNorm g) := by
  have hscalar : Spares x.q (fun _ => True) s
      ((s.setScalar x.desc.aux x.totalScalar.1).setInst g { x with flags := orF x.flags x.totalScalar.2 }) := by
    have haux : x.desc.aux < 256 := BitVec.isLt _
    refine (Completes.trans (Completes.setReg_low s _ ?_) (Completes.setReg_low _ _ ?_)).2.trans (OnlyStreams.setInst _ g _).spares
    · unfold A.cleScalarLo; omega
    · unfold A.cleScalarHi; omega
  unfold State.checkNorm
  simp only [h]
  split
  · obtain ⟨hend, hspares⟩ := State.finishInst_ends (y := x) (State.inst_setInst (s.setScalar x.desc.aux x.totalScalar.1) g
      { x with flags := orF x.flags x.totalScalar.2 }) x.totalScalar.1
    exact ⟨.inl hend, hscalar.trans hspares⟩
  · exact ⟨.inr ⟨x, h, rfl, rfl, rfl⟩, Spares.refl _ _ s⟩

theorem State.shareNorm_keeps (h : s.inst g = some x) :
    EndsOrKeeps g x (s.shareNorm g x) ∧ Spares x.q (fun _ => True) s (s.shareNorm g x) := by
  unfold State.shareNorm
  split
  · exact ⟨.inr ⟨x, h, rfl, rfl, rfl⟩, Spares.refl _ _ s⟩
  · dsimp only
    have hsend (l : List Nat) (t : State) (msg : List Byte) := OnlySends.foldl (fun s y => OnlySends.sendFabricMsg s (x.nodeOf y) msg) l t
    obtain ⟨hkeeps, hspares⟩ := State.checkNorm_keeps (((hsend _ _ _).inst g).trans (State.inst_setInst s g _))
    exact ⟨hkeeps.of_keeps ⟨rfl, rfl, rfl⟩, ((OnlyStreams.setInst s g _).trans (hsend _ _ _).onlyStreams).spares.trans hspares⟩

theorem State.endIfDone_keeps (h : s.inst g = some x) :
    EndsOrKeeps g x (s.endIfDone g x) ∧ Spares x.q (fun _ => True) s (s.endIfDone g x) := by
  have hstay : EndsOrKeeps g x s ∧ Spares x.q (fun _ => True) s s := ⟨.inr ⟨x, h, rfl, rfl, rfl⟩, Spares.refl _ _ s⟩
  have hend : EndsOrKeeps g x (s.finishInst g x 0) ∧ Spares x.q (fun _ => True) s (s.finishInst g x 0) :=
    (State.finishInst_ends h 0).imp_left .inl
  unfold State.endIfDone
  split
  · split
    · exact hend
    · exact hstay
  · split
    · exact hstay
    · split
      · exact State.shareNorm_keeps h
      · exact hend

/-- Moving a collective on ends it or leaves its chunks, and writes no memory but its queue's region. -/
theorem State.settle_keeps (h : s.inst g = some x) : EndsOrKeeps g x (s.settle g) ∧ Spares x.q (fun _ => True) s (s.settle g) := by
  obtain ⟨u, y, z, hu, hz, hxy, hyz, hsettle⟩ := State.settle_cases h
  have hxz := (hxy.keepsChunks.trans y.closeChunks_keepsChunks).trans hyz.keepsChunks
  obtain ⟨hends, hspares⟩ := State.endIfDone_keeps hz
  rw [hsettle]
  rw [hxz.1] at hspares
  exact ⟨hends.of_keeps hxz, hu.spares.trans hspares⟩

end

end Sys2Proof.Machine
end

section
/-! CHUNK_ARITHMETIC_DONE: the lanes finish a partial or a final result of a chunk, without samples (02_reduction_arithmetic.md R33,
R37, R50; 04_collectives_and_flights.md R91, R102). -/
namespace Sys2Proof.Machine

theorem exec_chunkArithmeticDone (s : State) (g : Fin 4096) (c samples : Nat) (faults : List (Nat × Nat)) (ecc : LandingEcc) :
    exec (.chunkArithmeticDone g c samples faults ecc) s = .next (s.chunkDone g c samples faults ecc) := rfl

/-! ### The chunk boundary (R49) -/

/-- A chunk boundary takes the shadow control and shows the override. -/
theorem State.chunkBoundary_eq (s : State) (phase : Nat) :
    ∃ r v, s.chunkBoundary phase = ({ s with rue := r } : State).setReg A.errHealth v := ⟨_, _, rfl⟩

theorem State.chunkBoundary_reg (s : State) (phase : Nat) {a : Nat} (h : a ≠ A.errHealth) : (s.chunkBoundary phase).reg a = s.reg a := by
  obtain ⟨r, v, hb⟩ := s.chunkBoundary_eq phase
  rw [hb]
  exact State.reg_setReg_ne _ v h

theorem State.chunkBoundary_workBase (s : State) (phase : Nat) : (s.chunkBoundary phase).workBase = s.workBase := by
  rw [State.workBase, State.workBase, State.f, State.f, State.chunkBoundary_reg s phase (by decide)]

theorem State.chunkBoundary_pinnedFull (s : State) (phase n : Nat) : (s.chunkBoundary phase).pinnedFull n = s.pinnedFull n := by
  have hreg := State.chunkBoundary_reg s phase (a := A.galRegion) (by decide)
  rw [State.pinnedFull, State.pinnedFull, State.retainBytes, State.retainBytes, State.f, State.f, State.f, State.f, hreg]
  rfl

theorem Spares.chunkBoundary (q : Nat) (p : Nat → Prop) (s : State) (phase : Nat) : Spares q p s (s.chunkBoundary phase) := by
  have hne : A.queQCtrl q ≠ A.errHealth := by
    unfold A.queQCtrl A.errHealth
    omega
  exact ⟨rfl, rfl, fun hq => ⟨(State.qLoc_of_reg (s.chunkBoundary_reg phase hne)).trans hq, fun _ _ => rfl⟩⟩

/-! ### What the lanes finish -/

/-- A collective with a stage to finish is no barrier. -/
theorem Inst.stage_op {x : Inst} {c : Nat} (h : x.stage c ≠ .none) : x.op ≠ 0x0A := by
  intro hop
  exact h (by simp [Inst.stage, hop])

section
variable {s : State} {g c : Nat} {x : Inst} {faults : List (Nat × Nat)}

theorem State.chunkDone_part (h : s.inst g = some x) (hstage : x.stage c = .part) (hready : s.localReady x = true)
    (hruns : s.computeRuns = true) (samples : Nat) :
    s.chunkDone g c samples faults .clean = (s.chunkBoundary (Desc.phaseId x.entry.desc)).partDone g c samples faults x := by
  simp [State.chunkDone, h, hstage, hready, hruns]

theorem State.chunkDone_final (h : s.inst g = some x) (hstage : x.stage c = .final) (hready : s.localReady x = true)
    (hruns : s.computeRuns = true) (samples : Nat) :
    s.chunkDone g c samples faults .clean = (s.chunkBoundary (Desc.phaseId x.entry.desc)).finalDone g c samples faults x := by
  simp [State.chunkDone, h, hstage, hready, hruns]

/-- Without samples the outputs are released at once. -/
theorem State.putOut_unsampled (h : s.inst g = some x) (o clean : OutSet) : s.putOut g c 0 o clean = (s.release g c o).settle g := by
  simp [State.putOut, h]

/-! ### The partial (R37, R91) -/

/-- The collective with the partial of a chunk sent and kept for the final step. -/
def Inst.keepsPartial (x : Inst) (c : Nat) (o : OutSet) : Inst :=
  x.setChunk c { x.chunk c with sent := true, held := none, blocked := none, acc := [], own := some (o.leaves, o.data) }

/-- With room in retention the partial is sent; the final step keeps it. -/
theorem State.releasePartial_sends {o : OutSet} (hfinal : (x.plan c).final = true)
    (hroom : s.pinnedFull (o.data.length * ((x.plan c).out1.filter x.overLine).length) = false) :
    OnlyStreams s (s.releasePartial g x c o) ∧ ∃ y, (s.releasePartial g x c o).inst g = some y ∧ (x.keepsPartial c o).Sent y := by
  have hrelease : s.releasePartial g x c o = (x.plan c).out1.foldl
      (fun s y => s.sendChunkTo g y true (chunkHeader 1 o.fmt g x.number c x.self o.leaves o.data) o.data)
      (s.setInst g (x.keepsPartial c o)) := by
    simp [State.releasePartial, Inst.keepsPartial, hfinal, hroom]
  obtain ⟨honly, hsent⟩ := Streams.foldl (g := g) (fun s y => Streams.sendChunkTo s g y true
    (chunkHeader 1 o.fmt g x.number c x.self o.leaves o.data) o.data) (x.plan c).out1 (s.setInst g (x.keepsPartial c o))
  rw [hrelease]
  exact ⟨(OnlyStreams.setInst s g _).trans honly, hsent _ (State.inst_setInst s g _)⟩

/-- A finished partial with room in retention is sent and kept, and nothing else of the collective's chunks changes. -/
theorem State.partDone_sends {o : OutSet} (hop : x.op ≠ 0x0A) (hopen : x.staysOpen) (hfinal : (x.plan c).final = true)
    (ho : o = (x.partialOut c (x.chunk c).leaves (withFaults faults (x.chunk c).acc)).1)
    (hroom : s.pinnedFull (o.data.length * ((x.plan c).out1.filter x.overLine).length) = false) :
    OnlyStreams s (s.partDone g c 0 faults x) ∧
      ∃ y, (s.partDone g c 0 faults x).inst g = some y ∧ ∀ k, y.chunk k = (x.keepsPartial c o).chunk k := by
  obtain ⟨f, clean, hpart⟩ : ∃ f clean, s.partDone g c 0 faults x = (s.setInst g { x with flags := f }).putOut g c 0 o clean :=
    ⟨_, _, by rw [State.partDone, ho]⟩
  have hisPartial : o.isPartial = true := by rw [ho]; rfl
  have hinst := State.inst_setInst s g { x with flags := f }
  have hrelease : (s.setInst g { x with flags := f }).release g c o =
      (s.setInst g { x with flags := f }).releasePartial g { x with flags := f } c o := by
    simp only [State.release, hinst, hisPartial, if_true]
  obtain ⟨hsends, y, hy, hxy⟩ := State.releasePartial_sends (s := s.setInst g { x with flags := f }) (g := g) (x := { x with flags := f })
    (c := c) (o := o) hfinal hroom
  have hyop : y.op = x.op := by
    rw [hxy]
    rfl
  obtain ⟨hsettle, z, hz, hyz⟩ := State.settle_open hy (hyop ▸ hop) (hxy.staysOpen (hopen.setChunk c (hopen.unfinished c)))
  rw [hpart, State.putOut_unsampled hinst, hrelease]
  exact ⟨((OnlyStreams.setInst s g _).trans hsends).trans hsettle, z, hz, fun k => (hxy.trans hyz).chunk k⟩

end

/-! ### The final result (R50, R85, R102) -/

theorem State.galByte_galWrite_out (s : State) {a b : Nat} {bs : List Byte} (h : b < a ∨ a + bs.length ≤ b) :
    (s.galWrite a bs).galByte b = s.galByte b := Sparse.get_putList_out _ bs _ _ _ h

/-- The state outputs of a final result, written. -/
def State.storeOutputs (s : State) (o : OutSet) : State := o.writes.foldl (fun s w => s.galStore w.1 w.2) s

/-- Writing state outputs changes the Gallery alone. -/
theorem State.storeOutputs_eq (s : State) (o : OutSet) : ∃ m l, s.storeOutputs o = { s with gallery := m, gal := l } := by
  unfold State.storeOutputs
  induction o.writes generalizing s with
  | nil => exact ⟨_, _, rfl⟩
  | cons w ws ih =>
    obtain ⟨m, l, hrest⟩ := ih (s.galStore w.1 w.2)
    exact ⟨m, l, hrest⟩

/-- What the state outputs leave in the Gallery is a matter of the Gallery alone. -/
theorem State.storeOutputs_gallery {s t : State} (h : t.gallery = s.gallery) (o : OutSet) :
    (t.storeOutputs o).gallery = (s.storeOutputs o).gallery := by
  unfold State.storeOutputs
  induction o.writes generalizing s t with
  | nil => exact h
  | cons w ws ih => exact ih (congrArg (fun m => Sparse.putList zeroByte m w.1 w.2) h)

/-- State outputs written on both sides of a step that spares the Gallery whole spare what it spares. -/
theorem Spares.storeOutputs {q : Nat} {p : Nat → Prop} {s t : State} (h : Spares q p s t) (hgal : t.gallery = s.gallery) (o : OutSet) :
    Spares q p (s.storeOutputs o) (t.storeOutputs o) := by
  obtain ⟨hopt, hsec, hloc⟩ := h
  have hstored := State.storeOutputs_gallery hgal o
  obtain ⟨m, l, hs⟩ := s.storeOutputs_eq o
  obtain ⟨m', l', ht⟩ := t.storeOutputs_eq o
  rw [hs, ht] at hstored ⊢
  exact ⟨hopt, hsec, fun hq => ⟨(hloc hq).1, fun a _ => congrArg (fun m => Sparse.get zeroByte m a) hstored⟩⟩

/-- An address apart from the byte of the applied map and from the delivered range of a chunk. -/
def OffDelivery (base : Nat) (x : Inst) (c len a : Nat) : Prop :=
  (∀ n, x.mapSlot = some n → a ≠ base + areaMaps + n * 0x100000 + c / 8) ∧
    (addrGallery x.desc.localAddr = true → a < addrOffset x.desc.localAddr + c * 65536 ∨ addrOffset x.desc.localAddr + c * 65536 + len ≤ a)

/-- The collective with the final result of a chunk released. -/
def Inst.releases (x : Inst) (c : Nat) (norm : Option Nat) : Inst :=
  let x' := match norm with
    | some v => { x with parts := x.parts.insert c v }
    | none => x
  { x'.setChunk c { x.chunk c with finished := true, held := none, acc := [], waiting := [], own := none, owed := decide (x'.op ≠ 0x07) } with
    applied := x'.applied + b2n (decide (x.op = 0x06)) }

theorem Inst.releases_chunk (x : Inst) (c : Nat) (norm : Option Nat) : ((x.releases c norm).chunk c).finished = true := by
  cases norm with
  | none => exact congrArg Chunk.finished ((x.chunk_setChunk c _ c).trans (if_pos rfl))
  | some v => exact congrArg Chunk.finished ((Inst.chunk_setChunk { x with parts := x.parts.insert c v } c _ c).trans (if_pos rfl))

theorem Inst.releases_keeps (x : Inst) (c : Nat) (norm : Option Nat) :
    (x.releases c norm).q = x.q ∧ (x.releases c norm).mapSlot = x.mapSlot ∧ (x.releases c norm).desc = x.desc ∧
      (x.releases c norm).applied = x.applied + b2n (decide (x.op = 0x06)) := by
  cases norm with
  | none => exact ⟨rfl, rfl, rfl, rfl⟩
  | some v => exact ⟨rfl, rfl, rfl, rfl⟩

theorem OffDelivery.releases (base : Nat) (x : Inst) (c : Nat) (norm : Option Nat) :
    OffDelivery base (x.releases c norm) = OffDelivery base x := by
  obtain ⟨-, hslot, hdesc, -⟩ := x.releases_keeps c norm
  funext k len a
  rw [OffDelivery, OffDelivery, hslot, hdesc]

section
variable {s : State} {g c : Nat} {x : Inst}

theorem State.setMapBit_spares {q len n : Nat} (h : x.mapSlot = some n) :
    Spares q (OffDelivery s.workBase x c len) s (s.setMapBit n c) := by
  refine ⟨rfl, rfl, fun hq => ⟨hq, fun a ha => State.galByte_galWrite_out s ?_⟩⟩
  have hoff := ha.1 n h
  simp only [List.length_cons, List.length_nil]
  omega

theorem State.writeLocal_spares {q base : Nat} (data : List Byte) :
    Spares q (OffDelivery base x c data.length) s (s.writeLocal x c data) := by
  unfold State.writeLocal
  dsimp only
  split
  · exact Spares.refl q _ s
  · split
    · next h => exact ⟨rfl, rfl, fun hq => ⟨hq, fun a ha => State.galByte_galWrite_out s (ha.2 h)⟩⟩
    · exact ⟨rfl, rfl, fun hq => ⟨hq, fun _ _ => rfl⟩⟩

theorem State.writeLocal_insts (s : State) (x : Inst) (c : Nat) (data : List Byte) : (s.writeLocal x c data).cle.insts = s.cle.insts := by
  unfold State.writeLocal
  dsimp only
  split
  · rfl
  · split <;> rfl

/-- Delivery writes at LOCAL_ADDR and sends; open collectives stay. -/
theorem State.deliver_spares {q base : Nat} (k : Carried) :
    Spares q (OffDelivery base x c k.data.length) s (s.deliver g x c k) ∧ (s.deliver g x c k).inst g = s.inst g := by
  have hsend (l : List Nat) (hdr : List Byte) := OnlySends.foldl (fun s y => OnlySends.transmit s false (x.nodeOf y) x.group.vc
    x.desc.compress false hdr k.data) l s
  unfold State.deliver
  dsimp only
  split
  · exact ⟨State.writeLocal_spares k.data, State.inst_of_insts_eq (s.writeLocal_insts x c k.data) g⟩
  · exact ⟨(hsend _ _).onlyStreams.spares.trans (State.writeLocal_spares k.data),
      (State.inst_of_insts_eq (State.writeLocal_insts _ x c k.data) g).trans ((hsend _ _).inst g)⟩

/-- The state with the collective of a chunk whose final result is released, and its state outputs written. -/
def State.releasesFinal (s : State) (g : Nat) (x : Inst) (c : Nat) (o : OutSet) : State :=
  ((s.setInst g (x.releases c o.norm)).unpin g x.number (some c)).storeOutputs o

theorem State.releasesFinal_inst (o : OutSet) : (s.releasesFinal g x c o).inst g = some (x.releases c o.norm) := by
  obtain ⟨m, l, hstore⟩ := ((s.setInst g (x.releases c o.norm)).unpin g x.number (some c)).storeOutputs_eq o
  rw [State.releasesFinal, hstore]
  exact State.inst_setInst s g _

theorem State.releasesFinal_workBase (o : OutSet) : (s.releasesFinal g x c o).workBase = s.workBase := by
  obtain ⟨m, l, hstore⟩ := ((s.setInst g (x.releases c o.norm)).unpin g x.number (some c)).storeOutputs_eq o
  rw [State.releasesFinal, hstore]
  rfl

/-- Its state outputs are all that a released chunk has written so far. -/
theorem State.releasesFinal_spares {q : Nat} {p : Nat → Prop} (o : OutSet) : Spares q p (s.storeOutputs o) (s.releasesFinal g x c o) :=
  Spares.storeOutputs (s := s) (t := (s.setInst g (x.releases c o.norm)).unpin g x.number (some c))
    ⟨rfl, rfl, fun hq => ⟨hq, fun _ _ => rfl⟩⟩ rfl o

/-- The bit of an applied step, where the collective has a map. -/
def State.markApplied (s : State) (x : Inst) (c : Nat) : State :=
  match (if decide (x.op = 0x06) then x.mapSlot else none) with
  | some n => s.setMapBit n c
  | none => s

theorem State.markApplied_spares {q len base : Nat} (hbase : s.workBase = base) :
    Spares q (OffDelivery base x c len) s (s.markApplied x c) ∧ (s.markApplied x c).inst g = s.inst g := by
  unfold State.markApplied
  split
  · next n h =>
    have hslot : x.mapSlot = some n := by
      split at h
      · exact h
      · cases h
    exact ⟨hbase ▸ State.setMapBit_spares hslot, rfl⟩
  · exact ⟨Spares.refl q _ s, rfl⟩

/-- The release of a final result, in its stages. -/
theorem State.releaseFinal_eq (o : OutSet) :
    ∃ hdr k, k.data = o.data ∧ s.releaseFinal g x c o =
      (x.plan c).out2.foldl (fun s y => s.sendChunkTo g y false hdr o.data)
        (if (x.plan c).deliver then ((s.releasesFinal g x c o).markApplied x c).deliver g (x.releases c o.norm) c k
          else (s.releasesFinal g x c o).markApplied x c) := by
  obtain ⟨isPartial, leaves, fmt, data, writes, norm⟩ := o
  cases norm with
  | none => exact ⟨_, { fmt := fmt, slot := x.self, leaves := leaves, data := data }, rfl, rfl⟩
  | some v => exact ⟨_, { fmt := fmt, slot := x.self, leaves := leaves, data := data }, rfl, rfl⟩

/-- A released final result finishes its chunk; beyond its state outputs it writes the applied map and the delivered range alone. -/
theorem State.releaseFinal_spares {q : Nat} (o : OutSet) :
    (∃ y, (s.releaseFinal g x c o).inst g = some y ∧ (x.releases c o.norm).KeepsChunks y) ∧
      Spares q (OffDelivery s.workBase x c o.data.length) (s.storeOutputs o) (s.releaseFinal g x c o) := by
  obtain ⟨hdr, k, hk, hrelease⟩ := State.releaseFinal_eq (s := s) (g := g) (c := c) (x := x) o
  obtain ⟨hmark, hmarked⟩ := State.markApplied_spares (s := s.releasesFinal g x c o) (g := g) (c := c) (x := x) (q := q)
    (len := o.data.length) (State.releasesFinal_workBase o)
  have hdeliver (t : State) : Spares q (OffDelivery s.workBase x c o.data.length) t
      (if (x.plan c).deliver then t.deliver g (x.releases c o.norm) c k else t) ∧
      (if (x.plan c).deliver then t.deliver g (x.releases c o.norm) c k else t).inst g = t.inst g := by
    split
    · rw [← hk, ← OffDelivery.releases s.workBase x c o.norm]
      exact State.deliver_spares k
    · exact ⟨Spares.refl q _ t, rfl⟩
  obtain ⟨hspares, hdelivered⟩ := hdeliver ((s.releasesFinal g x c o).markApplied x c)
  obtain ⟨honly, hsent⟩ := Streams.foldl (g := g) (fun s y => Streams.sendChunkTo s g y false hdr o.data) (x.plan c).out2
    (if (x.plan c).deliver then ((s.releasesFinal g x c o).markApplied x c).deliver g (x.releases c o.norm) c k
      else (s.releasesFinal g x c o).markApplied x c)
  obtain ⟨y, hy, hxy⟩ := hsent _ ((hdelivered.trans hmarked).trans (State.releasesFinal_inst o))
  rw [hrelease]
  exact ⟨⟨y, hy, hxy.keepsChunks⟩, (((State.releasesFinal_spares o).trans hmark).trans hspares).trans honly.spares⟩

/-- The lanes finish a final result of which no input is lost or misses: its outputs go out. -/
theorem State.finalDone_releases {faults : List (Nat × Nat)} {o : OutSet} (hown : (x.chunk c).ownLost = false)
    (hstate : s.statePoison x c = none)
    (hmap : ∀ n, x.mapSlot = some n → s.firstPoison (s.workBase + areaMaps + n * 0x100000 + c / 8) 1 = none)
    (hleaves : (x.reduced c s.freeCtr).1 = x.finalLeaves)
    (ho : o = (s.draw.2.finalOut x c x.finalLeaves (withFaults faults (x.reduced c s.freeCtr).2.1)).1) :
    ∃ f clean, s.finalDone g c 0 faults x = (s.draw.2.setInst g { x with flags := f }).putOut g c 0 o clean := by
  have hmapped : x.mapSlot.bind (fun n => s.firstPoison (s.workBase + areaMaps + n * 0x100000 + c / 8) 1) = none :=
    Option.bind_eq_none_iff.mpr hmap
  simp only [State.finalDone, hown, hstate, hmapped, ite_self, State.draw, hleaves, ne_eq, not_true_eq_false, Bool.false_eq_true, if_false,
    ho]
  exact ⟨_, _, rfl⟩

theorem State.finalOut_isPartial (leaves : Nat) (acc : List Nat) : (s.finalOut x c leaves acc).1.isPartial = false := by
  unfold State.finalOut
  dsimp only
  split
  · rfl
  · split <;> rfl

/-- A final result put out finishes its chunk, or its collective has ended; beyond its state outputs it writes the applied map, the
delivered range and the region of the collective's queue alone. -/
theorem State.putOut_final (h : s.inst g = some x) {o : OutSet} (ho : o.isPartial = false) (clean : OutSet) :
    ((s.putOut g c 0 o clean).inst g = none ∨ ∃ y, (s.putOut g c 0 o clean).inst g = some y ∧ (y.chunk c).finished = true ∧
      y.applied = x.applied + b2n (decide (x.op = 0x06))) ∧
      Spares x.q (OffDelivery s.workBase x c o.data.length) (s.storeOutputs o) (s.putOut g c 0 o clean) := by
  have hrelease : s.release g c o = s.releaseFinal g x c o := by
    simp only [State.release, h, ho, Bool.false_eq_true, if_false]
  obtain ⟨⟨y, hy, hxy⟩, hspares⟩ := State.releaseFinal_spares (s := s) (g := g) (c := c) (x := x) (q := x.q) o
  obtain ⟨hends, hsettle⟩ := State.settle_keeps hy
  obtain ⟨hq, -, -, happlied⟩ := x.releases_keeps c o.norm
  rw [State.putOut_unsampled h, hrelease]
  rw [hxy.1, hq] at hsettle
  refine ⟨(hends.of_keeps hxy).imp_right ?_, hspares.trans (hsettle.mono fun _ _ => trivial)⟩
  rintro ⟨z, hz, -, hchunks, hcount⟩
  refine ⟨z, hz, ?_, hcount.trans happlied⟩
  rw [Inst.chunk, hchunks]
  exact x.releases_chunk c o.norm

end

/-- Settles O35: a partial goes through `partDone_sends`; a final result is released by `putOut_final`. -/
theorem arithmeticReleasesPartialsAndResults : Obligations.ArithmeticReleasesPartialsAndResults := by
  refine ⟨?_, ?_⟩
  · intro s g c faults x o hx hstage hready hruns hopen hfinal _ ho hroom
    obtain ⟨honly, y, hy, hchunk⟩ := State.partDone_sends (s := s.chunkBoundary (Desc.phaseId x.entry.desc)) (g := g) (faults := faults)
      (Inst.stage_op (by rw [hstage]; decide)) hopen hfinal ho ((State.chunkBoundary_pinnedFull s _ _).trans hroom)
    have hc : y.chunk c = _ := (hchunk c).trans ((x.chunk_setChunk c _ c).trans (if_pos rfl))
    refine ⟨_, y, ?_, hy, ?_, ?_, ?_, fun k hk => (hchunk k).trans ((x.chunk_setChunk c _ k).trans (if_neg hk)), honly.frame⟩
    · rw [exec_chunkArithmeticDone, State.chunkDone_part hx hstage hready hruns]
    · rw [hc]
    · rw [hc]
    · rw [hc]
      exact hopen.unfinished c
  · intro s b g c faults x o hx hstage hready hruns hown hb hstate hmap hleaves ho
    subst hb
    obtain ⟨f, clean, hdone⟩ := State.finalDone_releases (s := s.chunkBoundary (Desc.phaseId x.entry.desc)) (g := g) (o := o) hown hstate
      (fun n hn => (State.chunkBoundary_workBase s _).symm ▸ hmap n hn) hleaves ho
    obtain ⟨hends, hspares⟩ := State.putOut_final (c := c) (State.inst_setInst (s.chunkBoundary (Desc.phaseId x.entry.desc)).draw.2 g
      { x with flags := f }) (ho ▸ State.finalOut_isPartial _ _) clean
    rw [← hdone] at hends hspares
    have hbefore : Spares x.q (OffDelivery s.workBase x c o.data.length) s
        ((s.chunkBoundary (Desc.phaseId x.entry.desc)).draw.2.setInst g { x with flags := f }) := Spares.chunkBoundary _ _ s _
    have hbase : ((s.chunkBoundary (Desc.phaseId x.entry.desc)).draw.2.setInst g { x with flags := f }).workBase = s.workBase :=
      State.chunkBoundary_workBase s _
    rw [hbase] at hspares
    obtain ⟨hopt, hsec, hgal⟩ := (hbefore.storeOutputs rfl o).trans hspares
    obtain ⟨m, l, hstored⟩ := s.storeOutputs_eq o
    refine ⟨_, congrArg Host.Outcome.next (State.chunkDone_final hx hstage hready hruns 0), hends, fun hq a hslot hrange => ?_,
      hopt.trans (by rw [hstored]), hsec.trans (by rw [hstored])⟩
    have hloc : (s.storeOutputs o).qLoc x.q = 0 := by
      rw [hstored]
      exact hq
    exact (hgal hloc).2 a ⟨hslot, hrange⟩

end Sys2Proof.Machine
end

section
/-! What a command's units touch: Landing buffers, phases and keys change neither a queue nor a register of the blocks from CLE to QUE
(02_reduction_arithmetic.md R40; 05_landing.md R107, R108, R112; 15_power_and_thermal.md R289-R292). -/
namespace Sys2Proof.Machine

/-- Only the Landing, power, free values, the error log, the faces and registers outside the blocks from CLE to QUE change. -/
def OnlyUnits (s t : State) : Prop :=
  t = { s with lnd := t.lnd, power := t.power, freeCtr := t.freeCtr, regs := t.regs, log := t.log, outbox := t.outbox } ∧
    ∀ a, 0xB00000 ≤ a → a < 0x1000000 → t.reg a = s.reg a

theorem OnlyUnits.refl (s : State) : OnlyUnits s s := ⟨rfl, fun _ _ _ => rfl⟩

theorem OnlyUnits.trans {s t u : State} (h : OnlyUnits s t) (g : OnlyUnits t u) : OnlyUnits s u := by
  obtain ⟨h1, h2⟩ := h
  obtain ⟨g1, g2⟩ := g
  refine ⟨?_, fun a hlo hhi => (g2 a hlo hhi).trans (h2 a hlo hhi)⟩
  rw [g1, h1]

theorem OnlyUnits.setReg (s : State) {a : Nat} (v : Word) (h : a < 0xB00000 ∨ 0x1000000 ≤ a) : OnlyUnits s (s.setReg a v) :=
  ⟨rfl, fun b hlo hhi => State.reg_setReg_ne s v (by omega)⟩

theorem OnlyUnits.bump (s : State) {a : Nat} (h : a < 0xB00000 ∨ 0x1000000 ≤ a) : OnlyUnits s (s.bump a) := OnlyUnits.setReg s _ h

theorem OnlyUnits.lnd (s : State) (l : Landing) : OnlyUnits s { s with lnd := l } := ⟨rfl, fun _ _ _ => rfl⟩
theorem OnlyUnits.power (s : State) (p : Power) : OnlyUnits s { s with power := p } := ⟨rfl, fun _ _ _ => rfl⟩
theorem OnlyUnits.draw (s : State) : OnlyUnits s s.draw.2 := ⟨rfl, fun _ _ _ => rfl⟩
theorem OnlyUnits.emit (s : State) (e : Sent) : OnlyUnits s (s.emit e) := ⟨rfl, fun _ _ _ => rfl⟩

/-- An entry of the log changes the log, report registers and the faces alone. -/
theorem State.logEvent_eq (s : State) (e : Event) : s.logEvent e =
    { s with regs := (s.logEvent e).regs, log := (s.logEvent e).log, outbox := (s.logEvent e).outbox } := by
  have h : s.logEvent e = _ := OnlyLanes.logEvent s e
  have hpower : (s.logEvent e).power = s.power := by
    obtain ⟨-, -, -, -, -, ⟨hpower, -⟩, -⟩ := OnlyReports.logEvent s e
    exact hpower
  rwa [State.logEvent_rue, State.logEvent_boot, hpower] at h

/-- Registers from the CLE block to the QUE block are no registers of the log. -/
theorem isLogReg_of_block {a : Nat} (hlo : 0xB00000 ≤ a) (hhi : a < 0x1000000) : isLogReg a = false := by
  simp only [isLogReg, A.errLogLost, A.errVecStatus, Bool.or_eq_false_iff, Bool.and_eq_false_iff, decide_eq_false_iff_not]
  omega

theorem OnlyUnits.logEvent (s : State) (e : Event) : OnlyUnits s (s.logEvent e) :=
  ⟨by rw [State.logEvent_eq], fun _ hlo hhi => State.logEvent_reg s e (isLogReg_of_block hlo hhi)⟩

/-! ### Landing buffers (R107, R108, R112) -/

theorem OnlyUnits.freeBuffer (s : State) (c b : Nat) : OnlyUnits s (s.freeBuffer c b) := by
  unfold State.freeBuffer
  dsimp only
  split
  · exact (OnlyUnits.bump s (by decide)).trans (OnlyUnits.logEvent _ _)
  · split
    · exact OnlyUnits.lnd s _
    · exact (OnlyUnits.bump s (by decide)).trans (OnlyUnits.logEvent _ _)

theorem OnlyUnits.freeAll (s : State) (c : Nat) (bs : List Nat) : OnlyUnits s (s.freeAll c bs) := by
  unfold State.freeAll
  induction bs generalizing s with
  | nil => exact OnlyUnits.refl s
  | cons b bs ih => exact (OnlyUnits.freeBuffer s c b).trans (ih _)

theorem OnlyUnits.takeBuffer {s t : State} {c size b : Nat} {fell : Bool} (h : s.takeBuffer c size = some (b, fell, t)) :
    OnlyUnits s t := by
  unfold State.takeBuffer at h
  split at h
  · cases h
  · obtain rfl : _ = t := congrArg (fun x => x.2.2) (Option.some.inj h)
    exact (OnlyUnits.draw s).trans (OnlyUnits.lnd _ _)

theorem OnlyUnits.alloc (s : State) {c : Nat} (size : Nat) (hc : c < 16) : OnlyUnits s (s.alloc c size).2 := by
  unfold State.alloc
  split
  · next fell t h =>
    refine (OnlyUnits.takeBuffer h).trans ?_
    cases fell
    · exact OnlyUnits.refl t
    · exact OnlyUnits.bump t (by decide)
  · exact OnlyUnits.bump s (by unfold A.lndFull; omega)

theorem OnlyUnits.takeXfer (n : Nat) (s : State) : OnlyUnits s (s.takeXfer n).2.1 := by
  induction n generalizing s with
  | zero => exact OnlyUnits.refl s
  | succ k ih =>
    have halloc := OnlyUnits.alloc s (c := clsXfe) 262144 (by decide)
    unfold State.takeXfer
    split
    · next heq =>
      rw [heq] at halloc
      exact halloc
    · next heq =>
      rw [heq] at halloc
      exact halloc.trans (ih _)

theorem OnlyUnits.takeMany (c n : Nat) (s : State) : OnlyUnits s (s.takeMany c n).2.2.1 := by
  induction n generalizing s with
  | zero => exact OnlyUnits.refl s
  | succ k ih =>
    unfold State.takeMany
    split
    · exact OnlyUnits.refl s
    · next h => exact (OnlyUnits.takeBuffer h).trans (ih _)

theorem OnlyUnits.reserve (s : State) {c : Nat} (n group inst : Nat) (hc : c < 16) : OnlyUnits s (s.reserve c n group inst).2 := by
  have htake := OnlyUnits.takeMany c n s
  unfold State.reserve
  split
  · next heq =>
    rw [heq] at htake
    exact (htake.trans (OnlyUnits.setReg _ _ (by decide))).trans (OnlyUnits.bump _ (by decide))
  · have hdrawn (k : Nat) : OnlyUnits s { s with freeCtr := k } := ⟨rfl, fun _ _ _ => rfl⟩
    exact (((hdrawn _).trans (OnlyUnits.bump _ (by unfold A.lndFull; omega))).trans (OnlyUnits.bump _ (by decide))).trans
      (OnlyUnits.logEvent _ _)

theorem OnlyUnits.drawKey (s : State) (n : Nat) : OnlyUnits s (s.drawKey n).2 := by
  unfold State.drawKey
  split
  · exact OnlyUnits.refl s
  · exact OnlyUnits.draw s

/-- A reservation gives a command its buffers, or spills it. -/
theorem State.reserveFor_spec (s : State) {c : Nat} (g : Nat) (x : Inst) (hc : c < 16) :
    (∃ bufs spilled, (s.reserveFor c g x).1 = { x with bufs := bufs, spilled := spilled }) ∧ OnlyUnits s (s.reserveFor c g x).2 := by
  unfold State.reserveFor
  split
  · exact ⟨⟨_, _, rfl⟩, OnlyUnits.refl s⟩
  · split
    · exact ⟨⟨_, _, rfl⟩, OnlyUnits.refl s⟩
    · dsimp only
      generalize reservationSize _ _ _ _ = n
      have hreserve := OnlyUnits.reserve s n g x.number hc
      split
      · next heq =>
        rw [heq] at hreserve
        exact ⟨⟨_, _, rfl⟩, hreserve⟩
      · next heq =>
        rw [heq] at hreserve
        exact ⟨⟨_, _, rfl⟩, hreserve⟩

/-! ### Phases (R289-R292) -/

theorem OnlyUnits.moveOpp (s : State) : OnlyUnits s s.moveOpp := by
  unfold State.moveOpp
  dsimp only
  split
  · split
    · exact (OnlyUnits.power s _).trans (OnlyUnits.emit _ _)
    · exact OnlyUnits.power s _
  · exact OnlyUnits.refl s

theorem OnlyUnits.chooseOpp (s : State) : OnlyUnits s s.chooseOpp :=
  (((OnlyUnits.power s _).trans (OnlyUnits.moveOpp _)).trans (OnlyUnits.setReg _ _ (by decide))).trans
    (OnlyUnits.setReg _ _ (by decide))

theorem OnlyUnits.phaseTake (s : State) (n groups : Nat) : OnlyUnits s (s.phaseTake n groups) :=
  ((OnlyUnits.power s _).trans (OnlyUnits.power _ _)).trans (OnlyUnits.chooseOpp _)

theorem OnlyUnits.learn (s : State) {n : Nat} (hn : n < 16) (o : PhaseOcc) : OnlyUnits s (s.learn n o) := by
  unfold State.learn
  dsimp only
  refine ((OnlyUnits.setReg s _ ?_).trans (OnlyUnits.setReg _ _ ?_)).trans (OnlyUnits.setReg _ _ ?_)
  · unfold A.pwrPhaseEnv; omega
  · unfold A.pwrPhaseDur; omega
  · unfold A.pwrPhaseUnits; omega

theorem OnlyUnits.phaseRelease (s : State) {n : Nat} (hn : n < 16) : OnlyUnits s (s.phaseRelease n) := by
  unfold State.phaseRelease
  dsimp only
  split
  · exact OnlyUnits.refl s
  · split
    · refine OnlyUnits.trans ?_ ((OnlyUnits.power _ _).trans (OnlyUnits.chooseOpp _))
      split
      · exact OnlyUnits.learn s hn _
      · exact OnlyUnits.refl s
    · exact (OnlyUnits.power s _).trans (OnlyUnits.chooseOpp _)

end Sys2Proof.Machine
end

section
/-! What the completion, fetching and withdrawal of a queue's entries touch: the queue's region, tokens and reports
(03_command_lists_and_step_programs.md R55-R62, R65, R75). -/
namespace Sys2Proof.Machine

/-- Queue `q` moves along its ring: only queues, the Gallery, BAR4, registers, the error log and the faces change. Waiting and started
entries stay, and so do the other queues and every queue's own registers; the Gallery stays where the region of `q` lies in BAR4. -/
structure Rings (q : Nat) (s t : State) : Prop where
  state : t = { s with que := t.que, gallery := t.gallery, gal := t.gal, bar4 := t.bar4, regs := t.regs, log := t.log, outbox := t.outbox }
  fetched : (t.queue q).fetched = (s.queue q).fetched
  started : (t.queue q).started = (s.queue q).started
  others : ∀ p, p ≠ q → t.queue p = s.queue p
  regs : ∀ a, 0xF01000 ≤ a → a < 0x1000000 → t.reg a = s.reg a
  gallery : q < 64 → s.qLoc q = 0 → t.gallery = s.gallery ∧ t.gal = s.gal

/-- The region of a queue lies where it did while the queue's registers stay. -/
theorem State.qLoc_of_regs {s t : State} {q : Nat} (h : ∀ a, 0xF01000 ≤ a → a < 0x1000000 → t.reg a = s.reg a) (hq : q < 64) :
    t.qLoc q = s.qLoc q := State.qLoc_of_reg (h _ (by unfold A.queQCtrl; omega) (by unfold A.queQCtrl; omega))

section
variable {q : Nat} {s t u : State}

theorem Rings.refl (q : Nat) (s : State) : Rings q s s := ⟨rfl, rfl, rfl, fun _ _ => rfl, fun _ _ _ => rfl, fun _ _ => ⟨rfl, rfl⟩⟩

theorem Rings.trans (h : Rings q s t) (g : Rings q t u) : Rings q s u where
  state := by rw [g.state, h.state]
  fetched := g.fetched.trans h.fetched
  started := g.started.trans h.started
  others p hp := (g.others p hp).trans (h.others p hp)
  regs a hlo hhi := (g.regs a hlo hhi).trans (h.regs a hlo hhi)
  gallery hq hloc := by
    obtain ⟨hgallery, hgal⟩ := h.gallery hq hloc
    obtain ⟨ggallery, ggal⟩ := g.gallery hq ((State.qLoc_of_regs h.regs hq).trans hloc)
    exact ⟨ggallery.trans hgallery, ggal.trans hgal⟩

theorem Rings.foldl {α : Type} {run : State → α → State} (h : ∀ s x, Rings q s (run s x)) (xs : List α) (s : State) :
    Rings q s (xs.foldl run s) := by
  induction xs generalizing s with
  | nil => exact Rings.refl q s
  | cons x xs ih => exact (h s x).trans (ih _)

/-- Collectives, arithmetic, the Landing, lines and light are no part of a ring. -/
theorem Rings.frame (h : Rings q s t) : t.cle = s.cle ∧ t.rue = s.rue ∧ t.lnd = s.lnd ∧ SameLines s t ∧ SameLight s t := by
  rw [h.state]
  exact ⟨rfl, rfl, rfl, ⟨rfl, rfl, rfl, rfl⟩, ⟨rfl, rfl⟩⟩

theorem Rings.setReg (s : State) {a : Nat} (v : Word) (h : a < 0xF01000 ∨ 0x1000000 ≤ a) : Rings q s (s.setReg a v) :=
  ⟨rfl, rfl, rfl, fun _ _ => rfl, fun b hlo hhi => State.reg_setReg_ne s v (by omega), fun _ _ => ⟨rfl, rfl⟩⟩

theorem Rings.setQueue (s : State) {x : Queue} (hf : x.fetched = (s.queue q).fetched) (hs : x.started = (s.queue q).started) :
    Rings q s (s.setQueue q x) := by
  refine ⟨rfl, ?_, ?_, fun p hp => ?_, fun _ _ _ => rfl, fun _ _ => ⟨rfl, rfl⟩⟩
  · rw [State.queue_setQueue, if_pos rfl, hf]
  · rw [State.queue_setQueue, if_pos rfl, hs]
  · rw [State.queue_setQueue, if_neg hp]

theorem Rings.qWrite (s : State) (off : Nat) (bs : List Byte) : Rings q s (s.qWrite q off bs) := by
  unfold State.qWrite
  dsimp only
  split
  · exact ⟨rfl, rfl, rfl, fun _ _ => rfl, fun _ _ _ => rfl, fun _ _ => ⟨rfl, rfl⟩⟩
  · next h => exact ⟨rfl, rfl, rfl, fun _ _ => rfl, fun _ _ _ => rfl, fun _ hloc => absurd hloc h⟩

theorem Rings.logEvent (s : State) (e : Event) : Rings q s (s.logEvent e) := by
  obtain ⟨-, hregs⟩ := OnlyUnits.logEvent s e
  have h := State.logEvent_eq s e
  refine ⟨by rw [h], by rw [h]; rfl, by rw [h]; rfl, fun p _ => by rw [h]; rfl, fun a hlo hhi => hregs a (by omega) hhi, fun _ _ => ?_⟩
  rw [h]
  exact ⟨rfl, rfl⟩

/-! ### Completion (R61, R65, R75) -/

theorem Rings.signalToken (s : State) {n : Nat} (hn : n < 256) (ok : Bool) : Rings q s (s.signalToken n ok) := by
  have hcount : Rings q s (s.setReg (A.queToken n) (BitVec.ofNat 32 (s.tokenCount n + 1))) :=
    Rings.setReg s _ (by unfold A.queToken; omega)
  unfold State.signalToken
  dsimp only
  split
  · exact hcount
  · exact hcount.trans (Rings.setReg _ _ (by unfold A.queTokenFail; omega))

theorem Rings.raiseVector (s : State) {v : Nat} (h : v < 512) : Rings q s (s.raiseVector v) := by
  have hpending (b : Bool) : Rings q s (s.setB (A.topMsixPba (v / 32)) (v % 32) b) := Rings.setReg s _ (by unfold A.topMsixPba; omega)
  have hemit (t : State) (e : Sent) : Rings q t (t.emit e) := ⟨rfl, rfl, rfl, fun _ _ => rfl, fun _ _ _ => rfl, fun _ _ => ⟨rfl, rfl⟩⟩
  unfold State.raiseVector State.sendVector
  split
  · exact hpending _
  · exact (hpending _).trans (hemit _ _)

theorem Rings.completeEntry (s : State) (e : QEntry) (status flags : Nat) (late : Bool) (detail : Nat) :
    Rings q s (s.completeEntry q e status flags late detail) := by
  have htoken (t : State) : Rings q t
      (if Desc.signalEn e.desc then t.signalToken (Desc.signalToken e.desc) (statusOk status) else t) := by
    split
    · exact Rings.signalToken t (BitVec.isLt _) _
    · exact Rings.refl q t
  have hirq (t : State) : Rings q t (if Desc.irq e.desc then t.raiseVector (t.qVector q) else t) := by
    split
    · exact Rings.raiseVector t (fld_lt _ 16 9)
    · exact Rings.refl q t
  have htail (t : State) (n : Nat) : Rings q t (t.setQueue q { t.queue q with cqTail := n }) := Rings.setQueue t rfl rfl
  unfold State.completeEntry
  split
  · exact Rings.refl q s
  · exact ((((Rings.qWrite s _ _).trans (htail _ _)).trans (Rings.qWrite _ _ _)).trans (htoken _)).trans (hirq _)

/-! ### Examination and withdrawal (R56, R59, R62) -/

theorem Rings.qHalt (s : State) (reason : Nat) : Rings q s (s.qHalt q reason) := Rings.setQueue s rfl rfl

/-- An uncorrectable read changes the Gallery's bookkeeping: it is no step of a ring in BAR4. -/
theorem Rings.noteUncorrectable (s : State) (cw code : Nat) (h : s.qLoc q ≠ 0) : Rings q s (s.noteUncorrectable cw code) := by
  have hpoison (n : Nat) (hn : A.galCnt n < 0xF01000) : Rings q s ((s.bump (A.galCnt n)).setPoison cw true) := by
    have hcount : Rings q s (s.bump (A.galCnt n)) := Rings.setReg s _ (.inl hn)
    have hloc : (s.bump (A.galCnt n)).qLoc q = s.qLoc q := State.qLoc_of_reg (State.reg_bump_ne s (by unfold A.queQCtrl; omega))
    exact hcount.trans ⟨rfl, rfl, rfl, fun _ _ => rfl, fun _ _ _ => rfl, fun _ hzero => absurd (hloc.symm.trans hzero) h⟩
  unfold State.noteUncorrectable
  dsimp only
  refine Rings.trans ?_ (Rings.logEvent _ _)
  split
  · exact hpoison 4 (by decide)
  · exact hpoison 1 (by decide)

theorem Rings.qMemoryError (s : State) (off n : Nat) (h : s.qLoc q ≠ 0) : Rings q s (s.qMemoryError q off n) := by
  unfold State.qMemoryError
  split
  · exact (Rings.noteUncorrectable s _ _ h).trans (Rings.qHalt _ _)
  · exact Rings.qHalt s _

/-- A read of a region in BAR4 always succeeds. -/
theorem State.qRead_bar4 (h : s.qLoc q = 0) (off n : Nat) : s.qRead q off n = some (s.bar4Read (s.qBase q + off) n) := by
  simp only [State.qRead, h, if_true]

theorem State.qLoc_of_qRead_none {off n : Nat} (h : s.qRead q off n = none) : s.qLoc q ≠ 0 := by
  intro hloc
  rw [State.qRead_bar4 hloc] at h
  cases h

theorem Rings.examine (s : State) : Rings q s (s.examine q) := by
  have htail (t : State) (a b : Nat) : Rings q t (t.setQueue q { t.queue q with tail := a, cqHead := b }) :=
    Rings.setQueue t rfl rfl
  have hstall (t : State) (b : Bool) : Rings q t (t.setQueue q { t.queue q with stall := b }) := Rings.setQueue t rfl rfl
  unfold State.examine
  split
  · next h => exact Rings.qMemoryError s _ _ (State.qLoc_of_qRead_none h)
  · dsimp only
    split
    · exact Rings.qHalt s _
    · exact (htail s _ _).trans (hstall _ _)

theorem Rings.advanceFetch (s : State) : Rings q s (s.advanceFetch q) := by
  have hfetch (n : Nat) : Rings q s (s.setQueue q { s.queue q with fetch := n }) := Rings.setQueue s rfl rfl
  exact (hfetch _).trans (Rings.qWrite _ _ _)

theorem Rings.withdrawUnfetched (fuel : Nat) (s : State) : Rings q s (s.withdrawUnfetched q fuel) := by
  induction fuel generalizing s with
  | zero => exact Rings.refl q s
  | succ n ih =>
    unfold State.withdrawUnfetched
    dsimp only
    split
    · exact Rings.refl q s
    · split
      · next h => exact Rings.qMemoryError s _ _ (State.qLoc_of_qRead_none h)
      · exact ((Rings.advanceFetch s).trans (Rings.completeEntry _ _ _ _ _ _)).trans (ih _)

/-! ### Entries leave the queue without a start (R62, R66) -/

/-- The state of a queue whose waiting entries are others. -/
def State.setFetched (s : State) (q : Nat) (es : List QEntry) : State := s.setQueue q { s.queue q with fetched := es }

theorem State.setFetched_queue (s : State) (es : List QEntry) (p : Nat) :
    (s.setFetched q es).queue p = if p = q then { s.queue q with fetched := es } else s.queue p := State.queue_setQueue s q p _

/-- An entry that completes at its start point is one less that waits. -/
theorem Rings.completeAtStart (s : State) (e : QEntry) (status detail : Nat) :
    Rings q (s.setFetched q ((s.queue q).fetched.drop 1)) (s.completeAtStart q e status detail) := Rings.completeEntry _ _ _ _ _ _

theorem State.completeAtStart_fetched (s : State) (e : QEntry) (status detail : Nat) :
    ((s.completeAtStart q e status detail).queue q).fetched = (s.queue q).fetched.drop 1 := by
  rw [(Rings.completeAtStart s e status detail).fetched, State.setFetched_queue, if_pos rfl]

theorem State.completeAtStart_started (s : State) (e : QEntry) (status detail : Nat) :
    ((s.completeAtStart q e status detail).queue q).started = (s.queue q).started := by
  rw [(Rings.completeAtStart s e status detail).started, State.setFetched_queue, if_pos rfl]

theorem Rings.withdrawFetched (s : State) : Rings q (s.setFetched q []) (s.withdrawFetched q) :=
  Rings.foldl (fun s e => Rings.completeEntry s e _ _ _ _) _ _

/-- Every entry of queue `q` that waits is withdrawn; the started entries stay. -/
structure Withdraws (q : Nat) (s t : State) : Prop where
  state : t = { s with que := t.que, gallery := t.gallery, gal := t.gal, bar4 := t.bar4, regs := t.regs, log := t.log, outbox := t.outbox }
  fetched : (t.queue q).fetched = []
  stall : (t.queue q).stall = false
  started : (t.queue q).started = (s.queue q).started
  regs : ∀ a, 0xF01000 ≤ a → a < 0x1000000 → t.reg a = s.reg a

theorem Withdraws.trans (h : Withdraws q s t) (g : Withdraws q t u) : Withdraws q s u where
  state := by rw [g.state, h.state]
  fetched := g.fetched
  stall := g.stall
  started := g.started.trans h.started
  regs a hlo hhi := (g.regs a hlo hhi).trans (h.regs a hlo hhi)

theorem Withdraws.frame (h : Withdraws q s t) : t.cle = s.cle ∧ t.rue = s.rue ∧ t.lnd = s.lnd ∧ SameLines s t ∧ SameLight s t := by
  rw [h.state]
  exact ⟨rfl, rfl, rfl, ⟨rfl, rfl, rfl, rfl⟩, ⟨rfl, rfl⟩⟩

/-- CANCEL withdraws what waits (R62). -/
theorem Withdraws.cancelQueue (h : s.qEnabled q = true) : Withdraws q s (s.cancelQueue q) := by
  have hring (u : State) (n : Nat) : Rings q (u.setFetched q []) ((u.withdrawFetched q).withdrawUnfetched q n) :=
    (Rings.withdrawFetched u).trans (Rings.withdrawUnfetched n _)
  obtain ⟨u, w, hu, hw, hcancel⟩ : ∃ u w, Rings q s u ∧ Rings q (u.setFetched q []) w ∧
      s.cancelQueue q = w.setQueue q { w.queue q with stall := false } := by
    simp only [State.cancelQueue, h, if_true]
    split
    · exact ⟨_, _, Rings.examine s, hring _ _, rfl⟩
    · exact ⟨_, _, Rings.refl q s, hring _ _, rfl⟩
  have hqueue (x : Queue) (t : State) : (t.setQueue q x).queue q = x := (State.queue_setQueue t q q x).trans (if_pos rfl)
  rw [hcancel]
  refine ⟨?_, ?_, ?_, ?_, fun a hlo hhi => (hw.regs a hlo hhi).trans (hu.regs a hlo hhi)⟩
  · have hstate := hw.state
    rw [State.setFetched, State.setQueue, hu.state] at hstate
    rw [State.setQueue, hstate]
  · rw [hqueue]
    exact hw.fetched.trans (congrArg Queue.fetched (hqueue _ _))
  · rw [hqueue]
  · rw [hqueue]
    exact (hw.started.trans (congrArg Queue.started (hqueue _ _))).trans hu.started

end

end Sys2Proof.Machine
end

section
/-! Entries that complete at their start point: withdrawn, refused or empty (03_command_lists_and_step_programs.md R53, R66, R67, R73). -/
namespace Sys2Proof.Machine

/-- What completing an entry at its start point leaves as it was. -/
theorem State.completeAtStart_keeps (s : State) (q : Nat) (e : QEntry) (status detail : Nat) :
    let t := s.completeAtStart q e status detail
    (t.queue q).started = (s.queue q).started ∧ t.cle = s.cle ∧ t.rue = s.rue ∧ SameLines s t ∧ SameLight s t := by
  obtain ⟨hcle, hrue, -, hlines, hlight⟩ := (Rings.completeAtStart (q := q) s e status detail).frame
  exact ⟨State.completeAtStart_started s e status detail, hcle, hrue, hlines, hlight⟩

/-! ### The row of an opcode -/

/-- The start commands with their opcodes. -/
def startCommands (q : Fin 64) : List (Nat × Instr) :=
  [(1, .allreduce q), (2, .reduceScatter q), (3, .allgather q), (4, .broadcast q), (5, .reduce q), (6, .step q), (7, .norm q),
    (8, .send q), (9, .recv q), (10, .barrier q), (0x20, .vstep q), (0x40, .copy q), (0x41, .fill q)]

/-- The start of an entry of an opcode once check 1 has passed. -/
def State.startOf (s : State) (q op : Nat) (e : QEntry) : State :=
  if op ≤ 10 then s.startCle q e else if op = 0x20 then s.startVstep q e else s.startXfe q e (if op = 0x40 then 2 else 1)

theorem exec_startCommand {s : State} {q : Fin 64} {op : Nat} {c : Instr} (h : (op, c) ∈ startCommands q) :
    exec c s = .next (s.startRow q op (s.startOf q op)) := by
  simp only [startCommands, List.mem_cons, Prod.mk.injEq, List.not_mem_nil, or_false] at h
  obtain ⟨rfl, rfl⟩ | ⟨rfl, rfl⟩ | ⟨rfl, rfl⟩ | ⟨rfl, rfl⟩ | ⟨rfl, rfl⟩ | ⟨rfl, rfl⟩ | ⟨rfl, rfl⟩ | ⟨rfl, rfl⟩ | ⟨rfl, rfl⟩ | ⟨rfl, rfl⟩ |
    ⟨rfl, rfl⟩ | ⟨rfl, rfl⟩ | ⟨rfl, rfl⟩ := h <;> rfl

section
variable {s : State} {q op : Nat} {e : QEntry} {run : QEntry → State}

/-- An entry of the row, or of no opcode of its queue's class, that its guard withdraws (R66). -/
theorem State.startRow_withdrawn (he : s.startable q = some e) (hop : Desc.opcode e.desc = op ∨ opClass (Desc.opcode e.desc) ≠ some (s.qClass q))
    (hguard : (Desc.guard e.desc && Desc.waitEn e.desc && s.tokenFail (Desc.waitToken e.desc)) = true) :
    s.startRow q op run = s.completeAtStart q e stAborted 0 := by
  simp only [State.startRow, he, if_pos hop, hguard, if_true]

/-- An entry that check 1 refuses. -/
theorem State.startRow_refused {off : Nat} (he : s.startable q = some e)
    (hop : Desc.opcode e.desc = op ∨ opClass (Desc.opcode e.desc) ≠ some (s.qClass q))
    (hguard : (Desc.guard e.desc && Desc.waitEn e.desc && s.tokenFail (Desc.waitToken e.desc)) = false)
    (hcheck : check1 (s.qClass q) e.desc = some off) : s.startRow q op run = s.completeAtStart q e stDescInvalid off := by
  simp only [State.startRow, he, if_pos hop, hguard, hcheck, Bool.false_eq_true, if_false]

/-- An entry that passes check 1 is checked further. -/
theorem State.startRow_runs (he : s.startable q = some e) (hop : Desc.opcode e.desc = op)
    (hguard : (Desc.guard e.desc && Desc.waitEn e.desc && s.tokenFail (Desc.waitToken e.desc)) = false)
    (hcheck : check1 (s.qClass q) e.desc = none) : s.startRow q op run = run e := by
  simp only [State.startRow, he, if_pos (Or.inl hop), hguard, hcheck, Bool.false_eq_true, if_false]

/-- An opcode of another class fails check 1 at offset 0, which no other failure lies below (R53, R383). -/
theorem check1_of_class_ne {cls : Nat} {d : Desc} (h : opClass d.opcode ≠ some cls) : check1 cls d = some 0 := by
  simp only [check1, if_pos h, List.min?_eq_some_iff]
  exact ⟨by simp, fun _ _ => Nat.zero_le _⟩

/-! ### Checks 2 to 6 -/

theorem State.startCle_unlicensed (h : s.check2 e.desc = true) :
    s.startCle q e = s.completeAtStart q e stLicenceAbsent (Desc.group e.desc) := by
  simp only [State.startCle, h, if_true]

theorem State.startCle_invalid {off : Nat} (h2 : s.check2 e.desc = false) (h3 : s.check3 e.desc = some off) :
    s.startCle q e = s.completeAtStart q e stDescInvalid off := by
  simp only [State.startCle, h2, h3, Bool.false_eq_true, if_false]

theorem State.startCle_groupless (h2 : s.check2 e.desc = false) (h3 : s.check3 e.desc = none)
    (hpoison : s.groupPoison areaEffective (Desc.group e.desc) = none) (hgroup : s.effectiveGroup (Desc.group e.desc) = none) :
    s.startCle q e = s.completeAtStart q e stGroupInvalid (Desc.group e.desc) := by
  simp only [State.startCle, h2, h3, hpoison, hgroup, Bool.false_eq_true, if_false]

theorem State.startVstep_unlicensed (h : s.check2 e.desc = true) : s.startVstep q e = s.completeAtStart q e stLicenceAbsent 0 := by
  simp only [State.startVstep, h, if_true]

theorem State.startVstep_invalid {off : Nat} (h2 : s.check2 e.desc = false) (h3 : s.check3 e.desc = some off) :
    s.startVstep q e = s.completeAtStart q e stDescInvalid off := by
  simp only [State.startVstep, h2, h3, Bool.false_eq_true, if_false]

theorem State.startVstep_empty (h2 : s.check2 e.desc = false) (h3 : s.check3 e.desc = none) (hempty : Desc.elements e.desc = 0) :
    s.startVstep q e = s.completeAtStart q e stOkEmpty 0 := by
  simp only [State.startVstep, h2, h3, hempty, Bool.false_eq_true, if_false, if_true]

theorem State.startXfe_empty (n : Nat) (h3 : s.check3x e.desc = none) (hempty : Desc.bytes e.desc = 0) :
    s.startXfe q e n = s.completeAtStart q e stOkEmpty 0 := by
  simp only [State.startXfe, h3, hempty, if_true]

end

theorem State.startOf_cle (s : State) (q : Nat) (e : QEntry) {op : Nat} (h : op ≤ 10) : s.startOf q op e = s.startCle q e := if_pos h
theorem State.startOf_vstep (s : State) (q : Nat) (e : QEntry) : s.startOf q 0x20 e = s.startVstep q e := rfl
theorem State.startOf_xfe (s : State) (q : Nat) (e : QEntry) {op : Nat} (h : 0x40 ≤ op) :
    s.startOf q op e = s.startXfe q e (if op = 0x40 then 2 else 1) := by
  rw [State.startOf, if_neg (by omega), if_neg (by omega)]

/-- Start commands are of CLE opcodes, or of VSTEP, COPY and FILL. -/
theorem startCommands_op {q : Fin 64} {op : Nat} {c : Instr} (h : (op, c) ∈ startCommands q) : op ≤ 10 ∨ op = 0x20 ∨ 0x40 ≤ op := by
  simp only [startCommands, List.mem_cons, Prod.mk.injEq, List.not_mem_nil, or_false] at h
  omega

/-- Settles O11: an opcode of another class fails check 1 at offset 0, whichever start command runs. -/
theorem queueExecutesOnlyItsClass : Obligations.QueueExecutesOnlyItsClass := by
  intro s q c e hc he hclass hguard
  obtain ⟨⟨op, c'⟩, hop, rfl⟩ : ∃ x ∈ startCommands q, x.2 = c := List.mem_map.mp hc
  refine ⟨_, exec_startCommand hop, State.startRow_refused he (.inr hclass) hguard (check1_of_class_ne hclass), ?_⟩
  rw [State.startRow_refused he (.inr hclass) hguard (check1_of_class_ne hclass)]
  exact s.completeAtStart_keeps q e _ 0

/-- Settles O17: each check that fails ends the start of its opcode's row in one completion at the start point. -/
theorem refusedEntriesCompleteAtTheirStart : Obligations.RefusedEntriesCompleteAtTheirStart := by
  intro s q op c e hc he hop
  have hexec : exec c s = .next (s.startRow q op (s.startOf q op)) := exec_startCommand hc
  refine ⟨fun hguard => ?_, fun hguard => ⟨fun off hcheck => ?_, fun hcheck => ?_⟩, s.completeAtStart_keeps q e⟩
  · rw [hexec, State.startRow_withdrawn he (.inl hop) hguard]
  · rw [hexec, State.startRow_refused he (.inl hop) hguard hcheck]
  · rw [hexec, State.startRow_runs he hop hguard hcheck]
    refine ⟨fun hcle h2 => ?_, fun hvstep h2 => ?_, fun off hle h2 h3 => ?_, fun hcle h2 h3 hpoison hgroup => ?_,
      fun hvstep h2 h3 hempty => ?_, fun hxfe h3 hempty => ?_⟩
    · rw [s.startOf_cle q e hcle, State.startCle_unlicensed h2]
    · rw [hvstep, State.startOf_vstep, State.startVstep_unlicensed h2]
    · obtain hcle | rfl | hxfe := startCommands_op hc
      · rw [s.startOf_cle q e hcle, State.startCle_invalid h2 h3]
      · rw [State.startOf_vstep, State.startVstep_invalid h2 h3]
      · omega
    · rw [s.startOf_cle q e hcle, State.startCle_groupless h2 h3 hpoison hgroup]
    · rw [hvstep, State.startOf_vstep, State.startVstep_empty h2 h3 hempty]
    · rw [s.startOf_xfe q e hxfe, State.startXfe_empty _ h3 hempty]

end Sys2Proof.Machine
end

section
/-! The completion record of a queue in BAR4, the tail and the token signal (03_command_lists_and_step_programs.md R61, R65, R75). -/
namespace Sys2Proof.Machine

/-! ### Bytes of BAR4 -/

theorem State.bar4Read_bar4Write_same (s : State) (a : Nat) {n : Nat} {bs : List Byte} (h : bs.length = n) :
    (s.bar4Write a bs).bar4Read a n = bs := h ▸ Sparse.getList_putList_same _ bs _ _

theorem State.bar4Read_bar4Write_out (s : State) {a b n : Nat} {bs : List Byte} (h : b + n ≤ a ∨ a + bs.length ≤ b) :
    (s.bar4Write a bs).bar4Read b n = s.bar4Read b n := Sparse.getList_putList_out _ bs _ _ _ _ h

theorem State.bar4Byte_bar4Write_out (s : State) {a b : Nat} {bs : List Byte} (h : b < a ∨ a + bs.length ≤ b) :
    (s.bar4Write a bs).bar4Byte b = s.bar4Byte b := Sparse.get_putList_out _ bs _ _ _ h

theorem State.qWrite_bar4 {s : State} {q : Nat} (h : s.qLoc q = 0) (off : Nat) (bs : List Byte) :
    s.qWrite q off bs = s.bar4Write (s.qBase q + off) bs := if_pos h

theorem recordBytes_length (index status flags : Nat) (late phase : Bool) (tag detail : Nat) :
    (recordBytes index status flags late phase tag detail).length = 16 := by simp [recordBytes]

/-! ### The record -/

/-- The offset in a queue's region of its next completion record. -/
def State.recordAt (s : State) (q : Nat) : Nat := 0x1000 + 64 * s.qSize q + 16 * ((s.queue q).cqTail % s.qSize q)

/-- The state with a completion record more in a queue's ring. -/
def State.postsRecord (s : State) (q : Nat) (bs : List Byte) : State :=
  let c := ((s.queue q).cqTail + 1) % 0x100000000
  let t := s.qWrite q (s.recordAt q) bs
  (t.setQueue q { t.queue q with cqTail := c }).qWrite q 8 (leBytes 4 c)

/-- The record of a completion. -/
def State.recordOf (s : State) (q : Nat) (e : QEntry) (status flags : Nat) (late : Bool) (detail : Nat) : List Byte :=
  recordBytes e.index status flags late (decide ((s.queue q).cqTail / s.qSize q % 2 = 0)) (Desc.userTag e.desc) detail

/-- What an entry signals when it completes: its token and its vector. -/
def State.signals (s : State) (q : Nat) (d : Desc) (status : Nat) : State :=
  let s := if d.signalEn then s.signalToken d.signalToken (statusOk status) else s
  if d.irq then s.raiseVector (s.qVector q) else s

section
variable {s : State} {q : Nat} {e : QEntry}

theorem State.completeEntry_eq (status flags : Nat) (late : Bool) (detail : Nat) (hmute : e.mute = false) :
    s.completeEntry q e status flags late detail =
      (s.postsRecord q (s.recordOf q e status flags late detail)).signals q e.desc status := by
  rw [State.completeEntry, if_neg (by rw [hmute]; decide)]
  rfl

theorem State.postsRecord_bar4 (hloc : s.qLoc q = 0) (bs : List Byte) : s.postsRecord q bs =
    let c := ((s.queue q).cqTail + 1) % 0x100000000
    ((s.bar4Write (s.qBase q + s.recordAt q) bs).setQueue q { s.queue q with cqTail := c }).bar4Write (s.qBase q + 8) (leBytes 4 c) := by
  have hloc' (x : Queue) : ((s.bar4Write (s.qBase q + s.recordAt q) bs).setQueue q x).qLoc q = 0 := hloc
  simp only [State.postsRecord, State.qWrite_bar4 hloc]
  rw [State.qWrite_bar4 (hloc' _)]
  rfl

/-- Signals change registers and the faces alone. -/
theorem State.signals_eq (s : State) (q : Nat) (d : Desc) (status : Nat) :
    s.signals q d status = { s with regs := (s.signals q d status).regs, outbox := (s.signals q d status).outbox } := by
  have hraise (t : State) (v : Nat) : t.raiseVector v = { t with regs := (t.raiseVector v).regs, outbox := (t.raiseVector v).outbox } := by
    unfold State.raiseVector State.sendVector
    split <;> rfl
  have htoken (n : Nat) (ok : Bool) : s.signalToken n ok = { s with regs := (s.signalToken n ok).regs } := by
    unfold State.signalToken
    dsimp only
    split <;> rfl
  unfold State.signals
  dsimp only
  split
  · rw [hraise]
    split
    · rw [htoken]
    · rfl
  · split
    · rw [htoken]
    · rfl

/-- A signal counts its token, and marks a failure (R65). -/
theorem State.signalToken_spec (s : State) {n : Nat} (hn : n < 256) (ok : Bool) :
    (s.signalToken n ok).tokenCount n = (s.tokenCount n + 1) % 0x100000000 ∧
      (s.signalToken n ok).tokenFail n = (s.tokenFail n || !ok) := by
  have hne : A.queToken n ≠ A.queTokenFail (n / 32) := by unfold A.queToken A.queTokenFail; omega
  have hcount (v : Nat) : (BitVec.ofNat 32 v).toNat = v % 0x100000000 := BitVec.toNat_ofNat v 32
  cases ok with
  | true =>
    simp only [State.signalToken, if_true, State.tokenCount, State.reg_setReg_same, hcount, State.tokenFail,
      State.b_setReg_ne _ _ _ hne.symm, Bool.not_true, Bool.or_false, and_self]
  | false =>
    simp only [State.signalToken, Bool.false_eq_true, if_false, State.tokenCount, State.reg_setB_ne _ _ _ hne, State.reg_setReg_same, hcount,
      State.tokenFail, State.b_setB_same _ _ _ _ (Nat.mod_lt n (by decide : 0 < 32)), Bool.not_false, Bool.or_true, and_self]

theorem State.signals_token (s : State) (q : Nat) {d : Desc} (status : Nat) (h : d.signalEn = true) :
    (s.signals q d status).tokenCount d.signalToken = (s.tokenCount d.signalToken + 1) % 0x100000000 ∧
      (s.signals q d status).tokenFail d.signalToken = (s.tokenFail d.signalToken || !statusOk status) := by
  have hn : d.signalToken < 256 := BitVec.isLt _
  have hraise (t : State) (a : Nat) (ha : 0xF00000 ≤ a) : (t.raiseVector (t.qVector q)).reg a = t.reg a := by
    have hv : t.qVector q < 512 := fld_lt _ 16 9
    exact State.raiseVector_reg t (by unfold A.topMsixPba; omega)
  simp only [State.signals, h, if_true]
  split
  · rw [State.tokenCount, State.tokenFail, State.b, hraise _ _ (by unfold A.queToken; omega), hraise _ _ (by unfold A.queTokenFail; omega)]
    exact s.signalToken_spec hn _
  · exact s.signalToken_spec hn _

/-- A record of 16 bytes at the next slot, the tail advanced, every other byte of BAR4 as it was. -/
theorem State.postsRecord_spec (hloc : s.qLoc q = 0) {bs : List Byte} (hbs : bs.length = 16) {t : State} (ht : t = s.postsRecord q bs) :
    t.bar4Read (s.qBase q + s.recordAt q) 16 = bs ∧
      t.bar4Read (s.qBase q + 8) 4 = leBytes 4 (((s.queue q).cqTail + 1) % 0x100000000) ∧
      t.queue q = { s.queue q with cqTail := ((s.queue q).cqTail + 1) % 0x100000000 } ∧
      (∀ b, (b < s.qBase q + s.recordAt q ∨ s.qBase q + s.recordAt q + 16 ≤ b) → (b < s.qBase q + 8 ∨ s.qBase q + 12 ≤ b) →
        t.bar4Byte b = s.bar4Byte b) ∧
      t = { s with bar4 := t.bar4, que := t.que } := by
  subst ht
  have hat : 0x1000 ≤ s.recordAt q := by unfold State.recordAt; omega
  rw [State.postsRecord_bar4 hloc]
  refine ⟨?_, State.bar4Read_bar4Write_same _ _ (leBytes_length _ _), (State.queue_setQueue _ q q _).trans (if_pos rfl),
    fun b hrecord htail => ?_, rfl⟩
  · refine (State.bar4Read_bar4Write_out _ (.inr ?_)).trans (State.bar4Read_bar4Write_same s _ hbs)
    rw [leBytes_length]
    omega
  · refine (State.bar4Byte_bar4Write_out _ ?_).trans (State.bar4Byte_bar4Write_out s ?_)
    · rw [leBytes_length]
      omega
    · rw [hbs]
      exact hrecord

end

theorem statusOk_eq_contains (status : Nat) : statusOk status = [0x00, 0x01, 0x02].contains status := by
  simp [statusOk, Bool.or_assoc]

/-- A record of a PHASE bit, as the region holds it. -/
theorem State.recordOf_eq (s : State) (q : Nat) (e : QEntry) (status flags : Nat) (late : Bool) (detail : Nat) :
    s.recordOf q e status flags late detail = leBytes 4 e.index ++ leBytes 1 status ++
      leBytes 1 (flags % 16 + 16 * b2n late + 128 * (1 - (s.queue q).cqTail / s.qSize q % 2)) ++
      leBytes 2 (Desc.userTag e.desc) ++ leBytes 8 detail := by
  have hphase (n : Nat) : b2n (decide (n % 2 = 0)) = 1 - n % 2 := by
    obtain h | h : n % 2 = 0 ∨ n % 2 = 1 := by omega
    · simp [h]
    · simp [h]
  rw [State.recordOf, recordBytes, hphase]

/-- Settles O14: a completion in BAR4 posts its record, then signals, which touches registers and the faces alone. -/
theorem completionRecordIsWrittenInOrder : Obligations.CompletionRecordIsWrittenInOrder := by
  intro s q e status flags detail late hmute hloc
  dsimp only
  rw [← State.recordOf_eq, State.completeEntry_eq status flags late detail hmute, ← statusOk_eq_contains]
  generalize hu : s.postsRecord q (s.recordOf q e status flags late detail) = u
  obtain ⟨hrecord, htail, hqueue, hbytes, hstate⟩ := State.postsRecord_spec hloc (recordBytes_length ..) hu.symm
  have htoken : u.tokenCount (Desc.signalToken e.desc) = s.tokenCount (Desc.signalToken e.desc) ∧
      u.tokenFail (Desc.signalToken e.desc) = s.tokenFail (Desc.signalToken e.desc) := by
    rw [hstate]
    exact ⟨rfl, rfl⟩
  have hsignal := u.signals_token q status (d := e.desc)
  rw [htoken.1, htoken.2] at hsignal
  rw [u.signals_eq q e.desc status] at hsignal ⊢
  refine ⟨hrecord, congrArg Queue.cqTail hqueue, htail, hsignal, hbytes, ?_⟩
  have hstarted : (u.queue q).started = (s.queue q).started := by rw [hqueue]
  refine ⟨?_, ?_, hstarted, ?_⟩
  all_goals rw [hstate]
  · exact fun _ => rfl
  · exact fun _ => rfl
  · exact ⟨⟨rfl, rfl, rfl, rfl⟩, ⟨rfl, rfl⟩, rfl, rfl, rfl, rfl, rfl, rfl⟩

end Sys2Proof.Machine
end

section
/-! The tail, the completion head, the fetch of an entry and a token of a queue in BAR4 (03_command_lists_and_step_programs.md R56-R59, R65;
18_host_interface.md R338). -/
namespace Sys2Proof.Machine

/-! ### States that differ in queues and BAR4 alone -/

/-- Only queues and BAR4 change. -/
def OnlyQueues (s t : State) : Prop := t = { s with que := t.que, bar4 := t.bar4 }

theorem OnlyQueues.trans {s t u : State} (h : OnlyQueues s t) (g : OnlyQueues t u) : OnlyQueues s u := by
  unfold OnlyQueues at h g ⊢
  rw [g, h]

/-- Queue `q` becomes `x`; nothing else changes. -/
def SetsQueue (q : Nat) (x : Queue) (s t : State) : Prop :=
  t = { s with que := t.que } ∧ ∀ p, t.queue p = if p = q then x else s.queue p

section
variable {s t u : State} {q : Nat} {x y : Queue}

theorem OnlyQueues.reg (h : OnlyQueues s t) (a : Nat) : t.reg a = s.reg a := by rw [h]; rfl

theorem OnlyQueues.frame (h : OnlyQueues s t) : (∀ a, t.galByte a = s.galByte a) ∧ (∀ a, t.hostByte a = s.hostByte a) ∧
    SameLines s t ∧ SameLight s t := by
  rw [h]
  exact ⟨fun _ => rfl, fun _ => rfl, ⟨rfl, rfl, rfl, rfl⟩, rfl, rfl⟩

theorem OnlyQueues.base (h : OnlyQueues s t) : SameBase s t ∧ SameHost s t ∧ SameRegs [] s t := by
  rw [h]
  exact ⟨⟨rfl, rfl, rfl, rfl, rfl, rfl⟩, ⟨rfl, rfl, rfl, rfl⟩, fun _ _ => ⟨rfl, rfl⟩⟩

theorem SetsQueue.onlyQueues (h : SetsQueue q x s t) : OnlyQueues s t := by
  obtain ⟨hstate, -⟩ := h
  rw [OnlyQueues, hstate]

theorem SetsQueue.self (h : SetsQueue q x s t) : t.queue q = x := (h.2 q).trans (if_pos rfl)

theorem SetsQueue.bar4 (h : SetsQueue q x s t) : t.bar4 = s.bar4 := by rw [h.1]

theorem SetsQueue.setQueue (s : State) (q : Nat) (x : Queue) : SetsQueue q x s (s.setQueue q x) :=
  ⟨rfl, fun p => State.queue_setQueue s q p x⟩

theorem SetsQueue.trans (h : SetsQueue q x s t) (g : SetsQueue q y t u) : SetsQueue q y s u := by
  obtain ⟨hstate, hqueue⟩ := h
  obtain ⟨gstate, gqueue⟩ := g
  refine ⟨by rw [gstate, hstate], fun p => ?_⟩
  rw [gqueue, hqueue]
  split <;> rfl

/-- A change of queue `q` alone after another. -/
theorem SetsQueue.modify (h : SetsQueue q x s t) (f : Queue → Queue) : SetsQueue q (f x) s (t.setQueue q (f (t.queue q))) := by
  rw [h.self]
  exact h.trans (SetsQueue.setQueue t q _)

/-! ### Words of a region in BAR4 -/

/-- A field of a read is a read of its own. -/
theorem State.leAt_bar4Read (s : State) (a : Nat) {n k l : Nat} (h : k + l ≤ n) : leAt (s.bar4Read a n) k l = leNat (s.bar4Read (a + k) l) := by
  have hlength : (s.bar4Read a n).length = n := by simp [State.bar4Read, Sparse.getList]
  rw [leAt, bytesAt_in _ _ _ (by omega)]
  congr 1
  apply List.ext_getElem
  · simp [State.bar4Read, Sparse.getList]
    omega
  · intro i hi hi'
    simp [State.bar4Read, Sparse.getList, Nat.add_assoc]

theorem OnlyQueues.qWrite (hloc : s.qLoc q = 0) (off : Nat) (bs : List Byte) : OnlyQueues s (s.qWrite q off bs) := by
  rw [State.qWrite_bar4 hloc]
  rfl

theorem State.qWrite_queue (hloc : s.qLoc q = 0) (off : Nat) (bs : List Byte) (p : Nat) : (s.qWrite q off bs).queue p = s.queue p := by
  rw [State.qWrite_bar4 hloc]
  rfl

theorem State.bar4Byte_qWrite_out (hloc : s.qLoc q = 0) {off b : Nat} {bs : List Byte}
    (h : b < s.qBase q + off ∨ s.qBase q + off + bs.length ≤ b) : (s.qWrite q off bs).bar4Byte b = s.bar4Byte b := by
  rw [State.qWrite_bar4 hloc]
  exact State.bar4Byte_bar4Write_out s h

theorem State.bar4Read_qWrite_out (hloc : s.qLoc q = 0) {off b n : Nat} {bs : List Byte}
    (h : b + n ≤ s.qBase q + off ∨ s.qBase q + off + bs.length ≤ b) : (s.qWrite q off bs).bar4Read b n = s.bar4Read b n := by
  rw [State.qWrite_bar4 hloc]
  exact State.bar4Read_bar4Write_out s h

theorem State.bar4Read_qWrite_same (hloc : s.qLoc q = 0) (off : Nat) (bs : List Byte) :
    (s.qWrite q off bs).bar4Read (s.qBase q + off) bs.length = bs := by
  rw [State.qWrite_bar4 hloc]
  exact State.bar4Read_bar4Write_same s _ rfl

/-! ### Examination (R56, R59) -/

/-- A queue in service is awake. -/
theorem State.wakeEvent_of_serving (h : s.serving = true) : s.wakeEvent = s := by
  refine if_neg fun hidle => ?_
  simp only [State.serving, State.computeRuns, hidle, Bool.and_eq_true] at h
  obtain ⟨-, hruns⟩ := h
  split at hruns <;> cases hruns

/-- The tail and the completion head that a region in BAR4 holds. -/
def State.tailWord (s : State) (q : Nat) : Nat := leNat (s.bar4Read (s.qBase q) 4)
def State.headWord (s : State) (q : Nat) : Nat := leNat (s.bar4Read (s.qBase q + 12) 4)

/-- What the examination of a queue in BAR4 comes to (R56). -/
theorem State.examine_bar4 (hloc : s.qLoc q = 0) : s.examine q =
    if s.qSize q < (s.tailWord q + 0x100000000 - s.headWord q) % 0x100000000 ∨ (!reached 32 (s.tailWord q) (s.queue q).tail) = true then
      s.setQueue q { s.queue q with halt := if (s.queue q).halt = 0 then 1 else (s.queue q).halt }
    else
      let t := s.setQueue q { s.queue q with tail := s.tailWord q, cqHead := s.headWord q }
      t.setQueue q { t.queue q with stall := t.stalled q } := by
  have htail : leAt (s.bar4Read (s.qBase q + 0) 16) 0 4 = s.tailWord q := State.leAt_bar4Read s _ (by decide)
  have hhead : leAt (s.bar4Read (s.qBase q + 0) 16) 12 4 = s.headWord q := State.leAt_bar4Read s _ (by decide)
  simp only [State.examine, State.qRead_bar4 hloc, htail, hhead]

/-- A tail and a head that R56 allows are taken. -/
theorem SetsQueue.examine (hloc : s.qLoc q = 0) (hfits : (s.tailWord q + 0x100000000 - s.headWord q) % 0x100000000 ≤ s.qSize q)
    (htail : reached 32 (s.tailWord q) (s.queue q).tail = true) :
    ∃ b, SetsQueue q { s.queue q with tail := s.tailWord q, cqHead := s.headWord q, stall := b } s (s.examine q) := by
  rw [State.examine_bar4 hloc, if_neg (by rw [htail]; simpa using hfits)]
  exact ⟨_, (SetsQueue.setQueue s q { s.queue q with tail := s.tailWord q, cqHead := s.headWord q }).modify
    fun x => { x with stall := State.stalled _ q }⟩

theorem State.notice_serving (h : s.serving = true) (henabled : s.qEnabled q = true) (hhalt : (s.queue q).halt = 0) :
    s.notice q = s.examine q := by
  rw [State.notice, henabled, h, hhalt]
  rfl

/-! ### The host's writes of a region (R58) -/

theorem State.qRegs_of_onlyQueues (h : OnlyQueues s t) (q : Nat) :
    t.qLoc q = s.qLoc q ∧ t.qBase q = s.qBase q ∧ t.qSize q = s.qSize q ∧ t.qBytes q = s.qBytes q ∧ t.qEnabled q = s.qEnabled q ∧
      t.serving = s.serving := by
  rw [h]
  exact ⟨rfl, rfl, rfl, rfl, rfl, rfl⟩

/-- Writes that stay in the queue's region reach no other byte. -/
theorem State.queueWrites_bar4 (ws : List (Nat × List Byte)) (s : State) (hloc : s.qLoc q = 0) :
    OnlyQueues s (s.queueWrites q ws) ∧ (∀ p, (s.queueWrites q ws).queue p = s.queue p) ∧
      ∀ a, (a < s.qBase q ∨ s.qBase q + s.qBytes q ≤ a) → (s.queueWrites q ws).bar4Byte a = s.bar4Byte a := by
  induction ws generalizing s with
  | nil => exact ⟨rfl, fun _ => rfl, fun _ _ => rfl⟩
  | cons w ws ih =>
    by_cases hfits : w.1 + w.2.length ≤ s.qBytes q
    · have hcons : s.queueWrites q (w :: ws) = (s.qWrite q w.1 w.2).queueWrites q ws := by simp [State.queueWrites, hfits]
      have hwrite : OnlyQueues s (s.qWrite q w.1 w.2) := OnlyQueues.qWrite hloc _ _
      obtain ⟨hloc', hbase, -, hbytes, -⟩ := State.qRegs_of_onlyQueues hwrite q
      obtain ⟨hstate, hqueue, hout⟩ := ih (s.qWrite q w.1 w.2) (hloc'.trans hloc)
      rw [hcons]
      refine ⟨hwrite.trans hstate, fun p => (hqueue p).trans (State.qWrite_queue hloc _ _ p), fun a ha => ?_⟩
      refine (hout a (by rw [hbase, hbytes]; exact ha)).trans (State.bar4Byte_qWrite_out hloc ?_)
      omega
    · have hcons : s.queueWrites q (w :: ws) = s.queueWrites q ws := by simp [State.queueWrites, hfits]
      rw [hcons]
      exact ih s hloc

/-! ### The fetch of an entry (R57, R58, R338) -/

/-- FETCH after one more entry, and the entry that a fetch in BAR4 takes. -/
def State.nextFetch (s : State) (q : Nat) : Nat := ((s.queue q).fetch + 1) % 0x100000000
def State.nextEntry (s : State) (q : Nat) : QEntry :=
  { index := (s.queue q).fetch, desc := s.bar4Read (s.qBase q + (0x1000 + 64 * ((s.queue q).fetch % s.qSize q))) 64, mute := false }

theorem SetsQueue.advanceFetch (hloc : s.qLoc q = 0) :
    SetsQueue q { s.queue q with fetch := s.nextFetch q } (s.qWrite q 4 (leBytes 4 (s.nextFetch q))) (s.advanceFetch q) := by
  have hloc' (x : Queue) : (s.setQueue q x).qLoc q = 0 := hloc
  have hswap : s.advanceFetch q = (s.qWrite q 4 (leBytes 4 (s.nextFetch q))).setQueue q { s.queue q with fetch := s.nextFetch q } := by
    rw [State.qWrite_bar4 hloc, State.advanceFetch, State.qWrite_bar4 (hloc' _)]
    rfl
  rw [hswap]
  exact SetsQueue.setQueue _ q _

/-- A fetch in BAR4 takes the entry's bytes and moves FETCH and SQ_HEAD on. -/
theorem SetsQueue.fetchEntry (hloc : s.qLoc q = 0) : ∃ b, SetsQueue q
    { s.queue q with fetch := s.nextFetch q, fetched := (s.queue q).fetched ++ [s.nextEntry q], stall := b }
    (s.qWrite q 4 (leBytes 4 (s.nextFetch q))) (s.fetchEntry q) := by
  have hentry : s.entryBytes q (s.queue q).fetch = some (s.nextEntry q).desc := State.qRead_bar4 hloc _ _
  simp only [State.fetchEntry, hentry]
  exact ⟨_, ((SetsQueue.advanceFetch hloc).modify fun x => { x with fetched := x.fetched ++ [s.nextEntry q] }).modify
    fun x => { x with stall := State.stalled _ q }⟩

end

/-- The queues that an uncorrectable word of BAR4 halts (R338). -/
def State.wordHalts (s : State) (a p : Nat) : Bool :=
  s.qEnabled p && decide (s.qLoc p = 0) && rangesMeet (s.qBase p) (s.qBytes p) a 8 && decide ((s.queue p).halt = 0)

/-- One after another, queues whose region holds a bad word halt. -/
theorem State.bar4Failed_upTo (s : State) (a n : Nat) :
    let t := (List.range n).foldl (fun s q => if s.wordHalts a q then s.qHalt q 3 else s) s
    t = { s with que := t.que } ∧
      ∀ p, t.queue p = if p < n ∧ s.wordHalts a p = true then { s.queue p with halt := 3 } else s.queue p := by
  induction n with
  | zero => exact ⟨rfl, fun p => by simp⟩
  | succ n ih =>
    rw [List.range_succ, List.foldl_append]
    generalize (List.range n).foldl (fun s q => if s.wordHalts a q then s.qHalt q 3 else s) s = u at ih
    obtain ⟨hstate, hqueue⟩ := ih
    have hself : u.queue n = s.queue n := (hqueue n).trans (if_neg (by omega))
    have hhalts : u.wordHalts a n = s.wordHalts a n := by
      rw [State.wordHalts, hself, hstate]
      rfl
    simp only [List.foldl_cons, List.foldl_nil, hhalts]
    by_cases hn : s.wordHalts a n = true
    · rw [if_pos hn]
      refine ⟨by rw [State.qHalt, State.setQueue, hstate], fun p => ?_⟩
      rw [State.qHalt, State.queue_setQueue, hself, hqueue]
      by_cases hp : p = n
      · subst hp
        simp [hn]
      · simp [hp, show p < n + 1 ↔ p < n by omega]
    · rw [if_neg hn]
      refine ⟨hstate, fun p => ?_⟩
      rw [hqueue]
      by_cases hp : p = n
      · subst hp
        simp [hn]
      · simp [show p < n + 1 ↔ p < n by omega]

/-- The registers of a token are no FAIL bits. -/
theorem queTokenFail_ne_queToken (k n : Nat) (hn : n < 256) : A.queTokenFail k ≠ A.queToken n := by
  unfold A.queTokenFail A.queToken
  omega

theorem sqTailWrite_spec {s u : State} {q : Fin 64} {tail : Word} {ws : List (Nat × List Byte)} (hu : u = s.queueWrites q ws)
    (hloc : s.qLoc q = 0) (henabled : s.qEnabled q = true) (hserving : s.serving = true) (hhalt : (s.queue q).halt = 0)
    (htail : reached 32 tail.toNat (s.queue q).tail = true)
    (hfits : (tail.toNat + 0x100000000 - leNat (u.bar4Read (s.qBase q + 12) 4)) % 0x100000000 ≤ s.qSize q) :
    ∃ b, SetsQueue q { s.queue q with tail := tail.toNat, cqHead := leNat (u.bar4Read (s.qBase q + 12) 4), stall := b }
      (u.qWrite q 0 (leBytes 4 tail.toNat)) (s.writeTail q tail ws) := by
  obtain ⟨hstate, hqueue, -⟩ := s.queueWrites_bar4 ws hloc
  rw [← hu] at hstate hqueue
  obtain ⟨uloc, ubase, -⟩ := State.qRegs_of_onlyQueues hstate q
  have hloc' := uloc.trans hloc
  have hwrite : OnlyQueues u (u.qWrite q 0 (leBytes 4 tail.toNat)) := OnlyQueues.qWrite hloc' _ _
  obtain ⟨wloc, wbase, wsize, -, wenabled, wserving⟩ := State.qRegs_of_onlyQueues (hstate.trans hwrite) q
  have wqueue : (u.qWrite q 0 (leBytes 4 tail.toNat)).queue q = s.queue q := (State.qWrite_queue hloc' _ _ _).trans (hqueue q)
  have wtail : (u.qWrite q 0 (leBytes 4 tail.toNat)).tailWord q = tail.toNat := by
    have hread := State.bar4Read_qWrite_same hloc' 0 (leBytes 4 tail.toNat)
    rw [leBytes_length, ubase, Nat.add_zero] at hread
    rw [State.tailWord, wbase, hread, leNat_leBytes, Nat.mod_eq_of_lt (by exact tail.isLt)]
  have whead : (u.qWrite q 0 (leBytes 4 tail.toNat)).headWord q = leNat (u.bar4Read (s.qBase q + 12) 4) := by
    rw [State.headWord, wbase, State.bar4Read_qWrite_out hloc']
    rw [ubase, leBytes_length]
    omega
  rw [State.writeTail, ← hu, State.wakeEvent_of_serving (wserving.trans hserving),
    State.notice_serving (wserving.trans hserving) (wenabled.trans henabled) (by rw [wqueue]; exact hhalt)]
  have hexamine := SetsQueue.examine (wloc.trans hloc) (by rw [wtail, whead, wsize]; exact hfits) (by rw [wtail, wqueue]; exact htail)
  rwa [wtail, whead, wqueue] at hexamine

theorem cqHeadWrite_spec {s : State} {q : Fin 64} {head : Word} (hloc : s.qLoc q = 0) (henabled : s.qEnabled q = true)
    (hserving : s.serving = true) (hhalt : (s.queue q).halt = 0) (hstall : (s.queue q).stall = true)
    (htail : reached 32 (s.tailWord q) (s.queue q).tail = true)
    (hfits : (s.tailWord q + 0x100000000 - head.toNat) % 0x100000000 ≤ s.qSize q) :
    ∃ b, SetsQueue q { s.queue q with tail := s.tailWord q, cqHead := head.toNat, stall := b }
      (s.qWrite q 12 (leBytes 4 head.toNat)) (s.writeHead q head) := by
  have hwrite : OnlyQueues s (s.qWrite q 12 (leBytes 4 head.toNat)) := OnlyQueues.qWrite hloc _ _
  obtain ⟨wloc, wbase, wsize, -, wenabled, wserving⟩ := State.qRegs_of_onlyQueues hwrite q
  have wqueue : (s.qWrite q 12 (leBytes 4 head.toNat)).queue q = s.queue q := State.qWrite_queue hloc _ _ _
  have wtail : (s.qWrite q 12 (leBytes 4 head.toNat)).tailWord q = s.tailWord q := by
    rw [State.tailWord, wbase, State.bar4Read_qWrite_out hloc (.inl (by omega))]
    rfl
  have whead : (s.qWrite q 12 (leBytes 4 head.toNat)).headWord q = head.toNat := by
    have hread := State.bar4Read_qWrite_same hloc 12 (leBytes 4 head.toNat)
    rw [leBytes_length] at hread
    rw [State.headWord, wbase, hread, leNat_leBytes, Nat.mod_eq_of_lt (by exact head.isLt)]
  have hrun : s.writeHead q head = (s.qWrite q 12 (leBytes 4 head.toNat)).wakeEvent.notice q := by
    rw [State.writeHead]
    exact if_pos (by rw [wqueue]; exact hstall)
  rw [hrun, State.wakeEvent_of_serving (wserving.trans hserving),
    State.notice_serving (wserving.trans hserving) (wenabled.trans henabled) (by rw [wqueue]; exact hhalt)]
  have hexamine := SetsQueue.examine (wloc.trans hloc) (by rw [wtail, whead, wsize]; exact hfits) (by rw [wtail, wqueue]; exact htail)
  rwa [wtail, whead, wqueue] at hexamine

/-- A word of a region and its queue are written: what stays. -/
theorem SetsQueue.afterWrite {s t : State} {q : Nat} {x : Queue} {off v : Nat} (hloc : s.qLoc q = 0)
    (h : SetsQueue q x (s.qWrite q off (leBytes 4 v)) t) : OnlyQueues s t ∧ t.bar4Read (s.qBase q + off) 4 = leBytes 4 v ∧
      ∀ a, (a < s.qBase q + off ∨ s.qBase q + off + 4 ≤ a) → t.bar4Byte a = s.bar4Byte a := by
  have hread (a n : Nat) : t.bar4Read a n = (s.qWrite q off (leBytes 4 v)).bar4Read a n := by
    rw [State.bar4Read, State.bar4Read, h.bar4]
  have hbyte (a : Nat) : t.bar4Byte a = (s.qWrite q off (leBytes 4 v)).bar4Byte a := by
    rw [State.bar4Byte, State.bar4Byte, h.bar4]
  refine ⟨(OnlyQueues.qWrite hloc _ _).trans h.onlyQueues, ?_, fun a ha => ?_⟩
  · have hsame := State.bar4Read_qWrite_same hloc off (leBytes 4 v)
    rwa [leBytes_length, ← hread] at hsame
  · rw [hbyte]
    exact State.bar4Byte_qWrite_out hloc (by rw [leBytes_length]; exact ha)

/-- Settles O15: each write reaches its own word and queue; a bad word halts the queues whose region holds it. -/
theorem tailHeadFetchAndToken : Obligations.TailHeadFetchAndToken := by
  refine ⟨fun s u q tail ws hu hloc henabled hserving hhalt htail hfits => ?_,
    fun s q head hloc henabled hserving hhalt hstall htail hfits => ?_, fun s q hmay hloc => ?_, fun s q k hmay hloc => ?_,
    fun s n v haccepts => ?_⟩
  · obtain ⟨b, hset⟩ := sqTailWrite_spec hu hloc henabled hserving hhalt htail hfits
    obtain ⟨hstate, -, hout⟩ := s.queueWrites_bar4 ws hloc
    rw [← hu] at hstate hout
    obtain ⟨uloc, ubase, -⟩ := State.qRegs_of_onlyQueues hstate q
    obtain ⟨hwritten, hread, hbytes⟩ := SetsQueue.afterWrite (uloc.trans hloc) hset
    rw [ubase, Nat.add_zero] at hread hbytes
    obtain ⟨hgal, hhost, hlines, hlight⟩ := (hstate.trans hwritten).frame
    obtain ⟨-, hhostside, hregs⟩ := (hstate.trans hwritten).base
    refine ⟨_, rfl, hread, ?_, ?_, ?_, hbytes, fun a ha => ?_, hgal, hhost, hlines, hlight, hhostside, hregs⟩
    · rw [hset.self]
    · rw [hset.self]
      exact hhalt
    · rw [hset.self]
    · have hsize : 4096 ≤ s.qBytes q := Nat.le_add_right _ _
      rw [hbytes a (by omega), hout a ha]
  · obtain ⟨b, hset⟩ := cqHeadWrite_spec hloc henabled hserving hhalt hstall htail hfits
    obtain ⟨hwritten, hread, hbytes⟩ := SetsQueue.afterWrite hloc hset
    obtain ⟨hgal, hhost, hlines, hlight⟩ := hwritten.frame
    obtain ⟨-, hhostside, hregs⟩ := hwritten.base
    refine ⟨_, rfl, hread, ?_, ?_, hbytes, hgal, hhost, hlines, hlight, hhostside, hregs⟩
    · rw [hset.self]
    · rw [hset.self]
      exact hhalt
  · obtain ⟨b, hset⟩ := SetsQueue.fetchEntry (s := s) (q := q) hloc
    have hrun : exec (.descriptorFetch q none) s = .next (s.fetchEntry q) := by
      change Host.Outcome.next (s.fetchNext q none) = _
      simp only [State.fetchNext, hmay, if_true, ite_self]
    obtain ⟨hwritten, hread, hbytes⟩ := SetsQueue.afterWrite hloc hset
    obtain ⟨hgal, hhost, hlines, hlight⟩ := hwritten.frame
    obtain ⟨hbase, hhostside, hregs⟩ := hwritten.base
    refine ⟨_, hrun, ?_, ?_, hread, ?_, hbytes, hgal, hhost, hlines, hlight, hbase, hhostside, hregs⟩
    · rw [hset.self]
      rfl
    · rw [hset.self]
      rfl
    · rw [hset.self]
  · have hrun : exec (.descriptorFetch q (some k)) s =
        .next (s.bar4Failed (s.qBase q + (0x1000 + 64 * ((s.queue q).fetch % s.qSize q)) + 8 * k)) := by
      change Host.Outcome.next (s.fetchNext q (some k)) = _
      simp only [State.fetchNext, hmay, hloc, if_true]
    dsimp only
    generalize s.qBase q + (0x1000 + 64 * ((s.queue q).fetch % s.qSize q)) + 8 * k = a at hrun ⊢
    obtain ⟨hstate, hqueue⟩ : s.bar4Failed a = { s with que := (s.bar4Failed a).que } ∧
        ∀ p, (s.bar4Failed a).queue p = if p < 64 ∧ s.wordHalts a p = true then { s.queue p with halt := 3 } else s.queue p :=
      s.bar4Failed_upTo a 64
    refine ⟨_, hrun, fun p hp => ?_, ?_⟩
    · rw [hqueue]
      simp only [hp, true_and]
      rfl
    · rw [hstate]
      exact ⟨⟨fun _ => rfl, fun _ => rfl, fun _ => rfl, fun _ => rfl, fun _ => rfl⟩, rfl, rfl, rfl, rfl, ⟨rfl, rfl, rfl, rfl⟩,
        ⟨rfl, rfl⟩, ⟨rfl, rfl, rfl, rfl, rfl, rfl⟩, ⟨rfl, rfl, rfl, rfl⟩, fun _ _ => ⟨rfl, rfl⟩⟩
  · have hrun : exec (.tokenCountWrite n v) s = .next ((s.setReg (A.queToken n) v).wakeEvent) :=
      congrArg Host.Outcome.next (State.onAccess_accepted _ haccepts)
    refine ⟨_, hrun, ?_, fun k => ?_, ?_⟩
    · rw [State.wakeEvent_reg, State.reg_setReg_same]
    · rw [State.tokenFail, State.tokenFail, State.b, State.b, State.wakeEvent_reg,
        State.reg_setReg_ne s v (queTokenFail_ne_queToken _ _ n.isLt)]
    · have hregs : SameRegs [A.queToken n] s (s.setReg (A.queToken n) v).wakeEvent := fun a ha => by
        rw [State.wakeEvent_reg, State.wakeEvent_sreg]
        exact ⟨State.reg_setReg_ne s v (by rintro rfl; simp at ha), rfl⟩
      rw [State.wakeEvent_power] at hregs ⊢
      exact ⟨⟨fun _ => rfl, fun _ => rfl, fun _ => rfl, fun _ => rfl, fun _ => rfl⟩, ⟨rfl, rfl, rfl, rfl, rfl, rfl⟩,
        ⟨rfl, rfl, rfl, rfl⟩, ⟨rfl, rfl⟩, ⟨rfl, rfl, rfl, rfl⟩, hregs⟩

end Sys2Proof.Machine
end

section
/-! ENABLE, CANCEL and the fall of ENABLE (03_command_lists_and_step_programs.md R54, R55, R62). -/
namespace Sys2Proof.Machine

/-! ### What a write of QUE_Q_CTRL comes to -/

section
variable {s : State} {q : Nat} {v : Word}

/-- A wake changes neither a queue nor what a queue's registers say. -/
theorem State.wakeEvent_queue (s : State) (q : Nat) : s.wakeEvent.queue q = s.queue q ∧ s.wakeEvent.qActive q = s.qActive q ∧
    s.wakeEvent.qEnabled q = s.qEnabled q := by
  rw [State.wakeEvent_power]
  exact ⟨rfl, rfl, rfl⟩

theorem State.qEnabled_of_qActive (h : s.qActive q = false) : s.qEnabled q = false := by
  simp only [State.qActive, Bool.or_eq_false_iff] at h
  exact h.1

theorem State.qActive_of_qEnabled (h : s.qEnabled q = true) : s.qActive q = true := by
  rw [State.qActive, h, Bool.true_or]

/-- A word whose bit 0 is clear gives no ENABLE to keep. -/
theorem and_one_of_bit_zero {w : Word} (h : bit w 0 = false) : w &&& 1#32 = 0#32 := by
  rw [bit_eq_getLsbD] at h
  have h' : w[0] = false := h
  apply BitVec.eq_of_getLsbD_eq
  intro i hi
  cases i with
  | zero => simp [h']
  | succ n => simp [BitVec.getLsbD_one]

/-- ENABLE rises on a queue that is not ACTIVE: the other fields are stored, then the queue is enabled. -/
theorem State.writeQCtrl_rising (hactive : s.qActive q = false) (h0 : bit v 0 = true) :
    s.writeQCtrl q v = (s.wakeEvent.setReg (A.queQCtrl q) (qCtrlStored v)).enableQueue q := by
  have hold : bit (s.reg (A.queQCtrl q)) 0 = false := State.qEnabled_of_qActive hactive
  obtain ⟨-, hwake, -⟩ := s.wakeEvent_queue q
  simp only [State.writeQCtrl, hwake, hactive, hold, h0, and_one_of_bit_zero hold, BitVec.or_zero, Bool.and_false, Bool.false_eq_true, if_false,
    Bool.not_false, Bool.and_true, if_true]

section
variable (henabled : s.qEnabled q = true) (hsame : qCtrlStored v = s.reg (A.queQCtrl q) &&& 0x01FF7FFE#32)
include henabled hsame

/-- CANCEL on an enabled queue that stays enabled. -/
theorem State.writeQCtrl_cancel (h25 : bit v 25 = true) (h0 : bit v 0 = true) : s.writeQCtrl q v = s.wakeEvent.cancelQueue q := by
  have hold : bit (s.reg (A.queQCtrl q)) 0 = true := henabled
  obtain ⟨-, hwake, -⟩ := s.wakeEvent_queue q
  simp only [State.writeQCtrl, hwake, State.qActive_of_qEnabled henabled, hold, h0, h25, hsame, Bool.and_self, Bool.not_true, Bool.and_false,
    Bool.false_and, Bool.false_eq_true, if_false, if_true]

/-- The fall of ENABLE, with CANCEL or without. -/
theorem State.writeQCtrl_falling (h0 : bit v 0 = false) :
    s.writeQCtrl q v = (if bit v 25 = true then s.wakeEvent.cancelQueue q else s.wakeEvent).disableQueue q := by
  have hold : bit (s.reg (A.queQCtrl q)) 0 = true := henabled
  obtain ⟨-, hwake, -⟩ := s.wakeEvent_queue q
  simp only [State.writeQCtrl, hwake, State.qActive_of_qEnabled henabled, hold, h0, hsame, Bool.and_true, Bool.false_and, Bool.not_false,
    Bool.false_eq_true, if_false, if_true]

end

/-! ### Withdrawal -/

theorem Withdraws.qEnabled {t : State} (h : Withdraws q s t) (hq : q < 64) : t.qEnabled q = s.qEnabled q := by
  have hreg := h.regs (A.queQCtrl q) (by unfold A.queQCtrl; omega) (by unfold A.queQCtrl; omega)
  rw [State.qEnabled, State.b, hreg]
  rfl

/-- A withdrawal on waking. -/
theorem Withdraws.afterWake {t : State} (h : Withdraws q s.wakeEvent t) : (t.queue q).started = (s.queue q).started ∧
    SameLines s t ∧ SameLight s t ∧ t.cle = s.cle ∧ t.rue = s.rue ∧ t.lnd = s.lnd := by
  obtain ⟨hcle, hrue, hlnd, hlines, hlight⟩ := h.frame
  have hstarted := h.started
  rw [(s.wakeEvent_queue q).1] at hstarted
  rw [State.wakeEvent_power] at hcle hrue hlnd hlines hlight
  exact ⟨hstarted, hlines, hlight, hcle, hrue, hlnd⟩

/-! ### ENABLE (R55) -/

/-- The state in which a queue in BAR4 is enabled with its ring cleared. -/
def State.clearedRing (s : State) (q : Nat) : State :=
  let t := ((s.setB (A.queQCtrl q) 0 true).setQueue q { s.queue q with
    fetch := 0, cqTail := 0, tail := 0, cqHead := 0, fetched := [], halt := 0, stall := false }).qWrite q 4 (leBytes 8 0)
  { t with bar4 := eraseRange t.bar4 (s.qBase q + 0x1000 + 64 * s.qSize q) (16 * s.qSize q) }

/-- ENABLE leaves where a queue's region lies and how large it is. -/
theorem State.setB_enable_region (s : State) (q : Nat) (b : Bool) : (s.setB (A.queQCtrl q) 0 b).qLoc q = s.qLoc q ∧
    (s.setB (A.queQCtrl q) 0 b).qBase q = s.qBase q ∧ (s.setB (A.queQCtrl q) 0 b).qSize q = s.qSize q := by
  refine ⟨State.f_setB_ne s _ _ _ _ _ _ (by decide) (.inr (.inr (by decide))), ?_, ?_⟩
  · have hreg (a : Nat) (ha : a ≠ A.queQCtrl q) : (s.setB (A.queQCtrl q) 0 b).reg a = s.reg a := State.reg_setB_ne s 0 b ha
    rw [State.qBase, State.qBase, State.reg64, State.reg64, hreg _ (by unfold A.queQBaseLo A.queQCtrl; omega),
      hreg _ (by unfold A.queQBaseHi A.queQCtrl; omega)]
  · rw [State.qSize, State.qSize, State.qLog2, State.qLog2, State.f_setB_ne s _ _ _ _ _ _ (by decide) (.inr (.inr (by decide)))]

theorem State.enableQueue_bar4 (hfits : s.regionFits q = true) (hmeets : s.regionMeets q = false) (hloc : s.qLoc q = 0) :
    s.enableQueue q = (s.clearedRing q).notice q := by
  obtain ⟨eloc, ebase, esize⟩ := s.setB_enable_region q true
  have hwrite (x : Queue) : OnlyQueues (s.setB (A.queQCtrl q) 0 true)
      (((s.setB (A.queQCtrl q) 0 true).setQueue q x).qWrite q 4 (leBytes 8 0)) :=
    OnlyQueues.trans (t := (s.setB (A.queQCtrl q) 0 true).setQueue q x) rfl (OnlyQueues.qWrite (s := (s.setB (A.queQCtrl q) 0 true).setQueue q x) (eloc.trans hloc) _ _)
  have hregion (x : Queue) := State.qRegs_of_onlyQueues (hwrite x) q
  simp only [State.enableQueue, hfits, hmeets, Bool.not_true, Bool.or_self, Bool.false_eq_true, if_false, (hregion _).1, (hregion _).2.1,
    (hregion _).2.2.1, eloc, ebase, esize, hloc, if_true]
  rfl

/-- A queue whose region does not fit or meets another halts (R55). -/
theorem State.enableQueue_refused (h : s.regionFits q = false ∨ s.regionMeets q = true) : s.enableQueue q = s.qHalt q 2 :=
  if_pos (by simpa using h)

/-- The queue that ENABLE sets up. -/
theorem State.clearedRing_spec (hloc : s.qLoc q = 0) : OnlyQueues (s.setB (A.queQCtrl q) 0 true) (s.clearedRing q) ∧
    (∀ p, (s.clearedRing q).queue p = if p = q then { s.queue q with
      fetch := 0, cqTail := 0, tail := 0, cqHead := 0, fetched := [], halt := 0, stall := false } else s.queue p) ∧
    ∀ b, (s.clearedRing q).bar4Byte b =
      if s.qBase q + 0x1000 + 64 * s.qSize q ≤ b ∧ b < s.qBase q + 0x1000 + 64 * s.qSize q + 16 * s.qSize q then 0
      else if s.qBase q + 4 ≤ b ∧ b < s.qBase q + 12 then 0 else s.bar4Byte b := by
  obtain ⟨eloc, ebase, -⟩ := s.setB_enable_region q true
  have hwrite (x : Queue) : ((s.setB (A.queQCtrl q) 0 true).setQueue q x).qWrite q 4 (leBytes 8 0) =
      ((s.setB (A.queQCtrl q) 0 true).setQueue q x).bar4Write (s.qBase q + 4) (leBytes 8 0) := by
    rw [State.qWrite_bar4 (s := (s.setB (A.queQCtrl q) 0 true).setQueue q x) (eloc.trans hloc)]
    exact congrArg (fun a => State.bar4Write _ (a + 4) _) ebase
  unfold State.clearedRing
  rw [hwrite]
  refine ⟨rfl, fun p => State.queue_setQueue (s.setB (A.queQCtrl q) 0 true) q p _, fun b => ?_⟩
  refine (Sparse.get_eraseRange _ _ _ _).trans (if_congr Iff.rfl rfl ?_)
  refine (Sparse.get_putList zeroByte _ _ _ _).trans ?_
  have hzero (i : Nat) (hi : i < 8) : (leBytes 8 0)[i]'(by simpa using hi) = 0 := by
    obtain rfl | rfl | rfl | rfl | rfl | rfl | rfl | rfl : i = 0 ∨ i = 1 ∨ i = 2 ∨ i = 3 ∨ i = 4 ∨ i = 5 ∨ i = 6 ∨ i = 7 := by omega
    all_goals rfl
  split
  · next h =>
    rw [leBytes_length] at h
    rw [if_pos (by omega)]
    exact hzero _ (by omega)
  · next h =>
    rw [leBytes_length] at h
    rw [if_neg (by omega)]
    rfl

/-- An examination moves neither FETCH nor the entries, and no byte. -/
theorem State.notice_bar4 (hloc : s.qLoc q = 0) : ∃ x, SetsQueue q x s (s.notice q) ∧ x.fetch = (s.queue q).fetch ∧
    x.cqTail = (s.queue q).cqTail ∧ x.fetched = (s.queue q).fetched ∧ x.started = (s.queue q).started := by
  unfold State.notice
  split
  · rw [State.examine_bar4 hloc]
    split
    · exact ⟨_, SetsQueue.setQueue s q _, rfl, rfl, rfl, rfl⟩
    · exact ⟨_, (SetsQueue.setQueue s q { s.queue q with tail := s.tailWord q, cqHead := s.headWord q }).modify
        fun x => { x with stall := State.stalled _ q }, rfl, rfl, rfl, rfl⟩
  · refine ⟨s.queue q, ⟨rfl, fun p => ?_⟩, rfl, rfl, rfl, rfl⟩
    split
    · next h => rw [h]
    · rfl

/-- ENABLE of a region in BAR4 that fits and meets no other: FETCH and CQ_TAIL at 0, nothing fetched, a cleared ring, and no other byte. -/
theorem State.enableQueue_spec (hfits : s.regionFits q = true) (hmeets : s.regionMeets q = false) (hloc : s.qLoc q = 0) :
    OnlyQueues (s.setB (A.queQCtrl q) 0 true) (s.enableQueue q) ∧ (∀ p, p ≠ q → (s.enableQueue q).queue p = s.queue p) ∧
    (((s.enableQueue q).queue q).fetch = 0 ∧ ((s.enableQueue q).queue q).cqTail = 0 ∧ ((s.enableQueue q).queue q).fetched = [] ∧
      ((s.enableQueue q).queue q).started = (s.queue q).started) ∧
    ∀ b, (s.enableQueue q).bar4Byte b =
      if s.qBase q + 0x1000 + 64 * s.qSize q ≤ b ∧ b < s.qBase q + 0x1000 + 64 * s.qSize q + 16 * s.qSize q then 0
      else if s.qBase q + 4 ≤ b ∧ b < s.qBase q + 12 then 0 else s.bar4Byte b := by
  obtain ⟨hring, hqueue, hbytes⟩ := State.clearedRing_spec hloc
  have hcleared : (s.clearedRing q).qLoc q = 0 := (State.qRegs_of_onlyQueues hring q).1.trans ((s.setB_enable_region q true).1.trans hloc)
  obtain ⟨x, hset, hfetch, htail, hfetched, hstarted⟩ := State.notice_bar4 hcleared
  rw [hqueue, if_pos rfl] at hfetch htail hfetched hstarted
  rw [State.enableQueue_bar4 hfits hmeets hloc]
  refine ⟨hring.trans hset.onlyQueues, fun p hp => ?_, ?_, fun b => ?_⟩
  · rw [hset.2, if_neg hp, hqueue, if_neg hp]
  · rw [hset.self]
    exact ⟨hfetch, htail, hfetched, hstarted⟩
  · rw [State.bar4Byte, hset.bar4]
    exact hbytes b

end

/-- The other fields of QUE_Q_CTRL are stored without ENABLE. -/
theorem bit_qCtrlStored_zero (v : Word) : bit (qCtrlStored v) 0 = false := by
  rw [qCtrlStored, bit_setFld_ne _ _ _ _ _ (by decide) (.inl (by decide)), bit_eq_getLsbD]
  simp

/-- A write that stores the fields of queue `q` on waking: what it leaves. -/
theorem State.storesQCtrl (s : State) (q : Nat) (v : Word) : let u := s.wakeEvent.setReg (A.queQCtrl q) (qCtrlStored v)
    u = { s.setReg (A.queQCtrl q) (qCtrlStored v) with power := s.wakeEvent.power } ∧ u.qBase q = s.qBase q ∧ u.qEnabled q = false := by
  have hstate : s.wakeEvent.setReg (A.queQCtrl q) (qCtrlStored v) =
      { s.setReg (A.queQCtrl q) (qCtrlStored v) with power := s.wakeEvent.power } := by
    rw [State.wakeEvent_power]
    rfl
  have hreg (a : Nat) (ha : a ≠ A.queQCtrl q) : (s.setReg (A.queQCtrl q) (qCtrlStored v)).reg a = s.reg a := State.reg_setReg_ne s _ ha
  refine ⟨hstate, ?_, ?_⟩
  · rw [hstate]
    change State.reg64 (s.setReg (A.queQCtrl q) (qCtrlStored v)) _ _ = _
    rw [State.qBase, State.reg64, State.reg64, hreg _ (by unfold A.queQBaseLo A.queQCtrl; omega),
      hreg _ (by unfold A.queQBaseHi A.queQCtrl; omega)]
  · rw [State.qEnabled, State.b, State.reg_setReg_same, bit_qCtrlStored_zero]

/-- Settles O13: ENABLE clears the ring of a region that fits and examines it; CANCEL and the fall of ENABLE withdraw what waits. -/
theorem queuesAreEnabledAndWithdrawn : Obligations.QueuesAreEnabledAndWithdrawn := by
  refine ⟨fun s s1 q v haccepts hactive h0 hs1 hfits hmeets hloc => ?_, fun s s1 q v haccepts hactive h0 hs1 hbad => ?_,
    fun s q v haccepts henabled hsame h25 h0 => ?_, fun s q v haccepts henabled hsame h0 => ?_⟩
  · obtain ⟨hu, ubase, -⟩ := s.storesQCtrl q v
    have hrun : exec (.queueEnable q v) s = .next (s.writeQCtrl q v) := congrArg Host.Outcome.next (State.onAccess_accepted _ haccepts)
    rw [State.writeQCtrl_rising hactive h0] at hrun
    generalize s.wakeEvent.setReg (A.queQCtrl q) (qCtrlStored v) = u at hu ubase hrun
    rw [← hs1] at hu
    obtain ⟨ufits, umeets, uloc, usize⟩ : u.regionFits q = true ∧ u.regionMeets q = false ∧ u.qLoc q = 0 ∧ u.qSize q = s1.qSize q := by
      rw [hu]
      exact ⟨hfits, hmeets, hloc, rfl⟩
    obtain ⟨honly, hothers, ⟨hfetch, htail, hfetched, hstarted⟩, hbytes⟩ := State.enableQueue_spec ufits umeets uloc
    rw [ubase, usize] at hbytes
    have huq (p : Nat) : u.queue p = s.queue p := by
      rw [hu, hs1]
      rfl
    have hsame : SameRegs [A.queQCtrl q] s (u.enableQueue q) := fun a ha => by
      have hne : a ≠ A.queQCtrl q := by rintro rfl; simp at ha
      refine ⟨?_, ?_⟩
      · rw [honly.reg, State.reg_setB_ne u 0 true hne, hu, hs1]
        exact State.reg_setReg_ne s _ hne
      · rw [honly, hu, hs1]
        rfl
    refine ⟨_, hrun, ?_, hfetch, htail, hfetched, hstarted.trans (by rw [huq]), fun i hi => ?_, fun i hi => ?_, fun a ha hr => ?_, ?_⟩
    · rw [State.qEnabled, State.b, honly.reg]
      exact State.b_setB_same u _ 0 true (by decide)
    · rw [hbytes, if_pos (by omega : s.qBase q + 4 ≤ s.qBase q + 4 + i ∧ s.qBase q + 4 + i < s.qBase q + 12), ite_self]
    · rw [hbytes, if_pos (by omega)]
    · rw [hbytes, if_neg (by omega), if_neg (by omega), hu, hs1]
      rfl
    · simp only [huq] at hothers
      rw [honly, hu, hs1] at hsame hothers ⊢
      exact ⟨fun _ => rfl, fun _ => rfl, hothers, ⟨rfl, rfl, rfl, rfl⟩, ⟨rfl, rfl⟩, rfl, rfl, rfl, hsame⟩
  · obtain ⟨hu, -, uoff⟩ := s.storesQCtrl q v
    have hrun : exec (.queueEnable q v) s = .next (s.writeQCtrl q v) := congrArg Host.Outcome.next (State.onAccess_accepted _ haccepts)
    rw [State.writeQCtrl_rising hactive h0] at hrun
    generalize s.wakeEvent.setReg (A.queQCtrl q) (qCtrlStored v) = u at hu hrun uoff
    rw [← hs1] at hu
    rw [State.enableQueue_refused (by rw [hu]; exact hbad)] at hrun
    refine ⟨_, hrun, uoff, by rw [State.qHalt, State.queue_setQueue, if_pos rfl], ?_⟩
    have hsame : SameRegs [A.queQCtrl q] s (u.qHalt q 2) := fun a ha => by
      have hne : a ≠ A.queQCtrl q := by rintro rfl; simp at ha
      rw [hu, hs1]
      exact ⟨State.reg_setReg_ne s _ hne, rfl⟩
    rw [hu, hs1] at hsame ⊢
    exact ⟨⟨fun _ => rfl, fun _ => rfl, fun _ => rfl, fun _ => rfl, fun _ => rfl⟩, ⟨rfl, rfl, rfl, rfl⟩, ⟨rfl, rfl⟩, rfl, rfl, rfl,
      ⟨rfl, rfl, rfl, rfl⟩, hsame⟩
  · have hrun : exec (.queueCancel q v) s = .next (s.writeQCtrl q v) := congrArg Host.Outcome.next (State.onAccess_accepted _ haccepts)
    rw [State.writeQCtrl_cancel henabled hsame h25 h0] at hrun
    have hwake : s.wakeEvent.qEnabled q = true := (s.wakeEvent_queue q).2.2.trans henabled
    have hcancel := Withdraws.cancelQueue hwake
    exact ⟨_, hrun, (hcancel.qEnabled q.isLt).trans hwake, hcancel.fetched, hcancel.stall, hcancel.afterWake⟩
  · have hrun : exec (.queueDisable q v) s = .next (s.writeQCtrl q v) := congrArg Host.Outcome.next (State.onAccess_accepted _ haccepts)
    rw [State.writeQCtrl_falling henabled hsame h0] at hrun
    have hwake : s.wakeEvent.qEnabled q = true := (s.wakeEvent_queue q).2.2.trans henabled
    have hcancel : Withdraws q s.wakeEvent ((if bit v 25 = true then s.wakeEvent.cancelQueue q else s.wakeEvent).cancelQueue q) := by
      split
      · have hfirst := Withdraws.cancelQueue hwake
        exact hfirst.trans (Withdraws.cancelQueue ((hfirst.qEnabled q.isLt).trans hwake))
      · exact Withdraws.cancelQueue hwake
    exact ⟨_, hrun, State.b_setB_same _ _ 0 false (by decide), hcancel.fetched, hcancel.stall, hcancel.afterWake⟩

end Sys2Proof.Machine
end

section
/-! A chunk of a VSTEP whose outputs go to the Gallery (03_command_lists_and_step_programs.md R73, R382; 06_gallery.md R128). -/
namespace Sys2Proof.Machine

/-- The first entry of a key, replaced by one of the same key, is the one found. -/
theorem find?_updFirst {α : Type} {p : α → Bool} {l : List α} {x y : α} (h : l.find? p = some x) (hy : p y = true) :
    (updFirst p (fun _ => y) l).find? p = some y := by
  induction l with
  | nil => cases h
  | cons z l ih =>
    by_cases hz : p z = true
    · simp [updFirst, hz, hy]
    · simp only [updFirst, hz, Bool.false_eq_true, if_false, List.find?_cons] at h ⊢
      exact ih h

/-- The VSTEP with a chunk's outputs written. -/
def Inst.appliesChunk (x : Inst) (c : Nat) (norm : Option Nat) : Inst :=
  let x := match norm with
    | some v => { x with parts := x.parts.insert c v }
    | none => x
  { x.setChunk c { x.chunk c with finished := true, held := none } with done := x.done ++ [c], applied := x.applied + 1 }

theorem Inst.appliesChunk_keeps (x : Inst) (c : Nat) (norm : Option Nat) : (x.appliesChunk c norm).q = x.q ∧
    (x.appliesChunk c norm).entry = x.entry ∧ (x.appliesChunk c norm).chunkTotal = x.chunkTotal ∧
    (x.appliesChunk c norm).done = x.done ++ [c] ∧ (x.appliesChunk c norm).applied = x.applied + 1 := by
  cases norm with
  | none => exact ⟨rfl, rfl, rfl, rfl, rfl⟩
  | some v => exact ⟨rfl, rfl, rfl, rfl, rfl⟩

/-- Bytes outside every output stay. -/
theorem State.storeOutputs_galByte_out (s : State) (o : OutSet) {a : Nat} (h : ∀ w ∈ o.writes, a < w.1 ∨ w.1 + w.2.length ≤ a) :
    (s.storeOutputs o).galByte a = s.galByte a := by
  unfold State.storeOutputs
  generalize o.writes = writes at h
  induction writes generalizing s with
  | nil => rfl
  | cons w ws ih =>
    have hwrite : (s.galStore w.1 w.2).galByte a = s.galByte a := State.galByte_galWrite_out s (h w List.mem_cons_self)
    exact (ih (s.galStore w.1 w.2) fun v hv => h v (List.mem_cons_of_mem _ hv)).trans hwrite

section
variable {s : State} {q i c : Nat} {x : Inst}

/-- The VSTEP of an entry, replaced by one of the same entry. -/
theorem State.vstep_setVstep {y : Inst} (h : s.vstep q i = some x) (hq : y.q = x.q) (he : y.entry = x.entry) :
    (s.setVstep y).vstep q i = some y := by
  have hx : x.q = q ∧ x.entry.index = i := by simpa using List.find?_some h
  obtain ⟨rfl, rfl⟩ := hx
  simp only [State.vstep, State.setVstep, hq, he]
  exact find?_updFirst h (by simp [hq, he])

/-- Without samples, a chunk whose operand and state read good releases its outputs at once. -/
theorem State.vstepChunk_releases {faults : List (Nat × Nat)} {b : State} {o : OutSet} (h : s.vstep q i = some x) (hc : c < x.chunkTotal)
    (hdone : x.isDone c = false) (hheld : (x.chunk c).held = none) (hspilled : x.spilled = false) (hruns : s.computeRuns = true)
    (hoperand : s.firstPoison (addrOffset x.desc.localAddr + c * 65536) (chunkBytes x.desc.inFmt (x.elems c)) = none)
    (hstate : s.statePoison x c = none) (hb : b = s.chunkBoundary (Desc.phaseId x.entry.desc))
    (ho : o = (b.vstepOut x c (withFaults faults (decodeElems x.wide x.desc.inFmt (x.elems c)
      (s.galRead (addrOffset x.desc.localAddr + c * 65536) (chunkBytes x.desc.inFmt (x.elems c)))).1)).1) :
    ∃ f, s.vstepChunk q i c 0 faults = (b.setVstep { x with flags := f }).releaseVstep { x with flags := f } c o := by
  have hoperand' : b.firstPoison (addrOffset x.desc.localAddr + c * 65536) (chunkBytes x.desc.inFmt (x.elems c)) = none := by
    rw [hb]
    exact hoperand
  have hstate' : b.statePoison x c = none := by
    rw [hb]
    exact hstate
  subst ho
  simp only [State.vstepChunk, h, hdone, hheld, hspilled, hruns, Nat.not_le.mpr hc, ← hb, hoperand', hstate', Option.isSome_none,
    Bool.false_eq_true, Bool.true_eq_false, false_and, or_self, if_false, Nat.lt_irrefl]
  subst hb
  exact ⟨_, rfl⟩

/-- With another chunk still to come, a chunk's outputs are written and it counts as applied. -/
theorem State.releaseVstep_continues (hmore : x.done.length + 1 < x.chunkTotal) (o : OutSet) :
    s.releaseVstep x c o = (s.storeOutputs o).setVstep (x.appliesChunk c o.norm) := by
  obtain ⟨-, -, htotal, hdone, -⟩ := x.appliesChunk_keeps c o.norm
  have hrun : s.releaseVstep x c o = (s.storeOutputs o).settleVstep (x.appliesChunk c o.norm) := by
    unfold State.releaseVstep Inst.appliesChunk
    cases o.norm <;> rfl
  rw [hrun, State.settleVstep, if_pos]
  rw [htotal, hdone, List.length_append, List.length_singleton]
  exact hmore

end

/-- Settles O36: an unsampled chunk writes its outputs to the Gallery and moves its VSTEP on; nothing else changes. -/
theorem vstepChunksWriteTheirOutputs : Obligations.VstepChunksWriteTheirOutputs := by
  intro s b q i c faults x o h hc hdone hheld hspilled hruns hmore hoperand hstate hb ho
  obtain ⟨f, hrun⟩ := State.vstepChunk_releases h hc hdone hheld hspilled hruns hoperand hstate hb ho
  rw [State.releaseVstep_continues (x := { x with flags := f }) hmore] at hrun
  obtain ⟨hq, hentry, -, hydone, happlied⟩ := ({ x with flags := f } : Inst).appliesChunk_keeps c o.norm
  generalize ({ x with flags := f } : Inst).appliesChunk c o.norm = y at hrun hq hentry hydone happlied
  have hbvstep : b.vstep q i.toNat = some x := by
    rw [hb]
    exact h
  have hset : (b.setVstep { x with flags := f }).vstep q i.toNat = some { x with flags := f } := State.vstep_setVstep hbvstep rfl rfl
  obtain ⟨m, l, hstored⟩ := (b.setVstep { x with flags := f }).storeOutputs_eq o
  have hbgal : (b.setVstep { x with flags := f }).gallery = s.gallery := by
    rw [hb]
    rfl
  have hgallery := State.storeOutputs_gallery hbgal o
  refine ⟨_, y, congrArg Host.Outcome.next hrun, ?_, hydone, happlied, fun a => ?_, fun a ha => ?_, ?_⟩
  · refine State.vstep_setVstep (x := { x with flags := f }) ?_ hq hentry
    rw [hstored]
    exact hset
  · exact congrArg (fun m => Sparse.get zeroByte m a) hgallery
  · exact (congrArg (fun m => Sparse.get zeroByte m a) hgallery).trans (s.storeOutputs_galByte_out o ha)
  · have hregs : SameRegs [A.errHealth] s (((b.setVstep { x with flags := f }).storeOutputs o).setVstep y) := fun a ha => by
      have hne : a ≠ A.errHealth := by rintro rfl; simp at ha
      rw [hstored, hb]
      exact ⟨s.chunkBoundary_reg _ hne, rfl⟩
    rw [hstored, hb] at hregs ⊢
    exact ⟨fun _ => rfl, fun _ => rfl, rfl, rfl, rfl, ⟨rfl, rfl, rfl, rfl⟩, ⟨rfl, rfl⟩, hregs⟩

end Sys2Proof.Machine
end

section
/-! The end of a COPY or FILL (03_command_lists_and_step_programs.md R74; 06_gallery.md R121, R126). -/
namespace Sys2Proof.Machine

/-! ### An entry leaves its queue -/

/-- The started entry `i` of queue `q` completes: it leaves the queue, and what it used returns. The Gallery stays where the queue's region
lies in BAR4. -/
structure Ends (q i : Nat) (s t : State) : Prop where
  state : t = { s with que := t.que, gallery := t.gallery, gal := t.gal, bar4 := t.bar4, lnd := t.lnd, power := t.power, freeCtr := t.freeCtr,
                       regs := t.regs, log := t.log, outbox := t.outbox }
  fetched : ∀ p, (t.queue p).fetched = (s.queue p).fetched
  started : ∀ p, (t.queue p).started = if p = q then (s.queue p).started.filter (fun y => y.index ≠ i) else (s.queue p).started
  gallery : q < 64 → s.qLoc q = 0 → t.gallery = s.gallery ∧ t.gal = s.gal

section
variable {q i : Nat} {s t u : State}

theorem Ends.frame (h : Ends q i s t) : t.cle = s.cle ∧ t.hostMem = s.hostMem ∧ SameLines s t ∧ SameLight s t := by
  rw [h.state]
  exact ⟨rfl, rfl, ⟨rfl, rfl, rfl, rfl⟩, rfl, rfl⟩

/-- Units return before the entry leaves. -/
theorem OnlyUnits.ends (h : OnlyUnits s t) (g : Ends q i t u) : Ends q i s u := by
  obtain ⟨hstate, hregs⟩ := h
  have hqueue (p : Nat) : t.queue p = s.queue p := by rw [hstate]; rfl
  refine ⟨?_, fun p => ?_, fun p => ?_, fun hq hloc => ?_⟩
  · rw [g.state, hstate]
  · rw [g.fetched, hqueue]
  · rw [g.started, hqueue]
  · obtain ⟨hgallery, hgal⟩ := g.gallery hq ((State.qLoc_of_regs (fun a hlo hhi => hregs a (by omega) hhi) hq).trans hloc)
    rw [hgallery, hgal, hstate]
    exact ⟨rfl, rfl⟩

theorem Ends.completeStarted (s : State) (e : QEntry) (status flags : Nat) (late : Bool) (detail : Nat) :
    Ends q e.index s (s.completeStarted q e status flags late detail) := by
  unfold State.completeStarted
  dsimp only
  split
  · next hnone =>
    refine ⟨rfl, fun _ => rfl, fun p => ?_, fun _ _ => ⟨rfl, rfl⟩⟩
    split
    · next hp =>
      rw [hp, List.filter_eq_self.mpr]
      exact fun y hy => by simpa using List.find?_eq_none.mp hnone y hy
    · rfl
  · next x _ =>
    have hrelease := OnlyUnits.phaseRelease (s.setQueue q { s.queue q with
      started := (s.queue q).started.filter (fun y => y.index ≠ e.index) }) (Desc.phaseId_lt e.desc)
    generalize (s.setQueue q { s.queue q with
      started := (s.queue q).started.filter (fun y => y.index ≠ e.index) }).phaseRelease (Desc.phaseId e.desc) = v at hrelease
    obtain ⟨hstate, hregs⟩ := hrelease
    have hqueue (p : Nat) : v.queue p = if p = q then { s.queue q with
        started := (s.queue q).started.filter (fun y => y.index ≠ e.index) } else s.queue p := by
      rw [hstate]
      exact State.queue_setQueue s q p _
    have hring := Rings.completeEntry (q := q) v x status flags late detail
    refine ⟨?_, fun p => ?_, fun p => ?_, fun hq hloc => ?_⟩
    · rw [hring.state, hstate]
      rfl
    · by_cases hp : p = q
      · subst hp
        rw [hring.fetched, hqueue, if_pos rfl]
      · rw [hring.others p hp, hqueue, if_neg hp]
    · by_cases hp : p = q
      · subst hp
        rw [hring.started, hqueue, if_pos rfl, if_pos rfl]
      · rw [hring.others p hp, hqueue, if_neg hp, if_neg hp]
    · have hv : v.qLoc q = s.qLoc q := State.qLoc_of_regs (fun a hlo hhi => hregs a (by omega) hhi) hq
      obtain ⟨hgallery, hgal⟩ := hring.gallery hq (hv.trans hloc)
      rw [hgallery, hgal, hstate]
      exact ⟨rfl, rfl⟩

/-- The transfers of a state without one. -/
def State.dropXfer (s : State) (x : Xfer) : State :=
  { s with cle := { s.cle with
      xfers := s.cle.xfers.filter (fun y => !(decide (y.q = x.q) && decide (y.entry.index = x.entry.index))) } }

theorem Ends.endXfer (s : State) (x : Xfer) (status detail : Nat) :
    Ends x.q x.entry.index (s.dropXfer x) (s.endXfer x status detail) :=
  (OnlyUnits.freeAll (s.dropXfer x) clsXfe x.bufs).ends (Ends.completeStarted _ _ _ _ _ _)

end

/-- What the end of a transfer of a queue in BAR4 leaves. -/
theorem State.endXfer_spec {s : State} {q i : Nat} {x : Xfer} (hq : q < 64) (hloc : s.qLoc q = 0) (hxq : x.q = q) (hxi : x.entry.index = i)
    (status detail : Nat) : let t := s.endXfer x status detail
    (t.gallery = s.gallery ∧ t.gal = s.gal ∧ t.hostMem = s.hostMem) ∧ (∀ y ∈ t.cle.xfers, ¬ (y.q = q ∧ y.entry.index = i)) ∧
      (∀ y ∈ (t.queue q).started, y.index ≠ i) ∧ t.cle.insts = s.cle.insts ∧ t.cle.vsteps = s.cle.vsteps ∧ SameLines s t ∧ SameLight s t := by
  subst hxq hxi
  have hends := Ends.endXfer s x status detail
  obtain ⟨hcle, hhost, hlines, hlight⟩ := hends.frame
  obtain ⟨hgallery, hgal⟩ := hends.gallery hq hloc
  refine ⟨⟨hgallery, hgal, hhost⟩, fun y hy => ?_, fun y hy => ?_, by rw [hcle]; rfl, by rw [hcle]; rfl, hlines, hlight⟩
  · rw [hcle] at hy
    exact fun h => by simpa [h] using (List.mem_filter.mp hy).2
  · rw [hends.started, if_pos rfl] at hy
    simpa using (List.mem_filter.mp hy).2

/-! ### Moved and filled bytes -/

/-- Entries of a canonical map written at moved keys over another map are read back there. -/
theorem Sparse.get_foldl_insert_moved {V : Type} [DecidableEq V] (d : Nat → V) (es : Sparse V) {lo a b : Nat}
    (h : Sparse.wfFrom d lo es = true) (ha : ∀ e ∈ es, a ≤ e.1) (m : Sparse V) (k : Nat) :
    Sparse.get d (es.foldl (fun m e => m.insert (e.1 - a + b) e.2) m) k =
      if ∃ e ∈ es, e.1 + b = k + a then Sparse.get d es (k + a - b) else Sparse.get d m k := by
  induction es generalizing m lo with
  | nil => simp
  | cons e r ih =>
    obtain ⟨j, v⟩ := e
    have hj : a ≤ j := ha (j, v) List.mem_cons_self
    simp only [Sparse.wfFrom, Bool.and_eq_true] at h
    obtain ⟨-, hr⟩ := h
    rw [List.foldl_cons, ih hr fun e he => ha e (List.mem_cons_of_mem _ he)]
    by_cases hlater : ∃ e ∈ r, e.1 + b = k + a
    · have hne : j ≠ k + a - b := by
        obtain ⟨e, he, hek⟩ := hlater
        have := (Sparse.ne_of_mem d hr he).1
        omega
      simp [hlater, Sparse.get, hne]
    · by_cases hk : j + b = k + a
      · have hkey : j = k + a - b := by omega
        have hto : k = j - a + b := by omega
        rw [if_neg hlater, if_pos ⟨(j, v), List.mem_cons_self, hk⟩, Sparse.get_insert, if_pos hto, Sparse.get, if_pos hkey]
      · have hto : k ≠ j - a + b := by omega
        rw [if_neg hlater, if_neg (by simp [hk, hlater]), Sparse.get_insert, if_neg hto]

/-- A move reads back the source where it was written; every other place reads as before. -/
theorem Sparse.get_moveSparse {x : Sparse Byte} (hx : x.wf zeroByte = true) (y : Sparse Byte) (a b n k : Nat) :
    Sparse.get zeroByte (moveSparse x y a b n) k =
      if b ≤ k ∧ k < b + n then Sparse.get zeroByte x (k - b + a) else Sparse.get zeroByte y k := by
  have hkeys : ∀ e ∈ x.filter (fun e => decide (a ≤ e.1) && decide (e.1 < a + n)), a ≤ e.1 ∧ e.1 < a + n := fun e he => by
    simpa using (List.mem_filter.mp he).2
  have hsource (j : Nat) : Sparse.get zeroByte (x.filter (fun e => decide (a ≤ e.1) && decide (e.1 < a + n))) j =
      if a ≤ j ∧ j < a + n then Sparse.get zeroByte x j else zeroByte j := by
    rw [Sparse.get_filter_key zeroByte (fun j => decide (a ≤ j) && decide (j < a + n))]
    simp only [Bool.and_eq_true, decide_eq_true_eq]
  unfold moveSparse
  rw [Sparse.get_foldl_insert_moved zeroByte _ (Sparse.wf_filter zeroByte _ hx) fun e he => (hkeys e he).1]
  split
  · next h =>
    obtain ⟨e, he, hek⟩ := h
    have hrange := hkeys e he
    rw [hsource, if_pos (by omega), if_pos (by omega)]
    congr 1
    omega
  · next h =>
    rw [Sparse.get_eraseRange]
    split
    · have hread := hsource (k - b + a)
      rw [if_pos (by omega), Sparse.get_of_not_mem zeroByte (fun e he hek => h ⟨e, he, by omega⟩)] at hread
      exact hread
    · rfl

theorem getElem?_leBytes {n i : Nat} (v : Nat) (h : i < n) : (leBytes n v)[i]? = some (BitVec.ofNat 8 (v / 256 ^ i)) := by
  induction n generalizing v i with
  | zero => omega
  | succ n ih =>
    cases i with
    | zero => simp [leBytes]
    | succ i =>
      rw [leBytes, List.getElem?_cons_succ, ih (v / 256) (by omega), Nat.div_div_eq_div_mul, ← Nat.pow_succ']

/-- A pattern repeated. -/
theorem getElem?_flatten_replicate {α : Type} (l : List α) (k j : Nat) (h : j < k * l.length) :
    (List.replicate k l).flatten[j]? = l[j % l.length]? := by
  induction k generalizing j with
  | zero => omega
  | succ k ih =>
    rw [Nat.succ_mul] at h
    rw [List.replicate_succ, List.flatten_cons, List.getElem?_append]
    split
    · next hj => rw [Nat.mod_eq_of_lt hj]
    · next hj => rw [ih _ (by omega), ← Nat.mod_eq_sub_mod (by omega)]

/-- A fill reads as the pattern, byte by byte; every other place reads as before. -/
theorem Sparse.get_fill (m : Sparse Byte) {k n pattern : Nat} (hn : n % 4 = 0) (hp : pattern < 0x100000000) (j : Nat) :
    Sparse.get zeroByte (if pattern % 0x100000000 = 0 then eraseRange m k n
      else Sparse.putList zeroByte (eraseRange m k n) k ((List.replicate (n / 4) (leBytes 4 pattern)).flatten)) j =
    if k ≤ j ∧ j < k + n then BitVec.ofNat 8 (pattern / 256 ^ ((j - k) % 4)) else Sparse.get zeroByte m j := by
  have hlength : ((List.replicate (n / 4) (leBytes 4 pattern)).flatten).length = n := by
    simp
    omega
  split
  · next hzero =>
    rw [Nat.mod_eq_of_lt hp] at hzero
    rw [Sparse.get_eraseRange, hzero, Nat.zero_div]
    rfl
  · rw [Sparse.get_putList]
    split
    · next h =>
      rw [hlength] at h
      rw [if_pos h]
      apply Option.some.inj
      rw [← List.getElem?_eq_getElem, getElem?_flatten_replicate _ _ _ (by rw [leBytes_length]; omega), leBytes_length,
        getElem?_leBytes _ (Nat.mod_lt _ (by decide))]
    · next h =>
      rw [hlength] at h
      rw [if_neg h, Sparse.get_eraseRange, if_neg h]

/-! ### The memories of a transfer -/

theorem State.setMem_eq (s : State) (addr n : Nat) (m : Sparse Byte) : ∃ g l h, s.setMem addr n m = { s with gallery := g, gal := l, hostMem := h } ∧
    l.valid = s.gal.valid ∧ (addrGallery addr = false → g = s.gallery) ∧ (addrGallery addr = true → h = s.hostMem) := by
  unfold State.setMem
  split
  · next h => exact ⟨_, _, _, rfl, rfl, fun hf => absurd (hf.symm.trans h) (by decide), fun _ => rfl⟩
  · next h => exact ⟨_, _, _, rfl, rfl, fun _ => rfl, fun ht => absurd ht h⟩

theorem State.memOf_setMem (s : State) (addr n : Nat) (m : Sparse Byte) : (s.setMem addr n m).memOf addr = m := by
  unfold State.memOf State.setMem
  split <;> rfl

/-- A memory is the Gallery or the host's. -/
theorem State.memOf_congr {s t : State} (hgallery : t.gallery = s.gallery) (hhost : t.hostMem = s.hostMem) (addr : Nat) :
    t.memOf addr = s.memOf addr := by
  unfold State.memOf
  rw [hgallery, hhost]

/-- Units marked valid one after another. -/
theorem State.setUnits_spec (us : List Nat) (s : State) :
    (∃ l, us.foldl (fun s u => s.setUnit u true) s = { s with gal := l }) ∧
      ∀ v, (v ∈ us ∨ s.unitValid v = true) → (us.foldl (fun s u => s.setUnit u true) s).unitValid v = true := by
  induction us generalizing s with
  | nil => exact ⟨⟨s.gal, rfl⟩, fun v hv => hv.resolve_left List.not_mem_nil⟩
  | cons u us ih =>
    obtain ⟨⟨l, hstate⟩, hvalid⟩ := ih (s.setUnit u true)
    have hset (v : Nat) : (s.setUnit u true).unitValid v = if v = u then true else s.unitValid v :=
      Sparse.get_put (fun _ => false) s.gal.valid u true v
    refine ⟨⟨l, hstate⟩, fun v hv => hvalid v ?_⟩
    rw [hset]
    by_cases hvu : v = u
    · exact .inr (if_pos hvu)
    · rw [if_neg hvu]
      exact hv.imp_left fun hmem => (List.mem_cons.mp hmem).resolve_left hvu

section
variable {s : State} {q i : Nat} {x : Xfer} (hx : s.cle.xfers.find? (fun x => x.q = q ∧ x.entry.index = i) = some x)
  (hmaster : s.busMaster = true) (hruns : s.computeRuns = true)
include hx hmaster hruns

/-- A COPY whose source reads good moves all its bytes. -/
theorem State.transferDone_copy (hop : Desc.opcode x.entry.desc = 0x40)
    (hsource : addrGallery (Desc.src x.entry.desc) = true → s.firstPoison (addrOffset (Desc.src x.entry.desc)) (Desc.bytes x.entry.desc) = none) :
    s.transferDone q i none = s.copyDone x := by
  simp only [State.transferDone, hx, hop, hmaster, hruns, Bool.not_true, Bool.and_false, Bool.or_self, Bool.false_eq_true, decide_true, if_false]
  split
  · next h => simp only [hsource h]
  · rfl

/-- A FILL writes its pattern. -/
theorem State.transferDone_fill (hop : Desc.opcode x.entry.desc = 0x41) (hf : Option Nat) :
    s.transferDone q i hf =
      (s.fillBytes (Desc.dst x.entry.desc) (Desc.bytes x.entry.desc) (Desc.pattern x.entry.desc)).endXfer x stOk 0 := by
  simp only [State.transferDone, hx, hop, hmaster, hruns, Bool.not_true, Bool.and_false, Bool.or_self, Bool.false_eq_true, if_false]
  rfl

end

theorem Desc.pattern_lt (d : Desc) : Desc.pattern d < 0x100000000 := by
  have h := leNat_lt (bytesAt d 48 4)
  rwa [bytesAt_length] at h

/-- The Gallery, host memory and the units of a COPY before its record is written. -/
def State.copied (s : State) (d : Desc) : State :=
  if addrGallery d.dst then
    ((s.copyBytes d.src d.dst d.bytes).unitsCovered (addrOffset d.dst) d.bytes).foldl (fun s u => s.setUnit u true) (s.copyBytes d.src d.dst d.bytes)
  else s.copyBytes d.src d.dst d.bytes

theorem State.copied_spec (s : State) (d : Desc) : (∃ g l h, s.copied d = { s with gallery := g, gal := l, hostMem := h }) ∧
    (s.copied d).memOf d.dst = moveSparse (s.memOf d.src) (s.memOf d.dst) (placeOf d.src) (placeOf d.dst) d.bytes ∧
    (addrGallery d.dst = false → (s.copied d).gallery = s.gallery) ∧
    (addrGallery d.dst = true → (s.copied d).hostMem = s.hostMem ∧
      ∀ u ∈ s.unitsCovered (addrOffset d.dst) d.bytes, (s.copied d).unitValid u = true) := by
  obtain ⟨g, l, h, hset, -, hgallery, hhost⟩ := s.setMem_eq d.dst d.bytes
    (moveSparse (s.memOf d.src) (s.memOf d.dst) (placeOf d.src) (placeOf d.dst) d.bytes)
  have hmem := s.memOf_setMem d.dst d.bytes (moveSparse (s.memOf d.src) (s.memOf d.dst) (placeOf d.src) (placeOf d.dst) d.bytes)
  unfold State.copied State.copyBytes
  by_cases hdst : addrGallery d.dst = true
  · simp only [hdst, if_true]
    have hunits : (s.setMem d.dst d.bytes (moveSparse (s.memOf d.src) (s.memOf d.dst) (placeOf d.src) (placeOf d.dst) d.bytes)).unitsCovered
        (addrOffset d.dst) d.bytes = s.unitsCovered (addrOffset d.dst) d.bytes := by
      rw [hset]
      rfl
    rw [hunits]
    obtain ⟨⟨k, hfold⟩, hvalid⟩ := State.setUnits_spec (s.unitsCovered (addrOffset d.dst) d.bytes)
      (s.setMem d.dst d.bytes (moveSparse (s.memOf d.src) (s.memOf d.dst) (placeOf d.src) (placeOf d.dst) d.bytes))
    refine ⟨⟨g, k, h, by rw [hfold, hset]⟩, ?_, fun hf => absurd hf (by decide), fun _ => ⟨?_, fun u hu => hvalid u (.inl hu)⟩⟩
    · rw [hfold]
      exact hmem
    · rw [hfold, hset]
      exact hhost hdst
  · simp only [hdst, Bool.false_eq_true, if_false]
    refine ⟨⟨g, l, h, hset⟩, hmem, fun _ => ?_, fun ht => absurd ht (by decide)⟩
    rw [hset]
    exact hgallery (by simpa using hdst)

/-- Settles O33: a COPY reads back its source at its destination, a FILL its pattern; the record then leaves every other byte. -/
theorem transfersMoveTheirBytes : Obligations.TransfersMoveTheirBytes := by
  refine ⟨fun s q i x hform hx hop hmaster hruns hloc hsource => ?_, fun s q i x hf hx hop hbytes hmaster hruns hloc => ?_⟩
  all_goals
    obtain ⟨hxq, hxi⟩ : x.q = q.val ∧ x.entry.index = i.toNat := by simpa using List.find?_some hx
  · have hrun : exec (.xfeTransferDone q i none) s = .next ((s.copied x.entry.desc).endXfer x stOk 0) :=
      congrArg Host.Outcome.next (State.transferDone_copy hx hmaster hruns hop hsource)
    obtain ⟨⟨g, l, h, hcopied⟩, hmem, hgal, hdst⟩ := s.copied_spec x.entry.desc
    obtain ⟨⟨tgallery, tgal, thost⟩, hxfers, hstarted, hinsts, hvsteps, hlines, hlight⟩ :=
      State.endXfer_spec (s := s.copied x.entry.desc) q.isLt (by rw [hcopied]; exact hloc) hxq hxi stOk 0
    have hread (k : Nat) : (((s.copied x.entry.desc).endXfer x stOk 0).memOf (Desc.dst x.entry.desc)).get zeroByte k = _ :=
      (congrArg (fun m => Sparse.get zeroByte m k) ((State.memOf_congr tgallery thost _).trans hmem)).trans
        (Sparse.get_moveSparse (State.memOf_wf _ hform) _ _ _ _ _)
    refine ⟨_, hrun, fun j hj => ?_, fun a ha => ?_, fun hhost a => ?_, fun hdstgal => ⟨fun a => ?_, fun u hu => ?_⟩, hxfers, hstarted, ?_⟩
    · rw [hread, if_pos (by omega)]
      congr 1
      omega
    · rw [hread, if_neg (by omega)]
    · exact congrArg (fun m => Sparse.get zeroByte m a) (tgallery.trans (hgal hhost))
    · exact congrArg (fun m => Sparse.get zeroByte m a) (thost.trans (hdst hdstgal).1)
    · exact (congrArg (fun l => Sparse.get (fun _ => false) (Gallery.valid l) u) tgal).trans ((hdst hdstgal).2 u hu)
    · rw [hcopied] at hinsts hvsteps hlines hlight ⊢
      exact ⟨hinsts, hvsteps, hlines, hlight⟩
  · have hrun : exec (.xfeTransferDone q i hf) s = .next ((s.fillBytes (Desc.dst x.entry.desc) (Desc.bytes x.entry.desc)
        (Desc.pattern x.entry.desc)).endXfer x stOk 0) := congrArg Host.Outcome.next (State.transferDone_fill hx hmaster hruns hop hf)
    have hfill (k : Nat) : Sparse.get zeroByte ((s.fillBytes (Desc.dst x.entry.desc) (Desc.bytes x.entry.desc)
        (Desc.pattern x.entry.desc)).memOf (Desc.dst x.entry.desc)) k = _ :=
      (congrArg (fun m => Sparse.get zeroByte m k) (s.memOf_setMem _ _ _)).trans
        (Sparse.get_fill _ hbytes (Desc.pattern_lt _) k)
    obtain ⟨g, l, h, hset, hvalid, -⟩ : ∃ g l h, s.fillBytes (Desc.dst x.entry.desc) (Desc.bytes x.entry.desc) (Desc.pattern x.entry.desc) =
      { s with gallery := g, gal := l, hostMem := h } ∧ l.valid = s.gal.valid ∧ _ := s.setMem_eq _ _ _
    obtain ⟨⟨tgallery, tgal, thost⟩, hxfers, hstarted, hinsts, hvsteps, hlines, hlight⟩ :=
      State.endXfer_spec (s := s.fillBytes (Desc.dst x.entry.desc) (Desc.bytes x.entry.desc) (Desc.pattern x.entry.desc)) q.isLt
        (by rw [hset]; exact hloc) hxq hxi stOk 0
    have hread (k : Nat) : (((s.fillBytes (Desc.dst x.entry.desc) (Desc.bytes x.entry.desc) (Desc.pattern x.entry.desc)).endXfer x stOk
        0).memOf (Desc.dst x.entry.desc)).get zeroByte k = _ :=
      (congrArg (fun m => Sparse.get zeroByte m k) (State.memOf_congr tgallery thost _)).trans (hfill k)
    refine ⟨_, hrun, fun j hj => ?_, fun a ha => ?_, hxfers, hstarted, ?_⟩
    · rw [hread, if_pos (by omega), Nat.add_sub_cancel_left]
    · rw [hread, if_neg (by omega)]
    · rw [hset] at hinsts hvsteps tgal hlines hlight ⊢
      exact ⟨hinsts, hvsteps, (congrArg Gallery.valid tgal).trans hvalid, hlines, hlight⟩

end Sys2Proof.Machine
end

section
/-! A collective from its start on: it stays open for its entry, or its entry has completed (03_command_lists_and_step_programs.md R60;
04_collectives_and_flights.md R82, R90, R99, R101, R102). -/
namespace Sys2Proof.Machine

/-! ### What a collective keeps from its start -/

/-- Queue, entry, group, slot and applied map are those of the start. -/
def Inst.SameStart (x y : Inst) : Prop :=
  y.q = x.q ∧ y.entry = x.entry ∧ y.group = x.group ∧ y.self = x.self ∧ y.mapSlot = x.mapSlot

/-- The collective that a group's entry opened is open, or the entry has left its queue's started ones. -/
def Inst.OpenOrEnded (g : Nat) (x : Inst) (t : State) : Prop :=
  (∃ y, t.inst g = some y ∧ x.SameStart y) ∨ (t.inst g = none ∧ ∀ z ∈ (t.queue x.q).started, z.index ≠ x.entry.index)

/-- The collectives of a group move on: none starts, no entry is fetched or taken, and whatever has opened stays open or ends. -/
structure MovesOn (g : Nat) (s t : State) : Prop where
  last : t.cle.last = s.cle.last
  fetched : ∀ q, (t.queue q).fetched = (s.queue q).fetched
  runs : ∀ x : Inst, x.OpenOrEnded g s → x.OpenOrEnded g t

theorem Inst.SameStart.refl (x : Inst) : x.SameStart x := ⟨rfl, rfl, rfl, rfl, rfl⟩

theorem Inst.SameStart.trans {x y z : Inst} (h : x.SameStart y) (k : y.SameStart z) : x.SameStart z := by
  obtain ⟨hq, he, hg, hs, hm⟩ := h
  obtain ⟨kq, ke, kg, ks, km⟩ := k
  exact ⟨kq.trans hq, ke.trans he, kg.trans hg, ks.trans hs, km.trans hm⟩

theorem Inst.closeChunks_sameStart (x : Inst) : x.SameStart x.closeChunks := by
  rw [x.closeChunks_keeps]
  exact ⟨rfl, rfl, rfl, rfl, rfl⟩

theorem Inst.Sent.sameStart {x y : Inst} (h : x.Sent y) : x.SameStart y := by
  rw [h]
  exact ⟨rfl, rfl, rfl, rfl, rfl⟩

/-- The sum of a NORM and what arrives for it are no part of a start. -/
theorem Inst.SameStart.norm (x : Inst) (flags : Nat) (scalars heard : Sparse Nat) :
    x.SameStart { x with flags := flags, scalars := scalars, heard := heard } := ⟨rfl, rfl, rfl, rfl, rfl⟩

theorem Inst.closeEmpty_sameStart (x : Inst) : x.SameStart x.closeEmpty := by
  unfold Inst.closeEmpty
  induction List.range x.chunkTotal using List.reverseRecOn with
  | nil => exact Inst.SameStart.refl x
  | append_singleton cs c ih =>
    rw [List.foldl_append]
    refine ih.trans ?_
    simp only [List.foldl_cons, List.foldl_nil]
    split
    · exact ⟨rfl, rfl, rfl, rfl, rfl⟩
    · exact Inst.SameStart.refl _

section
variable {g : Nat} {s t u : State} {x y : Inst}

theorem MovesOn.refl (g : Nat) (s : State) : MovesOn g s s := ⟨rfl, fun _ => rfl, fun _ h => h⟩

theorem MovesOn.trans (h : MovesOn g s t) (k : MovesOn g t u) : MovesOn g s u :=
  ⟨k.last.trans h.last, fun q => (k.fetched q).trans (h.fetched q), fun x hx => k.runs x (h.runs x hx)⟩

theorem MovesOn.foldl {α : Type} {run : State → α → State} (h : ∀ s x, MovesOn g s (run s x)) (xs : List α) (s : State) :
    MovesOn g s (xs.foldl run s) := by
  induction xs generalizing s with
  | nil => exact MovesOn.refl g s
  | cons x xs ih => exact (h s x).trans (ih _)

/-- What touches neither collectives nor queues. -/
theorem MovesOn.of_eq (hinsts : t.cle.insts = s.cle.insts) (hlast : t.cle.last = s.cle.last) (hque : t.que = s.que) : MovesOn g s t := by
  have hqueue (q : Nat) : t.queue q = s.queue q := by rw [State.queue, State.queue, hque]
  refine ⟨hlast, fun q => congrArg Queue.fetched (hqueue q), fun x hx => ?_⟩
  unfold Inst.OpenOrEnded
  rwa [State.inst_of_insts_eq hinsts, hqueue]

theorem OnlySends.movesOn (h : OnlySends s t) : MovesOn g s t := by
  obtain ⟨hstate, -⟩ := h
  refine MovesOn.of_eq ?_ ?_ ?_ <;> rw [hstate]

theorem OnlyUnits.movesOn (h : OnlyUnits s t) : MovesOn g s t := by
  obtain ⟨hstate, -⟩ := h
  refine MovesOn.of_eq ?_ ?_ ?_ <;> rw [hstate]

/-- The open collective changes, not its start. -/
theorem MovesOn.setInst (h : s.inst g = some x) (hy : x.SameStart y) : MovesOn g s (s.setInst g y) := by
  refine ⟨rfl, fun _ => rfl, fun w hw => .inl ⟨y, s.inst_setInst g y, ?_⟩⟩
  obtain ⟨z, hz, hwz⟩ | ⟨hnone, -⟩ := hw
  · obtain rfl : x = z := Option.some.inj (h.symm.trans hz)
    exact hwz.trans hy
  · rw [h] at hnone
    cases hnone

/-! ### The end of a collective (R101) -/

theorem State.endMap_keeps (s : State) (x : Inst) (ok : Bool) : (s.endMap x ok).cle = s.cle ∧ (s.endMap x ok).que = s.que := by
  unfold State.endMap
  split
  · exact ⟨rfl, rfl⟩
  · split <;> exact ⟨rfl, rfl⟩

theorem MovesOn.endInst (s : State) (g status detail : Nat) : MovesOn g s (s.endInst g status detail) := by
  cases hx : s.inst g with
  | none => rw [State.endInst, hx]; exact MovesOn.refl g s
  | some x =>
    obtain ⟨hnone, -⟩ := State.endInst_ends hx status detail
    rw [State.endInst_eq hx] at hnone ⊢
    obtain ⟨hfree, -⟩ := OnlyUnits.freeAll (s.dropInst g) clsRes x.bufs
    generalize (s.dropInst g).freeAll clsRes x.bufs = u at hfree hnone ⊢
    obtain ⟨hmapcle, hmapque⟩ := (u.unpin g x.number none).endMap_keeps x (statusOk status)
    have hends := Ends.completeStarted (q := x.q) ((u.unpin g x.number none).endMap x (statusOk status)) x.entry status x.flags x.late detail
    obtain ⟨hcle, -⟩ := hends.frame
    have hqueue (p : Nat) : ((u.unpin g x.number none).endMap x (statusOk status)).queue p = s.queue p := by
      rw [State.queue, State.queue, hmapque, hfree]
      rfl
    refine ⟨?_, fun p => (hends.fetched p).trans (congrArg Queue.fetched (hqueue p)), fun w hw => .inr ⟨hnone, ?_⟩⟩
    · rw [hcle, hmapcle, hfree]
      rfl
    · obtain ⟨z, hz, hq, he, -⟩ | ⟨hgone, -⟩ := hw
      · obtain rfl : x = z := Option.some.inj (hx.symm.trans hz)
        rw [hends.started, ← hq, if_pos rfl, ← he]
        intro v hv
        simpa using (List.mem_filter.mp hv).2
      · rw [hx] at hgone
        cases hgone

theorem MovesOn.finishInst (s : State) (g : Nat) (x : Inst) (detail : Nat) : MovesOn g s (s.finishInst g x detail) := by
  unfold State.finishInst
  split
  · exact MovesOn.endInst s g _ _
  · exact MovesOn.endInst s g _ _

/-! ### Messages and aborts (R99, R103) -/

theorem MovesOn.sendFabricMsg (s : State) (dst : Nat) (msg : List Byte) : MovesOn g s (s.sendFabricMsg dst msg) :=
  (OnlySends.sendFabricMsg s dst msg).movesOn

theorem MovesOn.queueCtrl (s : State) (p : Nat) (c : CtrlCell) : MovesOn g s (s.queueCtrl p c) := MovesOn.of_eq rfl rfl rfl

theorem MovesOn.sendMsgTo (s : State) (node : Nat) (msg : List Byte) : MovesOn g s (s.sendMsgTo node msg) := by
  unfold State.sendMsgTo State.sendMsg
  split
  · split
    · exact MovesOn.queueCtrl s _ _
    · exact MovesOn.refl g s
  · exact MovesOn.refl g s

theorem MovesOn.sendAbort (s : State) (gr : Group) (me : Nat) (msg : List Byte) : MovesOn g s (s.sendAbort gr me msg) :=
  (MovesOn.foldl (fun s _ => MovesOn.foldl (fun s _ => MovesOn.queueCtrl s _ _) _ s) _ s).trans
    (MovesOn.foldl (fun s _ => MovesOn.sendFabricMsg s _ _) _ _)

theorem MovesOn.failInst (s : State) (g reason status detail : Nat) : MovesOn g s (s.failInst g reason status detail) := by
  have hbump (a : Nat) : MovesOn g s (s.bump a) := MovesOn.of_eq rfl rfl rfl
  unfold State.failInst State.decideAbort
  split
  · exact MovesOn.refl g s
  · exact ((hbump _).trans (MovesOn.sendAbort _ _ _ _)).trans (MovesOn.endInst _ g _ _)

theorem MovesOn.abortInst (s : State) (g reason : Nat) : MovesOn g s (s.abortInst g reason) := by
  unfold State.abortInst
  split
  · exact MovesOn.refl g s
  · exact MovesOn.failInst s g _ _ _

theorem MovesOn.abortedBy (s : State) (g : Nat) (msg : List Byte) : MovesOn g s (s.abortedBy g msg) := by
  unfold State.abortedBy
  split
  · exact MovesOn.refl g s
  · exact (MovesOn.foldl (fun s _ => MovesOn.sendFabricMsg s _ _) _ s).trans (MovesOn.endInst _ g _ _)

/-! ### NORM (R76, R87) -/

theorem MovesOn.checkNorm (s : State) (g : Nat) : MovesOn g s (s.checkNorm g) := by
  unfold State.checkNorm
  split
  · exact MovesOn.refl g s
  · next x hx =>
    split
    · have hscalar (n v : Nat) : MovesOn g s (s.setScalar n v) := MovesOn.of_eq rfl rfl rfl
      exact ((hscalar _ _).trans (MovesOn.setInst (s := s.setScalar _ _) hx (Inst.SameStart.norm x _ _ _))).trans
        (MovesOn.finishInst _ g x _)
    · exact MovesOn.refl g s

theorem MovesOn.shareNorm (h : s.inst g = some x) : MovesOn g s (s.shareNorm g x) := by
  unfold State.shareNorm
  split
  · exact MovesOn.refl g s
  · exact ((MovesOn.setInst h (Inst.SameStart.norm x _ _ _)).trans (MovesOn.foldl (fun s _ => MovesOn.sendFabricMsg s _ _) _ _)).trans
      (MovesOn.checkNorm _ g)

theorem MovesOn.takeScalar (s : State) (g : Nat) (msg : List Byte) : MovesOn g s (s.takeScalar g msg) := by
  unfold State.takeScalar
  split
  · exact MovesOn.refl g s
  · next x hx =>
    dsimp only
    split
    · exact (MovesOn.setInst hx (Inst.SameStart.norm x _ _ _)).trans (MovesOn.checkNorm _ g)
    · exact MovesOn.refl g s

/-! ### A collective is moved on (R101, R251) -/

theorem MovesOn.flushPeer (g slot fuel : Nat) (s : State) : MovesOn g s (s.flushPeer g slot fuel) := by
  induction fuel generalizing s with
  | zero => exact MovesOn.refl g s
  | succ n ih =>
    unfold State.flushPeer
    split
    · exact MovesOn.refl g s
    · next x hx =>
      dsimp only
      split
      · exact MovesOn.refl g s
      · split
        · exact MovesOn.refl g s
        · split
          · exact MovesOn.refl g s
          · exact ((MovesOn.setInst hx (Inst.Sent.mk x _ _ _ _ _).sameStart).trans (OnlySends.transmit _ _ _ _ _ _ _ _).movesOn).trans (ih _)

theorem MovesOn.flushOut (s : State) (g : Nat) : MovesOn g s (s.flushOut g) := by
  unfold State.flushOut
  split
  · exact MovesOn.refl g s
  · exact MovesOn.foldl (fun s _ => MovesOn.flushPeer g _ _ s) _ s

theorem MovesOn.sendCredit (h : s.inst g = some x) (slot limit : Nat) : MovesOn g s (s.sendCredit g x slot limit) :=
  (MovesOn.setInst h (Inst.Sent.mk x _ _ _ _ _).sameStart).trans (OnlySends.sendFabric _ _ _ _ _).movesOn

theorem MovesOn.creditSource (s : State) (g slot : Nat) : MovesOn g s (s.creditSource g slot) := by
  unfold State.creditSource
  split
  · exact MovesOn.refl g s
  · next x hx =>
    dsimp only
    have hcount (z : Inst) (c : Bool) : OnlySends (s.setInst g z) ((s.setInst g z).bumpIf c (A.lndCnt 5)) :=
      OnlySends.bumpIf _ _ (by decide)
    have hnoted (z : Inst) (c : Bool) (hz : x.Sent z) : MovesOn g s ((s.setInst g z).bumpIf c (A.lndCnt 5)) :=
      (MovesOn.setInst hx hz.sameStart).trans (hcount z c).movesOn
    split
    · refine (hnoted _ _ (Inst.Sent.mk x _ _ _ _ _)).trans (MovesOn.sendCredit ?_ _ _)
      rw [(hcount _ _).inst, State.inst_setInst]
    · exact hnoted _ _ (Inst.Sent.mk x _ _ _ _ _)

theorem MovesOn.creditAll (s : State) (g : Nat) : MovesOn g s (s.creditAll g) := by
  unfold State.creditAll
  split
  · exact MovesOn.refl g s
  · exact MovesOn.foldl (fun s y => MovesOn.creditSource s g y) _ s

theorem MovesOn.settle (s : State) (g : Nat) : MovesOn g s (s.settle g) := by
  have hflush := MovesOn.flushOut s g
  unfold State.settle
  dsimp only
  split
  · exact hflush
  · next x hx =>
    have hcredit := (hflush.trans (MovesOn.setInst hx x.closeChunks_sameStart)).trans (MovesOn.creditAll _ g)
    split
    · exact hcredit
    · next y hy =>
      split
      · split
        · exact hcredit.trans (MovesOn.finishInst _ g y 0)
        · exact hcredit
      · split
        · exact hcredit
        · split
          · exact hcredit.trans (MovesOn.shareNorm hy)
          · exact hcredit.trans (MovesOn.finishInst _ g y 0)

/-! ### What an opening sends and takes (R90, R99) -/

theorem MovesOn.dropHeld (s : State) (g n : Nat) : MovesOn g s (s.dropHeld g n) := by
  have hheld (ms : List HeldMsg) : MovesOn g s { s with cle := { s.cle with heldMsgs := ms } } := MovesOn.of_eq rfl rfl rfl
  exact (hheld _).trans (OnlyUnits.freeAll _ _ _).movesOn

theorem MovesOn.openMsgs (s : State) (g : Nat) (x : Inst) : MovesOn g s (s.openMsgs g x) := by
  have hfabric (ns : List Nat) (node : Nat → Nat) (msg : List Byte) (s : State) : MovesOn g s (ns.foldl (fun s y => s.sendFabricMsg (node y) msg) s) :=
    MovesOn.foldl (fun s _ => MovesOn.sendFabricMsg s _ _) ns s
  unfold State.openMsgs
  dsimp only
  split
  · exact ((hfabric _ _ _ s).trans (hfabric _ _ _ _)).trans (MovesOn.foldl (fun s _ => MovesOn.sendMsgTo s _ _) _ _)
  · exact hfabric _ _ _ s

end

end Sys2Proof.Machine
end

section
/-! The start of CLE commands, VSTEP, COPY and FILL whose checks have passed (03_command_lists_and_step_programs.md R60, R69, R73;
05_landing.md R110). -/
namespace Sys2Proof.Machine

/-! ### The oldest entry starts (R69) -/

/-- The oldest entry of queue `q` has started: it is `e`, its units have its phase, and nothing of collectives, memories, lines or light
changes. -/
structure Begins (q : Nat) (e : QEntry) (s t : State) : Prop where
  state : t = { s with que := t.que, lnd := t.lnd, power := t.power, freeCtr := t.freeCtr, regs := t.regs, log := t.log, outbox := t.outbox }
  queue : ∀ p, t.queue p = if p = q then
    { s.queue q with fetched := (s.queue q).fetched.drop 1, started := (s.queue q).started ++ [e] } else s.queue p
  regs : ∀ a, 0xB00000 ≤ a → a < 0x1000000 → t.reg a = s.reg a

section
variable {q : Nat} {e : QEntry} {s t u : State}

theorem Begins.frame (h : Begins q e s t) : t.cle = s.cle ∧ SameBytes s t ∧ SameLines s t ∧ SameLight s t := by
  rw [h.state]
  exact ⟨rfl, ⟨fun _ => rfl, fun _ => rfl, fun _ => rfl, fun _ => rfl, fun _ => rfl⟩, ⟨rfl, rfl, rfl, rfl⟩, rfl, rfl⟩

theorem Begins.trans (h : Begins q e s t) (g : OnlyUnits t u) : Begins q e s u := by
  obtain ⟨hstate, hregs⟩ := g
  have hqueue (p : Nat) : u.queue p = t.queue p := by rw [hstate]; rfl
  exact ⟨by rw [hstate, h.state], fun p => (hqueue p).trans (h.queue p), fun a hlo hhi => (hregs a hlo hhi).trans (h.regs a hlo hhi)⟩

/-- Units taken before the entry starts. -/
theorem Begins.after (g : OnlyUnits s t) (h : Begins q e t u) : Begins q e s u := by
  obtain ⟨hstate, hregs⟩ := g
  have hqueue (p : Nat) : t.queue p = s.queue p := by rw [hstate]; rfl
  refine ⟨by rw [h.state, hstate], fun p => ?_, fun a hlo hhi => (h.regs a hlo hhi).trans (hregs a hlo hhi)⟩
  rw [h.queue, hqueue, hqueue]

theorem Begins.beginEntry (s : State) (q : Nat) (e : QEntry) : Begins q e s (s.beginEntry q e) := by
  have hpop : (s.popFetched q).queue q = { s.queue q with fetched := (s.queue q).fetched.drop 1 } :=
    (State.queue_setQueue s q q _).trans (if_pos rfl)
  refine Begins.trans (t := (s.popFetched q).setQueue q { (s.popFetched q).queue q with started := ((s.popFetched q).queue q).started ++ [e] })
    ⟨rfl, fun p => ?_, fun _ _ _ => rfl⟩ (OnlyUnits.phaseTake _ _ _)
  rw [State.queue_setQueue, hpop]
  split
  · rfl
  · next hp => exact (State.queue_setQueue s q p _).trans (if_neg hp)

end

/-! ### VSTEP (R69, R111) -/

/-- Programs, constants and scalars are registers of the CLE block. -/
theorem State.progCopy_of_regs {s t : State} (h : ∀ a, 0xB00000 ≤ a → a < 0x1000000 → t.reg a = s.reg a) (d : Desc) :
    t.progCopy d = s.progCopy d := by
  have hword (p i : Nat) (hp : p < 0x40) (hi : i < 0x80) : t.progWord p i = s.progWord p i := by
    rw [State.progWord, State.progWord, State.reg64, State.reg64, h _ (by unfold A.cleProg; omega) (by unfold A.cleProg; omega),
      h _ (by unfold A.cleProg; omega) (by unfold A.cleProg; omega)]
  have hscalar (n : Nat) (hn : n ≤ 255) : t.scalar n = s.scalar n := by
    rw [State.scalar, State.scalar, State.reg64, State.reg64, h _ (by unfold A.cleScalarLo; omega) (by unfold A.cleScalarLo; omega),
      h _ (by unfold A.cleScalarHi; omega) (by unfold A.cleScalarHi; omega)]
  unfold State.progCopy
  dsimp only
  congr 1
  · split
    · next hp => exact List.map_congr_left fun i hi => hword _ _ hp (by have := List.mem_range.mp hi; omega)
    · rfl
  · split
    · next hp => exact List.map_congr_left fun i hi => hword _ _ hp (by have := List.mem_range.mp hi; omega)
    · rfl
  · refine List.map_congr_left fun i _ => ?_
    split
    · next hn => exact hscalar _ hn
    · rfl

theorem State.openVstep_spec (s : State) (q : Nat) (e : QEntry) : ∃ u x, Begins q e s u ∧
    s.openVstep q e = { u with cle := { u.cle with vsteps := u.cle.vsteps ++ [x] } } ∧ x.q = q ∧ x.entry = e ∧ x.done = [] ∧
    x.prog = s.progCopy e.desc := by
  have hbegin := Begins.beginEntry s q e
  have hkeyed := hbegin.trans (OnlyUnits.drawKey _ e.index)
  obtain ⟨⟨bufs, spilled, hx⟩, hreserve⟩ := State.reserveFor_spec ((s.beginEntry q e).drawKey e.index).2 (c := clsVstep) 0
    { q := q, entry := e, late := s.lateStart e.desc,
      group := { partition := false, localLeaf := false, vc := 0, resendMax := 0, progressUs := 0, members := [] },
      self := 0, prog := (s.beginEntry q e).progCopy e.desc, key := ((s.beginEntry q e).drawKey e.index).1,
      startedAt := (s.beginEntry q e).mono } (by decide)
  refine ⟨_, _, hkeyed.trans hreserve, rfl, ?_, ?_, ?_, ?_⟩
  all_goals rw [hx]
  exact State.progCopy_of_regs hbegin.regs e.desc

theorem State.startVstep_opens {s : State} {q : Nat} {e : QEntry} (h2 : s.check2 e.desc = false) (h3 : s.check3 e.desc = none)
    (helements : Desc.elements e.desc ≠ 0) (hlost : s.lostChunks e.desc ((s.programOf (Desc.prog e.desc)).getD []) = none) :
    s.startVstep q e = s.openVstep q e := by
  simp only [State.startVstep, h2, h3, helements, hlost, Bool.false_eq_true, if_false]

/-! ### COPY and FILL (R74, R110) -/

theorem State.startXfe_opens {s : State} {q n : Nat} {e : QEntry} (h3 : s.check3x e.desc = none) (hbytes : Desc.bytes e.desc ≠ 0)
    (hlost : s.lostSource e.desc = none) : s.startXfe q e n = s.openXfer q e n := by
  simp only [State.startXfe, h3, hbytes, hlost, if_false]

theorem State.openXfer_taken {s : State} {q n : Nat} {e : QEntry} (h : (s.takeXfer n).2.2 = true) : ∃ u x, Begins q e s u ∧
    s.openXfer q e n = { u with cle := { u.cle with xfers := u.cle.xfers ++ [x] } } ∧ x.q = q ∧ x.entry = e ∧ x.bufs = (s.takeXfer n).1 := by
  have htake := OnlyUnits.takeXfer n s
  unfold State.openXfer
  generalize s.takeXfer n = r at h htake ⊢
  obtain ⟨bs, t, b⟩ := r
  obtain rfl : b = true := h
  exact ⟨_, _, Begins.after htake (Begins.beginEntry t q e), rfl, rfl, rfl, rfl⟩

/-- Without its buffers a transfer completes at its start point. -/
theorem State.openXfer_full {s : State} {q n : Nat} {e : QEntry} (h : (s.takeXfer n).2.2 = false) :
    ∃ u, OnlyUnits s u ∧ s.openXfer q e n = u.completeAtStart q e stLandingFull 0 := by
  have htake := OnlyUnits.takeXfer n s
  unfold State.openXfer
  generalize s.takeXfer n = r at h htake ⊢
  obtain ⟨bs, t, b⟩ := r
  obtain rfl : b = false := h
  exact ⟨_, (htake.trans (OnlyUnits.freeAll t clsXfe bs)).trans (OnlyUnits.logEvent _ _), rfl⟩

theorem OnlyUnits.frame {s t : State} (h : OnlyUnits s t) : t.que = s.que ∧ t.cle = s.cle ∧ t.gallery = s.gallery ∧ t.hostMem = s.hostMem ∧
    SameLines s t ∧ SameLight s t := by
  rw [h.1]
  exact ⟨rfl, rfl, rfl, rfl, ⟨rfl, rfl, rfl, rfl⟩, rfl, rfl⟩

/-- A completion at the start point of a queue in BAR4, after units alone have changed. -/
theorem OnlyUnits.completeAtStart {s u : State} {q : Nat} (hq : q < 64) (hloc : s.qLoc q = 0) (h : OnlyUnits s u) (e : QEntry)
    (status detail : Nat) : let t := u.completeAtStart q e status detail
    (t.queue q).fetched = (s.queue q).fetched.drop 1 ∧ (t.queue q).started = (s.queue q).started ∧ t.cle = s.cle ∧
      (∀ a, t.galByte a = s.galByte a) ∧ (∀ a, t.hostByte a = s.hostByte a) ∧ SameLines s t ∧ SameLight s t := by
  have hring := Rings.completeAtStart (q := q) u e status detail
  obtain ⟨hcle, -, -, ⟨hports, hrte, hsched, hsec⟩, hopt, hdfl⟩ := hring.frame
  obtain ⟨huque, hucle, hugallery, huhost, ⟨huports, hurte, husched, husec⟩, huopt, hudfl⟩ := h.frame
  have huloc : u.qLoc q = 0 := (State.qLoc_of_regs (fun a hlo hhi => h.2 a (by omega) hhi) hq).trans hloc
  have huq : u.queue q = s.queue q := by rw [State.queue, State.queue, huque]
  obtain ⟨hgallery, -⟩ := hring.gallery hq huloc
  have hhost : (u.completeAtStart q e status detail).hostMem = u.hostMem := by rw [hring.state]; rfl
  refine ⟨?_, ?_, hcle.trans hucle, fun a => ?_, fun a => ?_, ?_, hopt.trans huopt, hdfl.trans hudfl⟩
  · rw [State.completeAtStart_fetched, huq]
  · rw [State.completeAtStart_started, huq]
  · exact congrArg (fun m => Sparse.get zeroByte m a) (hgallery.trans hugallery)
  · exact congrArg (fun m => Sparse.get zeroByte m a) (hhost.trans huhost)
  · exact ⟨hports.trans huports, hrte.trans hurte, hsched.trans husched, hsec.trans husec⟩

/-! ### Collectives (R82, R90, R102) -/

/-- The applied maps' states are registers of the CLE block. -/
theorem State.freeMap_of_regs {s t : State} (h : ∀ a, 0xB00000 ≤ a → a < 0x1000000 → t.reg a = s.reg a) : t.freeMap = s.freeMap := by
  unfold State.freeMap
  apply List.find?_congr
  intro n hn
  have := List.mem_range.mp hn
  rw [State.f, State.f, h _ (by unfold A.cleMapCtrl; omega) (by unfold A.cleMapCtrl; omega)]

theorem State.startCle_opens {s : State} {q me : Nat} {e : QEntry} {gr : Group} (h : s.opensAs e gr me) :
    s.startCle q e = s.openInst q e gr me := by
  obtain ⟨h2, h3, hpoison, hgroup, hslot, hbad, helements, hlost⟩ := h
  have hfull : ¬ (Desc.elements e.desc = 0 ∧ Desc.opcode e.desc ≠ 0x0A) := fun ⟨hzero, hop⟩ => helements.elim (· hzero) hop
  have hstate : (if Desc.opcode e.desc = 0x06 then s.lostChunks e.desc ((s.programOf (Desc.prog e.desc)).getD []) else none) = none := by
    split
    · next hop => exact hlost hop
    · rfl
  simp only [State.startCle, h2, h3, hpoison, hgroup, hslot, hbad, hfull, hstate, Bool.false_eq_true, if_false]

/-- A collective with its reservation, before it holds an applied map (R111, R112). -/
def State.reservesInst (s : State) (q : Nat) (e : QEntry) (gr : Group) (me : Nat) : Inst × State :=
  let t := s.beginEntry q e
  let r := t.drawKey (Desc.inst e.desc)
  r.2.reserveFor clsRes (Desc.group e.desc)
    { q := q, entry := e, late := s.lateStart e.desc, group := gr, self := me,
      prog := if Desc.opcode e.desc = 0x06 then t.progCopy e.desc else {}, key := r.1, startedAt := t.mono, arrived := [me] }

/-- The state in which a collective holds its applied map, if it has one (R102). -/
def State.holdsMap (s : State) (g n : Nat) (map : Option Nat) (x : Inst) : State :=
  match map with
  | some k => s.takeMap k g n x.chunkTotal
  | none => s

/-- The state in which `n` is the last number that group `g` has started. -/
def State.startsLast (s : State) (g n : Nat) : State :=
  { s with cle := { s.cle with last := s.cle.last.insert g n, passed := s.cle.passed.filter (fun p => p.1 ≠ g ∨ p.2.1 = n) } }

/-- The messages of an opening, and what was held for it (R90, R99). -/
def State.answersHeld (s : State) (g n : Nat) (x : Inst) (held : List HeldMsg) : State :=
  let s := (s.dropHeld g n).openMsgs g x
  match held.find? (fun m => beAt m.msg 0 1 = 0x13) with
  | some m => s.abortedBy g m.msg
  | none =>
    if x.lineTargets.any (fun y => (s.peerOf (x.nodeOf y)).isNone) then s.abortInst g 2
    else (held.foldl (fun s m => s.takeScalar g m.msg) s).settle g

theorem MovesOn.answersHeld (s : State) (g n : Nat) (x : Inst) (held : List HeldMsg) : MovesOn g s (s.answersHeld g n x held) := by
  have hsent := (MovesOn.dropHeld s g n).trans (MovesOn.openMsgs _ g x)
  unfold State.answersHeld
  dsimp only
  split
  · exact hsent.trans (MovesOn.abortedBy _ g _)
  · split
    · exact hsent.trans (MovesOn.abortInst _ g 2)
    · exact (hsent.trans (MovesOn.foldl (fun s _ => MovesOn.takeScalar s g _) held _)).trans (MovesOn.settle _ g)

/-- The collective that an opening opens. -/
def State.instOf (s : State) (q : Nat) (e : QEntry) (gr : Group) (me : Nat) : Inst :=
  let r := s.reservesInst q e gr me
  ({ r.1 with mapSlot := if Desc.opcode e.desc = 0x06 then r.2.freeMap else none } : Inst).closeEmpty

theorem State.openInst_eq (s : State) (q : Nat) (e : QEntry) (gr : Group) (me : Nat) : ∃ map held, s.openInst q e gr me =
    ((((s.reservesInst q e gr me).2.holdsMap (Desc.group e.desc) (Desc.inst e.desc) map (s.instOf q e gr me)).startsLast (Desc.group e.desc)
      (Desc.inst e.desc)).setInst (Desc.group e.desc) (s.instOf q e gr me)).answersHeld (Desc.group e.desc) (Desc.inst e.desc)
      (s.instOf q e gr me) held := ⟨_, _, rfl⟩

/-- Taking an applied map changes no queue. -/
theorem State.takeMap_que (s : State) (n g inst count : Nat) : (s.takeMap n g inst count).que = s.que := by
  have hset (t : State) (a : Nat) (v : Word) (h : t.que = s.que) : (t.setReg a v).que = s.que := h
  unfold State.takeMap
  exact hset _ _ _ (hset _ _ _ (hset _ _ _ rfl))

theorem State.holdsMap_que (s : State) (g n : Nat) (map : Option Nat) (x : Inst) : (s.holdsMap g n map x).que = s.que := by
  cases map with
  | none => rfl
  | some k => exact s.takeMap_que k g n x.chunkTotal

theorem State.reservesInst_spec (s : State) (q : Nat) (e : QEntry) (gr : Group) (me : Nat) : Begins q e s (s.reservesInst q e gr me).2 ∧
    (s.reservesInst q e gr me).1.q = q ∧ (s.reservesInst q e gr me).1.entry = e ∧ (s.reservesInst q e gr me).1.group = gr ∧
    (s.reservesInst q e gr me).1.self = me := by
  obtain ⟨⟨bufs, spilled, hx⟩, hreserve⟩ := State.reserveFor_spec ((s.beginEntry q e).drawKey (Desc.inst e.desc)).2 (c := clsRes)
    (Desc.group e.desc)
    { q := q, entry := e, late := s.lateStart e.desc, group := gr, self := me,
      prog := if Desc.opcode e.desc = 0x06 then (s.beginEntry q e).progCopy e.desc else {},
      key := ((s.beginEntry q e).drawKey (Desc.inst e.desc)).1, startedAt := (s.beginEntry q e).mono, arrived := [me] } (by decide)
  refine ⟨((Begins.beginEntry s q e).trans (OnlyUnits.drawKey _ _)).trans hreserve, ?_⟩
  rw [State.reservesInst, hx]
  exact ⟨rfl, rfl, rfl, rfl⟩

theorem State.instOf_spec (s : State) (q : Nat) (e : QEntry) (gr : Group) (me : Nat) : (s.instOf q e gr me).q = q ∧
    (s.instOf q e gr me).entry = e ∧ (s.instOf q e gr me).group = gr ∧ (s.instOf q e gr me).self = me ∧
    (s.instOf q e gr me).mapSlot = if Desc.opcode e.desc = 0x06 then s.freeMap else none := by
  obtain ⟨hbegins, hq, he, hg, hs⟩ := s.reservesInst_spec q e gr me
  obtain ⟨kq, ke, kg, ks, km⟩ := Inst.closeEmpty_sameStart
    ({ (s.reservesInst q e gr me).1 with
       mapSlot := if Desc.opcode e.desc = 0x06 then (s.reservesInst q e gr me).2.freeMap else none } : Inst)
  exact ⟨kq.trans hq, ke.trans he, kg.trans hg, ks.trans hs, km.trans (by rw [State.freeMap_of_regs hbegins.regs])⟩

/-- After an opening the group's collective is the entry's, or the entry has completed. -/
theorem State.openInst_spec (s : State) (q : Nat) (e : QEntry) (gr : Group) (me : Nat) : let t := s.openInst q e gr me
    (t.queue q).fetched = (s.queue q).fetched.drop 1 ∧ t.cle.last.get (fun _ => 0) (Desc.group e.desc) = Desc.inst e.desc ∧
      (s.instOf q e gr me).OpenOrEnded (Desc.group e.desc) t := by
  obtain ⟨map, held, hopen⟩ := s.openInst_eq q e gr me
  obtain ⟨hbegins, -⟩ := s.reservesInst_spec q e gr me
  have hque := (s.reservesInst q e gr me).2.holdsMap_que (Desc.group e.desc) (Desc.inst e.desc) map (s.instOf q e gr me)
  generalize (s.reservesInst q e gr me).2.holdsMap (Desc.group e.desc) (Desc.inst e.desc) map (s.instOf q e gr me) = u at hopen hque
  have hmoves := MovesOn.answersHeld ((u.startsLast (Desc.group e.desc) (Desc.inst e.desc)).setInst (Desc.group e.desc) (s.instOf q e gr me))
    (Desc.group e.desc) (Desc.inst e.desc) (s.instOf q e gr me) held
  have hqueue : u.queue q = (s.reservesInst q e gr me).2.queue q := by rw [State.queue, State.queue, hque]
  rw [← hopen] at hmoves
  refine ⟨?_, ?_, hmoves.runs _ (.inl ⟨_, State.inst_setInst _ _ _, Inst.SameStart.refl _⟩)⟩
  · exact ((hmoves.fetched q).trans (congrArg Queue.fetched hqueue :)).trans
      (congrArg Queue.fetched ((hbegins.queue q).trans (if_pos rfl)))
  · rw [hmoves.last]
    exact (Sparse.get_insert _ _ _ _ _).trans (if_pos rfl)

/-- The start of an entry whose opcode's row runs. -/
theorem exec_startsAs {s : State} {q : Fin 64} {op : Nat} {c : Instr} {e : QEntry} (hc : (op, c) ∈ startCommands q) (h : s.startsAs q op e) :
    exec c s = .next (s.startOf q op e) := by
  obtain ⟨he, hop, hguard, hcheck⟩ := h
  rw [exec_startCommand hc, State.startRow_runs he hop hguard hcheck]

/-- What a start leaves, read off the state in which its entry has begun. -/
theorem Begins.started {q : Nat} {e : QEntry} {s u : State} (h : Begins q e s u) : (u.queue q).fetched = (s.queue q).fetched.drop 1 ∧
    (u.queue q).started = (s.queue q).started ++ [e] ∧ ∀ p, p ≠ q → u.queue p = s.queue p := by
  refine ⟨?_, ?_, fun p hp => (h.queue p).trans (if_neg hp)⟩
  · rw [h.queue, if_pos rfl]
  · rw [h.queue, if_pos rfl]

/-- COPY and FILL are start commands that take two buffers and one. -/
theorem startCommands_xfe {q : Fin 64} {op n : Nat} {c : Instr} (h : (op, n, c) ∈ [(0x40, 2, Instr.copy q), (0x41, 1, .fill q)])
    (s : State) (e : QEntry) : (op, c) ∈ startCommands q ∧ s.startOf q op e = s.startXfe q e n := by
  simp only [List.mem_cons, Prod.mk.injEq, List.not_mem_nil, or_false] at h
  obtain ⟨rfl, rfl, rfl⟩ | ⟨rfl, rfl, rfl⟩ := h
  · exact ⟨by simp [startCommands], rfl⟩
  · exact ⟨by simp [startCommands], rfl⟩

/-- Settles O16: each row takes its entry and opens what its opcode names; a collective's opening may end in the same step. -/
theorem entriesStartInTheirOwnRow : Obligations.EntriesStartInTheirOwnRow := by
  refine ⟨fun s q op c e gr me hc hstarts hopens => ?_, fun s q e hstarts h2 h3 helements hlost => ?_,
    fun s q e op n c hc hstarts h3 hbytes hlost htaken => ?_, fun s q e op n c hc hstarts h3 hbytes hlost hfull hloc => ?_⟩
  · have hcommand : (op, c) ∈ startCommands q :=
      (List.mem_append_left [(0x20, Instr.vstep q), (0x40, .copy q), (0x41, .fill q)] hc :)
    have hle : op ≤ 10 := by
      simp only [List.mem_cons, Prod.mk.injEq, List.not_mem_nil, or_false] at hc
      omega
    have hrun := exec_startsAs hcommand hstarts
    rw [s.startOf_cle q e hle, State.startCle_opens hopens] at hrun
    obtain ⟨hfetched, hlast, hends⟩ := s.openInst_spec q e gr me
    obtain ⟨hq, he, hg, hs, hmap⟩ := s.instOf_spec q e gr me
    obtain ⟨-, hop, -⟩ := hstarts
    rw [Inst.OpenOrEnded, hq, he] at hends
    refine ⟨_, hrun, hfetched, hlast, hends.imp_left ?_⟩
    rintro ⟨x, hx, xq, xe, xg, xs, xm⟩
    exact ⟨x, hx, xq.trans hq, xe.trans he, xg.trans hg, xs.trans hs, xm.trans (by rw [hmap, hop])⟩
  · have hrun := exec_startsAs (c := .vstep q) (by simp [startCommands]) hstarts
    rw [State.startOf_vstep, State.startVstep_opens h2 h3 helements hlost] at hrun
    obtain ⟨u, x, hbegins, hopen, hq, he, hdone, hprog⟩ := s.openVstep_spec q e
    obtain ⟨hfetched, hstarted, hothers⟩ := hbegins.started
    obtain ⟨hcle, hbytes, hlines, hlight⟩ := hbegins.frame
    rw [hopen, hcle] at hrun
    exact ⟨_, x, hrun, hfetched, hstarted, rfl, hq, he, hdone, hprog, rfl, rfl, hothers, hbytes, hlines, hlight⟩
  · obtain ⟨hcommand, hstart⟩ := startCommands_xfe hc s e
    have hrun := exec_startsAs hcommand hstarts
    rw [hstart, State.startXfe_opens h3 hbytes hlost] at hrun
    obtain ⟨u, x, hbegins, hopen, hq, he, hbufs⟩ := State.openXfer_taken (q := q) (e := e) htaken
    obtain ⟨hfetched, hstarted, hothers⟩ := hbegins.started
    obtain ⟨hcle, hbytes, hlines, hlight⟩ := hbegins.frame
    rw [hopen, hcle] at hrun
    exact ⟨_, x, hrun, hfetched, hstarted, rfl, hq, he, hbufs, rfl, rfl, hothers, hbytes, hlines, hlight⟩
  · obtain ⟨hcommand, hstart⟩ := startCommands_xfe hc s e
    have hrun := exec_startsAs hcommand hstarts
    rw [hstart, State.startXfe_opens h3 hbytes hlost] at hrun
    obtain ⟨u, hunits, hopen⟩ := State.openXfer_full (q := q) (e := e) hfull
    rw [hopen] at hrun
    exact ⟨_, hrun, hunits.completeAtStart q.isLt hloc e stLandingFull 0⟩

end Sys2Proof.Machine
end

section
/-! Chunks and messages as they arrive: what is taken from those that wait, and what one with a bad check leaves
(04_collectives_and_flights.md R93, R95; 15_power_and_thermal.md R288). -/
namespace Sys2Proof.Machine

/-- Only the packets that wait and the wake event change. -/
def OnlyTaken (s t : State) : Prop := t = { s with delivered := t.delivered, power := t.power }

theorem OnlyTaken.takePacket_wakeEvent (s : State) (p : Packet → Bool) : OnlyTaken s (s.takePacket p).wakeEvent := by
  unfold OnlyTaken
  rw [State.wakeEvent_power]
  rfl

/-- A bad check is counted in HDR_BAD; nothing else that the block holds or sends changes. -/
theorem OnlyTaken.bump_hdrBad {s u : State} (h : OnlyTaken s u) : let t := u.bump (A.cleCnt 5)
    t.reg (A.cleCnt 5) = BitVec.ofNat 32 (min 0xFFFFFFFF ((s.reg (A.cleCnt 5)).toNat + 1)) ∧ t.cle = s.cle ∧ t.outbox = s.outbox ∧
      SameBytes s t ∧ t.que = s.que ∧ t.rue = s.rue ∧ t.lnd = s.lnd ∧ t.gal = s.gal ∧ SameLines s t ∧ SameLight s t ∧ SameHost s t ∧
      SameRegs [A.cleCnt 5] s t := by
  have hreg (a : Nat) : u.reg a = s.reg a := by rw [h]; rfl
  have hsreg (a : Nat) : u.sreg a = s.sreg a := by rw [h]; rfl
  refine ⟨?_, ?_⟩
  · rw [State.reg_bump_same, hreg]
  · have hregs : SameRegs [A.cleCnt 5] s (u.bump (A.cleCnt 5)) := fun a ha =>
      ⟨(State.reg_bump_ne u (by simpa using ha)).trans (hreg a), hsreg a⟩
    rw [h] at hregs ⊢
    exact ⟨rfl, rfl, ⟨fun _ => rfl, fun _ => rfl, fun _ => rfl, fun _ => rfl, fun _ => rfl⟩, rfl, rfl, rfl, rfl, ⟨rfl, rfl, rfl, rfl⟩,
      ⟨rfl, rfl⟩, ⟨rfl, rfl, rfl, rfl⟩, hregs⟩

/-! ### Chunks (R93) -/

theorem State.receiveChunk_badHeader (s : State) (line : Bool) (fibre : Nat) {bytes : List Byte}
    (h : bytes.length < 32 ∨ hcrcOk (bytes.take 32) = false) : s.receiveChunk line fibre bytes = s.bump (A.cleCnt 5) := by
  simp only [State.receiveChunk, if_pos h]

/-- Settles O12: test 1 fails, so the chunk is taken and counted. -/
theorem chunksWithABadHeaderAreDiscarded : Obligations.ChunksWithABadHeaderAreDiscarded := by
  intro s line f bytes hbad
  have htaken (line : Bool) : OnlyTaken s (s.takeChunk line bytes) := OnlyTaken.takePacket_wakeEvent s _
  cases line with
  | true => exact ⟨_, congrArg Host.Outcome.next (State.receiveChunk_badHeader _ true 0 hbad), (htaken true).bump_hdrBad⟩
  | false => exact ⟨_, congrArg Host.Outcome.next (State.receiveChunk_badHeader _ false f hbad), (htaken false).bump_hdrBad⟩

/-! ### Messages of the collective engine -/

theorem State.withMsg_bad (s : State) (line : Bool) {msg : List Byte} (run : State → State) (h : msg.length ≠ 24 ∨ hcrcOk msg = false) :
    s.withMsg line msg run = (s.takeMsg line msg).wakeEvent.bump (A.cleCnt 5) := by
  have hbad : ¬ (msg.length = 24 ∧ hcrcOk msg = true) := by
    rintro ⟨hlen, hcrc⟩
    simp [hlen, hcrc] at h
  rw [State.withMsg, if_neg hbad]

theorem State.withMsg_good (s : State) (line : Bool) {msg : List Byte} (run : State → State) (hlen : msg.length = 24)
    (hcrc : hcrcOk msg = true) : s.withMsg line msg run = run (s.takeMsg line msg).wakeEvent := by
  rw [State.withMsg, if_pos ⟨hlen, hcrc⟩]

theorem OnlyTaken.takeMsg_wakeEvent (s : State) (line : Bool) (msg : List Byte) : OnlyTaken s (s.takeMsg line msg).wakeEvent :=
  OnlyTaken.takePacket_wakeEvent s _

/-- A message names an open collective by group and number. -/
theorem State.msgInst_eq_some {s : State} {msg : List Byte} {x : Inst} :
    s.msgInst msg = some x ↔ s.inst (mGroup msg) = some x ∧ x.number = mInst msg := by
  unfold State.msgInst
  split
  · next h => simp [h]
  · next y h =>
    rw [h]
    by_cases hy : y.number = mInst msg
    · simp only [hy, if_true, Option.some.injEq]
      exact ⟨fun e => ⟨e, e ▸ hy⟩, fun e => e.1⟩
    · simp only [hy, if_false, Option.some.injEq, reduceCtorEq, false_iff, not_and]
      rintro rfl
      exact hy

end Sys2Proof.Machine
end

section
/-! A collective moves on without touching the line: chunks to site peers and credit go over the fabric, and its completion writes its
queue and reports (04_collectives_and_flights.md R85, R101; 13_fabric_links_and_concourse.md R248, R251). -/
namespace Sys2Proof.Machine

/-! ### The fabric's queues -/

/-- A packet to a node changes the fabric's queues alone. -/
theorem State.sendFabric_dfl (s : State) (vc ptype dst : Nat) (body : List Byte) :
    s.sendFabric vc ptype dst body = { s with dfl := (s.sendFabric vc ptype dst body).dfl } := rfl

/-- So does a message to each of several members. -/
theorem State.foldl_sendFabricMsg (node : Nat → Nat) (msg : List Byte) (l : List Nat) (s : State) :
    ∃ f, l.foldl (fun s y => s.sendFabricMsg (node y) msg) s = { s with dfl := f } := by
  induction l generalizing s with
  | nil => exact ⟨_, rfl⟩
  | cons y l ih =>
    obtain ⟨f, hf⟩ := ih (s.sendFabricMsg (node y) msg)
    refine ⟨f, ?_⟩
    rw [List.foldl_cons, hf, State.sendFabricMsg, State.sendFabric_dfl]

/-! ### Line ports, routes, the scheduler and the cipher stay -/

theorem SameLines.refl (s : State) : SameLines s s := ⟨rfl, rfl, rfl, rfl⟩

theorem SameLines.trans {s t u : State} (h : SameLines s t) (g : SameLines t u) : SameLines s u := by
  obtain ⟨hports, hrte, hsched, hsec⟩ := h
  obtain ⟨gports, grte, gsched, gsec⟩ := g
  exact ⟨gports.trans hports, grte.trans hrte, gsched.trans hsched, gsec.trans hsec⟩

theorem SameLines.foldl {α : Type} {run : State → α → State} (h : ∀ s x, SameLines s (run s x)) (xs : List α) (s : State) :
    SameLines s (xs.foldl run s) := by
  induction xs generalizing s with
  | nil => exact SameLines.refl s
  | cons x xs ih => exact (h s x).trans (ih _)

theorem SameLines.setReg (s : State) (a : Nat) (v : Word) : SameLines s (s.setReg a v) := ⟨rfl, rfl, rfl, rfl⟩
theorem SameLines.bumpBy (s : State) (a n : Nat) : SameLines s (s.bumpBy a n) := SameLines.setReg s a _
theorem SameLines.bump (s : State) (a : Nat) : SameLines s (s.bump a) := SameLines.setReg s a _
theorem SameLines.setReg64 (s : State) (lo hi v : Nat) : SameLines s (s.setReg64 lo hi v) := ⟨rfl, rfl, rfl, rfl⟩
theorem SameLines.setInst (s : State) (g : Nat) (x : Inst) : SameLines s (s.setInst g x) := ⟨rfl, rfl, rfl, rfl⟩

theorem SameLines.bumpIf (s : State) (c : Bool) (a : Nat) : SameLines s (s.bumpIf c a) := by
  cases c with
  | false => exact SameLines.refl s
  | true => exact SameLines.bump s a

theorem SameLines.makeRoom (line : Bool) (n fuel : Nat) (s : State) : SameLines s (s.makeRoom line n fuel) := by
  have hdrop (k : List Kept) (a : Nat) : SameLines s (State.bump { s with cle := { s.cle with kept := k } } a) := ⟨rfl, rfl, rfl, rfl⟩
  induction fuel generalizing s with
  | zero => exact SameLines.refl s
  | succ k ih =>
    unfold State.makeRoom
    split
    · exact SameLines.refl s
    · split
      · exact SameLines.refl s
      · exact (hdrop _ _).trans (ih _ fun _ _ => ⟨rfl, rfl, rfl, rfl⟩)

theorem SameLines.keepCopy (s : State) (k : Kept) : SameLines s (s.keepCopy k) := by
  unfold State.keepCopy
  split
  · exact ⟨rfl, rfl, rfl, rfl⟩
  · exact SameLines.bump s _

theorem SameLines.countEncoding (s : State) (buffer : Option Bool) (n : Nat) : SameLines s (s.countEncoding buffer n) := by
  unfold State.countEncoding
  split
  · split
    · exact SameLines.bumpBy s _ _
    · exact SameLines.refl s
  · exact (SameLines.bumpBy s _ _).trans (SameLines.bumpBy _ _ _)

theorem SameLines.encodeChunk (s : State) (width : Nat) (bs : List Byte) : SameLines s (s.encodeChunk width bs).2 := by
  have hblocks (l : List (BlockMode × List Byte)) (t : State) : SameLines t (l.foldl (fun s b => match b.1 with
      | .zp => s.bump (A.cmpCnt 0)
      | .raw => s.bump (A.cmpCnt 1)
      | .zero => s.bump (A.cmpCnt 2)) t) :=
    SameLines.foldl (fun t b => by split <;> exact SameLines.bump t _) l t
  unfold State.encodeChunk
  dsimp only
  split
  · exact (SameLines.countEncoding s _ _).trans (SameLines.bump _ _)
  · exact ((((SameLines.countEncoding s _ _).trans (hblocks _ _)).trans (SameLines.bump _ _)).trans (SameLines.setReg64 _ _ _ _)).trans
      (SameLines.setReg64 _ _ _ _)

theorem SameLines.sendFabric (s : State) (vc ptype dst : Nat) (body : List Byte) : SameLines s (s.sendFabric vc ptype dst body) := by
  rw [State.sendFabric_dfl]
  exact ⟨rfl, rfl, rfl, rfl⟩

/-- A chunk to a site peer goes over the fabric. -/
theorem SameLines.transmit_fabric (s : State) (node vc : Nat) (compress pinned : Bool) (hdr data : List Byte) :
    SameLines s (s.transmit false node vc compress pinned hdr data) := by
  unfold State.transmit
  dsimp only
  refine SameLines.trans ?_ ((SameLines.keepCopy _ _).trans (SameLines.sendFabric _ _ _ _ _))
  split
  · exact (SameLines.makeRoom _ _ _ s).trans (SameLines.encodeChunk _ _ _)
  · exact SameLines.makeRoom _ _ _ s

theorem SameLines.flushPeer (g slot fuel : Nat) (s : State) : SameLines s (s.flushPeer g slot fuel) := by
  induction fuel generalizing s with
  | zero => exact SameLines.refl s
  | succ n ih =>
    unfold State.flushPeer
    split
    · exact SameLines.refl s
    · dsimp only
      split
      · exact SameLines.refl s
      · split
        · exact SameLines.refl s
        · split
          · exact SameLines.refl s
          · exact ((SameLines.setInst s _ _).trans (SameLines.transmit_fabric _ _ _ _ _ _ _)).trans (ih _)

theorem SameLines.flushOut (s : State) (g : Nat) : SameLines s (s.flushOut g) := by
  unfold State.flushOut
  split
  · exact SameLines.refl s
  · exact SameLines.foldl (fun s _ => SameLines.flushPeer g _ _ s) _ s

theorem SameLines.sendCredit (s : State) (g : Nat) (x : Inst) (slot limit : Nat) : SameLines s (s.sendCredit g x slot limit) :=
  (SameLines.setInst s _ _).trans (SameLines.sendFabric _ _ _ _ _)

theorem SameLines.creditSource (s : State) (g slot : Nat) : SameLines s (s.creditSource g slot) := by
  unfold State.creditSource
  split
  · exact SameLines.refl s
  · have hcount (y : Inst) (c : Bool) : SameLines s ((s.setInst g y).bumpIf c (A.lndCnt 5)) :=
      (SameLines.setInst s g y).trans (SameLines.bumpIf _ _ _)
    dsimp only
    split
    · exact (hcount _ _).trans (SameLines.sendCredit _ _ _ _ _)
    · exact hcount _ _

theorem SameLines.creditAll (s : State) (g : Nat) : SameLines s (s.creditAll g) := by
  unfold State.creditAll
  split
  · exact SameLines.refl s
  · exact SameLines.foldl (fun s y => SameLines.creditSource s g y) _ s

theorem SameLines.endInst (s : State) (g status detail : Nat) : SameLines s (s.endInst g status detail) := by
  cases hx : s.inst g with
  | none => rw [State.endInst, hx]; exact SameLines.refl s
  | some x =>
    obtain ⟨hfree, -⟩ := OnlyUnits.freeAll (s.dropInst g) clsRes x.bufs
    have hmap (t : State) (ok : Bool) : SameLines t (t.endMap x ok) := by
      unfold State.endMap
      split
      · exact SameLines.refl t
      · split
        · exact SameLines.setReg t _ _
        · exact SameLines.setReg t _ _
    obtain ⟨-, -, hdone, -⟩ := (Ends.completeStarted (q := x.q)
      ((((s.dropInst g).freeAll clsRes x.bufs).unpin g x.number none).endMap x (statusOk status)) x.entry status x.flags x.late detail).frame
    rw [State.endInst_eq hx]
    refine SameLines.trans ?_ ((hmap _ _).trans hdone)
    rw [hfree]
    exact ⟨rfl, rfl, rfl, rfl⟩

theorem SameLines.finishInst (s : State) (g : Nat) (x : Inst) (detail : Nat) : SameLines s (s.finishInst g x detail) := by
  unfold State.finishInst
  split
  · exact SameLines.endInst s _ _ _
  · exact SameLines.endInst s _ _ _

theorem SameLines.checkNorm (s : State) (g : Nat) : SameLines s (s.checkNorm g) := by
  unfold State.checkNorm
  split
  · exact SameLines.refl s
  · split
    · exact ((SameLines.setReg64 s _ _ _).trans (SameLines.setInst _ _ _)).trans (SameLines.finishInst _ _ _ _)
    · exact SameLines.refl s

theorem SameLines.shareNorm (s : State) (g : Nat) (x : Inst) : SameLines s (s.shareNorm g x) := by
  unfold State.shareNorm
  split
  · exact SameLines.refl s
  · exact ((SameLines.setInst s _ _).trans (SameLines.foldl (fun s _ => SameLines.sendFabric s _ _ _ _) _ _)).trans
      (SameLines.checkNorm _ _)

theorem SameLines.endIfDone (s : State) (g : Nat) (x : Inst) : SameLines s (s.endIfDone g x) := by
  unfold State.endIfDone
  split
  · split
    · exact SameLines.finishInst s _ _ _
    · exact SameLines.refl s
  · split
    · exact SameLines.refl s
    · split
      · exact SameLines.shareNorm s _ _
      · exact SameLines.finishInst s _ _ _

/-- Moving a collective on leaves the line as it was. -/
theorem SameLines.settle (s : State) (g : Nat) : SameLines s (s.settle g) := by
  have hflush := SameLines.flushOut s g
  unfold State.settle
  dsimp only
  split
  · exact hflush
  · have hcredit (x : Inst) := (hflush.trans (SameLines.setInst _ g x)).trans (SameLines.creditAll _ g)
    split
    · exact hcredit _
    · exact (hcredit _).trans (SameLines.endIfDone _ _ _)

end Sys2Proof.Machine
end

section
/-! OPEN, ARRIVE, NORM_SUM and CREDIT reach the open collective that they name (04_collectives_and_flights.md R85, R87, R90;
13_fabric_links_and_concourse.md R251). -/
namespace Sys2Proof.Machine

/-- Memories, queues, Landing, optics and the line stay. -/
def KeepsAround (s t : State) : Prop := SameBytes s t ∧ t.que = s.que ∧ t.lnd = s.lnd ∧ t.opt = s.opt ∧ SameLines s t

theorem OnlyStreams.keepsAround {s t : State} (h : OnlyStreams s t) (hlines : SameLines s t) : KeepsAround s t := by
  obtain ⟨hbytes, hque, hlnd, hopt, -⟩ := h.frame
  exact ⟨hbytes, hque, hlnd, hopt, hlines⟩

theorem KeepsAround.trans {s t u : State} (h : KeepsAround s t) (k : KeepsAround t u) : KeepsAround s u := by
  obtain ⟨⟨hgal, hbar4, hhost, hshadow, hpoison⟩, hque, hlnd, hopt, hlines⟩ := h
  obtain ⟨⟨kgal, kbar4, khost, kshadow, kpoison⟩, kque, klnd, kopt, klines⟩ := k
  exact ⟨⟨fun a => (kgal a).trans (hgal a), fun a => (kbar4 a).trans (hbar4 a), fun a => (khost a).trans (hhost a),
    fun a => (kshadow a).trans (hshadow a), fun a => (kpoison a).trans (hpoison a)⟩, kque.trans hque, klnd.trans hlnd, kopt.trans hopt,
    hlines.trans klines⟩

theorem KeepsAround.setInst (s : State) (g : Nat) (x : Inst) : KeepsAround s (s.setInst g x) :=
  (OnlyStreams.setInst s g x).keepsAround (SameLines.setInst s g x)

/-! ### What taking a packet leaves -/

section
variable {s u : State} (h : OnlyTaken s u)
include h

theorem OnlyTaken.inst (g : Nat) : u.inst g = s.inst g := State.inst_of_insts_eq (by rw [h]) g

theorem OnlyTaken.msgInst (msg : List Byte) : u.msgInst msg = s.msgInst msg := by
  rw [State.msgInst, State.msgInst, h.inst]

theorem OnlyTaken.mono : u.mono = s.mono := by
  rw [h]
  rfl

theorem OnlyTaken.keepsAround {t : State} (hkeeps : KeepsAround u t) : KeepsAround s t := by
  rw [h] at hkeeps
  exact hkeeps

end

/-! ### A collective whose bookkeeping has changed moves on -/

/-- A collective with chunks still to come stays open; its chunks and what it has noted stay. -/
theorem State.settle_setInst_open (s : State) (g : Nat) {x : Inst} (hop : x.op ≠ 0x0A) (hopen : x.staysOpen) :
    KeepsAround s ((s.setInst g x).settle g) ∧ ∃ y, ((s.setInst g x).settle g).inst g = some y ∧ x.Sent y := by
  obtain ⟨honly, hsent⟩ := State.settle_open (s.inst_setInst g x) hop hopen
  exact ⟨((OnlyStreams.setInst s g x).trans honly).keepsAround ((SameLines.setInst s g x).trans (SameLines.settle _ g)), hsent⟩

/-- A barrier that lacks an ARRIVE stays open; one that lacks none ends. -/
theorem State.settle_barrier {s : State} {g : Nat} {x : Inst} (h : s.inst g = some x) (hop : x.op = 0x0A) :
    (x.allArrived = false → KeepsAround s (s.settle g) ∧ ∃ y, (s.settle g).inst g = some y ∧ y.arrived = x.arrived) ∧
      (x.allArrived = true → (s.settle g).inst g = none) := by
  obtain ⟨u, y, z, hu, hz, hxy, hyz, hsettle⟩ := State.settle_cases h
  have hlines := SameLines.settle s g
  have hsame : z.op = x.op ∧ z.arrived = x.arrived ∧ z.allArrived = x.allArrived := by
    rw [hyz, y.closeChunks_keeps, hxy]
    exact ⟨rfl, rfl, rfl⟩
  obtain ⟨hopz, harrived, hall⟩ := hsame
  rw [hsettle] at hlines ⊢
  rw [State.endIfDone, if_pos (hopz.trans hop), hall] at hlines ⊢
  refine ⟨fun hlacks => ?_, fun harrives => ?_⟩
  · rw [if_neg (by rw [hlacks]; decide)] at hlines ⊢
    exact ⟨hu.keepsAround hlines, z, hz, harrived⟩
  · rw [if_pos harrives]
    exact (State.finishInst_ends hz 0).1

/-- A collective that moves on to its end has left its queue's started entries. -/
theorem State.settle_closes {s : State} {g : Nat} {x : Inst} (h : s.inst g = some x) (hnone : (s.settle g).inst g = none) :
    ∀ z ∈ ((s.settle g).queue x.q).started, z.index ≠ x.entry.index := by
  obtain ⟨y, hy, -⟩ | ⟨-, hgone⟩ := (MovesOn.settle s g).runs x (.inl ⟨x, h, Inst.SameStart.refl x⟩)
  · rw [hnone] at hy
    cases hy
  · exact hgone

/-! ### OPEN and CREDIT (R90, R251) -/

/-- The collective with a member known to be open. -/
def Inst.opens (x : Inst) (slot : Nat) : Inst := { x with opened := if x.opened.contains slot then x.opened else x.opened ++ [slot] }

theorem Inst.mem_opens (x : Inst) (slot : Nat) : slot ∈ (x.opens slot).opened := by
  unfold Inst.opens
  dsimp only
  split
  · next h => simpa using h
  · exact List.mem_append_right _ (List.mem_singleton_self slot)

/-- The collective with a LIMIT granted to this gateway. -/
def Inst.raisesLimit (x : Inst) (slot limit : Nat) : Inst :=
  { x with limits := x.limits.insert slot (max (x.limits.get (fun _ => 0) slot) limit) }

theorem State.takeOpen_eq {s : State} {msg : List Byte} {x : Inst} (h : s.msgInst msg = some x) : s.takeOpen msg =
    (s.setInst (mGroup msg) ((x.opens (mOrigin msg)).hears (mOrigin msg) s.mono)).settle (mGroup msg) := by
  simp only [State.takeOpen, h]
  rfl

theorem State.takeCredit_eq {s : State} {node slot : Nat} {body : List Byte} {x : Inst} (h : s.inst (nfld (beAt body 0 2) 0 12) = some x)
    (hnum : x.number = beAt body 4 4) (hself : nfld (beAt body 2 2) 0 10 = x.self)
    (hpeer : (x.group.peers x.self).find? (fun y => x.nodeOf y = node) = some slot) : s.takeCredit node body =
      (s.setInst (nfld (beAt body 0 2) 0 12) (((x.raisesLimit slot (beAt body 8 4)).opens slot).hears slot s.mono)).settle
        (nfld (beAt body 0 2) 0 12) := by
  simp only [State.takeCredit, h, hnum, hself, hpeer, and_self, if_true]
  rfl

/-! ### ARRIVE (R85) -/

/-- The barrier with the ARRIVE of a member. -/
def Inst.arrives (x : Inst) (slot : Nat) : Inst := { x with arrived := x.arrived ++ [slot] }

theorem Inst.allArrived_arrives (x : Inst) (slot : Nat) :
    (x.arrives slot).allArrived = true ↔ ∀ y ∈ x.group.gateways, y = slot ∨ y ∈ x.arrived := by
  simp only [Inst.allArrived, Inst.arrives, List.all_eq_true, List.contains_eq_mem, decide_eq_true_eq, List.mem_append, List.mem_singleton,
    or_comm]

/-- The first ARRIVE of a member is noted, handed on when it came over the line, and the barrier moves on. -/
theorem State.takeArrive_eq {s : State} {line : Bool} {msg : List Byte} {x : Inst} (h : s.msgInst msg = some x) (hop : x.op = 0x0A)
    (hnew : mOrigin msg ∉ x.arrived) : ∃ v, s.takeArrive line msg = v.settle (mGroup msg) ∧
      v.inst (mGroup msg) = some ((x.arrives (mOrigin msg)).hears (mOrigin msg) s.mono) ∧ KeepsAround s v := by
  have hcontains : x.arrived.contains (mOrigin msg) = false := by simpa using hnew
  have hnoted := KeepsAround.setInst s (mGroup msg) ((x.arrives (mOrigin msg)).hears (mOrigin msg) s.mono)
  obtain ⟨f, hf⟩ := State.foldl_sendFabricMsg x.nodeOf msg (x.group.peers x.self)
    (s.setInst (mGroup msg) ((x.arrives (mOrigin msg)).hears (mOrigin msg) s.mono))
  simp only [State.takeArrive, h, hop, hcontains, and_self, if_true]
  cases line with
  | true => exact ⟨_, congrArg (State.settle · (mGroup msg)) hf, State.inst_setInst _ _ _, hnoted⟩
  | false => exact ⟨_, rfl, State.inst_setInst _ _ _, hnoted⟩

/-! ### NORM_SUM (R87) -/

/-- The NORM with the scalar of a site peer. -/
def Inst.takesScalar (x : Inst) (slot v : Nat) : Inst := { x with scalars := x.scalars.insert slot v }

/-- A NORM that still lacks the scalar of another gateway of its site holds the one that has come. -/
theorem State.takeScalar_waits {s : State} {g : Nat} {msg : List Byte} {x : Inst} (h : s.inst g = some x) (hop : x.op = 0x07)
    (hpeer : mOrigin msg ∈ x.group.peers x.self) (hnew : ∀ e ∈ x.scalars, e.1 ≠ mOrigin msg)
    (hlacks : ∃ y ∈ x.group.atSite x.mySite, y ≠ mOrigin msg ∧ ∀ e ∈ x.scalars, e.1 ≠ y) : s.takeScalar g msg =
      s.setInst g ((x.takesScalar (mOrigin msg) (mChunk msg * 0x100000000 + mValue msg)).hears (mOrigin msg) s.mono) := by
  obtain ⟨y, hy, hne, hnone⟩ := hlacks
  have hfirst : x.scalars.any (fun e => e.1 = mOrigin msg) = false := by simpa using hnew
  have hwaits (v : Nat) : (x.group.atSite x.mySite).all (fun y => (x.scalars.insert (mOrigin msg) v).any (fun e => e.1 = y)) = false := by
    refine List.all_eq_false.mpr ⟨y, hy, ?_⟩
    simp only [List.any_eq_true, decide_eq_true_eq, not_exists, not_and]
    intro e he
    obtain hold | rfl := Sparse.mem_insert he
    · exact hnone e hold
    · exact hne.symm
  have hcheck (t : State) (v : Nat) : let y := (x.takesScalar (mOrigin msg) v).hears (mOrigin msg) s.mono
      (t.setInst g y).checkNorm g = t.setInst g y := by
    intro y
    have hy : (y.group.atSite y.mySite).all (fun z => y.scalars.any (fun e => e.1 = z)) = false := hwaits v
    simp only [State.checkNorm, State.inst_setInst, hy, Bool.false_eq_true, if_false]
  simp only [State.takeScalar, h, hop, hpeer, hfirst, and_self, if_true]
  exact hcheck s _

/-! ### The messages' commands -/

/-- The messages of the collective engine, as they arrive. -/
def cleMessages (line : Bool) (msg : List Byte) : List Instr :=
  [.openReceive line msg, .resendReceive line msg, .notRetainedReceive line msg, .abortReceive line msg, .arriveReceive line msg,
    .normSumReceive line msg]

theorem exec_cleMessage {line : Bool} {msg : List Byte} {c : Instr} (h : c ∈ cleMessages line msg) (s : State) :
    ∃ run, exec c s = .next (s.withMsg line msg run) := by
  simp only [cleMessages, List.mem_cons, List.not_mem_nil, or_false] at h
  obtain rfl | rfl | rfl | rfl | rfl | rfl := h <;> exact ⟨_, rfl⟩

section
variable {s : State} {line : Bool} {msg : List Byte} (hlen : msg.length = 24) (hcrc : hcrcOk msg = true)
include hlen hcrc

/-- A good message is taken, and then acts. -/
theorem exec_openReceive : exec (.openReceive line msg) s = .next ((s.takeMsg line msg).wakeEvent.takeOpen msg) :=
  congrArg Host.Outcome.next (State.withMsg_good s line _ hlen hcrc)

theorem exec_arriveReceive : exec (.arriveReceive line msg) s = .next ((s.takeMsg line msg).wakeEvent.takeArrive line msg) :=
  congrArg Host.Outcome.next (State.withMsg_good s line _ hlen hcrc)

theorem exec_normSumReceive {x : Inst} (hx : s.msgInst msg = some x) :
    exec (.normSumReceive line msg) s = .next ((s.takeMsg line msg).wakeEvent.takeScalar (mGroup msg) msg) := by
  have htaken := (OnlyTaken.takeMsg_wakeEvent s line msg).msgInst msg
  refine congrArg Host.Outcome.next ((State.withMsg_good s line _ hlen hcrc).trans ?_)
  simp only [State.takeNormSum, htaken, hx]

end

/-- The state in which a CREDIT packet has been taken. -/
def State.takeCreditPacket (s : State) (node : Nat) (body : List Byte) : State :=
  (s.takePacket (fun p => !p.line && decide (p.ptype = 5) && decide (p.node = node) && decide (p.bytes = body))).wakeEvent

theorem exec_creditReceive (s : State) (node : Nat) (body : List Byte) :
    exec (.creditReceive node body) s = .next ((s.takeCreditPacket node body).takeCredit node body) := rfl

/-- Settles O38: each message changes its collective's notes, and `settle` moves the collective on. -/
theorem messagesMoveInstances : Obligations.MessagesMoveInstances := by
  refine ⟨?_, ?_, ?_, ?_, ?_, ?_⟩
  · intro s line msg x hlen hcrc hx hop hopen
    have htaken := OnlyTaken.takeMsg_wakeEvent s line msg
    obtain ⟨hkeeps, y, hy, hsent⟩ := State.settle_setInst_open (s.takeMsg line msg).wakeEvent (mGroup msg)
      (x := (x.opens (mOrigin msg)).hears (mOrigin msg) s.mono) hop hopen
    refine ⟨_, y, (exec_openReceive hlen hcrc).trans (congrArg Host.Outcome.next ?_), hy, ?_, ?_, hsent.chunk, htaken.keepsAround hkeeps⟩
    · rw [State.takeOpen_eq ((htaken.msgInst msg).trans hx), htaken.mono]
    · rw [hsent]
      exact x.mem_opens (mOrigin msg)
    · rw [hsent]
      exact Sparse.insert_self_mem _ _ _
  · intro s line msg x hlen hcrc hx hop hnew hlacks
    have htaken := OnlyTaken.takeMsg_wakeEvent s line msg
    obtain ⟨v, hrun, hinst, hkeeps⟩ := State.takeArrive_eq (line := line) ((htaken.msgInst msg).trans hx) hop hnew
    have hnotAll : (x.arrives (mOrigin msg)).allArrived = false := by
      obtain ⟨y, hy, hne, hnot⟩ := hlacks
      refine Bool.eq_false_iff.mpr fun hall => ?_
      exact ((x.allArrived_arrives _).mp hall y hy).elim hne hnot
    obtain ⟨hsettled, y, hy, harrived⟩ := (State.settle_barrier hinst hop).1 hnotAll
    exact ⟨_, y, (exec_arriveReceive hlen hcrc).trans (congrArg Host.Outcome.next hrun), hy, harrived,
      htaken.keepsAround (hkeeps.trans hsettled)⟩
  · intro s line msg x hlen hcrc hx hop hnew hall
    have htaken := OnlyTaken.takeMsg_wakeEvent s line msg
    obtain ⟨v, hrun, hinst, hkeeps⟩ := State.takeArrive_eq (line := line) ((htaken.msgInst msg).trans hx) hop hnew
    obtain ⟨-, -, -, hopt, hlines⟩ := htaken.keepsAround hkeeps
    have hnone := (State.settle_barrier hinst hop).2 ((x.allArrived_arrives _).mpr hall)
    have hgone := State.settle_closes hinst hnone
    obtain ⟨-, hspares, -⟩ := State.settle_keeps hinst
    exact ⟨_, (exec_arriveReceive hlen hcrc).trans (congrArg Host.Outcome.next hrun), hnone, hgone,
      hlines.trans (SameLines.settle v _), hspares.trans hopt⟩
  · intro s line msg x hlen hcrc hx hop hpeer hnew hlacks
    have htaken := OnlyTaken.takeMsg_wakeEvent s line msg
    obtain ⟨hinst, -⟩ := State.msgInst_eq_some.mp hx
    refine ⟨_, _, (exec_normSumReceive hlen hcrc hx).trans (congrArg Host.Outcome.next
      (State.takeScalar_waits ((htaken.inst _).trans hinst) hop hpeer hnew hlacks)), State.inst_setInst _ _ _, Sparse.insert_self_mem _ _ _, ?_⟩
    rw [htaken]
    exact ⟨⟨fun _ => rfl, fun _ => rfl, fun _ => rfl, fun _ => rfl, fun _ => rfl⟩, rfl, rfl, ⟨rfl, rfl, rfl, rfl⟩, ⟨rfl, rfl⟩,
      fun _ _ => ⟨rfl, rfl⟩⟩
  · intro s node slot body x hx hnum hself hpeer hop hopen
    have htaken : OnlyTaken s (s.takeCreditPacket node body) := OnlyTaken.takePacket_wakeEvent s _
    obtain ⟨hkeeps, y, hy, hsent⟩ := State.settle_setInst_open (s.takeCreditPacket node body) (nfld (beAt body 0 2) 0 12)
      (x := ((x.raisesLimit slot (beAt body 8 4)).opens slot).hears slot (s.takeCreditPacket node body).mono) hop hopen
    refine ⟨_, y, (exec_creditReceive s node body).trans (congrArg Host.Outcome.next
      (State.takeCredit_eq ((htaken.inst _).trans hx) hnum hself hpeer)), hy, ?_, ?_, hsent.chunk, htaken.keepsAround hkeeps⟩
    · rw [hsent]
      exact Sparse.insert_self_mem _ _ _
    · rw [hsent]
      exact (x.raisesLimit slot _).mem_opens slot
  · intro s line msg c hc hbad
    obtain ⟨run, hrun⟩ := exec_cleMessage hc s
    obtain ⟨hreg, hcle, -, hbytes, hque, -, hlnd, -, hlines, hlight, hhost, hregs⟩ := (OnlyTaken.takeMsg_wakeEvent s line msg).bump_hdrBad
    exact ⟨_, hrun.trans (congrArg Host.Outcome.next (State.withMsg_bad s line run hbad)), hreg, hbytes, hque, hcle, hlnd, hlines, hlight,
      hhost, hregs⟩

end Sys2Proof.Machine
end

section
/-! What ends an open collective: an ABORT of another gateway or a decision of this one (04_collectives_and_flights.md R98, R99, R101). -/
namespace Sys2Proof.Machine

/-! ### Messages on their way -/

/-- Only the control queues of the line and the fabric's queues change. -/
def OnlyQueued (s t : State) : Prop := t = { s with sched := t.sched, dfl := t.dfl }

section
variable {s t u : State}

theorem OnlyQueued.refl (s : State) : OnlyQueued s s := rfl

theorem OnlyQueued.trans (h : OnlyQueued s t) (g : OnlyQueued t u) : OnlyQueued s u := by
  unfold OnlyQueued at *
  rw [g, h]

theorem OnlyQueued.foldl {α : Type} {run : State → α → State} (h : ∀ s x, OnlyQueued s (run s x)) (xs : List α) (s : State) :
    OnlyQueued s (xs.foldl run s) := by
  induction xs generalizing s with
  | nil => exact OnlyQueued.refl s
  | cons x xs ih => exact (h s x).trans (ih _)

theorem OnlyQueued.queueCtrl (s : State) (p : Nat) (c : CtrlCell) : OnlyQueued s (s.queueCtrl p c) := rfl

theorem OnlyQueued.sendFabricMsg (s : State) (node : Nat) (msg : List Byte) : OnlyQueued s (s.sendFabricMsg node msg) := by
  rw [State.sendFabricMsg, State.sendFabric_dfl]
  rfl

theorem OnlyQueued.sendMsgTo (s : State) (node : Nat) (msg : List Byte) : OnlyQueued s (s.sendMsgTo node msg) := by
  unfold State.sendMsgTo State.sendMsg
  split
  · split
    · exact OnlyQueued.queueCtrl s _ _
    · exact OnlyQueued.refl s
  · exact OnlyQueued.refl s

theorem OnlyQueued.sendAbort (s : State) (gr : Group) (me : Nat) (msg : List Byte) : OnlyQueued s (s.sendAbort gr me msg) :=
  (OnlyQueued.foldl (fun s _ => OnlyQueued.foldl (fun s _ => OnlyQueued.queueCtrl s _ _) _ s) _ s).trans
    (OnlyQueued.foldl (fun s _ => OnlyQueued.sendFabricMsg s _ _) _ _)

section
variable (h : OnlyQueued s t)
include h

theorem OnlyQueued.inst (g : Nat) : t.inst g = s.inst g := State.inst_of_insts_eq (by rw [h]) g

theorem OnlyQueued.frame : (∀ a, t.reg a = s.reg a) ∧ t.cle = s.cle ∧ t.ports = s.ports ∧ t.sec = s.sec ∧ t.opt = s.opt := by
  rw [h]
  exact ⟨fun _ => rfl, rfl, rfl, rfl, rfl⟩

end

end

/-! ### The counts of the collective engine stay while a collective ends -/

section
variable {a : Nat}

theorem State.qWrite_reg (s : State) (q off : Nat) (bs : List Byte) : (s.qWrite q off bs).reg a = s.reg a := by
  unfold State.qWrite
  dsimp only
  split <;> rfl

theorem State.signalToken_reg (s : State) (n : Nat) (ok : Bool) (ha : a < 0xF00000) : (s.signalToken n ok).reg a = s.reg a := by
  have hcount := s.reg_setReg_ne (a := A.queToken n) (b := a) (BitVec.ofNat 32 (s.tokenCount n + 1)) (by unfold A.queToken; omega)
  unfold State.signalToken
  dsimp only
  split
  · exact hcount
  · exact (State.reg_setB_ne _ _ _ (by unfold A.queTokenFail; omega)).trans hcount

theorem State.completeEntry_reg (s : State) (q : Nat) (e : QEntry) (status flags : Nat) (late : Bool) (detail : Nat) (hlo : 0xA040 ≤ a)
    (hhi : a < 0xF00000) : (s.completeEntry q e status flags late detail).reg a = s.reg a := by
  cases hmute : e.mute with
  | true => rw [State.completeEntry, if_pos hmute]
  | false =>
    have htoken (t : State) (d : Desc) (ok : Bool) : (if d.signalEn then t.signalToken d.signalToken ok else t).reg a = t.reg a := by
      split
      · exact State.signalToken_reg t _ _ hhi
      · rfl
    have hrecord (bs : List Byte) : (s.postsRecord q bs).reg a = s.reg a := by
      rw [State.postsRecord, State.qWrite_reg]
      exact State.qWrite_reg s q _ _
    have hirq (t : State) (d : Desc) : (if d.irq then t.raiseVector (t.qVector q) else t).reg a = t.reg a := by
      split
      · exact State.raiseVector_reg_above t (fld_lt _ 16 9) hlo
      · rfl
    rw [State.completeEntry_eq status flags late detail hmute, State.signals, hirq, htoken, hrecord]

theorem State.completeStarted_reg (s : State) (q : Nat) (e : QEntry) (status flags : Nat) (late : Bool) (detail : Nat)
    (hlo : 0xB00000 ≤ a) (hhi : a < 0xF00000) : (s.completeStarted q e status flags late detail).reg a = s.reg a := by
  unfold State.completeStarted
  dsimp only
  split
  · rfl
  · rw [State.completeEntry_reg _ _ _ _ _ _ _ (by omega) hhi]
    obtain ⟨-, hphase⟩ := OnlyUnits.phaseRelease (s.setQueue q { s.queue q with
      started := (s.queue q).started.filter (fun y => y.index ≠ e.index) }) (Desc.phaseId_lt e.desc)
    exact hphase a hlo (by omega)

theorem State.endMap_reg (s : State) (x : Inst) (ok : Bool) (ha : a < 0xB00200) : (s.endMap x ok).reg a = s.reg a := by
  unfold State.endMap
  split
  · rfl
  · next n _ =>
    have hne : a ≠ A.cleMapCtrl n := by unfold A.cleMapCtrl; omega
    split
    · exact State.reg_setReg_ne s _ hne
    · exact State.reg_setF_ne s _ _ _ hne

/-- The registers of the collective engine below its map slots stay; so do the aborts that have been seen. -/
theorem State.endInst_counts (s : State) (g status detail : Nat) (hlo : 0xB00000 ≤ a) (hhi : a < 0xB00200) :
    (s.endInst g status detail).reg a = s.reg a ∧ (s.endInst g status detail).cle.passed = s.cle.passed := by
  cases hx : s.inst g with
  | none => rw [State.endInst, hx]; exact ⟨rfl, rfl⟩
  | some x =>
    obtain ⟨hfree, hregs⟩ := OnlyUnits.freeAll (s.dropInst g) clsRes x.bufs
    obtain ⟨hmap, -⟩ := (((s.dropInst g).freeAll clsRes x.bufs).unpin g x.number none).endMap_keeps x (statusOk status)
    obtain ⟨hcle, -⟩ := (Ends.completeStarted (q := x.q)
      ((((s.dropInst g).freeAll clsRes x.bufs).unpin g x.number none).endMap x (statusOk status)) x.entry status x.flags x.late detail).frame
    rw [State.endInst_eq hx]
    constructor
    · rw [State.completeStarted_reg _ _ _ _ _ _ _ hlo (by omega), State.endMap_reg _ _ _ hhi]
      exact hregs a hlo (by omega)
    · rw [hcle, hmap, hfree]
      rfl

end

/-! ### A collective that ends -/

/-- The collective that group `g` had open is gone, its entry has left its queue, and line ports, associations and optics stay. -/
def Inst.Closed (x : Inst) (g : Nat) (s t : State) : Prop :=
  t.inst g = none ∧ (∀ y ∈ (t.queue x.q).started, y.index ≠ x.entry.index) ∧ t.ports = s.ports ∧ t.sec = s.sec ∧ t.opt = s.opt

theorem State.endInst_closes {s : State} {g : Nat} {x : Inst} (h : s.inst g = some x) (status detail : Nat) :
    x.Closed g s (s.endInst g status detail) := by
  obtain ⟨hnone, hopt, hsec, -⟩ := State.endInst_ends h status detail
  obtain ⟨hports, -⟩ := SameLines.endInst s g status detail
  obtain ⟨y, hy, -⟩ | ⟨-, hgone⟩ := (MovesOn.endInst s g status detail).runs x (.inl ⟨x, h, Inst.SameStart.refl x⟩)
  · rw [hnone] at hy
    cases hy
  · exact ⟨hnone, hgone, hports, hsec, hopt⟩

/-- The collective of `s` is open, whatever it has noted since; line ports, associations, optics and decisions are those of `s`. -/
def Inst.StillOpen (x : Inst) (g : Nat) (s u : State) : Prop :=
  (∃ y, u.inst g = some y ∧ y.q = x.q ∧ y.entry = x.entry) ∧ u.reg (A.cleCnt 12) = s.reg (A.cleCnt 12) ∧
    u.ports = s.ports ∧ u.sec = s.sec ∧ u.opt = s.opt

theorem Inst.StillOpen.refl {x : Inst} {g : Nat} {s : State} (h : s.inst g = some x) : x.StillOpen g s s :=
  ⟨⟨x, h, rfl, rfl⟩, rfl, rfl, rfl, rfl⟩

/-- A decision of this gateway ends the collective and is counted once. -/
theorem Inst.StillOpen.failInst {x : Inst} {g : Nat} {s u : State} (h : x.StillOpen g s u) {reason : Nat} (hreason : reason ≠ 7)
    (status detail : Nat) : let t := u.failInst g reason status detail
    x.Closed g s t ∧ t.reg (A.cleCnt 12) = BitVec.ofNat 32 (min 0xFFFFFFFF ((s.reg (A.cleCnt 12)).toNat + 1)) := by
  obtain ⟨⟨y, hy, hq, he⟩, hreg, hports, hsec, hopt⟩ := h
  have hqueued : OnlyQueued (u.bump (A.cleCnt 12)) (u.decideAbort g y.group y.self y.number reason) := by
    rw [State.decideAbort, if_neg hreason]
    exact OnlyQueued.sendAbort _ _ _ _
  obtain ⟨dreg, -, dports, dsec, dopt⟩ := hqueued.frame
  simp only [State.failInst, hy]
  obtain ⟨hnone, hgone, tports, tsec, topt⟩ := State.endInst_closes ((hqueued.inst g).trans hy) status detail
  obtain ⟨tcount, -⟩ := (u.decideAbort g y.group y.self y.number reason).endInst_counts g status detail (a := A.cleCnt 12) (by decide)
    (by decide)
  rw [hq, he] at hgone
  exact ⟨⟨hnone, hgone, (tports.trans dports).trans hports, (tsec.trans dsec).trans hsec, (topt.trans dopt).trans hopt⟩,
    by rw [tcount, dreg, State.reg_bump_same, hreg]⟩

/-! ### An ABORT (R99) -/

/-- The state in which an ABORT not yet seen has been noted and counted. -/
def State.passesAbort (s : State) (msg : List Byte) : State :=
  State.bump { s with cle := { s.cle with passed := s.cle.passed ++ [(mGroup msg, mInst msg, mReason msg, mOrigin msg)] } } (A.cleCnt 13)

theorem State.takeAbort_eq {s : State} {msg : List Byte} {x : Inst} (h : s.msgInst msg = some x)
    (hnew : s.cle.passed.contains (mGroup msg, mInst msg, mReason msg, mOrigin msg) = false) :
    s.takeAbort msg = (s.passesAbort msg).abortedBy (mGroup msg) msg := by
  have hx : (s.passesAbort msg).msgInst msg = some x := h
  simp only [State.passesAbort] at hx ⊢
  simp only [State.takeAbort, hnew, Bool.false_eq_true, if_false, hx]

theorem State.abortedBy_closes {s : State} {g : Nat} {x : Inst} (h : s.inst g = some x) (msg : List Byte) :
    x.Closed g s (s.abortedBy g msg) ∧ (s.abortedBy g msg).cle.passed = s.cle.passed := by
  obtain ⟨f, hf⟩ := State.foldl_sendFabricMsg x.nodeOf msg (x.group.contributors x.self) s
  simp only [State.abortedBy, h]
  rw [hf]
  exact ⟨State.endInst_closes (s := { s with dfl := f }) h _ _, (State.endInst_counts _ g _ _ (a := 0xB00000) (by decide) (by decide)).2⟩

/-! ### Decisions of this gateway (R98, R99) -/

theorem State.abortInst_eq {s : State} {g : Nat} {x : Inst} (h : s.inst g = some x) (reason : Nat) :
    s.abortInst g reason = s.failInst g reason stAborted x.doneCount := by
  simp only [State.abortInst, h]

/-- A command decides that the collective of a group ends, for a reason of this gateway. -/
def Inst.EndedBy (x : Inst) (g : Nat) (c : Instr) (s : State) : Prop :=
  ∃ u reason status detail, exec c s = .next (u.failInst g reason status detail) ∧ reason ≠ 7 ∧ x.StillOpen g s u

section
variable {s : State} {g : Fin 4096} {x : Inst} (h : s.inst g = some x)
include h

/-- NOT_RETAINED for an awaited chunk. -/
theorem Inst.EndedBy.notRetained {line : Bool} {msg : List Byte} {r : Resend} (hlen : msg.length = 24) (hcrc : hcrcOk msg = true)
    (hgroup : mGroup msg = g.val) (hinst : mInst msg = x.number) (hr : r ∈ x.resends) (hchunk : r.chunk = mChunk msg)
    (hslot : r.slot = mSlot msg) : x.EndedBy g (.notRetainedReceive line msg) s := by
  have htaken := OnlyTaken.takeMsg_wakeEvent s line msg
  have hrun : exec (.notRetainedReceive line msg) s = .next ((s.takeMsg line msg).wakeEvent.takeNotRetained msg) :=
    congrArg Host.Outcome.next (State.withMsg_good s line _ hlen hcrc)
  generalize (s.takeMsg line msg).wakeEvent = u at htaken hrun
  have hx : u.msgInst msg = some x := (htaken.msgInst msg).trans (State.msgInst_eq_some.mpr ⟨by rw [hgroup, h], hinst.symm⟩)
  obtain ⟨r', hr'⟩ : ∃ r', x.resends.find? (fun r => r.chunk = mChunk msg ∧ r.slot = mSlot msg) = some r' :=
    Option.isSome_iff_exists.mp (List.find?_isSome.mpr ⟨r, hr, by simp [hchunk, hslot]⟩)
  rw [State.takeNotRetained, hx] at hrun
  simp only [hr', hgroup, State.checkFailed] at hrun
  refine ⟨_, 4, _, _, hrun, by decide, ⟨_, State.inst_setInst u g _, rfl, rfl⟩, ?_⟩
  rw [htaken]
  exact ⟨rfl, rfl, rfl, rfl⟩

/-- The host. -/
theorem Inst.EndedBy.host {v : Word} (haccepts : s.accepts A.cleAbortCtrl = true) (hgo : bit v 31 = true) (hgroup : fld v 0 12 = g.val)
    (hnumber : x.number = (s.reg A.cleAbortInst).toNat) : x.EndedBy g (.cleAbortGo v) s := by
  have hrun : exec (.cleAbortGo v) s = .next (s.writeAbortCtrl v) := congrArg Host.Outcome.next (State.onAccess_accepted _ haccepts)
  have hwake := State.wakeEvent_power (s.setReg A.cleAbortCtrl (BitVec.ofNat 32 g))
  have hreg {a : Nat} (ha : a ≠ A.cleAbortCtrl) : (s.setReg A.cleAbortCtrl (BitVec.ofNat 32 g)).wakeEvent.reg a = s.reg a :=
    (State.wakeEvent_reg _ a).trans (State.reg_setReg_ne s _ ha)
  have hinst : (s.setReg A.cleAbortCtrl (BitVec.ofNat 32 g)).wakeEvent.inst g = some x := (State.inst_of_insts_eq (by rw [hwake]; rfl) g).trans h
  rw [State.writeAbortCtrl, hgroup] at hrun
  simp only [hinst, hgo, hreg (a := A.cleAbortInst) (by decide), ← hnumber, decide_true, Bool.and_self, if_true,
    State.abortInst_eq hinst] at hrun
  refine ⟨_, 1, _, _, hrun, by decide, ⟨x, hinst, rfl, rfl⟩, hreg (by decide), ?_⟩
  rw [hwake]
  exact ⟨rfl, rfl, rfl⟩

/-- A member silent for PROGRESS_US. -/
theorem Inst.EndedBy.progress (hsilent : s.noProgress x = true) : x.EndedBy g (.progressTimeout g) s := by
  refine ⟨s, 3, stAborted, x.doneCount, ?_, by decide, Inst.StillOpen.refl h⟩
  have hrun : exec (.progressTimeout g) s = execProgressTimeout g s := rfl
  rw [hrun, execProgressTimeout, h]
  simp only [hsilent, if_true, State.abortInst_eq h]

/-- Every route to a site lost. -/
theorem Inst.EndedBy.routeLoss (hlost : x.farSites.any (s.siteLost x) = true) : x.EndedBy g (.routeLossHoldExpire g) s := by
  refine ⟨s, 2, stAborted, x.doneCount, ?_, by decide, Inst.StillOpen.refl h⟩
  have hrun : exec (.routeLossHoldExpire g) s = execRouteLossHoldExpire g s := rfl
  rw [hrun, execRouteLossHoldExpire, h]
  simp only [hlost, if_true, State.abortInst_eq h]

/-- No key to a counterpart's site. -/
theorem Inst.EndedBy.keyLoss (hlost : ((x.group.counterparts x.self).map x.group.site).any (s.siteUnkeyed x) = true) :
    x.EndedBy g (.keyLossHoldExpire g) s := by
  refine ⟨s, 6, stKeyAbsent, g, ?_, by decide, Inst.StillOpen.refl h⟩
  have hrun : exec (.keyLossHoldExpire g) s = execKeyLossHoldExpire g s := rfl
  rw [hrun, execKeyLossHoldExpire, h]
  simp only [hlost, if_true]

/-- A re-send that has run out of requests. -/
theorem Inst.EndedBy.lastResend {ch slot : Nat} {r : Resend}
    (hdue : x.resends.find? (fun r => decide (r.chunk = ch) && decide (r.slot = slot) && decide (r.due ≤ s.mono)) = some r)
    (honly : ∀ r' ∈ x.resends, r'.chunk = ch → r'.slot = slot → r' = r) (hmax : x.group.resendMax ≤ r.count) :
    x.EndedBy g (.resendTimeout g ch slot) s := by
  have hr : x.resends.find? (fun r => r.chunk = ch ∧ r.slot = slot) = some r := by
    obtain ⟨hchunk, hslot⟩ : r.chunk = ch ∧ r.slot = slot := by
      have hfound := List.find?_some hdue
      simp only [Bool.and_eq_true, decide_eq_true_eq] at hfound
      exact hfound.1
    obtain ⟨r', hr'⟩ : ∃ r', x.resends.find? (fun r => r.chunk = ch ∧ r.slot = slot) = some r' :=
      Option.isSome_iff_exists.mp (List.find?_isSome.mpr ⟨r, List.mem_of_find?_eq_some hdue, by simp [hchunk, hslot]⟩)
    have hnamed := List.find?_some hr'
    simp only [decide_eq_true_eq] at hnamed
    rw [hr', honly r' (List.mem_of_find?_eq_some hr') hnamed.1 hnamed.2]
  refine ⟨s, 4, if r.decomp then stDecompLen else stCheckFail, ch, ?_, by decide, Inst.StillOpen.refl h⟩
  have hrun : exec (.resendTimeout g ch slot) s = .next (s.resendTimeout g ch slot) := rfl
  rw [hrun, State.resendTimeout, h]
  simp only [hdue, State.askResend, h, hr, Option.map_some, Option.getD_some, Bool.not_false, Bool.true_and, hmax, decide_true, if_true,
    State.checkFailed]

end

/-- Settles O39: an ABORT ends the collective as `abortedBy` does, and each of the other six is a decision of this gateway. -/
theorem abortsEndTheInstance : Obligations.AbortsEndTheInstance := by
  refine ⟨fun s line msg x hlen hcrc hx hnew => ?_, fun s c g x hx hends => ?_⟩
  · have htaken := OnlyTaken.takeMsg_wakeEvent s line msg
    have hrun : exec (.abortReceive line msg) s = .next ((s.takeMsg line msg).wakeEvent.takeAbort msg) :=
      congrArg Host.Outcome.next (State.withMsg_good s line _ hlen hcrc)
    have hmsg := (htaken.msgInst msg).trans hx
    obtain ⟨hinst, -⟩ := State.msgInst_eq_some.mp hmsg
    rw [State.takeAbort_eq hmsg (by rw [htaken]; exact hnew)] at hrun
    obtain ⟨⟨hnone, hgone, hports, hsec, hopt⟩, hpassed⟩ :=
      State.abortedBy_closes (s := State.passesAbort (s.takeMsg line msg).wakeEvent msg) hinst msg
    refine ⟨_, hrun, hnone, hgone, ?_, hports.trans (by rw [htaken]; rfl), hsec.trans (by rw [htaken]; rfl), hopt.trans (by rw [htaken]; rfl)⟩
    rw [hpassed]
    exact List.mem_append_right _ (List.mem_singleton_self _)
  · have hended : x.EndedBy g c s := by
      obtain ⟨line, msg, r, hr, rfl, hlen, hcrc, hgroup, hinst, hchunk, hslot⟩ | ⟨v, rfl, haccepts, hgo, hgroup, hnumber⟩ |
        ⟨rfl, hsilent⟩ | ⟨rfl, hlost⟩ | ⟨rfl, hlost⟩ | ⟨ch, slot, r, rfl, hdue, honly, hmax⟩ := hends
      · exact Inst.EndedBy.notRetained hx hlen hcrc hgroup hinst hr hchunk hslot
      · exact Inst.EndedBy.host hx haccepts hgo hgroup hnumber
      · exact Inst.EndedBy.progress hx hsilent
      · exact Inst.EndedBy.routeLoss hx hlost
      · exact Inst.EndedBy.keyLoss hx hlost
      · exact Inst.EndedBy.lastResend hx hdue honly hmax
    obtain ⟨u, reason, status, detail, hrun, hreason, hopen⟩ := hended
    obtain ⟨⟨hnone, hgone, hports, hsec, hopt⟩, hcount⟩ := hopen.failInst hreason status detail
    exact ⟨_, hrun, hnone, hgone, hcount, hports, hsec, hopt⟩

end Sys2Proof.Machine
end

section
/-! Kept copies are sent again, what has not come is asked for again, and credit is granted again (04_collectives_and_flights.md R96-R98;
13_fabric_links_and_concourse.md R251). -/
namespace Sys2Proof.Machine

/-! ### What is put out -/

/-- Only routes, the scheduler, the fabric's queues and the counters of cells change. -/
def OnlyPosted (s t : State) : Prop :=
  t = { s with rte := t.rte, sched := t.sched, dfl := t.dfl, regs := t.regs } ∧ ∀ a, isCellCount a = false → t.reg a = s.reg a

theorem OnlyCells.posted {s t : State} (h : OnlyCells s t) : OnlyPosted s t := by
  obtain ⟨hstate, -, hregs⟩ := h
  exact ⟨by rw [hstate], hregs⟩

theorem OnlyQueued.posted {s t : State} (h : OnlyQueued s t) : OnlyPosted s t := by
  obtain ⟨hregs, -⟩ := h.frame
  exact ⟨by rw [h], fun a _ => hregs a⟩

/-- A request or an answer to a node goes over the line or the fabric. -/
theorem OnlyPosted.sendMsgOr (s : State) (line : Bool) (node : Nat) (msg : List Byte) :
    OnlyPosted s (if line then s.sendMsgTo node msg else s.sendFabricMsg node msg) := by
  cases line with
  | true => exact (OnlyQueued.sendMsgTo s node msg).posted
  | false => exact (OnlyQueued.sendFabricMsg s node msg).posted

/-- So does a copy. -/
theorem OnlyPosted.sendCopy (s : State) (line : Bool) (node vc : Nat) (wire : List Byte) :
    OnlyPosted s (if line then s.sendLine node vc 1 wire else s.sendFabric 1 1 node wire) := by
  cases line with
  | true =>
    have hcells : OnlyCells s (s.sendLine node vc 1 wire) := by
      unfold State.sendLine
      split
      · exact OnlyCells.refl s
      · exact (OnlyCells.setTx s _ _).trans (OnlyCells.feed _ _ _ _ _)
    exact hcells.posted
  | false =>
    have hqueued : OnlyQueued s (s.sendFabric 1 1 node wire) := by
      rw [State.sendFabric_dfl]
      rfl
    exact hqueued.posted

section
variable {s t : State} (h : OnlyPosted s t)
include h

theorem OnlyPosted.cle : t.cle = s.cle := by rw [h.1]

theorem OnlyPosted.frame : SameBytes s t ∧ t.que = s.que ∧ t.lnd = s.lnd ∧ t.opt = s.opt ∧ t.sec = s.sec := by
  rw [h.1]
  exact ⟨⟨fun _ => rfl, fun _ => rfl, fun _ => rfl, fun _ => rfl, fun _ => rfl⟩, rfl, rfl, rfl, rfl⟩

end

/-! ### A sign of a member is noted -/

theorem Sparse.find?_insert_ne {V : Type} (m : Sparse V) {j k : Nat} (v : V) (h : j ≠ k) :
    (Sparse.insert m k v).find? (fun e => e.1 = j) = m.find? (fun e => e.1 = j) := by
  induction m with
  | nil => simp only [Sparse.insert, List.find?_cons, decide_eq_false h.symm, List.find?_nil]
  | cons e r ih =>
    obtain ⟨i, w⟩ := e
    unfold Sparse.insert
    split
    · simp only [List.find?_cons, ih]
    · split
      · next hi =>
        subst hi
        simp only [List.find?_cons, decide_eq_false h.symm]
      · simp only [List.find?_cons, decide_eq_false h.symm]

theorem State.inst_setInst_ne (s : State) {j g : Nat} (x : Inst) (h : j ≠ g) : (s.setInst g x).inst j = s.inst j := by
  rw [State.inst, State.inst, State.setInst]
  simp only [Sparse.find?_insert_ne _ _ h]

/-- A message for an open collective is a sign of its origin. -/
def State.notesOrigin (s : State) (msg : List Byte) : State :=
  match s.msgInst msg with
  | some x => s.hear (mGroup msg) x (mOrigin msg)
  | none => s

theorem State.notesOrigin_eq (s : State) (msg : List Byte) :
    s.notesOrigin msg = { s with cle := { s.cle with insts := (s.notesOrigin msg).cle.insts } } := by
  unfold State.notesOrigin
  split <;> rfl

theorem State.notesOrigin_inst (s : State) {msg : List Byte} {x : Inst} (h : s.msgInst msg = some x) :
    (s.notesOrigin msg).inst (mGroup msg) = some { x with heard := x.heard.insert (mOrigin msg) s.mono } := by
  rw [State.notesOrigin, h]
  exact State.inst_setInst _ _ _

/-- Nothing else of any collective changes. -/
theorem State.notesOrigin_others (s : State) (msg : List Byte) (g : Nat) :
    ((s.notesOrigin msg).inst g).map (fun x => { x with heard := [] }) = (s.inst g).map (fun x => { x with heard := [] }) := by
  cases hx : s.msgInst msg with
  | none => rw [State.notesOrigin, hx]
  | some x =>
    by_cases hg : g = mGroup msg
    · obtain ⟨hinst, -⟩ := State.msgInst_eq_some.mp hx
      rw [hg, s.notesOrigin_inst hx, hinst]
      rfl
    · rw [State.notesOrigin, hx]
      simp only [State.hear, State.inst_setInst_ne s _ hg]

theorem State.notesOrigin_msgGroup (s : State) (msg : List Byte) : (s.notesOrigin msg).msgGroup msg = s.msgGroup msg := by
  cases hx : s.msgInst msg with
  | none => rw [State.notesOrigin, hx]
  | some x =>
    obtain ⟨-, hnumber⟩ := State.msgInst_eq_some.mp hx
    have hy := State.msgInst_eq_some.mpr ⟨s.notesOrigin_inst hx, hnumber⟩
    simp only [State.msgGroup, hx, hy]

/-- Only the packets that wait, the wake event and what collectives have heard change. -/
def OnlyNoted (s v : State) : Prop :=
  v = { s with delivered := v.delivered, power := v.power, cle := { s.cle with insts := v.cle.insts } }

theorem OnlyTaken.notesOrigin {s u : State} (h : OnlyTaken s u) (msg : List Byte) : OnlyNoted s (u.notesOrigin msg) := by
  unfold OnlyNoted
  rw [u.notesOrigin_eq msg, h]

section
variable {s v : State} (h : OnlyNoted s v)
include h

theorem OnlyNoted.kept : v.cle.kept = s.cle.kept := by rw [h]

theorem OnlyNoted.reg (a : Nat) : v.reg a = s.reg a := by
  rw [h]
  rfl

theorem OnlyNoted.keepEnd (line : Bool) (node : Nat) : v.keepEnd line node = s.keepEnd line node := by
  rw [h]
  rfl

theorem OnlyNoted.frame {t : State} (hframe : SameBytes v t ∧ t.que = v.que ∧ t.lnd = v.lnd ∧ t.opt = v.opt ∧ t.sec = v.sec) :
    SameBytes s t ∧ t.que = s.que ∧ t.lnd = s.lnd ∧ t.opt = s.opt ∧ t.sec = s.sec := by
  rw [h] at hframe
  exact hframe

end

/-! ### A RESEND (R96, R97) -/

/-- The copies with one whose keeping time starts again. -/
def State.renewsCopy (s : State) (line : Bool) (node : Nat) (k : Kept) : State :=
  { s with cle := { s.cle with kept := s.cle.kept.erase k ++ [{ k with expiry := s.keepEnd line node }] } }

/-- The answer to a RESEND: the copy, or NOT_RETAINED. -/
def State.answersResend (s : State) (line : Bool) (msg : List Byte) (gr : Group) : State :=
  let node := (gr.member (mOrigin msg)).node
  match s.cle.kept.find? (fun k => k.named line node msg) with
  | some k =>
    let t := hType k.hdr
    let wire := reHeader k.hdr (if t = 1 then 3 else if t = 2 then 4 else t) false ++ k.data
    let s := (s.renewsCopy line node k).bump (A.cleCnt 8)
    if line then s.sendLine node k.vc 1 wire else s.sendFabric 1 1 node wire
  | none =>
    let m := cleMsg 0x12 0 (mGroup msg) (mInst msg) (mChunk msg) (mSlot msg) ((s.mySlot gr).getD 0) 0
    let s := s.bump (A.cleCnt 9)
    if line then s.sendMsgTo node m else s.sendFabricMsg node m

/-- A RESEND for a group that this gateway knows is a sign of its origin, and is answered. -/
theorem State.takeResend_eq {s : State} {msg : List Byte} {gr : Group} (line : Bool)
    (hopen : ((s.inst (mGroup msg)).isNone && s.isNewer (mGroup msg) (mInst msg)) = false) (hgroup : s.msgGroup msg = some gr) :
    s.takeResend line msg = (s.notesOrigin msg).answersResend line msg gr := by
  have hnone : ((s.notesOrigin msg).inst (mGroup msg)).isNone = (s.inst (mGroup msg)).isNone := by
    simpa using congrArg Option.isNone (s.notesOrigin_others msg (mGroup msg))
  have hnewer : (s.notesOrigin msg).isNewer (mGroup msg) (mInst msg) = s.isNewer (mGroup msg) (mInst msg) := by
    rw [s.notesOrigin_eq msg]
    rfl
  rw [← hnone, ← hnewer] at hopen
  rw [← s.notesOrigin_msgGroup msg] at hgroup
  cases hx : s.msgInst msg with
  | none =>
    have hv : s.notesOrigin msg = s := by rw [State.notesOrigin, hx]
    rw [hv] at hopen hgroup ⊢
    simp only [State.takeResend, hx, hopen, hgroup, Bool.false_eq_true, if_false]
    rfl
  | some x =>
    have hv : s.notesOrigin msg = s.hear (mGroup msg) x (mOrigin msg) := by rw [State.notesOrigin, hx]
    rw [hv] at hopen hgroup ⊢
    simp only [State.takeResend, hx, hopen, hgroup, Bool.false_eq_true, if_false]
    rfl

section
variable {s : State} {line : Bool} {msg : List Byte} {gr : Group}

/-- A kept copy is counted as sent again. -/
theorem State.answersResend_kept {k : Kept} (h : s.cle.kept.find? (fun k => k.named line (gr.member (mOrigin msg)).node msg) = some k) :
    OnlyPosted ((s.renewsCopy line (gr.member (mOrigin msg)).node k).bump (A.cleCnt 8)) (s.answersResend line msg gr) := by
  simp only [State.answersResend, h]
  exact OnlyPosted.sendCopy _ _ _ _ _

/-- A copy that is not kept is counted as such. -/
theorem State.answersResend_notKept (h : s.cle.kept.find? (fun k => k.named line (gr.member (mOrigin msg)).node msg) = none) :
    OnlyPosted (s.bump (A.cleCnt 9)) (s.answersResend line msg gr) := by
  simp only [State.answersResend, h]
  exact OnlyPosted.sendMsgOr _ _ _ _

/-- Either answer leaves collectives, memories, queues, Landing, light and cipher. -/
theorem State.answersResend_frame (s : State) (line : Bool) (msg : List Byte) (gr : Group) : let t := s.answersResend line msg gr
    t.cle.insts = s.cle.insts ∧ SameBytes s t ∧ t.que = s.que ∧ t.lnd = s.lnd ∧ t.opt = s.opt ∧ t.sec = s.sec := by
  cases hfind : s.cle.kept.find? (fun k => k.named line (gr.member (mOrigin msg)).node msg) with
  | some k =>
    have hposted := State.answersResend_kept hfind
    exact ⟨(congrArg Cle.insts hposted.cle :), hposted.frame⟩
  | none =>
    have hposted := State.answersResend_notKept hfind
    exact ⟨congrArg Cle.insts hposted.cle, hposted.frame⟩

/-- What the answer leaves, against the state before the RESEND was taken. -/
theorem OnlyNoted.answersResend {v : State} (h : OnlyNoted s v) : let t := v.answersResend line msg gr
    let node := (gr.member (mOrigin msg)).node
    (∀ k, s.cle.kept.find? (fun k => k.named line node msg) = some k →
      t.cle.kept = s.cle.kept.erase k ++ [{ k with expiry := s.keepEnd line node }] ∧
        t.reg (A.cleCnt 8) = BitVec.ofNat 32 (min 0xFFFFFFFF ((s.reg (A.cleCnt 8)).toNat + 1))) ∧
      (s.cle.kept.find? (fun k => k.named line node msg) = none → t.cle.kept = s.cle.kept ∧
        t.reg (A.cleCnt 9) = BitVec.ofNat 32 (min 0xFFFFFFFF ((s.reg (A.cleCnt 9)).toNat + 1))) := by
  refine ⟨fun k hk => ?_, fun hk => ?_⟩
  · rw [← h.kept] at hk
    have hposted := State.answersResend_kept hk
    rw [hposted.cle, hposted.2 _ (by decide), State.reg_bump_same, ← h.kept, ← h.keepEnd, ← h.reg]
    exact ⟨rfl, rfl⟩
  · rw [← h.kept] at hk
    have hposted := State.answersResend_notKept hk
    rw [hposted.cle, hposted.2 _ (by decide), State.reg_bump_same, ← h.kept, ← h.reg]
    exact ⟨rfl, rfl⟩

end

/-! ### A re-send that has not come (R98) -/

/-- The request for a chunk, made once more. -/
def State.asksOnceMore (s : State) (x : Inst) (r : Resend) : Resend :=
  { r with count := r.count + 1, due := s.mono + (if r.line then s.rttNs (x.senderOf r.chunk r.slot) + 2000000 else 100000) }

/-- The only outstanding request is made again while requests are left. -/
theorem State.resendTimeout_asks {s : State} {g : Nat} {x : Inst} {r : Resend} (h : s.inst g = some x) (honly : x.resends = [r])
    (hdue : r.due ≤ s.mono) (hleft : r.count < x.group.resendMax) :
    OnlyPosted ((s.setInst g { x with resends := [s.asksOnceMore x r] }).bump (A.cleCnt 7)) (s.resendTimeout g r.chunk r.slot) := by
  have hmax : decide (x.group.resendMax ≤ r.count) = false := decide_eq_false (Nat.not_le.mpr hleft)
  have hfilter : x.resends.filter (fun r' => !(decide (r'.chunk = r.chunk) && decide (r'.slot = r.slot))) = [] := by simp [honly]
  simp only [State.resendTimeout, h, honly, List.find?_cons, hdue, decide_true, Bool.and_self, State.askResend, and_self, Option.map_some,
    Option.getD_some, hmax, Bool.not_false, Bool.and_false, Bool.false_eq_true, if_false]
  rw [← honly, hfilter]
  exact OnlyPosted.sendMsgOr _ _ _ _

/-! ### Credit is granted again (R251) -/

/-- Only collectives and the fabric's queues change. -/
def OnlyCredited (s t : State) : Prop := t = { s with cle := t.cle, dfl := t.dfl }

/-- Only what a collective has granted, and when, has changed. -/
def Inst.Credited (x y : Inst) : Prop := y = { x with granted := y.granted, creditAt := y.creditAt }

/-- Whether a source of a collective owes a chunk and was last credited 20 us ago. -/
def State.creditDue (s : State) (x : Inst) (slot : Nat) : Bool :=
  !(x.outstanding slot).isEmpty && s.elapsed (x.creditAt.get (fun _ => 0) slot) 20000

/-- What one source does in CREDIT_REFRESH. -/
def State.refreshSource (s : State) (g slot : Nat) : State :=
  match s.inst g with
  | none => s
  | some x =>
    if s.creditDue x slot then s.sendCredit g x slot (max (x.limitFor slot) (x.granted.get (fun _ => 0) slot)) else s

theorem State.refreshCredit_eq {s : State} {g : Nat} {x : Inst} (h : s.inst g = some x) :
    s.refreshCredit g = x.fabricSources.foldl (fun s slot => s.refreshSource g slot) s := by
  simp only [State.refreshCredit, h]
  rfl

/-- A source's turn gives it a new sending time when its credit is due; every other source keeps its own. -/
theorem State.refreshSource_spec {s : State} {g slot : Nat} {x : Inst} (h : s.inst g = some x) :
    OnlyCredited s (s.refreshSource g slot) ∧ ∃ y, (s.refreshSource g slot).inst g = some y ∧ x.Credited y ∧
      ∀ j, y.creditAt.get (fun _ => 0) j = if j = slot ∧ s.creditDue x slot = true then s.mono else x.creditAt.get (fun _ => 0) j := by
  rw [State.refreshSource, h]
  dsimp only
  cases hdue : s.creditDue x slot with
  | false => exact ⟨rfl, x, h, rfl, fun j => by simp⟩
  | true =>
    rw [if_pos rfl, State.sendCredit, State.sendFabric_dfl]
    generalize (State.sendFabric _ _ _ _ _).dfl = f
    exact ⟨rfl, _, State.inst_setInst _ _ _, rfl, fun j => by simp only [Sparse.get_insert, and_true]⟩

/-- Every source in a list whose credit is due has a new sending time after its turn, and none loses one. -/
theorem State.foldl_refreshSource (g : Nat) (l : List Nat) {s : State} {x : Inst} (h : s.inst g = some x) :
    let t := l.foldl (fun s slot => s.refreshSource g slot) s
    OnlyCredited s t ∧ ∃ y, t.inst g = some y ∧ x.Credited y ∧
      (∀ j, y.creditAt.get (fun _ => 0) j = s.mono ∨ y.creditAt.get (fun _ => 0) j = x.creditAt.get (fun _ => 0) j) ∧
      ∀ slot ∈ l, s.creditDue x slot = true → y.creditAt.get (fun _ => 0) slot = s.mono := by
  induction l generalizing s x with
  | nil => exact ⟨rfl, x, h, rfl, fun _ => .inr rfl, by simp⟩
  | cons a l ih =>
    obtain ⟨honly, y, hy, hxy, hturn⟩ := State.refreshSource_spec (slot := a) h
    obtain ⟨honly', z, hz, hyz, hkeeps, hall⟩ := ih hy
    have hmono : (s.refreshSource g a).mono = s.mono := by rw [honly]; rfl
    rw [hmono] at hkeeps hall
    have hcredited : OnlyCredited s ((a :: l).foldl (fun s slot => s.refreshSource g slot) s) := by
      unfold OnlyCredited at honly honly' ⊢
      rw [List.foldl_cons, honly', honly]
    have hxz : x.Credited z := by
      unfold Inst.Credited at hxy hyz ⊢
      rw [hyz, hxy]
    refine ⟨hcredited, z, hz, hxz, fun j => ?_, fun slot hslot hdue => ?_⟩
    · refine (hkeeps j).elim .inl fun hz => ?_
      rw [hz, hturn]
      split
      · exact .inl rfl
      · exact .inr rfl
    · by_cases ha : slot = a
      · subst ha
        refine (hkeeps slot).elim id fun hz => ?_
        rw [hz, hturn, if_pos ⟨rfl, hdue⟩]
      · refine hall slot ((List.mem_cons.mp hslot).resolve_left ha) ?_
        have hsame : y.creditAt.get (fun _ => 0) slot = x.creditAt.get (fun _ => 0) slot := by
          rw [hturn, if_neg fun hc => ha hc.1]
        rw [State.creditDue, hsame]
        rw [honly, hxy]
        exact hdue

end Sys2Proof.Machine
end

section
/-! What is kept and held back, and requests made again (04_collectives_and_flights.md R90, R91, R96, R102; 05_landing.md R110). -/
namespace Sys2Proof.Machine

/-! ### A partial held back for want of room (R91) -/

/-- The only chunk of the only collective, held back, is put out when there is room. -/
theorem exec_retentionRoomFreed {s : State} {g c : Nat} {x : Inst} {k : Chunk} {o : OutSet} (hinsts : s.cle.insts = [(g, x)])
    (hchunks : x.chunks = [(c, k)]) (hblocked : k.blocked = some o) :
    exec .retentionRoomFreed s = .next ((s.releasePartial g x c o).settle g) := by
  have hx : s.inst g = some x := by simp [State.inst, hinsts]
  have hrun : exec .retentionRoomFreed s = .next ((s.cle.insts.map (fun i => i.1)).foldl (fun s g => s.unblock g) s) := rfl
  simp only [hrun, hinsts, List.map_cons, List.map_nil, List.foldl_cons, List.foldl_nil, State.unblock, hx, hchunks, hblocked]

/-- What a partial put out by the final step leaves. -/
theorem Inst.chunk_keepsPartial (x : Inst) (c : Nat) (o : OutSet) : (x.keepsPartial c o).chunk c =
    { x.chunk c with sent := true, held := none, blocked := none, acc := [], own := some (o.leaves, o.data) } :=
  (x.chunk_setChunk c _ c).trans (if_pos rfl)

theorem Inst.staysOpen.keepsPartial {x : Inst} (h : x.staysOpen) (c : Nat) (o : OutSet) : (x.keepsPartial c o).staysOpen :=
  h.setChunk c (h.unfinished c)

/-! ### Line copies whose hold has passed (R96) -/

theorem State.mem_kept_expireRetention (s : State) (k : Kept) :
    k ∈ s.expireRetention.cle.kept ↔ k ∈ s.cle.kept ∧ (k.line && !k.pinned && decide (k.expiry ≤ s.mono)) = false := by
  simp only [State.expireRetention, List.mem_filter, Bool.not_eq_true']
  rfl

/-! ### A HELD map is freed (R102) -/

theorem State.releaseMap_held {s : State} {n : Nat} (h : s.f (A.cleMapCtrl n) 28 2 = 2) :
    s.releaseMap n = s.wakeEvent.setReg (A.cleMapCtrl n) 0 := by
  have hwoken : s.wakeEvent.f (A.cleMapCtrl n) 28 2 = 2 := by rw [State.f, State.wakeEvent_reg]; exact h
  simp only [State.releaseMap, hwoken, if_true]

/-! ### A buffer for a message (R90, R107, R110) -/

/-- A buffer that is taken marks its bank and uses a free value. -/
theorem State.takeBuffer_state {s t : State} {c size b : Nat} {fell : Bool} (h : s.takeBuffer c size = some (b, fell, t)) :
    ∃ banks n, t = { s with lnd := { s.lnd with banks := banks }, freeCtr := n } := by
  unfold State.takeBuffer at h
  split at h
  · cases h
  · simp only [Option.some.injEq, Prod.mk.injEq] at h
    obtain ⟨-, -, rfl⟩ := h
    exact ⟨_, _, rfl⟩

/-- An allocation that succeeds may count a fallback beside that. -/
theorem State.alloc_state {s : State} {c size b : Nat} (h : (s.alloc c size).1 = some b) :
    ∃ banks n fell, (s.alloc c size).2 = State.bumpIf { s with lnd := { s.lnd with banks := banks }, freeCtr := n } fell (A.lndCnt 0) := by
  cases htake : s.takeBuffer c size with
  | none => simp [State.alloc, htake] at h
  | some r =>
    obtain ⟨b', fell, t⟩ := r
    obtain ⟨banks, n, ht⟩ := State.takeBuffer_state htake
    exact ⟨banks, n, fell, by simp only [State.alloc, htake, ht]⟩

theorem State.holdMsg_eq {s : State} {msg : List Byte} {b : Nat} (h : (s.alloc clsMsg msg.length).1 = some b) : s.holdMsg msg =
    let t := (s.alloc clsMsg msg.length).2
    { t with cle := { t.cle with heldMsgs := t.cle.heldMsgs ++ [{ msg := msg, buf := b }] } } := by
  generalize hr : s.alloc clsMsg msg.length = r at h ⊢
  obtain ⟨b', t⟩ := r
  obtain rfl : b' = some b := h
  simp only [State.holdMsg, hr]

/-! ### Requests made again (R110) -/

/-- The state without the requests that wait. -/
def State.dropsWaiting (s : State) : State := { s with lnd := { s.lnd with waiting := [] } }

/-- Requests that are not yet due wait on. -/
theorem State.retryAlloc_notDue {s : State} (h : ∀ w ∈ s.lnd.waiting, s.mono < w.due) : s.retryAlloc = s := by
  have hdue : s.lnd.waiting.filter (fun w => decide (w.due ≤ s.mono)) = [] :=
    List.filter_eq_nil_iff.mpr fun w hw => by simpa using h w hw
  have hwait : s.lnd.waiting.filter (fun w => !decide (w.due ≤ s.mono)) = s.lnd.waiting :=
    List.filter_eq_self.mpr fun w hw => by simpa using h w hw
  simp only [State.retryAlloc, hdue, hwait, List.foldl_nil]

/-- A due request for a message of a collective not yet open holds the message. -/
theorem State.retryAlloc_message {s : State} {w : Waiting} (hwait : s.lnd.waiting = [w]) (hdue : w.due ≤ s.mono) (hcls : w.cls = clsMsg)
    (hinst : s.msgInst w.msg = none) (hnewer : s.isNewer (mGroup w.msg) (mInst w.msg) = true) :
    s.retryAlloc = s.dropsWaiting.holdMsg w.msg := by
  have hinst' : s.dropsWaiting.msgInst w.msg = none := hinst
  have hnewer' : s.dropsWaiting.isNewer (mGroup w.msg) (mInst w.msg) = true := hnewer
  have hretry : s.dropsWaiting.retryOne w = s.dropsWaiting.holdMsg w.msg := by
    rw [State.retryOne, if_neg (by rw [hcls]; decide), hinst']
    dsimp only
    rw [if_pos hnewer']
  simp only [State.retryAlloc, hwait, List.filter_cons, hdue, decide_true, Bool.not_true, Bool.false_eq_true, if_true, if_false,
    List.filter_nil, List.foldl_cons, List.foldl_nil]
  exact hretry

/-- Settles O40: copies, requests, credit and buffers each by the rule of its own command. -/
theorem keepingAndAskingAgain : Obligations.KeepingAndAskingAgain := by
  refine ⟨?_, ?_, ?_, ?_, ?_, ?_, ?_, ?_, ?_⟩
  · intro s line msg gr hlen hcrc hopen hgroup
    have htaken := OnlyTaken.takeMsg_wakeEvent s line msg
    have hrun : exec (.resendReceive line msg) s = .next ((s.takeMsg line msg).wakeEvent.takeResend line msg) :=
      congrArg Host.Outcome.next (State.withMsg_good s line _ hlen hcrc)
    generalize (s.takeMsg line msg).wakeEvent = u at htaken hrun
    have hnoted := htaken.notesOrigin msg
    obtain ⟨hinsts, hframe⟩ := (u.notesOrigin msg).answersResend_frame line msg gr
    have hinst := State.inst_of_insts_eq hinsts
    rw [State.takeResend_eq line (by rw [htaken]; exact hopen) (by rw [htaken]; exact hgroup)] at hrun
    obtain ⟨hkept, hnotKept⟩ := hnoted.answersResend (line := line) (msg := msg) (gr := gr)
    refine ⟨_, hrun, hkept, hnotKept, fun x hx => ?_, fun g => ?_, hnoted.frame hframe⟩
    · rw [hinst, State.notesOrigin_inst u ((htaken.msgInst msg).trans hx), htaken.mono]
    · rw [hinst, State.notesOrigin_others, htaken.inst]
  · intro s g ch slot x r hx honly hchunk hslot hdue hleft
    subst hchunk hslot
    have hposted := State.resendTimeout_asks hx honly hdue hleft
    refine ⟨_, { x with resends := [s.asksOnceMore x r] }, s.asksOnceMore x r, rfl, ?_, rfl, rfl, rfl, rfl, rfl, fun _ => rfl, hposted.frame⟩
    exact (State.inst_of_insts_eq (congrArg Cle.insts hposted.cle) g).trans (State.inst_setInst s g _)
  · intro s g x hx
    obtain ⟨honly, y, hy, hxy, -, hcredit⟩ := State.foldl_refreshSource g x.fabricSources hx
    rw [← State.refreshCredit_eq hx] at honly hy
    refine ⟨_, y, rfl, hy, fun slot hslot howes hdue => hcredit slot hslot ?_, fun k => by rw [hxy]; rfl, ?_⟩
    · simp [State.creditDue, howes, hdue]
    · rw [honly]
      exact ⟨⟨fun _ => rfl, fun _ => rfl, fun _ => rfl, fun _ => rfl, fun _ => rfl⟩, rfl, rfl, ⟨rfl, rfl, rfl, rfl⟩, rfl,
        fun _ _ => ⟨rfl, rfl⟩⟩
  · exact fun s => ⟨_, rfl, rfl, rfl, ⟨fun _ => rfl, fun _ => rfl, fun _ => rfl, fun _ => rfl, fun _ => rfl⟩, rfl, rfl, rfl, rfl,
      ⟨rfl, rfl, rfl, rfl⟩, ⟨rfl, rfl⟩, ⟨rfl, rfl, rfl, rfl, rfl, rfl⟩, ⟨rfl, rfl, rfl, rfl⟩, fun _ _ => ⟨rfl, rfl⟩⟩
  · intro s
    have hregs : SameRegs [A.galCnt 5] s s.expireRetention := fun a ha => ⟨State.reg_setReg_ne s _ (by simpa using ha), rfl⟩
    refine ⟨_, rfl, fun k => ?_, rfl, rfl, rfl, rfl, ⟨fun _ => rfl, fun _ => rfl, fun _ => rfl, fun _ => rfl, fun _ => rfl⟩, rfl, rfl, rfl,
      rfl, ⟨rfl, rfl⟩, ⟨rfl, rfl, rfl, rfl, rfl, rfl⟩, ⟨rfl, rfl, rfl, rfl⟩, hregs⟩
    simpa [and_assoc] using s.mem_kept_expireRetention k
  · intro s g c x k o hinsts hchunks hopen hop hblocked hfinal _ hroom
    obtain ⟨hreleased, y, hy, hxy⟩ := State.releasePartial_sends (s := s) (g := g) hfinal hroom
    have hopen' := hxy.staysOpen (hopen.keepsPartial c o)
    have hop' : y.op ≠ 0x0A := by
      rw [hxy]
      exact hop
    obtain ⟨hsettled, z, hz, hyz⟩ := State.settle_open hy hop' hopen'
    have hchunk := ((hxy.trans hyz).chunk c).trans (x.chunk_keepsPartial c o)
    refine ⟨_, z, exec_retentionRoomFreed hinsts hchunks hblocked, hz, ?_, ?_, ?_, (hreleased.trans hsettled).frame⟩
    · rw [hchunk]
    · rw [hchunk]
    · rw [hchunk]
  · intro s n haccepts hheld
    have hrun := (State.onAccess_accepted (fun s => s.releaseMap n) haccepts).trans (State.releaseMap_held hheld)
    refine ⟨_, congrArg Host.Outcome.next hrun, State.reg_setReg_same _ _ _, ?_⟩
    have hregs : SameRegs [A.cleMapCtrl n] s (s.wakeEvent.setReg (A.cleMapCtrl n) 0) := fun a ha =>
      ⟨(State.reg_setReg_ne _ _ (by simpa using ha)).trans (s.wakeEvent_reg a), s.wakeEvent_sreg a⟩
    rw [s.wakeEvent_power] at hregs ⊢
    exact ⟨⟨fun _ => rfl, fun _ => rfl, fun _ => rfl, fun _ => rfl, fun _ => rfl⟩, ⟨rfl, rfl, rfl, rfl, rfl, rfl⟩, ⟨rfl, rfl, rfl, rfl⟩,
      ⟨rfl, rfl⟩, ⟨rfl, rfl, rfl, rfl⟩, hregs⟩
  · exact fun s h => congrArg Host.Outcome.next (State.retryAlloc_notDue h)
  · intro s s' w b hwait hdue hcls hinst hnewer hs' halloc
    obtain rfl : s' = s.dropsWaiting := hs'
    obtain ⟨banks, n, fell, hstate⟩ := State.alloc_state halloc
    have hrun := (State.retryAlloc_message hwait hdue hcls hinst hnewer).trans (State.holdMsg_eq halloc)
    have hregs : SameRegs [A.lndCnt 0] s (s.dropsWaiting.alloc clsMsg w.msg.length).2 := fun a ha => by
      rw [hstate]
      exact ⟨State.reg_bumpIf_ne _ _ (by simpa using ha), by rw [State.bumpIf_state]; rfl⟩
    refine ⟨_, congrArg Host.Outcome.next hrun, ?_⟩
    rw [hstate, State.bumpIf_state] at hregs ⊢
    exact ⟨rfl, rfl, rfl, ⟨fun _ => rfl, fun _ => rfl, fun _ => rfl, fun _ => rfl, fun _ => rfl⟩, rfl, ⟨rfl, rfl, rfl, rfl⟩, ⟨rfl, rfl⟩,
      ⟨rfl, rfl, rfl, rfl⟩, hregs⟩

end Sys2Proof.Machine
end

section
/-! What errors in the Gallery change beside its bookkeeping: reads that find an error, row repairs and channel retirements
(06_gallery.md R121-R125; 16_bring_up_and_image.md R312). -/
namespace Sys2Proof.Machine

/-! ### Frames -/

/-- Bytes, line, light, queues, collectives, reduction engines and Landing stay, and so do the registers that `p` does not name. -/
def OnlyBooks (p : Nat → Bool) (s t : State) : Prop :=
  SameBytes s t ∧ SameLines s t ∧ SameLight s t ∧ t.que = s.que ∧ t.cle = s.cle ∧ t.rue = s.rue ∧ t.lnd = s.lnd ∧ SameRegsBut p s t

theorem SameBytes.refl (s : State) : SameBytes s s := ⟨fun _ => rfl, fun _ => rfl, fun _ => rfl, fun _ => rfl, fun _ => rfl⟩

theorem SameBytes.trans {s t u : State} (h : SameBytes s t) (g : SameBytes t u) : SameBytes s u := by
  obtain ⟨hgal, hbar, hhost, hflash, hboot⟩ := h
  obtain ⟨ggal, gbar, ghost, gflash, gboot⟩ := g
  exact ⟨fun a => (ggal a).trans (hgal a), fun a => (gbar a).trans (hbar a), fun a => (ghost a).trans (hhost a),
    fun a => (gflash a).trans (hflash a), fun a => (gboot a).trans (hboot a)⟩

section
variable {p : Nat → Bool} {s t u : State}

theorem OnlyBooks.refl (p : Nat → Bool) (s : State) : OnlyBooks p s s :=
  ⟨SameBytes.refl s, SameLines.refl s, ⟨rfl, rfl⟩, rfl, rfl, rfl, rfl, fun _ _ => ⟨rfl, rfl⟩⟩

theorem OnlyBooks.trans (h : OnlyBooks p s t) (g : OnlyBooks p t u) : OnlyBooks p s u := by
  obtain ⟨hbytes, hlines, ⟨hopt, hdfl⟩, hque, hcle, hrue, hlnd, hregs⟩ := h
  obtain ⟨gbytes, glines, ⟨gopt, gdfl⟩, gque, gcle, grue, glnd, gregs⟩ := g
  exact ⟨hbytes.trans gbytes, hlines.trans glines, ⟨gopt.trans hopt, gdfl.trans hdfl⟩, gque.trans hque, gcle.trans hcle,
    grue.trans hrue, glnd.trans hlnd, fun a ha => ⟨(gregs a ha).1.trans (hregs a ha).1, (gregs a ha).2.trans (hregs a ha).2⟩⟩

theorem OnlyBooks.mono {q : Nat → Bool} (h : OnlyBooks p s t) (hpq : ∀ a, p a = true → q a = true) : OnlyBooks q s t := by
  obtain ⟨hbytes, hlines, hlight, hque, hcle, hrue, hlnd, hregs⟩ := h
  refine ⟨hbytes, hlines, hlight, hque, hcle, hrue, hlnd, fun a ha => hregs a ?_⟩
  exact Bool.eq_false_iff.mpr fun hp => by rw [hpq a hp] at ha; cases ha

theorem OnlyBooks.regs (h : OnlyBooks p s t) : SameRegsBut p s t := by
  obtain ⟨-, -, -, -, -, -, -, hregs⟩ := h
  exact hregs

theorem OnlyReports.onlyBooks (h : OnlyReports s t) : OnlyBooks isReportReg s t := by
  obtain ⟨hregs, hbytes, ⟨hque, hcle, hrue, hlnd, -⟩, hlines, hlight, -⟩ := h
  exact ⟨hbytes, hlines, hlight, hque, hcle, hrue, hlnd, hregs⟩

theorem OnlyBooks.setReg (s : State) {a : Nat} (v : Word) (h : p a = true) : OnlyBooks p s (s.setReg a v) :=
  ⟨SameBytes.refl s, SameLines.refl s, ⟨rfl, rfl⟩, rfl, rfl, rfl, rfl,
    fun b hb => ⟨State.reg_setReg_ne s v (by rintro rfl; rw [h] at hb; cases hb), rfl⟩⟩

theorem OnlyBooks.gal (s : State) (g : Gallery) : OnlyBooks p s { s with gal := g } := OnlyBooks.refl p s
theorem OnlyBooks.boot (s : State) (b : Boot) : OnlyBooks p s { s with boot := b } := OnlyBooks.refl p s

theorem OnlyBooks.recordUnit (s : State) (kind index : Nat) (payload : List Byte) : OnlyBooks p s (s.recordUnit kind index payload) := by
  rw [State.recordUnit_boot]
  exact OnlyBooks.boot s _

end

/-! ### The log, and what an entry of it leaves of the Gallery -/

@[simp] theorem State.logEvent_gal (s : State) (e : Event) : (s.logEvent e).gal = s.gal := by
  obtain ⟨-, -, ⟨-, -, -, -, hgal, -⟩, -⟩ := OnlyReports.logEvent s e
  exact hgal

@[simp] theorem State.logEvent_mono (s : State) (e : Event) : (s.logEvent e).mono = s.mono := congrArg TimeBase.mono (s.logEvent_time e)

theorem State.replaceCriterion_gal (s : State) (why : Nat) : (s.replaceCriterion why).gal = s.gal := by
  obtain ⟨-, -, ⟨-, -, -, -, hgal, -⟩, -⟩ := OnlyReports.replaceCriterion s why
  exact hgal

@[simp] theorem State.recordUnit_gal (s : State) (kind index : Nat) (payload : List Byte) : (s.recordUnit kind index payload).gal = s.gal := by
  rw [State.recordUnit_boot]

/-! ### Retirement of a channel and repair of a row (R123, R124) -/

/-- The registers that a retirement changes. -/
def isRetireReg (a : Nat) : Bool := isReportReg a || decide (a = A.galRegionStatus)

theorem OnlyReports.retires {s t : State} (h : OnlyReports s t) : OnlyBooks isRetireReg s t :=
  h.onlyBooks.mono fun _ ha => by rw [isRetireReg, ha, Bool.true_or]

/-- A retirement marks the channel as one that is copied or degraded. -/
theorem State.retireChannel_spec (s : State) (c : Nat) : OnlyBooks isRetireReg s (s.retireChannel c) ∧
    ∃ degraded copies, (s.retireChannel c).gal = { s.gal with degraded := degraded, chanCopies := copies } := by
  unfold State.retireChannel
  split
  · exact ⟨OnlyBooks.refl _ s, _, _, rfl⟩
  · split
    · refine ⟨?_, s.gal.degraded ++ [c], s.gal.chanCopies, ?_⟩
      · exact ((OnlyBooks.gal s _).trans (OnlyBooks.setReg _ _ (by decide))).trans
          ((OnlyReports.logEvent _ _).trans (OnlyReports.replaceCriterion _ _)).retires
      · rw [State.replaceCriterion_gal, State.logEvent_gal, State.setB_gal]
    · exact ⟨(OnlyBooks.setReg s _ (by decide)).trans (OnlyBooks.gal _ _), s.gal.degraded, _, rfl⟩

/-- A repair marks the row as one that is copied, or its channel as one that is retired. -/
theorem State.repairRow_spec (s : State) (r : Row) : OnlyBooks isRetireReg s (s.repairRow r) ∧
    ∃ degraded chans rows, (s.repairRow r).gal = { s.gal with degraded := degraded, chanCopies := chans, rowCopies := rows } := by
  unfold State.repairRow
  split
  · exact ⟨OnlyBooks.refl _ s, _, _, _, rfl⟩
  · split
    · obtain ⟨hbooks, degraded, copies, hgal⟩ := s.retireChannel_spec r.chan
      exact ⟨hbooks, degraded, copies, s.gal.rowCopies, hgal⟩
    · exact ⟨OnlyBooks.gal s _, _, _, _, rfl⟩

/-- With a spare row left, a row that is not being copied yet is copied. -/
theorem State.repairRow_spare {s : State} {r : Row} (hspare : s.gal.spares.get (fun _ => 0) (r.chan * 65536 + r.bank) < 8)
    (hnew : ∀ x ∈ s.gal.rowCopies, x.1 ≠ r) :
    s.repairRow r = { s with gal := { s.gal with rowCopies := s.gal.rowCopies ++ [(r, s.mono)] } } := by
  have hany : s.gal.rowCopies.any (fun x => x.1 = r) = false := by simpa using hnew
  rw [State.repairRow, if_neg (by rw [hany]; exact Bool.false_ne_true), if_neg (by omega)]

/-! ### A corrected read (R121, R123) -/

/-- The error rate of a channel that has not had nine full seconds retires no channel. -/
theorem State.rateError_calm {s : State} {c : Nat} (h : (s.gal.rates.get (fun _ => {}) c).run < 8) :
    ∃ rates, s.rateError c = { s with gal := { s.gal with rates := rates } } := by
  unfold State.rateError
  dsimp only
  rw [if_neg]
  · exact ⟨_, rfl⟩
  · split
    · dsimp only
      omega
    · dsimp only
      split <;> omega

/-- The state in which a corrected error has been counted and logged. -/
def State.logsCorrected (s : State) (a : Nat) : State :=
  (s.bump (A.galCnt 0)).logEvent
    { code := 0x0301, cls := .corrected, reason := s.locCodeAt a, arg0 := a, arg1 := a / 0x100000000 }

/-- The state in which the error has also been noted against its row. -/
def State.notesCorrected (s : State) (r : Row) (a : Nat) : State :=
  let s := s.logsCorrected a
  { s with gal := { s.gal with corrected := s.gal.corrected.filter (fun e => !s.elapsed e.2 dayNs) ++ [(r, s.mono)] } }

/-- The registers that a corrected read and what follows it change. -/
def isCorrectedReg (a : Nat) : Bool := isRetireReg a || decide (a = A.galCnt 0)

/-- A corrected error of row `r` has been counted in GAL_CNT 0 and noted; nothing else of repair has begun. -/
structure Corrected (r : Row) (s u : State) : Prop where
  books : OnlyBooks isCorrectedReg s u
  mono : u.mono = s.mono
  counted : u.reg (A.galCnt 0) = BitVec.ofNat 32 (min 0xFFFFFFFF ((s.reg (A.galCnt 0)).toNat + 1))
  noted : (r, s.mono) ∈ u.gal.corrected
  gal : ∃ corrected rates, u.gal = { s.gal with corrected := corrected, rates := rates }

theorem Corrected.notes (s : State) (r : Row) (a : Nat) (rates : Sparse ErrRate) :
    Corrected r s { s.notesCorrected r a with gal := { (s.notesCorrected r a).gal with rates := rates } } := by
  have hgal : (s.logsCorrected a).gal = s.gal := State.logEvent_gal _ _
  have hmono : (s.logsCorrected a).mono = s.mono := State.logEvent_mono _ _
  have hcount : OnlyBooks isCorrectedReg s (s.bump (A.galCnt 0)) := OnlyBooks.setReg s _ (by decide)
  have hlog : OnlyBooks isCorrectedReg (s.bump (A.galCnt 0)) (s.logsCorrected a) :=
    (OnlyReports.logEvent _ _).retires.mono fun _ ha => by rw [isCorrectedReg, ha, Bool.true_or]
  have hnote : OnlyBooks isCorrectedReg (s.logsCorrected a) (s.notesCorrected r a) := OnlyBooks.gal (s.logsCorrected a) _
  have hreg : (s.logsCorrected a).reg (A.galCnt 0) = BitVec.ofNat 32 (min 0xFFFFFFFF ((s.reg (A.galCnt 0)).toNat + 1)) :=
    (State.logEvent_reg _ _ (by decide)).trans (State.reg_bump_same s _)
  refine ⟨((hcount.trans hlog).trans hnote).trans (OnlyBooks.gal (s.notesCorrected r a) _), hmono, hreg, ?_, ?_⟩
  · simp only [State.notesCorrected, hmono]
    exact List.mem_append_right _ (List.mem_singleton_self _)
  · simp only [State.notesCorrected, hgal]
    exact ⟨_, _, rfl⟩

/-- The first corrected error of a row in a calm channel is noted; a second symbol in error starts the row's repair. -/
theorem State.readCorrected_first {s : State} {r : Row} (a symbols : Nat) (hnew : ∀ e ∈ s.gal.corrected, e.1 ≠ r)
    (hcalm : (s.gal.rates.get (fun _ => {}) r.chan).run < 8) :
    ∃ u, Corrected r s u ∧ s.readCorrected r a symbols = if symbols = 2 then u.repairRow r else u := by
  have hgal : (s.logsCorrected a).gal = s.gal := State.logEvent_gal _ _
  obtain ⟨rates, hrates⟩ := State.rateError_calm (s := s.notesCorrected r a) (c := r.chan)
    (by rw [State.notesCorrected]; dsimp only; rw [hgal]; exact hcalm)
  have hagain : ((s.logsCorrected a).gal.corrected.filter (fun e => !(s.logsCorrected a).elapsed e.2 dayNs)).any (fun e => e.1 = r) = false := by
    rw [List.any_eq_false, hgal]
    intro e he
    simpa using hnew e (List.mem_filter.mp he).1
  have hrun : s.readCorrected r a symbols =
      if ((s.logsCorrected a).gal.corrected.filter (fun e => !(s.logsCorrected a).elapsed e.2 dayNs)).any (fun e => e.1 = r) = true ∨ symbols = 2
      then ((s.notesCorrected r a).rateError r.chan).repairRow r else (s.notesCorrected r a).rateError r.chan := rfl
  refine ⟨_, Corrected.notes s r a rates, ?_⟩
  rw [hrun, hrates, hagain]
  simp only [Bool.false_eq_true, false_or]

/-! ### An uncorrectable read (R125) -/

/-- The first uncorrectable read of a codeword poisons it, counts it in GAL_CNT 1 and is logged. -/
theorem State.noteUncorrectable_spec {s : State} {cw : Nat} (code : Nat) (h : s.poisoned cw = false) :
    let t := s.noteUncorrectable cw code
    OnlyBooks (fun a => isReportReg a || decide (a = A.galCnt 1)) s t ∧
      t.gal = { s.gal with poison := s.gal.poison.put (fun _ => false) cw true } ∧ t.mono = s.mono ∧
      t.reg (A.galCnt 1) = BitVec.ofNat 32 (min 0xFFFFFFFF ((s.reg (A.galCnt 1)).toNat + 1)) ∧
      t.log.seq = (s.log.seq + 1) % 0x100000000 := by
  simp only [State.noteUncorrectable, h, Bool.false_eq_true, if_false]
  refine ⟨?_, State.logEvent_gal _ _, State.logEvent_mono _ _, ?_, State.logEvent_seq _ _⟩
  · exact ((OnlyBooks.setReg s _ (by decide)).trans (OnlyBooks.gal _ _)).trans
      ((OnlyReports.logEvent _ _).onlyBooks.mono fun _ ha => by rw [ha, Bool.true_or])
  · exact (State.logEvent_reg _ _ (by decide)).trans (State.reg_bump_same s _)

/-- Where an offset lies is told by GAL_REGION. -/
theorem State.locate_congr {s t : State} (h : t.reg A.galRegion = s.reg A.galRegion) (a : Nat) : t.locate a = s.locate a := by
  have hf (lo n : Nat) : t.f A.galRegion lo n = s.f A.galRegion lo n := congrArg (fld · lo n) h
  unfold State.locate State.reseqBytes State.stateBase State.workBase State.reserveBase
  rw [hf, hf, hf, hf]

/-- Which queue lies at an offset is told by the queues and their registers. -/
theorem State.queueAt_congr {s t : State} (hque : t.que = s.que) (hregs : ∀ a, 0xF00000 ≤ a → a < 0x1000000 → t.reg a = s.reg a) (a : Nat) :
    t.queueAt a = s.queueAt a := by
  unfold State.queueAt
  refine List.find?_congr fun q hmem => ?_
  have hq := List.mem_range.mp hmem
  have hctrl : t.reg (A.queQCtrl q) = s.reg (A.queQCtrl q) := hregs _ (by unfold A.queQCtrl; omega) (by unfold A.queQCtrl; omega)
  have hbase : t.qBase q = s.qBase q := by
    unfold State.qBase State.reg64
    rw [hregs _ (by unfold A.queQBaseLo; omega) (by unfold A.queQBaseLo; omega),
      hregs _ (by unfold A.queQBaseHi; omega) (by unfold A.queQBaseHi; omega)]
  have hactive : t.qActive q = s.qActive q := by
    unfold State.qActive State.qEnabled State.queue State.b
    rw [hque, hctrl]
  have hbytes : t.qBytes q = s.qBytes q := by
    unfold State.qBytes State.qSize State.qLog2 State.f
    rw [hctrl]
  rw [hactive, hbase, hbytes, State.qLoc_of_reg hctrl]

/-- An offset in the state region lies between its bases. -/
theorem State.bounds_of_locate_state {s : State} {a : Nat} (h : s.locate a = .state) : s.stateBase ≤ a ∧ a < s.workBase := by
  by_contra hout
  revert h
  unfold State.locate
  by_cases hlo : a < s.stateBase
  · rw [if_pos hlo]
    split
    · exact nofun
    · split <;> exact nofun
  · have hhi : ¬ a < s.workBase := by omega
    rw [if_neg hlo, if_neg hhi]
    dsimp only
    generalize a - s.workBase = w
    repeat' split
    all_goals exact nofun

/-- The codeword of an offset in the state region lies in the offset's unit. -/
theorem State.unitOf_mem_unitsIn {s : State} {a : Nat} (h : s.locate a = .state) : s.unitOf a ∈ s.unitsIn a 64 := by
  obtain ⟨hlo, hhi⟩ := State.bounds_of_locate_state h
  have hle : s.unitOf a ≤ s.unitOf (a + 64 - 1) := by
    unfold State.unitOf
    omega
  rw [State.unitsIn, if_neg (by omega)]
  exact List.mem_map.mpr ⟨0, List.mem_range.mpr (by omega), by omega⟩

/-- Units marked invalid one after another. -/
theorem State.invalidate_spec (us : List Nat) (s : State) :
    (∃ valid, us.foldl (fun s u => s.setUnit u false) s = { s with gal := { s.gal with valid := valid } }) ∧
      ∀ v, (v ∈ us ∨ s.unitValid v = false) → (us.foldl (fun s u => s.setUnit u false) s).unitValid v = false := by
  induction us generalizing s with
  | nil => exact ⟨⟨s.gal.valid, rfl⟩, fun v hv => hv.resolve_left List.not_mem_nil⟩
  | cons u us ih =>
    obtain ⟨⟨valid, hstate⟩, hinvalid⟩ := ih (s.setUnit u false)
    refine ⟨⟨valid, hstate⟩, fun v hv => hinvalid v ?_⟩
    rw [State.unitValid_setUnit]
    by_cases hvu : v = u
    · exact .inr (if_pos hvu)
    · rw [if_neg hvu]
      exact hv.imp_left fun hmem => (List.mem_cons.mp hmem).resolve_left hvu

/-- Losing a codeword of the state region ends the validity of its unit. -/
theorem State.lostAt_state {s : State} {a : Nat} (hqueue : s.queueAt a = none) (hstate : s.locate a = .state) :
    ∃ valid, s.lostAt a = { s with gal := { s.gal with valid := valid } } ∧ (s.lostAt a).unitValid (s.unitOf a) = false := by
  have hrun : s.lostAt a = s.invalidate a 64 := by
    rw [State.lostAt, hqueue]
    dsimp only
    rw [hstate]
  obtain ⟨⟨valid, hvalid⟩, hinvalid⟩ := State.invalidate_spec (s.unitsIn a 64) s
  rw [hrun]
  exact ⟨valid, hvalid, hinvalid _ (.inl (State.unitOf_mem_unitsIn hstate))⟩

/-! ### The patrol (R121) -/

theorem exec_scrubPatrolRead (s : State) (a symbols bank row : Nat) :
    exec (.scrubPatrolRead a symbols bank row) s = .next (s.patrolRead a symbols bank row) := rfl

section
variable {s : State} {a bank row : Nat} (hclean : s.poisoned (a / 64) = false)
include hclean

/-- A clean codeword changes nothing. -/
theorem State.patrolRead_clean : s.patrolRead a 0 bank row = s := by
  have hcw : s.poisoned (a / 64 * 64 / 64) = false := by rw [Nat.mul_div_cancel _ (by decide)]; exact hclean
  unfold State.patrolRead
  dsimp only
  split
  · rfl
  · rw [if_neg (by rw [hcw]; exact Bool.false_ne_true), if_pos rfl]

variable {r : Row} (hon : s.b A.galScrubCtrl 8 = true) (ha : a < galBytes)
  (hr : r = { chan := s.servingChannel (a / 64 * 64), bank := bank, row := row })
include hon ha hr

theorem State.patrolRead_errors {symbols : Nat} (hsymbols : symbols ≠ 0) :
    s.patrolRead a symbols bank row = if symbols ≤ 2 then s.readCorrected r (a / 64 * 64) symbols else
      ((s.noteUncorrectable (a / 64) (s.locCodeAt (a / 64 * 64))).lostAt (a / 64 * 64)).repairRow r := by
  have hcw : a / 64 * 64 / 64 = a / 64 := Nat.mul_div_cancel _ (by decide)
  have hin : ¬ galBytes ≤ a / 64 * 64 := by omega
  rw [State.patrolRead]
  simp only [hon, hin, hcw, hclean, hsymbols, ← hr, Bool.not_true, decide_false, Bool.or_self, Bool.false_eq_true, if_false]

end

/-- Settles O28: one or two symbols are a corrected read in a calm channel, three or more an uncorrectable one in the state region. -/
theorem patrolReadsAreSortedByWhatTheyFind : Obligations.PatrolReadsAreSortedByWhatTheyFind := by
  refine ⟨fun s a bank row hclean => ?_, fun s a symbols bank row r hon ha hclean hsymbols hr hnew hcalm => ?_,
    fun s a symbols bank row r hon ha hclean hsymbols hr hqueue hstate hspare hrow => ?_⟩
  · rw [exec_scrubPatrolRead, State.patrolRead_clean hclean]
  · have hbank : r.bank = bank := by rw [hr]
    have hrun := exec_scrubPatrolRead s a symbols bank row
    obtain ⟨u, hu, hread⟩ := State.readCorrected_first (a / 64 * 64) symbols hnew hcalm
    rw [State.patrolRead_errors hclean hon ha hr (by omega), if_pos (by omega), hread] at hrun
    obtain ⟨corrected, rates, hgal⟩ := hu.gal
    have hnoted := hu.noted
    have hmono := hu.mono
    obtain rfl | rfl := hsymbols
    · obtain ⟨hbytes, hlines, hlight, hque, hcle, hrue, hlnd, -⟩ := hu.books
      refine ⟨u, hrun, hnoted, hu.counted, fun _ => ?_, nofun, ?_, ?_, hbytes, hlines, hlight, hque, hcle, hrue, hlnd⟩ <;> rw [hgal]
      exact ⟨rfl, rfl⟩
    · obtain ⟨hbooks, degraded, chans, rows, htgal⟩ := u.repairRow_spec r
      obtain ⟨hbytes, hlines, hlight, hque, hcle, hrue, hlnd, -⟩ :=
        hu.books.trans (hbooks.mono fun _ ha => by rw [isCorrectedReg, ha, Bool.true_or])
      refine ⟨u.repairRow r, hrun, ?_, (hbooks.regs _ (by decide)).1.trans hu.counted, nofun, fun _ hspare hrow => ?_, ?_, ?_,
        hbytes, hlines, hlight, hque, hcle, hrue, hlnd⟩
      · rw [htgal]
        exact hnoted
      · rw [State.repairRow_spare (by rw [hgal, hbank]; exact hspare) (by rw [hgal]; exact hrow), hgal, hmono]
        exact ⟨rfl, rfl⟩
      · rw [htgal, hgal]
      · rw [htgal, hgal]
  · have hbank : r.bank = bank := by rw [hr]
    have hrun := exec_scrubPatrolRead s a symbols bank row
    rw [State.patrolRead_errors hclean hon ha hr (by omega), if_neg (by omega)] at hrun
    obtain ⟨hbooks, hgal, hmono, hcount, hseq⟩ := State.noteUncorrectable_spec (s.locCodeAt (a / 64 * 64)) hclean
    generalize s.noteUncorrectable (a / 64) (s.locCodeAt (a / 64 * 64)) = u at *
    obtain ⟨hbytes, hlines, hlight, hque, hcle, hrue, hlnd, hregs⟩ := hbooks
    have hregion : u.reg A.galRegion = s.reg A.galRegion := (hregs _ (by decide)).1
    have hunit (x : Nat) : u.unitOf x = s.unitOf x := by
      rw [State.unitOf, State.unitOf, State.stateBase, State.stateBase, State.f, State.f, hregion]
    have hqueregs (x : Nat) (hlo : 0xF00000 ≤ x) (hhi : x < 0x1000000) : u.reg x = s.reg x :=
      (hregs x (by simp only [isReportReg, A.galCnt, Bool.or_eq_false_iff, Bool.and_eq_false_iff, decide_eq_false_iff_not]; omega)).1
    obtain ⟨valid, hlost, hinvalid⟩ := State.lostAt_state (s := u) ((State.queueAt_congr hque hqueregs _).trans hqueue)
      ((State.locate_congr hregion _).trans hstate)
    rw [hunit, hlost] at hinvalid
    rw [hlost, State.repairRow_spare (by rw [hgal, hbank]; exact hspare) (by rw [hgal]; exact hrow)] at hrun
    refine ⟨_, hrun, ?_, hinvalid, ?_, hcount, hseq, hbytes, hlines, hlight, hque, hcle, hrue, hlnd, hregs⟩
    · simp only [State.poisoned, hgal, Sparse.get_put_same]
    · rw [hgal]
      exact congrArg (fun m => s.gal.rowCopies ++ [(r, m)]) hmono

/-! ### Ends of copies (R123, R124) -/

/-- The field-repair record has room for an entry of a small payload, which is appended (16 R312). -/
theorem State.recordUnit_room {s : State} (kind index : Nat) {payload : List Byte} (hroom : s.boot.recordBytes ≤ 0x80000)
    (hlen : payload.length ≤ 0x1000) : ∃ e, (s.recordUnit kind index payload).boot.record = s.boot.record ++ [e] ∧ e.kind = kind ∧
      e.index = index ∧ e.payload.take payload.length = payload := by
  have hfull : decide (0x100000 < s.boot.recordBytes + roundUp (12 + payload.length + 4) 16 + 4096) = false := by
    rw [decide_eq_false_iff_not]
    unfold roundUp
    omega
  refine ⟨{ kind := kind, index := index, seconds := s.now / 1000000000 % 0x100000000,
            payload := payload ++ List.replicate (roundUp (12 + payload.length + 4) 16 - 16 - payload.length) 0 }, ?_, rfl, rfl, ?_⟩
  · simp only [State.recordUnit, hfull, Bool.false_eq_true, if_false]
  · exact List.take_left

theorem exec_rowRepairDone (s : State) : exec .rowRepairDone s = .next s.rowRepaired := rfl
theorem exec_channelRetireDone (s : State) (c : Fin 192) : exec (.channelRetireDone c) s = .next (s.channelRetired c) := rfl

/-- A repair that has ended is counted, logged and recorded. -/
def State.spared (s : State) (n : Nat) (e : Event) (kind index : Nat) (payload : List Byte) : State :=
  ((s.bump (A.galCnt n)).logEvent e).recordUnit kind index payload

theorem State.spared_spec {s : State} {n : Nat} (hn : n < 4) (ev : Event) (kind index : Nat) {payload : List Byte}
    (hroom : s.boot.recordBytes ≤ 0x80000) (hlen : payload.length ≤ 0x1000) : let t := s.spared n ev kind index payload
    OnlyBooks (fun a => isReportReg a || decide (a = A.galCnt n)) s t ∧ t.gal = s.gal ∧
      t.reg (A.galCnt n) = BitVec.ofNat 32 (min 0xFFFFFFFF ((s.reg (A.galCnt n)).toNat + 1)) ∧
      ∃ e, t.boot.record = s.boot.record ++ [e] ∧ e.kind = kind ∧ e.index = index ∧ e.payload.take payload.length = payload := by
  have hlog : isLogReg (A.galCnt n) = false := by
    simp only [isLogReg, A.galCnt, A.errLogLost, A.errVecStatus, Bool.or_eq_false_iff, Bool.and_eq_false_iff, decide_eq_false_iff_not]
    omega
  have hboot : ((s.bump (A.galCnt n)).logEvent ev).boot = s.boot := State.logEvent_boot _ _
  have hrecord := State.recordUnit_room (s := (s.bump (A.galCnt n)).logEvent ev) kind index (by rw [hboot]; exact hroom) hlen
  rw [hboot] at hrecord
  refine ⟨?_, ?_, ?_, hrecord⟩
  · exact ((OnlyBooks.setReg s _ (by simp)).trans ((OnlyReports.logEvent _ _).onlyBooks.mono fun _ ha => by rw [ha, Bool.true_or])).trans
      (OnlyBooks.recordUnit _ _ _ _)
  · rw [State.spared, State.recordUnit_gal, State.logEvent_gal, State.bump_gal]
  · rw [State.spared, State.recordUnit_reg, State.logEvent_reg _ _ hlog, State.reg_bump_same]

/-- The state in which a row has been redirected: its copy has ended, and the channel's rows and the bank's spares are counted. -/
def State.redirected (s : State) (r : Row) (rest : List (Row × Nat)) : State :=
  let key := r.chan * 65536 + r.bank
  { s with gal := { s.gal with
      rowCopies := rest, rows := s.gal.rows.put (fun _ => 0) r.chan (s.gal.rows.get (fun _ => 0) r.chan + 1),
      spares := s.gal.spares.put (fun _ => 0) key (s.gal.spares.get (fun _ => 0) key + 1),
      corrected := s.gal.corrected.filter (fun e => e.1 ≠ r) } }

/-- Below the channel's 64th row the oldest row copy ends without a retirement. -/
theorem State.rowRepaired_eq {s : State} {r : Row} {started : Nat} {rest : List (Row × Nat)} (h : s.gal.rowCopies = (r, started) :: rest)
    (hrows : s.gal.rows.get (fun _ => 0) r.chan < 63) :
    ∃ e index, s.rowRepaired = (s.redirected r rest).spared 2 e 5 index
      (leBytes 4 (s.gal.spares.get (fun _ => 0) (r.chan * 65536 + r.bank))) := by
  have hfew : ¬ s.gal.rows.get (fun _ => 0) r.chan + 1 = 64 := by omega
  simp only [State.rowRepaired, h, hfew, if_false]
  exact ⟨_, _, rfl⟩

/-- The state in which a channel's copy has ended and the channel is shown as retired. -/
def State.retired (s : State) (c : Nat) : State :=
  let s : State := { s with gal := { s.gal with chanCopies := s.gal.chanCopies.filter (fun x => x.chan ≠ c) } }
  let s := s.setB (A.galChanRetired (c / 32)) (c % 32) true
  s.setF A.galRegionStatus 8 8 (s.f A.galRegionStatus 8 8 + 1)

theorem State.channelRetired_eq {s : State} {c : Nat} (h : ∃ x ∈ s.gal.chanCopies, x.chan = c) :
    ∃ e, s.channelRetired c = (s.retired c).spared 3 e 6 c (leBytes 4 2) := by
  have hany : s.gal.chanCopies.any (fun x => x.chan = c) = true := by simpa using h
  rw [State.channelRetired, if_pos hany]
  exact ⟨_, rfl⟩

/-- The registers that the retirement of a channel shows itself in. -/
theorem State.retired_spec (s : State) {c : Nat} (hc : c < 192) (hroom : s.f A.galRegionStatus 8 8 < 255) : let t := s.retired c
    OnlyBooks (fun a => [A.galRegionStatus, A.galChanRetired (c / 32)].contains a) s t ∧ t.chanRetired c = true ∧
      (∀ k, k < 192 → k ≠ c → t.chanRetired k = s.chanRetired k) ∧ t.f A.galRegionStatus 8 8 = s.f A.galRegionStatus 8 8 + 1 ∧
      t.reserveFree = s.reserveFree := by
  have hne {k : Nat} (hk : k < 192) : A.galChanRetired (k / 32) ≠ A.galRegionStatus := by unfold A.galChanRetired A.galRegionStatus; omega
  let u : State := { s with gal := { s.gal with chanCopies := s.gal.chanCopies.filter (fun x => x.chan ≠ c) } }
  have hkept (lo n : Nat) : (u.setB (A.galChanRetired (c / 32)) (c % 32) true).f A.galRegionStatus lo n = s.f A.galRegionStatus lo n :=
    u.f_setB_ne _ _ _ _ _ _ (Nat.mod_lt _ (by decide)) (.inl (hne hc).symm)
  refine ⟨?_, ?_, fun k hk hkc => ?_, ?_, ?_⟩
  · exact ((OnlyBooks.gal s _).trans (OnlyBooks.setReg u _ (by simp))).trans (OnlyBooks.setReg _ _ (by simp))
  · exact (State.b_setF_ne _ _ _ _ _ _ _ (by decide) (.inl (hne hc))).trans (u.b_setB_same _ _ _ (Nat.mod_lt _ (by decide)))
  · refine (State.b_setF_ne _ _ _ _ _ _ _ (by decide) (.inl (hne hk))).trans (u.b_setB_ne _ _ _ _ _ (Nat.mod_lt _ (by decide)) ?_)
    by_cases hdiv : k / 32 = c / 32
    · exact .inr (by omega)
    · exact .inl (by unfold A.galChanRetired; omega)
  · refine (State.f_setF_same _ _ _ _ _ (by decide)).trans ?_
    rw [hkept]
    exact Nat.mod_eq_of_lt (by omega)
  · exact (State.f_setF_ne _ _ _ _ _ _ _ _ (by decide) (.inr (.inl (by decide)))).trans (hkept 4 4)

/-- Settles O29: both ends are an entry of the log and of the record after the Gallery's own bookkeeping has moved. -/
theorem repairsEndAndAreRecorded : Obligations.RepairsEndAndAreRecorded := by
  refine ⟨fun s r started rest hcopies hrows hroom => ?_, fun s c hcopy hroom hshown => ?_⟩
  · obtain ⟨ev, index, heq⟩ := State.rowRepaired_eq hcopies hrows
    have hrun := exec_rowRepairDone s
    obtain ⟨⟨hbytes, hlines, hlight, hque, hcle, hrue, hlnd, hregs⟩, hgal, hcount, e, hrecord, hkind, -, hpayload⟩ :=
      State.spared_spec (s := s.redirected r rest) (n := 2) (by decide) ev 5 index
        (payload := leBytes 4 (s.gal.spares.get (fun _ => 0) (r.chan * 65536 + r.bank))) hroom (by simp)
    rw [leBytes_length] at hpayload
    rw [heq] at hrun
    refine ⟨_, e, hrun, ?_, ?_, ?_, ?_, ?_, ?_, hrecord, hkind, hpayload, hcount, hbytes, hlines, hlight, hque, hcle, hrue, hlnd, hregs⟩ <;>
      rw [hgal]
    all_goals simp only [State.redirected, Sparse.get_put_same]
  · obtain ⟨ev, heq⟩ := State.channelRetired_eq hcopy
    have hrun := exec_channelRetireDone s c
    obtain ⟨hretired, hchan, hothers, hshows, hfree⟩ := s.retired_spec c.isLt hshown
    obtain ⟨hspared, hgal, hcount, e, hrecord, hkind, hindex, -⟩ :=
      State.spared_spec (s := s.retired c) (n := 3) (by decide) ev 6 c (payload := leBytes 4 2) hroom (by simp)
    rw [heq] at hrun
    have hcnt : [A.galRegionStatus, A.galChanRetired (c / 32)].contains (A.galCnt 3) = false := by
      simp only [List.contains_cons, List.contains_nil, Bool.or_false, Bool.or_eq_false_iff, beq_eq_false_iff_ne]
      exact ⟨by decide, by unfold A.galCnt A.galChanRetired; omega⟩
    have hshow {a : Nat} (hlo : 0x900000 ≤ a) (hhi : a < 0x900100) :
        ((s.retired c).spared 3 ev 6 c (leBytes 4 2)).reg a = (s.retired c).reg a :=
      (hspared.regs a (by
        simp only [isReportReg, A.galCnt, Bool.or_eq_false_iff, Bool.and_eq_false_iff, decide_eq_false_iff_not]
        omega)).1
    have hstatus := hshow (a := A.galRegionStatus) (by decide) (by decide)
    have hbit {k : Nat} (hk : k < 192) : ((s.retired c).spared 3 ev 6 c (leBytes 4 2)).chanRetired k = (s.retired c).chanRetired k :=
      congrArg (bit · (k % 32)) (hshow (by unfold A.galChanRetired; omega) (by unfold A.galChanRetired; omega))
    obtain ⟨hbytes, hlines, hlight, hque, hcle, hrue, hlnd, hrest⟩ :=
      OnlyBooks.trans (p := fun a => isReportReg a || [A.galCnt 3, A.galRegionStatus, A.galChanRetired (c / 32)].contains a)
        (hretired.mono fun a ha => by
          simp only [List.contains_cons, List.contains_nil, Bool.or_false] at ha ⊢
          rw [ha, Bool.or_true, Bool.or_true])
        (hspared.mono fun a ha => by
          simp only [List.contains_cons, Bool.or_eq_true, decide_eq_true_eq, beq_iff_eq] at ha ⊢
          exact ha.imp_right .inl)
    refine ⟨_, e, hrun, (hbit c.isLt).trans hchan, ?_, ?_, ?_, fun k hk hkc => (hbit hk).trans (hothers k hk hkc), hrecord, hkind, hindex,
      ?_, hbytes, hlines, hlight, hque, hcle, hrue, hlnd, hrest⟩
    · rw [hgal]
      intro x hx
      simpa using (List.mem_filter.mp hx).2
    · exact (congrArg (fld · 8 8) hstatus).trans hshows
    · exact (congrArg (fld · 4 4) hstatus).trans hfree
    · rw [hcount, (hretired.regs _ hcnt).1]

end Sys2Proof.Machine
end

section
/-! Host access through BAR2 (06_gallery.md R127; 18_host_interface.md R336, R337). -/
namespace Sys2Proof.Machine

theorem exec_bar2Read (s : State) (offset len : Nat) : exec (.bar2Read offset len) s = .next (s.bar2Read offset len) := rfl
theorem exec_bar2Write (s : State) (offset : Nat) (bytes : List Byte) (poisoned : Bool) :
    exec (.bar2Write offset bytes poisoned) s = .next (s.bar2Write offset bytes poisoned) := rfl
theorem exec_bar2BaseWrite {s : State} (v : Word) (h : s.accepts A.topBar2Base = true) :
    exec (.bar2BaseWrite v) s = .next (s.writeFields A.topBar2Base v) :=
  congrArg Host.Outcome.next (State.onAccess_accepted _ h)

/-! ### Reads -/

/-- What a read completes with at byte `i`, by what it finds there. -/
def State.barByte (s : State) (offset i : Nat) (part : BarPart) : Byte :=
  match part with
  | .data => s.galByte (s.barBase offset + i)
  | .zero => 0
  | .invalid => BitVec.ofNat 8 (Config.outside s.draw.1 / 256 ^ i)
  | .poison => BitVec.ofNat 8 (Config.outside s.draw.1 / 256 ^ i)

/-- What a read of `len` bytes finds. -/
def State.barParts (s : State) (offset len : Nat) : List BarPart := (List.range len).map (fun i => s.barRead (s.barBase offset + i))

/-- The bytes that a read completes with. -/
def State.barBytes (s : State) (offset len : Nat) : List Byte :=
  (s.barParts offset len).zipIdx.map (fun p => s.barByte offset p.2 p.1)

theorem State.barBytes_length (s : State) (offset len : Nat) : (s.barBytes offset len).length = len := by
  simp [State.barBytes, State.barParts]

theorem State.barBytes_getD (s : State) (offset : Nat) {len i : Nat} (h : i < len) :
    (s.barBytes offset len).getD i 0 = s.barByte offset i (s.barRead (s.barBase offset + i)) := by
  rw [State.barBytes, State.barParts, List.getD_eq_getElem?_getD, List.getElem?_map, List.getElem?_zipIdx, List.getElem?_map,
    List.getElem?_range h, Option.map_some, Option.map_some, Option.map_some, Option.getD_some, Nat.zero_add]

/-- A read that meets no poisoned codeword answers its bytes; an invalid unit is counted and reported. -/
theorem State.bar2Read_unpoisoned {s : State} {offset len : Nat} (hclean : ∀ i, i < len → s.barRead (s.barBase offset + i) ≠ .poison)
    (invalid : Bool) (hinvalid : (s.barParts offset len).contains .invalid = invalid) :
    s.bar2Read offset len = if invalid then
      ((s.draw.2.bump (A.galCnt 7)).emit (.aer 1)).emit (.bar2Data offset (s.barBytes offset len) true)
      else s.emit (.bar2Data offset (s.barBytes offset len) false) := by
  have hpoison : (s.barParts offset len).zipIdx.filter (fun p => p.1 = BarPart.poison) = [] := by
    refine List.filter_eq_nil_iff.mpr fun p hp => ?_
    obtain ⟨i, hi, hpart⟩ := List.mem_map.mp (List.fst_mem_of_mem_zipIdx hp)
    rw [← hpart]
    simpa using hclean i (List.mem_range.mp hi)
  unfold State.barParts at hpoison hinvalid
  unfold State.bar2Read
  simp only [hpoison, hinvalid, List.map_nil, List.eraseDups_nil, List.isEmpty_nil, List.foldl_nil, Bool.true_and, Bool.not_true,
    Bool.false_or]
  cases invalid with
  | false => rfl
  | true => rfl

/-! ### Writes -/

/-- The maximal runs of permitted bytes, stored one after another, store each permitted byte in its place. -/
theorem Sparse.putList_runsOf (ok : Nat → Bool) (bs : List Byte) (a : Nat) (m : Sparse Byte) (x : Nat) :
    ((runsOf ok a bs).foldl (fun m w => m.putList zeroByte w.1 w.2) m).get zeroByte x =
      if a ≤ x ∧ x < a + bs.length ∧ ok x = true then bs.getD (x - a) 0 else m.get zeroByte x := by
  induction bs generalizing a m with
  | nil => rw [if_neg (by simp; omega)]; rfl
  | cons b r ih =>
    -- the head is stored before the runs of the rest, whether it opens a run or lengthens their first one
    have hstep : (runsOf ok a (b :: r)).foldl (fun m w => m.putList zeroByte w.1 w.2) m =
        (runsOf ok (a + 1) r).foldl (fun m w => m.putList zeroByte w.1 w.2) (if ok a then m.put zeroByte a b else m) := by
      rw [runsOf]
      cases ok a with
      | false => rfl
      | true =>
        simp only [if_true]
        cases runsOf ok (a + 1) r with
        | nil => rfl
        | cons w rest =>
          obtain ⟨k, l⟩ := w
          by_cases hk : k = a + 1
          · subst hk
            simp only [if_true]
            rfl
          · simp only [if_neg hk]
            rfl
    rw [hstep, ih, List.length_cons]
    by_cases hx : x = a
    · subst hx
      rw [if_neg (by omega)]
      cases hok : ok x with
      | false => simp
      | true => simp
    · have hkeep : (if ok a then m.put zeroByte a b else m).get zeroByte x = m.get zeroByte x := by
        split
        · exact Sparse.get_put_ne _ _ _ hx
        · rfl
      rw [hkeep]
      by_cases hin : a + 1 ≤ x ∧ x < a + 1 + r.length ∧ ok x = true
      · obtain ⟨hlo, hhi, hok⟩ := hin
        rw [if_pos ⟨hlo, hhi, hok⟩, if_pos ⟨by omega, by omega, hok⟩, show x - a = x - (a + 1) + 1 by omega, List.getD_cons_succ]
      · rw [if_neg hin, if_neg fun h => hin ⟨by omega, by omega, h.2.2⟩]

/-- Stores one after another change the bytes and what of codewords is poisoned. -/
theorem State.foldl_galStore (ws : List (Nat × List Byte)) (s : State) :
    ∃ poison, ws.foldl (fun s w => s.galStore w.1 w.2) s =
      { s with gallery := ws.foldl (fun m w => m.putList zeroByte w.1 w.2) s.gallery, gal := { s.gal with poison := poison } } := by
  induction ws generalizing s with
  | nil => exact ⟨s.gal.poison, rfl⟩
  | cons w ws ih =>
    obtain ⟨poison, hstored⟩ := ih (s.galStore w.1 w.2)
    exact ⟨poison, hstored⟩

/-- The permitted bytes of a write have been stored. -/
structure BarStored (offset : Nat) (bytes : List Byte) (s u : State) : Prop where
  only : ∃ gallery poison, u = { s with gallery := gallery, gal := { s.gal with poison := poison } }
  galByte : ∀ x, u.galByte x = if s.barBase offset ≤ x ∧ x < s.barBase offset + bytes.length ∧ s.barWritable x = true then
    bytes.getD (x - s.barBase offset) 0 else s.galByte x

theorem State.bar2Write_good (s : State) (offset : Nat) (bytes : List Byte) : ∃ u, BarStored offset bytes s u ∧
    s.bar2Write offset bytes false =
      if (List.range bytes.length).any (fun i => !s.barWritable (s.barBase offset + i)) then u.accessError 4 offset else u := by
  obtain ⟨poison, hstored⟩ := State.foldl_galStore (runsOf s.barWritable (s.barBase offset) bytes) s
  refine ⟨_, ⟨⟨_, poison, hstored⟩, fun x => ?_⟩, ?_⟩
  · rw [hstored]
    exact Sparse.putList_runsOf s.barWritable bytes (s.barBase offset) s.gallery x
  · rw [State.bar2Write]
    exact if_neg Bool.false_ne_true

/-! ### The base -/

/-- A field of writable bits takes its value as the row's ranges hold it. -/
theorem RegRow.fld_effective (r : RegRow) (old v : Word) {lo n : Nat} (h : lo + n ≤ 32)
    (htake : ∀ k, k < n → Nat.testBit (Nat.lor r.rw r.wo) (lo + k) = true) :
    fld (r.effective old v) lo n = fld (r.clampAll v) lo n := by
  refine Nat.eq_of_testBit_eq fun k => ?_
  rw [fld_testBit, fld_testBit]
  by_cases hk : k < n
  · rw [r.effective_getLsbD old v (by omega), if_pos (htake k hk)]
  · rw [decide_eq_false hk, Bool.false_and, Bool.false_and]

/-- The base of BAR2 is held to 572 GiB, so that the window ends with the Gallery (R336). -/
theorem State.bar2Base_writeFields (s : State) (v : Word) :
    (s.writeFields A.topBar2Base v).f A.topBar2Base 0 10 = min 572 (fld v 0 10) ∧
      SameRegs [A.topBar2Base] s (s.writeFields A.topBar2Base v) := by
  obtain ⟨r, i, j, hrow, htake, hclamps⟩ : ∃ r i j, regAt A.topBar2Base = some (r, i, j) ∧
      (∀ k, k < 10 → Nat.testBit (Nat.lor r.rw r.wo) (0 + k) = true) ∧ r.clamps = [⟨0, 10, 0, 572⟩] :=
    ⟨_, _, _, rfl, by decide, rfl⟩
  constructor
  · rw [State.f, State.writeFields_reg v hrow, if_pos rfl, r.fld_effective _ _ (by decide) htake]
    simp only [RegRow.clampAll, hclamps, List.foldl]
    rw [fld_setFld_same _ _ _ _ (by decide), clamp, if_neg (Nat.not_lt_zero _)]
    split <;> omega
  · intro a ha
    have hne : a ≠ A.topBar2Base := by simpa using ha
    rw [State.writeFields_reg v hrow, State.writeFields_sreg v hrow, if_neg hne, if_neg hne]
    exact ⟨rfl, rfl⟩

/-- Settles O32: a read by the parts it finds, a write by the runs that are permitted, the base by its range. -/
theorem bar2ReachesWhatItMay : Obligations.Bar2ReachesWhatItMay := by
  refine ⟨fun s offset len hparts => ?_, fun s offset len i hi hinvalid hclean => ?_, fun s offset bytes => ?_, fun s offset bytes => ?_,
    fun s v haccepts => ?_⟩
  · have hclean (i : Nat) (hi : i < len) : s.barRead (s.barBase offset + i) ≠ .poison := by
      obtain h | h := hparts i hi <;> rw [h] <;> exact nofun
    have hvalid : (s.barParts offset len).contains .invalid = false := by
      rw [List.contains_eq_mem, decide_eq_false_iff_not]
      intro hmem
      obtain ⟨i, hi, hpart⟩ := List.mem_map.mp hmem
      obtain h | h := hparts i (List.mem_range.mp hi) <;> rw [h] at hpart <;> cases hpart
    have hrun := exec_bar2Read s offset len
    rw [State.bar2Read_unpoisoned hclean false hvalid, if_neg Bool.false_ne_true] at hrun
    refine ⟨_, s.barBytes offset len, hrun, rfl, s.barBytes_length offset len, fun i hi => ?_, SameBytes.refl s, ⟨rfl, rfl, rfl, rfl, rfl, rfl⟩,
      SameLines.refl s, ⟨rfl, rfl⟩, ⟨rfl, rfl, rfl, rfl, rfl, rfl⟩, ⟨rfl, rfl, rfl, rfl⟩, fun _ _ => ⟨rfl, rfl⟩⟩
    rw [s.barBytes_getD offset hi]
    obtain h | h := hparts i hi <;> rw [h] <;> rfl
  · have hmem : (s.barParts offset len).contains .invalid = true := by
      rw [List.contains_eq_mem, decide_eq_true_iff]
      exact List.mem_map.mpr ⟨i, List.mem_range.mpr hi, hinvalid⟩
    have hrun := exec_bar2Read s offset len
    rw [State.bar2Read_unpoisoned hclean true hmem, if_pos rfl] at hrun
    refine ⟨_, s.barBytes offset len, hrun, ?_, State.reg_bump_same s.draw.2 _, SameBytes.refl s, ⟨rfl, rfl, rfl, rfl, rfl, rfl⟩,
      SameLines.refl s, ⟨rfl, rfl⟩, ⟨rfl, rfl, rfl, rfl, rfl, rfl⟩, ⟨rfl, rfl, rfl, rfl⟩, fun a ha => ⟨?_, rfl⟩⟩
    · exact List.append_assoc s.outbox _ _
    · exact State.reg_bump_ne s.draw.2 (by simpa using ha)
  · obtain ⟨u, ⟨⟨gallery, poison, hu⟩, hbyte⟩, hwrite⟩ := s.bar2Write_good offset bytes
    have hrun := exec_bar2Write s offset bytes false
    rw [hwrite] at hrun
    have hreports : OnlyReports u (if (List.range bytes.length).any (fun i => !s.barWritable (s.barBase offset + i)) then
        u.accessError 4 offset else u) := by
      split
      · exact OnlyReports.accessError u 4 offset
      · exact OnlyReports.refl u
    obtain ⟨hregs, ⟨hgal, hbar, hhost, -⟩, ⟨hque, hcle, hrue, hlnd, hbooks, -⟩, hlines, hlight, hbase, -⟩ := hreports
    refine ⟨_, hrun, fun i hi => ?_, fun a ha => ?_, fun hall => ?_, ?_⟩
    · rw [hgal, hbyte, Nat.add_sub_cancel_left]
      simp only [Nat.le_add_right, Nat.add_lt_add_left hi, true_and]
    · rw [hgal, hbyte, if_neg (by omega)]
    · have hany : (List.range bytes.length).any (fun i => !s.barWritable (s.barBase offset + i)) = false := by
        rw [List.any_eq_false]
        intro i hi
        rw [hall i (List.mem_range.mp hi)]
        exact Bool.false_ne_true
      rw [if_neg (by rw [hany]; exact Bool.false_ne_true), hu]
      exact ⟨⟨rfl, rfl, rfl, rfl⟩, fun _ _ => ⟨rfl, rfl⟩, rfl⟩
    · have hvalid := congrArg Gallery.valid hbooks
      rw [hu] at hregs hbar hhost hque hcle hrue hlnd hvalid hlines hlight hbase ⊢
      exact ⟨hbar, hhost, hlines, hlight, hbase, hque, hcle, hrue, hlnd, hvalid, hregs⟩
  · have hrun := exec_bar2Write s offset bytes true
    obtain ⟨hregs, hbytes, hengines, hlines, hlight, hbase, -⟩ := OnlyReports.accessError s 6 offset
    exact ⟨_, hrun, s.accessError_count 6 offset, hbytes, hengines, hlines, hlight, hbase, hregs⟩
  · obtain ⟨hf, hregs⟩ := s.bar2Base_writeFields v
    obtain ⟨hbytes, hengines, hlines, hlight, hbase, hhost⟩ := (OnlyRegs.writeFields s A.topBar2Base v).frame
    exact ⟨_, exec_bar2BaseWrite v haccepts, hf, hbytes, hengines, hlines, hlight, hbase, hhost, hregs⟩

end Sys2Proof.Machine
end


section
/-! What the commands of a refill touch: its set, the units that it moves, the line that carries its messages, and its registers
(06_gallery.md R126-R131). -/
namespace Sys2Proof.Machine

/-! ### The sets that run -/

@[simp] theorem State.refill_setRefill (s : State) (n : Nat) (r : Refill) : (s.setRefill n r).refill n = some r := by
  rw [State.refill, State.setRefill]
  simp only [Sparse.find?_insert_same, Option.map_some]

theorem State.refill_of_refills_eq {s t : State} (h : t.gal.refills = s.gal.refills) (n : Nat) : t.refill n = s.refill n := by
  rw [State.refill, State.refill, h]

/-- A set that some test finds runs. -/
theorem State.refill_of_find {s : State} {p : Nat × Refill → Bool} {n : Nat} {r : Refill} (h : s.gal.refills.find? p = some (n, r)) :
    ∃ r', s.refill n = some r' := by
  obtain ⟨e, he⟩ : ∃ e, s.gal.refills.find? (fun e => e.1 = n) = some e :=
    Option.isSome_iff_exists.mp (List.find?_isSome.mpr ⟨(n, r), List.mem_of_find?_eq_some h, by simp⟩)
  exact ⟨e.2, by rw [State.refill, he, Option.map_some]⟩

/-! ### Messages -/

theorem OnlyCells.sendLine (s : State) (node vc ptype : Nat) (bytes : List Byte) : OnlyCells s (s.sendLine node vc ptype bytes) := by
  unfold State.sendLine
  split
  · exact OnlyCells.refl s
  · exact (OnlyCells.setTx s _ _).trans (OnlyCells.feed _ _ _ _ _)

theorem OnlyCells.sendRefill (s : State) (r : Refill) (bytes : List Byte) : OnlyCells s (s.sendRefill r bytes) := OnlyCells.sendLine s _ _ _ _

/-- What moving cells leaves as it was. -/
theorem OnlyCells.frame {s t : State} (h : OnlyCells s t) :
    SameBytes s t ∧ SameEngines s t ∧ t.ports = s.ports ∧ t.sec = s.sec ∧ SameLight s t ∧ SameBase s t ∧ SameHost s t := by
  rw [h.1]
  exact ⟨SameBytes.refl s, ⟨rfl, rfl, rfl, rfl, rfl, rfl⟩, rfl, rfl, ⟨rfl, rfl⟩, ⟨rfl, rfl, rfl, rfl, rfl, rfl⟩, ⟨rfl, rfl, rfl, rfl⟩⟩

theorem OnlyCells.gal {s t : State} (h : OnlyCells s t) : t.gal = s.gal := by rw [h.1]

/-- The Gallery's registers are no counters of cells. -/
theorem isCellCount_gal {a : Nat} (hlo : 0x900000 ≤ a) (hhi : a < 0xA00000) : isCellCount a = false := by
  simp only [isCellCount, A.secCnt, A.schedCnt, List.contains_cons, List.contains_nil, Bool.or_false, Bool.or_eq_false_iff,
    beq_eq_false_iff_ne]
  omega

/-! ### The outcome of a set (R130) -/

theorem OnlyRegs.raiseVector (s : State) (v : Nat) : OnlyRegs s (s.raiseVector v) := by
  unfold State.raiseVector State.sendVector
  split
  · exact OnlyRegs.setF s _ _ _ _
  · exact (OnlyRegs.setF s _ _ _ _).trans (OnlyRegs.emit _ _)

/-- The outcome is shown in the set's registers, and its vector raised. -/
theorem State.refillOutcome_spec (s : State) {n : Nat} (hn : n < 4) (code : Nat) (lost : Option (Nat × Nat)) :
    let t := s.refillOutcome n code lost
    OnlyRegs s t ∧ t.reg (A.galRefillStatus n) = BitVec.ofNat 32 code ∧ t.reg (A.galRefillDone n) = s.reg (A.galRefillDone n) := by
  let u : State := s.setReg (A.galRefillStatus n) (BitVec.ofNat 32 code)
  have hlost (x y : Word) : let v := (u.setReg (A.galRefillLostFirst n) x).setReg (A.galRefillLostCount n) y
      OnlyRegs s v ∧ v.reg (A.galRefillStatus n) = BitVec.ofNat 32 code ∧ v.reg (A.galRefillDone n) = s.reg (A.galRefillDone n) := by
    refine ⟨rfl, ?_, ?_⟩
    · rw [State.reg_setReg_ne _ _ (by unfold A.galRefillStatus A.galRefillLostCount; omega),
        State.reg_setReg_ne _ _ (by unfold A.galRefillStatus A.galRefillLostFirst; omega), State.reg_setReg_same]
    · rw [State.reg_setReg_ne _ _ (by unfold A.galRefillDone A.galRefillLostCount; omega),
        State.reg_setReg_ne _ _ (by unfold A.galRefillDone A.galRefillLostFirst; omega),
        State.reg_setReg_ne _ _ (by unfold A.galRefillDone A.galRefillStatus; omega)]
  have hraise {v : State} (h : OnlyRegs s v ∧ v.reg (A.galRefillStatus n) = BitVec.ofNat 32 code ∧
      v.reg (A.galRefillDone n) = s.reg (A.galRefillDone n)) : let t := v.raiseVector (v.f (A.galRefillCtrl n) 16 9)
      OnlyRegs s t ∧ t.reg (A.galRefillStatus n) = BitVec.ofNat 32 code ∧ t.reg (A.galRefillDone n) = s.reg (A.galRefillDone n) := by
    obtain ⟨honly, hstatus, hdone⟩ := h
    refine ⟨honly.trans (OnlyRegs.raiseVector v _), ?_, ?_⟩
    · exact (v.raiseVector_reg_above (fld_lt _ 16 9) (by unfold A.galRefillStatus; omega)).trans hstatus
    · exact (v.raiseVector_reg_above (fld_lt _ 16 9) (by unfold A.galRefillDone; omega)).trans hdone
  unfold State.refillOutcome
  cases lost with
  | none => exact hraise (hlost 0 0)
  | some l => exact hraise (hlost _ _)

/-- The state in which a set runs no more. -/
def State.refillEnds (s : State) (n : Nat) : State := { s with gal := { s.gal with refills := s.gal.refills.erase n } }

theorem State.refill_refillEnds_same (s : State) (n : Nat) : (s.refillEnds n).refill n = none := by
  rw [State.refill, State.refillEnds]
  dsimp only
  rw [Sparse.find?_erase_same, Option.map_none]

theorem Sparse.find?_erase_ne {V : Type} (m : Sparse V) {j k : Nat} (h : j ≠ k) :
    (Sparse.erase m k).find? (fun e => e.1 = j) = m.find? (fun e => e.1 = j) := by
  rw [Sparse.erase, List.find?_filter]
  refine List.find?_congr fun e _ => ?_
  by_cases he : e.1 = j
  · simp [he, h]
  · simp [he]

theorem State.refill_refillEnds_ne (s : State) {k n : Nat} (h : k ≠ n) : (s.refillEnds n).refill k = s.refill k := by
  rw [State.refill, State.refill, State.refillEnds]
  dsimp only
  rw [Sparse.find?_erase_ne _ h]

/-- Set `n` of `s` runs no more and shows `code`; beside its registers and the faces nothing else has changed. -/
structure RefillEnded (n code : Nat) (s t : State) : Prop where
  only : OnlyRegs (s.refillEnds n) t
  status : t.reg (A.galRefillStatus n) = BitVec.ofNat 32 code
  done : t.reg (A.galRefillDone n) = s.reg (A.galRefillDone n)

section
variable {n code : Nat} {s t : State} (h : RefillEnded n code s t)
include h

theorem RefillEnded.gal : t.gal = (s.refillEnds n).gal := by
  obtain ⟨-, ⟨-, -, -, -, hgal, -⟩, -⟩ := h.only.frame
  exact hgal

theorem RefillEnded.refill_same : t.refill n = none :=
  (State.refill_of_refills_eq (congrArg Gallery.refills h.gal) n).trans (s.refill_refillEnds_same n)

theorem RefillEnded.refill_ne {k : Nat} (hk : k ≠ n) : t.refill k = s.refill k :=
  (State.refill_of_refills_eq (congrArg Gallery.refills h.gal) k).trans (s.refill_refillEnds_ne hk)

theorem RefillEnded.valid : t.gal.valid = s.gal.valid := (congrArg Gallery.valid h.gal).trans rfl
theorem RefillEnded.poison : t.gal.poison = s.gal.poison := (congrArg Gallery.poison h.gal).trans rfl

/-- What the end of a set leaves as it was. -/
theorem RefillEnded.frame : SameBytes s t ∧ SameLines s t ∧ SameLight s t ∧ SameBase s t ∧ SameHost s t ∧ t.que = s.que ∧
    t.cle = s.cle ∧ t.rue = s.rue ∧ t.lnd = s.lnd := by
  obtain ⟨hbytes, ⟨hque, hcle, hrue, hlnd, -⟩, hlines, hlight, hbase, hhost⟩ := h.only.frame
  exact ⟨hbytes, hlines, hlight, hbase, hhost, hque, hcle, hrue, hlnd⟩

end

/-- A set that ends without a message to the other end. -/
theorem RefillEnded.quiet {s : State} {n : Nat} {r : Refill} (hn : n < 4) (h : s.refill n = some r) (code : Nat) (whole : Bool) :
    RefillEnded n code s (s.endRefill n code whole false) := by
  have hrun : s.endRefill n code whole false = (s.refillEnds n).refillOutcome n code (r.remaining whole) := by
    simp only [State.endRefill, h]
    rfl
  obtain ⟨honly, hstatus, hdone⟩ := (s.refillEnds n).refillOutcome_spec hn code (r.remaining whole)
  rw [hrun]
  exact ⟨honly, hstatus, hdone⟩

/-- A set that ends and tells the other end: cells are queued before. -/
theorem RefillEnded.told {s : State} {n : Nat} {r : Refill} (hn : n < 4) (h : s.refill n = some r) (code : Nat) (whole : Bool) :
    ∃ u, OnlyCells s u ∧ RefillEnded n code u (s.endRefill n code whole true) := by
  have hsent := OnlyCells.sendRefill s r (refillMsg 0x23 code r.id r.next r.units 0)
  have hrefill := (State.refill_of_refills_eq (congrArg Gallery.refills hsent.gal) n).trans h
  have hrun : s.endRefill n code whole true =
      (s.sendRefill r (refillMsg 0x23 code r.id r.next r.units 0)).endRefill n code whole false := by
    simp only [State.endRefill, h, hrefill]
    rfl
  rw [hrun]
  exact ⟨_, hsent, RefillEnded.quiet hn hrefill code whole⟩

end Sys2Proof.Machine
end

section
/-! A refill moves units and ends (06_gallery.md R129, R130). -/
namespace Sys2Proof.Machine

/-! ### Messages are taken -/

/-- The state in which a message that came over the line has been taken. -/
def State.takesMessage (s : State) (node : Nat) (msg : List Byte) : State :=
  s.takePacket (fun p => p.line && decide (p.ptype = 2) && decide (p.node = node) && decide (p.bytes = msg))

theorem exec_refillRequestReceive (s : State) (node : Nat) (msg : List Byte) :
    exec (.refillRequestReceive node msg) s = .next ((s.takesMessage node msg).refillRequested node msg) := rfl
theorem exec_refillUnitReceive (s : State) (node : Nat) (msg : List Byte) :
    exec (.refillUnitReceive node msg) s = .next ((s.takesMessage node msg).refillUnitCame node msg) := rfl
theorem exec_refillAckReceive (s : State) (node : Nat) (msg : List Byte) :
    exec (.refillAckReceive node msg) s = .next ((s.takesMessage node msg).refillAcked node msg) := rfl
theorem exec_refillEndReceive (s : State) (node : Nat) (msg : List Byte) :
    exec (.refillEndReceive node msg) s = .next ((s.takesMessage node msg).refillEnded node msg) := rfl
theorem exec_refillRequestTimer (s : State) (n : Fin 4) : exec (.refillRequestTimer n) s = .next (s.refillAsks n) := rfl
theorem exec_refillAckTimer (s : State) (n : Fin 4) : exec (.refillAckTimer n) s = .next (s.refillAcks n) := rfl

theorem exec_refillPeerLost {s : State} {n : Fin 4} {r : Refill} (h : s.refill n = some r) (hlost : s.refillSilent r = true) :
    exec (.refillPeerLost n) s = .next (s.endRefill n (if r.source then stAborted else stStateLost) false false) := by
  have hrun : exec (.refillPeerLost n) s = execRefillPeerLost n s := rfl
  rw [hrun, execRefillPeerLost]
  simp only [h, hlost, if_true, State.refillPeerGone]

theorem exec_refillKeyTimeout {s : State} {n : Fin 4} {r : Refill} (h : s.refill n = some r) (hlost : s.refillUnkeyed r = true) :
    exec (.refillKeyTimeout n) s = .next (s.endRefill n stKeyAbsent false false) := by
  have hrun : exec (.refillKeyTimeout n) s = execRefillKeyTimeout n s := rfl
  rw [hrun, execRefillKeyTimeout]
  simp only [h, hlost, if_true]

/-! ### A source sends units -/

/-- Bytes, light, queues, collectives, reduction engines and Landing stay. -/
def OnlyRefill (s t : State) : Prop :=
  SameBytes s t ∧ SameLight s t ∧ t.que = s.que ∧ t.cle = s.cle ∧ t.rue = s.rue ∧ t.lnd = s.lnd

section
variable {s t u : State}

theorem OnlyRefill.refl (s : State) : OnlyRefill s s := ⟨SameBytes.refl s, ⟨rfl, rfl⟩, rfl, rfl, rfl, rfl⟩

theorem OnlyRefill.trans (h : OnlyRefill s t) (g : OnlyRefill t u) : OnlyRefill s u := by
  obtain ⟨hbytes, ⟨hopt, hdfl⟩, hque, hcle, hrue, hlnd⟩ := h
  obtain ⟨gbytes, ⟨gopt, gdfl⟩, gque, gcle, grue, glnd⟩ := g
  exact ⟨hbytes.trans gbytes, ⟨gopt.trans hopt, gdfl.trans hdfl⟩, gque.trans hque, gcle.trans hcle, grue.trans hrue, glnd.trans hlnd⟩

theorem OnlyCells.onlyRefill (h : OnlyCells s t) : OnlyRefill s t := by
  obtain ⟨hbytes, ⟨hque, hcle, hrue, hlnd, -⟩, -, -, hlight, -⟩ := h.frame
  exact ⟨hbytes, hlight, hque, hcle, hrue, hlnd⟩

theorem OnlyReports.onlyRefill (h : OnlyReports s t) : OnlyRefill s t := by
  obtain ⟨-, hbytes, ⟨hque, hcle, hrue, hlnd, -⟩, -, hlight, -⟩ := h
  exact ⟨hbytes, hlight, hque, hcle, hrue, hlnd⟩

theorem OnlyRefill.gal (s : State) (g : Gallery) : OnlyRefill s { s with gal := g } := OnlyRefill.refl s
theorem OnlyRefill.bump (s : State) (a : Nat) : OnlyRefill s (s.bump a) := OnlyRefill.refl s

theorem OnlyRefill.noteUncorrectable (s : State) (cw code : Nat) : OnlyRefill s (s.noteUncorrectable cw code) := by
  unfold State.noteUncorrectable
  dsimp only
  refine OnlyRefill.trans (OnlyRefill.trans ?_ (OnlyRefill.gal _ _)) (OnlyReports.logEvent _ _).onlyRefill
  split
  · exact OnlyRefill.bump s _
  · exact OnlyRefill.bump s _

end

/-- A set goes on from unit `r.next` to `next`, and is otherwise the same set. -/
structure Refill.MovesTo (r r' : Refill) (next : Nat) : Prop where
  next : r'.next = next
  ack : r'.ack = r.ack
  id : r'.id = r.id
  base : r'.base = r.base
  units : r'.units = r.units

/-- Within its window a source sends its next unit, lost or read, and goes on. -/
theorem State.sendUnits_step {s : State} {n k : Nat} {r : Refill} (h : s.refill n = some r) (hroom : r.next < min r.units (r.ack + 524288)) :
    ∃ u t, OnlyRefill s u ∧ u.refill n = some t ∧ r.MovesTo t (r.next + 1) ∧ s.sendUnits n (k + 1) = u.sendUnits n k := by
  have hsent (v : State) (t : Refill) (bytes : List Byte) (hv : OnlyRefill s v) :
      OnlyRefill s ((v.setRefill n t).sendRefill r bytes) ∧ ((v.setRefill n t).sendRefill r bytes).refill n = some t := by
    have hcells := OnlyCells.sendRefill (v.setRefill n t) r bytes
    exact ⟨(hv.trans (OnlyRefill.gal v _)).trans hcells.onlyRefill,
      (State.refill_of_refills_eq (congrArg Gallery.refills hcells.gal) n).trans (v.refill_setRefill n t)⟩
  have hopen : ¬ (r.units ≤ r.next ∨ r.ack + 524288 ≤ r.next) := by omega
  cases hbad : (s.firstPoison (r.base + r.next * 0x10000) 0x10000).isSome || !s.unitValid (s.refillUnit r + r.next) with
  | true =>
    have hread : ∃ v, OnlyRefill s v ∧ s.sendUnits n (k + 1) =
        ((v.setRefill n (Refill.loses { r with next := r.next + 1, lastSent := s.mono } r.next)).sendRefill r
          (refillMsg 0x20 0x50 r.id r.next r.units 0)).sendUnits n k := by
      rw [State.sendUnits]
      simp only [h, if_neg hopen, hbad, if_true]
      refine ⟨_, ?_, rfl⟩
      split
      · exact (OnlyRefill.noteUncorrectable s _ _).trans (OnlyRefill.gal _ _)
      · exact OnlyRefill.refl s
    obtain ⟨v, hv, hrun⟩ := hread
    have hmoves : r.MovesTo (Refill.loses { r with next := r.next + 1, lastSent := s.mono } r.next) (r.next + 1) := ⟨rfl, rfl, rfl, rfl, rfl⟩
    obtain ⟨honly, hset⟩ := hsent v _ _ hv
    exact ⟨_, _, honly, hset, hmoves, hrun⟩
  | false =>
    obtain ⟨honly, hset⟩ := hsent s { r with next := r.next + 1, lastSent := s.mono }
      (refillMsg 0x20 0 r.id r.next r.units (crc64 (s.galRead (r.base + r.next * 0x10000) 0x10000)) ++
        s.galRead (r.base + r.next * 0x10000) 0x10000) (OnlyRefill.refl s)
    refine ⟨_, _, honly, hset, ⟨rfl, rfl, rfl, rfl, rfl⟩, ?_⟩
    rw [State.sendUnits]
    simp only [h, if_neg hopen, hbad, Bool.false_eq_true, if_false]

/-- A source sends up to `fuel` units, in ascending order, while its window and its extent last. -/
theorem State.sendUnits_spec (fuel : Nat) {s : State} {n : Nat} {r : Refill} (h : s.refill n = some r) :
    OnlyRefill s (s.sendUnits n fuel) ∧ ∃ r', (s.sendUnits n fuel).refill n = some r' ∧
      r.MovesTo r' (max r.next (min (r.next + fuel) (min r.units (r.ack + 524288)))) := by
  induction fuel generalizing s r with
  | zero => exact ⟨OnlyRefill.refl s, r, h, by omega, rfl, rfl, rfl, rfl⟩
  | succ k ih =>
    by_cases hroom : r.next < min r.units (r.ack + 524288)
    · obtain ⟨u, t, honly, hset, ⟨hnext, hack, hid, hbase, hunits⟩, hrun⟩ := State.sendUnits_step (k := k) h hroom
      obtain ⟨hrest, r', hr', ⟨rnext, rack, rid, rbase, runits⟩⟩ := ih hset
      rw [hrun]
      refine ⟨honly.trans hrest, r', hr', ?_, rack.trans hack, rid.trans hid, rbase.trans hbase, runits.trans hunits⟩
      rw [rnext, hnext, hack, hunits]
      omega
    · have hstop : s.sendUnits n (k + 1) = s := by
        rw [State.sendUnits]
        simp only [h]
        rw [if_pos (by omega)]
      rw [hstop]
      exact ⟨OnlyRefill.refl s, r, h, by omega, rfl, rfl, rfl, rfl⟩

/-- A good REQUEST of the extent's length makes its source send from the unit named. -/
theorem State.refillRequested_good {s : State} {node n : Nat} {msg : List Byte} {r : Refill} (hok : refillOk 0x21 msg = true)
    (hfor : s.refillFor true node (rfId msg) = some (n, r)) (hunits : r.units = rfUnits msg) :
    OnlyRefill s (s.refillRequested node msg) ∧ ∃ r', (s.refillRequested node msg).refill n = some r' ∧
      Refill.MovesTo { r with next := rfUnit msg, ack := rfUnit msg } r' (max (rfUnit msg) (min r.units (rfUnit msg + 524288))) := by
  let t : Refill := { r with next := rfUnit msg, ack := rfUnit msg, seen := true, lastHeard := s.mono }
  have hrun : s.refillRequested node msg = (s.setRefill n t).sendUnits n (min 524288 (r.units - rfUnit msg)) := by
    simp only [State.refillRequested, hok, hfor, Bool.not_true, Bool.false_eq_true, if_false, if_pos hunits]
    rfl
  obtain ⟨honly, r', hr', ⟨hnext, hack, hid, hbase, hlen⟩⟩ :=
    State.sendUnits_spec (min 524288 (r.units - rfUnit msg)) (s.refill_setRefill n t)
  rw [hrun]
  refine ⟨(OnlyRefill.gal s _).trans honly, r', hr', hnext.trans ?_, hack, hid, hbase, hlen⟩
  show max (rfUnit msg) (min (rfUnit msg + _) (min r.units (rfUnit msg + 524288))) = _
  omega

/-! ### A sink takes a unit -/

theorem State.unitValid_of_valid_eq {s t : State} (h : t.gal.valid = s.gal.valid) (u : Nat) : t.unitValid u = s.unitValid u := by
  rw [State.unitValid, State.unitValid, h]

/-- The state in which unit `u` of a set has been stored, made valid and counted. -/
def State.storesUnit (s : State) (n u : Nat) (r : Refill) (data : List Byte) : State :=
  ((s.galStore (r.base + u * 0x10000) data).setUnit (s.refillUnit r + u) true).setReg (A.galRefillDone n) (BitVec.ofNat 32 (r.done + 1))

theorem State.storesUnit_galByte (s : State) (n u : Nat) (r : Refill) (data : List Byte) (a : Nat) :
    (s.storesUnit n u r data).galByte a =
      if r.base + u * 0x10000 ≤ a ∧ a < r.base + u * 0x10000 + data.length then data.getD (a - (r.base + u * 0x10000)) 0 else s.galByte a := by
  refine (Sparse.get_putList zeroByte data s.gallery (r.base + u * 0x10000) a).trans ?_
  split
  · rw [List.getD_eq_getElem _ _ (by omega)]
  · rfl

theorem State.storesUnit_unitValid (s : State) (n u : Nat) (r : Refill) (data : List Byte) (v : Nat) :
    (s.storesUnit n u r data).unitValid v = if v = s.refillUnit r + u then true else s.unitValid v :=
  (State.unitValid_setUnit (s.galStore (r.base + u * 0x10000) data) (s.refillUnit r + u) v true).trans rfl

/-- Storing a unit touches the Gallery and the set's DONE alone. -/
theorem State.storesUnit_eq (s : State) (n u : Nat) (r : Refill) (data : List Byte) :
    ∃ gallery gal regs, s.storesUnit n u r data = { s with gallery := gallery, gal := gal, regs := regs } := ⟨_, _, _, rfl⟩

/-- What taking a packet and storing its unit leaves as it was. -/
theorem State.storesUnit_rest (s : State) (node : Nat) (msg : List Byte) (n u : Nat) (r r0 : Refill) (data : List Byte) :
    let t := ((s.takesMessage node msg).setRefill n r0).storesUnit n u r data
    (∀ a, t.bar4Byte a = s.bar4Byte a) ∧ (∀ a, t.hostByte a = s.hostByte a) ∧ SameLight s t ∧ t.que = s.que ∧ t.cle = s.cle ∧
      t.rue = s.rue ∧ t.lnd = s.lnd ∧ SameLines s t := by
  obtain ⟨gallery, gal, regs, hstored⟩ := State.storesUnit_eq ((s.takesMessage node msg).setRefill n r0) n u r data
  dsimp only
  rw [hstored]
  exact ⟨fun _ => rfl, fun _ => rfl, ⟨rfl, rfl⟩, rfl, rfl, rfl, rfl, rfl, rfl, rfl, rfl⟩

/-- The sink's set once it has taken the unit that it expected. -/
def Refill.taken (r : Refill) (t : Nat) : Refill :=
  { r with seen := true, lastHeard := t, next := r.next + 1, fails := 0, done := r.done + 1 }

/-- A sink whose next unit is still to come stands at that unit. -/
theorem State.nextWanted_wanted {s : State} {r : Refill} {u : Nat} (h : s.unitValid (s.refillUnit r + u) = false) (fuel : Nat) :
    s.nextWanted r u fuel = u := by
  cases fuel with
  | zero => rfl
  | succ k =>
    rw [State.nextWanted, if_neg]
    rintro ⟨-, hvalid⟩
    rw [h] at hvalid
    cases hvalid

theorem State.sinkGoesOn_wanted {s : State} (n : Nat) {r : Refill} (h : s.unitValid (s.refillUnit r + r.next) = false) :
    s.sinkGoesOn n r = if r.units ≤ r.next then
      ((s.setRefill n r).sendRefill r (refillMsg 0x22 0 r.id r.next r.units 0)).endRefill n (if r.lost.isSome then stStateLost else stOk)
        true true else s.setRefill n r := by
  simp only [State.sinkGoesOn, State.nextWanted_wanted h]

/-- The good UNIT that a sink expects is stored, and the sink goes on or ends. -/
theorem State.refillUnitCame_expected {s : State} {node n : Nat} {msg : List Byte} {r : Refill} (hok : refillOk 0x20 msg = true)
    (hfor : s.refillFor false node (rfId msg) = some (n, r)) (hunit : rfUnit msg = r.next) (hstatus : rfStatus msg ≠ 0x50)
    (hlen : (msg.drop 28).length = 0x10000) (hcrc : crc64 (msg.drop 28) = rfCrc msg) (hnext : r.next < r.units) :
    ∃ r0, s.refillUnitCame node msg =
      ((s.setRefill n r0).storesUnit n r.next r (msg.drop 28)).sinkGoesOn n (r.taken s.mono) := by
  refine ⟨{ r with seen := true, lastHeard := s.mono }, ?_⟩
  simp only [State.refillUnitCame, hok, hfor, hunit, Bool.not_true, Bool.false_eq_true, if_false, Nat.not_le.mpr hnext, Nat.lt_irrefl,
    or_self, if_neg hstatus, if_pos (And.intro hlen hcrc)]
  rfl

theorem RefillEnded.onlyRefill {n code : Nat} {s t : State} (h : RefillEnded n code s t) : OnlyRefill s t := by
  obtain ⟨hbytes, -, hlight, -, -, hque, hcle, hrue, hlnd⟩ := h.frame
  exact ⟨hbytes, hlight, hque, hcle, hrue, hlnd⟩

/-- A sink that stands at a unit still to come waits for it; one that has taken its last unit, and lost none, ends with OK. -/
theorem State.sinkGoesOn_spec {s : State} {n : Nat} {r : Refill} (hn : n < 4) (hlost : r.lost = none)
    (h : s.unitValid (s.refillUnit r + r.next) = false) : let t := s.sinkGoesOn n r
    OnlyRefill s t ∧ t.gal.valid = s.gal.valid ∧ t.reg (A.galRefillDone n) = s.reg (A.galRefillDone n) ∧
      (r.next < r.units → t = s.setRefill n r) ∧ (r.units ≤ r.next → t.refill n = none ∧ t.reg (A.galRefillStatus n) = 0) := by
  dsimp only
  rw [State.sinkGoesOn_wanted n h]
  by_cases hlast : r.units ≤ r.next
  · have hsent := OnlyCells.sendRefill (s.setRefill n r) r (refillMsg 0x22 0 r.id r.next r.units 0)
    have hset := (State.refill_of_refills_eq (congrArg Gallery.refills hsent.gal) n).trans (s.refill_setRefill n r)
    obtain ⟨u, hcells, hended⟩ := RefillEnded.told hn hset stOk true
    have hdone : isCellCount (A.galRefillDone n) = false :=
      isCellCount_gal (by unfold A.galRefillDone; omega) (by unfold A.galRefillDone; omega)
    have hcells := hsent.trans hcells
    rw [if_pos hlast, hlost, Option.isSome_none, if_neg Bool.false_ne_true]
    exact ⟨((OnlyRefill.gal s _).trans hcells.onlyRefill).trans hended.onlyRefill,
      hended.valid.trans ((congrArg Gallery.valid hcells.gal).trans rfl), hended.done.trans ((hcells.2.2 _ hdone).trans rfl),
      fun hlt => absurd hlt (by omega), fun _ => ⟨hended.refill_same, hended.status⟩⟩
  · rw [if_neg hlast]
    exact ⟨OnlyRefill.gal s _, rfl, rfl, fun _ => rfl, fun hle => absurd hle hlast⟩

/-- The good UNIT that a sink expects is stored and counted, and the set goes on or ends with OK. -/
theorem State.refillUnitCame_stores {s : State} {node n : Nat} {msg : List Byte} {r : Refill} (hn : n < 4) (hok : refillOk 0x20 msg = true)
    (hfor : s.refillFor false node (rfId msg) = some (n, r)) (hunit : rfUnit msg = r.next) (hstatus : rfStatus msg ≠ 0x50)
    (hlen : (msg.drop 28).length = 0x10000) (hcrc : crc64 (msg.drop 28) = rfCrc msg) (hnext : r.next < r.units) (hlost : r.lost = none)
    (hwanted : s.unitValid (s.refillUnit r + r.next + 1) = false) :
    ∃ r0, let w := (s.setRefill n r0).storesUnit n r.next r (msg.drop 28)
      let t := s.refillUnitCame node msg
      OnlyRefill w t ∧ t.gal.valid = w.gal.valid ∧ t.reg (A.galRefillDone n) = BitVec.ofNat 32 (r.done + 1) ∧
        (r.next + 1 < r.units → t = w.setRefill n (r.taken s.mono)) ∧
        (r.next + 1 = r.units → t.refill n = none ∧ t.reg (A.galRefillStatus n) = 0) := by
  obtain ⟨r0, hcame⟩ := State.refillUnitCame_expected hok hfor hunit hstatus hlen hcrc hnext
  have hbase : ((s.setRefill n r0).storesUnit n r.next r (msg.drop 28)).stateBase = s.stateBase := by
    unfold State.stateBase State.f
    rw [State.storesUnit, State.reg_setReg_ne _ _ (by unfold A.galRefillDone A.galRegion; omega)]
    rfl
  have hcome : ((s.setRefill n r0).storesUnit n r.next r (msg.drop 28)).unitValid
      (((s.setRefill n r0).storesUnit n r.next r (msg.drop 28)).refillUnit (r.taken s.mono) + (r.taken s.mono).next) = false := by
    have hplace : ((s.setRefill n r0).storesUnit n r.next r (msg.drop 28)).refillUnit (r.taken s.mono) = s.refillUnit r := by
      rw [State.refillUnit, hbase]
      rfl
    rw [hplace, State.storesUnit_unitValid]
    have hat : s.refillUnit r + (r.taken s.mono).next = s.refillUnit r + r.next + 1 := rfl
    have hother : (s.setRefill n r0).refillUnit r = s.refillUnit r := rfl
    rw [hat, hother, if_neg (by omega)]
    exact hwanted
  obtain ⟨honly, hvalid, hdone, hgoes, hends⟩ := State.sinkGoesOn_spec (r := r.taken s.mono) hn hlost hcome
  refine ⟨r0, ?_⟩
  dsimp only
  rw [hcame]
  exact ⟨honly, hvalid, hdone.trans (State.reg_setReg_same _ _ _), hgoes, fun hlast => hends (le_of_eq hlast.symm)⟩

/-- A message after the set has been noted changes no more of the Gallery. -/
theorem State.notesSent_spec (s : State) (n : Nat) (r r' : Refill) (bytes : List Byte) : let t := (s.setRefill n r').sendRefill r bytes
    t.refill n = some r' ∧ t.gal.valid = s.gal.valid ∧ SameBytes s t ∧ SameLight s t ∧ SameBase s t ∧ SameHost s t ∧ t.que = s.que ∧
      t.cle = s.cle ∧ t.rue = s.rue ∧ t.lnd = s.lnd := by
  obtain ⟨hbytes, ⟨hque, hcle, hrue, hlnd, hgal, -⟩, -, -, hlight, hbase, hhost⟩ := (OnlyCells.sendRefill (s.setRefill n r') r bytes).frame
  exact ⟨(State.refill_of_refills_eq (congrArg Gallery.refills hgal) n).trans (s.refill_setRefill n r'),
    (congrArg Gallery.valid hgal).trans rfl, hbytes, hlight, hbase, hhost, hque, hcle, hrue, hlnd⟩

/-! ### Ends -/

/-- An ACK of every unit ends a source. -/
theorem State.refillAcked_all {s : State} {node n : Nat} {msg : List Byte} {r : Refill} (hok : refillOk 0x22 msg = true)
    (hfor : s.refillFor true node (rfId msg) = some (n, r)) (hall : r.units ≤ rfUnit msg) (hlost : r.lost = none) :
    ∃ r0, s.refillAcked node msg = (s.setRefill n r0).endRefill n stOk true false := by
  refine ⟨{ r with ack := max r.ack (rfUnit msg), seen := true, lastHeard := s.mono }, ?_⟩
  have hdone : r.units ≤ max r.ack (rfUnit msg) := by omega
  simp only [State.refillAcked, hok, hfor, Bool.not_true, Bool.false_eq_true, if_false, if_pos hdone, hlost, Option.isSome_none]

/-- Settles O31: each message and timer comes to units sent, a unit stored, one message queued or the set's end. -/
theorem refillsMoveUnitsUntilTheyEnd : Obligations.RefillsMoveUnitsUntilTheyEnd := by
  refine ⟨fun s node n msg r hn hok hfor hunits => ?_, fun s node n msg r hn hok hfor hunit hstatus hlen hcrc hnext hlost hwanted => ?_,
    fun s node n msg r hn hok hfor hall hlost => ?_, fun s node n msg r hn hok hfind => ?_, fun s n r hr hsink hseen hdue => ?_,
    fun s n r hr hsink hseen hdue => ?_, fun s n r hr hsilent => ?_, fun s n r hr hunkeyed => ?_⟩
  · obtain ⟨⟨hbytes, hlight, hque, hcle, hrue, hlnd⟩, r', hr', ⟨hnext, hack, hid, hbase, hlen⟩⟩ :=
      State.refillRequested_good (s := s.takesMessage node msg) hok hfor hunits
    exact ⟨_, r', exec_refillRequestReceive s node msg, hr', hack, hnext, hid, hbase, hlen, hbytes, hlight, hque, hcle, hrue, hlnd⟩
  · obtain ⟨r0, ⟨⟨hgal, hbar4, hhost, -⟩, hlight, hque, hcle, hrue, hlnd⟩, hvalid, hdone, hgoes, hends⟩ :=
      State.refillUnitCame_stores (s := s.takesMessage node msg) hn hok hfor hunit hstatus hlen hcrc hnext hlost hwanted
    have hbyte (a : Nat) := (hgal a).trans (State.storesUnit_galByte ((s.takesMessage node msg).setRefill n r0) n r.next r (msg.drop 28) a)
    have hunits (u : Nat) := (State.unitValid_of_valid_eq hvalid u).trans
      (State.storesUnit_unitValid ((s.takesMessage node msg).setRefill n r0) n r.next r (msg.drop 28) u)
    have hplace : ((s.takesMessage node msg).setRefill n r0).refillUnit r = s.refillUnit r := rfl
    rw [hlen] at hbyte
    rw [hplace] at hunits
    obtain ⟨wbar4, whost, ⟨wopt, wdfl⟩, wque, wcle, wrue, wlnd, wlines⟩ := s.storesUnit_rest node msg n r.next r r0 (msg.drop 28)
    refine ⟨_, exec_refillUnitReceive s node msg, fun i hi => ?_, fun a ha => ?_, ?_, fun u hu => ?_, hdone, fun hmore => ?_, hends,
      fun a => (hbar4 a).trans (wbar4 a), fun a => (hhost a).trans (whost a), ⟨hlight.1.trans wopt, hlight.2.trans wdfl⟩,
      hque.trans wque, hcle.trans wcle, hrue.trans wrue, hlnd.trans wlnd⟩
    · rw [hbyte, if_pos (by omega), Nat.add_sub_cancel_left, List.getD_eq_getElem?_getD, List.getElem?_drop, ← List.getD_eq_getElem?_getD]
    · rw [hbyte, if_neg (by omega)]
      rfl
    · rw [hunits, if_pos rfl]
    · rw [hunits, if_neg hu]
      rfl
    · rw [hgoes hmore]
      exact ⟨_, State.refill_setRefill _ _ _, rfl, rfl, rfl, wlines⟩
  · obtain ⟨r0, hend⟩ := State.refillAcked_all (s := s.takesMessage node msg) hok hfor hall hlost
    have hended := RefillEnded.quiet hn (((s.takesMessage node msg)).refill_setRefill n r0) stOk true
    obtain ⟨hbytes, hlines, hlight, -, -, hque, hcle, hrue, hlnd⟩ := hended.frame
    have hrun := exec_refillAckReceive s node msg
    rw [hend] at hrun
    exact ⟨_, hrun, hended.refill_same, hended.status, hended.valid, hended.poison, hbytes, hlines, hlight, hque, hcle, hrue, hlnd⟩
  · have hend : (s.takesMessage node msg).refillEnded node msg = (s.takesMessage node msg).endRefill n (rfStatus msg) false false := by
      have hfound : (s.takesMessage node msg).gal.refills.find? (fun e => decide (e.2.peer = node) && decide (e.2.id = rfId msg)) =
        some (n, r) := hfind
      simp only [State.refillEnded, hok, hfound, Bool.not_true, Bool.false_eq_true, if_false]
    obtain ⟨r0, hr0⟩ := State.refill_of_find (s := s.takesMessage node msg) hfind
    have hended := RefillEnded.quiet hn hr0 (rfStatus msg) false
    obtain ⟨hbytes, hlines, hlight, -, -, hque, hcle, hrue, hlnd⟩ := hended.frame
    have hrun := exec_refillEndReceive s node msg
    rw [hend] at hrun
    exact ⟨_, hrun, hended.refill_same, hended.status, hended.valid, hended.poison, hbytes, hlines, hlight, hque, hcle, hrue, hlnd⟩
  · have hdues : (!r.source && !r.seen && s.elapsed r.lastSent 10000000) = true := by rw [hsink, hseen, hdue]; rfl
    have hrun := exec_refillRequestTimer s n
    simp only [State.refillAsks, hr, if_pos hdues] at hrun
    exact ⟨_, hrun, s.notesSent_spec n r _ _⟩
  · have hdues : (!r.source && r.seen && s.elapsed r.lastSent 1000000) = true := by rw [hsink, hseen, hdue]; rfl
    have hrun := exec_refillAckTimer s n
    simp only [State.refillAcks, hr, if_pos hdues] at hrun
    exact ⟨_, hrun, s.notesSent_spec n r _ _⟩
  · have hended := RefillEnded.quiet n.isLt hr (if r.source then stAborted else stStateLost) false
    obtain ⟨hbytes, hlines, hlight, hbase, -, hque, hcle, hrue, hlnd⟩ := hended.frame
    refine ⟨_, exec_refillPeerLost hr hsilent, hended.refill_same, hended.status.trans ?_, hended.valid, hbytes, hlines, hlight, hbase,
      hque, hcle, hrue, hlnd⟩
    cases r.source <;> rfl
  · have hended := RefillEnded.quiet n.isLt hr stKeyAbsent false
    obtain ⟨hbytes, hlines, hlight, hbase, -, hque, hcle, hrue, hlnd⟩ := hended.frame
    exact ⟨_, exec_refillKeyTimeout hr hunkeyed, hended.refill_same, hended.status, hended.valid, hbytes, hlines, hlight, hbase,
      hque, hcle, hrue, hlnd⟩

end Sys2Proof.Machine
end

section
/-! START and STOP of a refill set (06_gallery.md R126, R129, R131). -/
namespace Sys2Proof.Machine

/-! ### A write of GAL_REFILL_CTRL_n -/

/-- The state in which a set that does not run has taken the fields of its control register. -/
def State.writesRefill (s : State) (n : Nat) (v : Word) : State := s.wakeEvent.writeFields (A.galRefillCtrl n) v

/-- SOURCE of GAL_REFILL_CTRL_n is a bit that a write takes, and no stored range covers it. -/
theorem refillCtrl_row (n : Fin 4) : ∃ r : RegRow, ∃ i j, regAt (A.galRefillCtrl n) = some (r, i, j) ∧
    Nat.testBit (Nat.lor r.rw r.wo) 0 = true ∧ r.clamps = [] := by
  have h : ∀ n : Fin 4, (regAt (A.galRefillCtrl n)).map (fun x => (Nat.testBit (Nat.lor x.1.rw x.1.wo) 0, x.1.clamps)) = some (true, []) := by
    decide
  obtain ⟨⟨r, i, j⟩, hrow, hr⟩ := Option.map_eq_some_iff.mp (h n)
  exact ⟨r, i, j, hrow, congrArg Prod.fst hr, congrArg Prod.snd hr⟩

theorem State.writesRefill_eq (s : State) (n : Nat) (v : Word) :
    ∃ power regs staged, s.writesRefill n v = { s with power := power, regs := regs, staged := staged } := by
  let stores (t : State) : State := { t with regs := (s.writesRefill n v).regs, staged := (s.writesRefill n v).staged }
  exact ⟨s.wakeEvent.power, _, _, (State.writeFields_eq s.wakeEvent _ v).trans (congrArg stores s.wakeEvent_power)⟩

/-- SOURCE is stored as it was written. -/
theorem State.writesRefill_source (s : State) (n : Fin 4) (v : Word) : (s.writesRefill n v).b (A.galRefillCtrl n) 0 = bit v 0 := by
  obtain ⟨r, i, j, hrow, htake, hclamps⟩ := refillCtrl_row n
  rw [State.writesRefill, State.b, bit_eq_getLsbD, bit_eq_getLsbD, State.writeFields_reg v hrow, if_pos rfl,
    r.effective_getLsbD _ _ (by omega), htake, if_pos rfl, RegRow.clampAll_nil v hclamps]

theorem State.writesRefill_reg_ne (s : State) (n : Fin 4) (v : Word) {a : Nat} (h : a ≠ A.galRefillCtrl n) :
    (s.writesRefill n v).reg a = s.reg a := by
  obtain ⟨r, i, j, hrow, -, -⟩ := refillCtrl_row n
  rw [State.writesRefill, State.writeFields_reg v hrow, if_neg h, State.wakeEvent_reg]

section
variable (s : State) (n : Fin 4) (v : Word)

theorem SameRest.wakeEvent : SameRest s s.wakeEvent := by
  rw [State.wakeEvent_power]
  exact SameRest.refl s

theorem SameRest.writesRefill : SameRest s (s.writesRefill n v) := (SameRest.wakeEvent s).trans (SameRest.writeFields _ _ _)

theorem State.writesRefill_gal : (s.writesRefill n v).gal = s.gal := by
  obtain ⟨-, ⟨-, -, -, -, hgal, -⟩, -⟩ := SameRest.writesRefill s n v
  exact hgal

theorem State.writesRefill_mono : (s.writesRefill n v).mono = s.mono := by
  obtain ⟨power, regs, staged, h⟩ := s.writesRefill_eq n v
  rw [h]
  rfl

theorem State.writesRefill_stateBase : (s.writesRefill n v).stateBase = s.stateBase := by
  unfold State.stateBase State.f
  rw [s.writesRefill_reg_ne n v (by unfold A.galRegion A.galRefillCtrl; omega)]

theorem State.writesRefill_workBase : (s.writesRefill n v).workBase = s.workBase := by
  unfold State.workBase State.f
  rw [s.writesRefill_reg_ne n v (by unfold A.galRegion A.galRefillCtrl; omega)]

/-- The extent is the one that the set's other registers name. -/
theorem State.writesRefill_refillOf (source : Bool) : (s.writesRefill n v).refillOf n source = s.refillOf n source := by
  unfold State.refillOf State.reg64 State.f
  rw [s.writesRefill_mono n v,
    s.writesRefill_reg_ne n v (by unfold A.galRefillId A.galRefillCtrl; omega),
    s.writesRefill_reg_ne n v (by unfold A.galRefillPeer A.galRefillCtrl; omega),
    s.writesRefill_reg_ne n v (by unfold A.galRefillLocalLo A.galRefillCtrl; omega),
    s.writesRefill_reg_ne n v (by unfold A.galRefillLocalHi A.galRefillCtrl; omega),
    s.writesRefill_reg_ne n v (by unfold A.galRefillUnits A.galRefillCtrl; omega)]

theorem State.writesRefill_refillBusy (a k : Nat) : (s.writesRefill n v).refillBusy a k = s.refillBusy a k := by
  rw [State.refillBusy, State.refillBusy, s.writesRefill_gal n v]

theorem State.writesRefill_meetsState (a k : Nat) : (s.writesRefill n v).meetsState a k = s.meetsState a k := by
  obtain ⟨power, regs, staged, h⟩ := s.writesRefill_eq n v
  rw [h]
  rfl

end

theorem exec_refillStart {s : State} {n : Fin 4} {v : Word} (haccepts : s.accepts (A.galRefillCtrl n) = true)
    (hidle : s.refill n = none) (hstart : bit v 1 = true) : exec (.refillStart n v) s = .next ((s.writesRefill n v).startRefill n) := by
  have hrun : exec (.refillStart n v) s = execRefillStart n v s := rfl
  have hawake : s.wakeEvent.refill n = none := by rw [State.wakeEvent_power]; exact hidle
  rw [hrun, execRefillStart, State.onAccess_accepted _ haccepts, State.writeRefillCtrl]
  simp only [hawake, Option.isSome_none, Bool.false_eq_true, if_false, if_pos hstart]
  rfl

theorem exec_refillStop {s : State} {n : Fin 4} {v : Word} {r : Refill} (haccepts : s.accepts (A.galRefillCtrl n) = true)
    (h : s.refill n = some r) (hstop : bit v 2 = true) : exec (.refillStop n v) s = .next (s.wakeEvent.endRefill n stAborted false true) := by
  have hrun : exec (.refillStop n v) s = execRefillStop n v s := rfl
  have hawake : s.wakeEvent.refill n = some r := by rw [State.wakeEvent_power]; exact h
  rw [hrun, execRefillStop, State.onAccess_accepted _ haccepts, State.writeRefillCtrl]
  simp only [hawake, Option.isSome_some, if_true, if_pos hstop]

/-! ### START -/

/-- The registers of a set that starts: it runs, and has moved and lost nothing. -/
def State.showsRefill (s : State) (n : Nat) : State :=
  (((s.setReg (A.galRefillDone n) 0).setReg (A.galRefillStatus n) 0x100).setReg (A.galRefillLostFirst n) 0).setReg (A.galRefillLostCount n) 0

/-- Set `n` shows that it runs and has moved and lost nothing. -/
def State.ShowsStart (n : Nat) (t : State) : Prop :=
  t.reg (A.galRefillStatus n) = 0x100 ∧ t.reg (A.galRefillDone n) = 0 ∧ t.reg (A.galRefillLostFirst n) = 0 ∧ t.reg (A.galRefillLostCount n) = 0

/-- Showing the start touches registers alone. -/
theorem State.showsRefill_eq (s : State) (n : Nat) : ∃ regs, s.showsRefill n = { s with regs := regs } := ⟨_, rfl⟩

theorem State.showsRefill_shows (s : State) (n : Nat) : (s.showsRefill n).ShowsStart n := by
  unfold State.ShowsStart
  simp [State.showsRefill, State.reg_setReg]

theorem State.showsRefill_stateBase (s : State) (n : Nat) : (s.showsRefill n).stateBase = s.stateBase := by
  rw [State.stateBase, State.showsRefill, State.f_setReg_ne _ _ _ _ (by unfold A.galRegion A.galRefillLostCount; omega),
    State.f_setReg_ne _ _ _ _ (by unfold A.galRegion A.galRefillLostFirst; omega),
    State.f_setReg_ne _ _ _ _ (by unfold A.galRegion A.galRefillStatus; omega),
    State.f_setReg_ne _ _ _ _ (by unfold A.galRegion A.galRefillDone; omega)]
  rfl

/-- Cells and the Gallery's bookkeeping leave a set's registers. -/
theorem OnlyCells.showsStart {n : Nat} {s t : State} (hn : n < 4) (h : OnlyCells s t) (hs : s.ShowsStart n) : t.ShowsStart n := by
  obtain ⟨hstatus, hdone, hfirst, hcount⟩ := hs
  obtain ⟨-, -, hreg⟩ := h
  have hgal (b : Nat) (hb : 0x900400 ≤ b) (hb2 : b < 0x900440) : t.reg (b + n * 0x40) = s.reg (b + n * 0x40) :=
    hreg _ (isCellCount_gal (by omega) (by omega))
  exact ⟨(hgal 0x900418 (by omega) (by omega)).trans hstatus, (hgal 0x90041C (by omega) (by omega)).trans hdone,
    (hgal 0x900420 (by omega) (by omega)).trans hfirst, (hgal 0x900424 (by omega) (by omega)).trans hcount⟩

/-- The extent of a START may be moved: inside the state region, it meets no other refill and no state in use. -/
def State.refillMay (s : State) (r : Refill) : Prop :=
  r.units ≠ 0 ∧ s.stateBase ≤ r.base ∧ r.base + r.units * 0x10000 ≤ s.workBase ∧ s.refillBusy r.base (r.units * 0x10000) = false ∧
    s.meetsState r.base (r.units * 0x10000) = false

theorem State.refillMay_writesRefill {s : State} (n : Fin 4) (v : Word) {r : Refill} (h : s.refillMay r) : (s.writesRefill n v).refillMay r := by
  rw [State.refillMay, s.writesRefill_stateBase, s.writesRefill_workBase, s.writesRefill_refillBusy, s.writesRefill_meetsState]
  exact h

theorem State.stateBase_setDone (s : State) (n : Nat) : (s.setReg (A.galRefillDone n) 0).stateBase = s.stateBase := by
  rw [State.stateBase, State.f_setReg_ne _ _ _ _ (by unfold A.galRegion A.galRefillDone; omega)]
  rfl

theorem State.workBase_setDone (s : State) (n : Nat) : (s.setReg (A.galRefillDone n) 0).workBase = s.workBase := by
  rw [State.workBase, State.f_setReg_ne _ _ _ _ (by unfold A.galRegion A.galRefillDone; omega)]
  rfl

/-- A START of an extent that may be moved: as source the set stands ready, as sink it makes its units invalid and asks for the first. -/
theorem State.startRefill_may {s : State} {n : Nat} {r : Refill} (hr : r = s.refillOf n (s.b (A.galRefillCtrl n) 0)) (h : s.refillMay r) :
    s.startRefill n = if r.source then (s.showsRefill n).setRefill n r
      else ((s.showsRefill n).invalidateExtent (s.refillUnit r) r.units).sendRequest n r := by
  obtain ⟨hunits, hbase, hend, hbusy, hmeets⟩ := h
  have hmeets' : (s.setReg (A.galRefillDone n) 0).meetsState r.base (r.units * 0x10000) = false := hmeets
  have hbusy' : (s.setReg (A.galRefillDone n) 0).refillBusy r.base (r.units * 0x10000) = false := hbusy
  have hplace : (s.showsRefill n).refillUnit r = s.refillUnit r := by rw [State.refillUnit, State.refillUnit, s.showsRefill_stateBase]
  rw [State.startRefill, ← hr]
  dsimp only
  rw [if_neg hunits, if_neg, ← hplace]
  · rfl
  · rw [s.stateBase_setDone, s.workBase_setDone, hbusy', hmeets']
    simp only [Bool.false_eq_true, or_false]
    omega

/-- A START without units ends at once, and so does one outside the state region. -/
theorem State.startRefill_outside {s : State} {n : Nat} {r : Refill} (hr : r = s.refillOf n (s.b (A.galRefillCtrl n) 0))
    (h : r.units = 0 ∨ r.base < s.stateBase ∨ s.workBase < r.base + r.units * 0x10000) :
    s.startRefill n = (s.setReg (A.galRefillDone n) 0).refillOutcome n (if r.units = 0 then stOkEmpty else stDescInvalid) none := by
  rw [State.startRefill, ← hr]
  dsimp only
  by_cases hunits : r.units = 0
  · rw [if_pos hunits, if_pos hunits]
  · rw [if_neg hunits, if_neg hunits, if_pos]
    rw [s.stateBase_setDone, s.workBase_setDone]
    omega

/-- The units of an extent become invalid, and no others. -/
theorem State.unitValid_invalidateExtent (s : State) (a k u : Nat) :
    (s.invalidateExtent a k).unitValid u = if a ≤ u ∧ u < a + k then false else s.unitValid u := by
  refine (Sparse.get_filter_key (fun _ => false) (fun e => !(decide (a ≤ e) && decide (e < a + k))) s.gal.valid u).trans ?_
  by_cases h : a ≤ u ∧ u < a + k
  · rw [if_pos h, if_neg (by simp [h])]
  · rw [if_neg h, if_pos (by simp; omega)]
    rfl

/-- A sink that starts has its request queued; beside the line, the set and the units' validity nothing changes. -/
theorem State.sendRequest_starts (s : State) (n a k : Nat) {r : Refill} (hsent : r.lastSent = s.mono) :
    let t := (s.invalidateExtent a k).sendRequest n r
    OnlyCells ((s.invalidateExtent a k).setRefill n r) t ∧ t.refill n = some r ∧ t.gal.poison = s.gal.poison ∧
      ∀ u, t.unitValid u = if a ≤ u ∧ u < a + k then false else s.unitValid u := by
  have hsame : ({ r with lastSent := (s.invalidateExtent a k).mono } : Refill) = r := by
    have hmono : (s.invalidateExtent a k).mono = r.lastSent := hsent.symm
    rw [hmono]
  have hcells := OnlyCells.sendRefill ((s.invalidateExtent a k).setRefill n r) r (refillMsg 0x21 0 r.id r.next r.units 0)
  dsimp only
  rw [State.sendRequest, hsame]
  exact ⟨hcells, (State.refill_of_refills_eq (congrArg Gallery.refills hcells.gal) n).trans (State.refill_setRefill _ _ _),
    (congrArg Gallery.poison hcells.gal).trans rfl,
    fun u => (State.unitValid_of_valid_eq (congrArg Gallery.valid hcells.gal) u).trans (s.unitValid_invalidateExtent a k u)⟩

theorem SameHost.trans {s t u : State} (h : SameHost s t) (g : SameHost t u) : SameHost s u := by
  obtain ⟨hhost, hlog, hlatch, hcommits⟩ := h
  obtain ⟨ghost, glog, glatch, gcommits⟩ := g
  exact ⟨ghost.trans hhost, glog.trans hlog, glatch.trans hlatch, gcommits.trans hcommits⟩

/-- What an extent in the state region comes to when its set starts. -/
structure RefillStarted (n : Nat) (r : Refill) (s t : State) : Prop where
  refill : t.refill n = some r
  shows : t.ShowsStart n
  poison : t.gal.poison = s.gal.poison
  valid : ∀ u, t.unitValid u =
    if r.source = false ∧ s.refillUnit r ≤ u ∧ u < s.refillUnit r + r.units then false else s.unitValid u
  onlyRefill : OnlyRefill s t
  host : SameHost s t

theorem State.startRefill_starts {s : State} {n : Nat} {r : Refill} (hn : n < 4) (hr : r = s.refillOf n (s.b (A.galRefillCtrl n) 0))
    (h : s.refillMay r) : RefillStarted n r s (s.startRefill n) ∧
      (r.source = true → (s.startRefill n).gal.valid = s.gal.valid ∧ SameLines s (s.startRefill n)) := by
  have hshows := s.showsRefill_shows n
  rw [State.startRefill_may hr h]
  cases hsource : r.source with
  | true =>
    rw [if_pos rfl]
    have hset := (s.showsRefill n).refill_setRefill n r
    have hvalid (u : Nat) : s.unitValid u =
        if r.source = false ∧ s.refillUnit r ≤ u ∧ u < s.refillUnit r + r.units then false else s.unitValid u := by
      rw [if_neg]
      rintro ⟨hsink, -⟩
      exact Bool.false_ne_true (hsink.symm.trans hsource)
    obtain ⟨regs, hregs⟩ := s.showsRefill_eq n
    rw [hregs] at hshows hset ⊢
    exact ⟨⟨hset, hshows, rfl, hvalid, OnlyRefill.refl s, rfl, rfl, rfl, rfl⟩, fun _ => ⟨rfl, rfl, rfl, rfl, rfl⟩⟩
  | false =>
    obtain ⟨regs, hregs⟩ := s.showsRefill_eq n
    have hsent : r.lastSent = (s.showsRefill n).mono := by rw [hregs, hr]; rfl
    obtain ⟨hcells, hset, hpoison, hvalid⟩ := (s.showsRefill n).sendRequest_starts n (s.refillUnit r) r.units hsent
    obtain ⟨-, -, -, -, -, -, hhost⟩ := hcells.frame
    have hcellsShow := hcells.showsStart hn hshows
    rw [if_neg Bool.false_ne_true]
    rw [hregs] at hcells hset hpoison hvalid hhost hcellsShow ⊢
    refine ⟨⟨hset, hcellsShow, hpoison, fun u => (hvalid u).trans ?_, OnlyRefill.trans (OnlyRefill.refl s) hcells.onlyRefill, hhost⟩,
      fun hs => absurd hs Bool.false_ne_true⟩
    simp only [hsource, true_and]
    rfl

/-- Settles O30: the write's START or STOP comes to one of the lemmas above. -/
theorem refillsStartAndStop : Obligations.RefillsStartAndStop := by
  refine ⟨fun s n v r haccepts hidle hstart hr hunits hbase hend hbusy hmeets => ?_,
    fun s n v r haccepts hidle hstart hr houtside => ?_, fun s n v r haccepts hset hstop => ?_⟩
  · obtain ⟨hbytes, ⟨hque, hcle, hrue, hlnd, -⟩, hlines, hlight, hhost⟩ := SameRest.writesRefill s n v
    have hr' : r = (s.writesRefill n v).refillOf n ((s.writesRefill n v).b (A.galRefillCtrl n) 0) := by
      rw [s.writesRefill_source, s.writesRefill_refillOf, hr]
    have hsource : r.source = bit v 0 := by rw [hr]; rfl
    have hplace : (s.writesRefill n v).refillUnit r = s.refillUnit r := by
      rw [State.refillUnit, State.refillUnit, s.writesRefill_stateBase]
    have hgal := s.writesRefill_gal n v
    have hunit (u : Nat) : (s.writesRefill n v).unitValid u = s.unitValid u := State.unitValid_of_valid_eq (congrArg Gallery.valid hgal) u
    obtain ⟨⟨hset, ⟨hstatus, hdone, hfirst, hcount⟩, hpoison, hvalid, honly, hhosts⟩, hquiet⟩ :=
      State.startRefill_starts n.isLt hr' (State.refillMay_writesRefill n v ⟨hunits, hbase, hend, hbusy, hmeets⟩)
    obtain ⟨gbytes, glight, gque, gcle, grue, glnd⟩ := OnlyRefill.trans ⟨hbytes, hlight, hque, hcle, hrue, hlnd⟩ honly
    rw [hplace, hsource] at hvalid
    refine ⟨_, exec_refillStart haccepts hidle hstart, hset, hstatus, hdone, hfirst, hcount, fun hv => ?_,
      fun hv => ⟨fun u hlo hhi => ?_, fun u hu => ?_⟩, hpoison.trans (congrArg Gallery.poison hgal), gbytes, glight, hhost.trans hhosts,
      gque, gcle, grue, glnd⟩
    · obtain ⟨hkept, hports, hrte, hsched, hsec⟩ := hquiet (hsource.trans hv)
      obtain ⟨wports, wrte, wsched, wsec⟩ := hlines
      exact ⟨hkept.trans (congrArg Gallery.valid hgal), hports.trans wports, hrte.trans wrte, hsched.trans wsched, hsec.trans wsec⟩
    · rw [hvalid, if_pos ⟨hv, hlo, hhi⟩]
    · rw [hvalid, if_neg (by omega), hunit]
  · have hr' : r = (s.writesRefill n v).refillOf n ((s.writesRefill n v).b (A.galRefillCtrl n) 0) := by
      rw [s.writesRefill_source, s.writesRefill_refillOf, hr]
    have houtside' : r.units = 0 ∨ r.base < (s.writesRefill n v).stateBase ∨ (s.writesRefill n v).workBase < r.base + r.units * 0x10000 := by
      rw [s.writesRefill_stateBase, s.writesRefill_workBase]
      exact houtside
    have hrun := exec_refillStart haccepts hidle hstart
    rw [State.startRefill_outside hr' houtside'] at hrun
    obtain ⟨honly, hstatus, -⟩ := State.refillOutcome_spec ((s.writesRefill n v).setReg (A.galRefillDone n) 0) n.isLt
      (if r.units = 0 then stOkEmpty else stDescInvalid) none
    obtain ⟨obytes, oengines, olines, olight, -, ohost⟩ := honly.frame
    obtain ⟨hbytes, ⟨hque, hcle, hrue, hlnd, hgal, -⟩, hlines, hlight, hhost⟩ :=
      ((SameRest.writesRefill s n v).trans (SameRest.setReg _ (A.galRefillDone n) 0)).trans ⟨obytes, oengines, olines, olight, ohost⟩
    refine ⟨_, hrun, ?_, hstatus.trans ?_, hgal, hbytes, hlines, hlight, hhost, hque, hcle, hrue, hlnd⟩
    · exact (State.refill_of_refills_eq (congrArg Gallery.refills hgal) n).trans hidle
    · split <;> rfl
  · obtain ⟨hbytes, ⟨hque, hcle, hrue, hlnd, hgal, -⟩, -, hlight, hhost⟩ := SameRest.wakeEvent s
    have hrefill (k : Nat) := State.refill_of_refills_eq (congrArg Gallery.refills hgal) k
    obtain ⟨u, hcells, hended⟩ := RefillEnded.told n.isLt ((hrefill n).trans hset) stAborted false
    have hcellsGal := hcells.gal.trans hgal
    obtain ⟨-, -, -, -, -, -, uhost⟩ := hcells.frame
    obtain ⟨-, -, -, -, thost, -⟩ := hended.frame
    obtain ⟨gbytes, glight, gque, gcle, grue, glnd⟩ :=
      (OnlyRefill.trans ⟨hbytes, hlight, hque, hcle, hrue, hlnd⟩ hcells.onlyRefill).trans hended.onlyRefill
    refine ⟨_, exec_refillStop haccepts hset hstop, hended.refill_same, hended.status,
      fun k hk => (hended.refill_ne hk).trans (State.refill_of_refills_eq (congrArg Gallery.refills hcellsGal) k),
      hended.valid.trans (congrArg Gallery.valid hcellsGal), hended.poison.trans (congrArg Gallery.poison hcellsGal), gbytes, glight,
      (hhost.trans uhost).trans thost, gque, gcle, grue, glnd⟩

end Sys2Proof.Machine
end

section
/-! A chip or a relay goes down (09_routes_and_striping.md R175, R179, R192). -/
namespace Sys2Proof.Machine

/-! ### The own orderly reset (R179) -/

/-- Only the line's queues change. -/
def OnlyControl (s t : State) : Prop := t = { s with sched := t.sched }

theorem OnlyControl.trans {s t u : State} (h : OnlyControl s t) (g : OnlyControl t u) : OnlyControl s u := by
  unfold OnlyControl at *
  rw [g, h]

theorem OnlyControl.foldl {α : Type} {run : State → α → State} (h : ∀ s x, OnlyControl s (run s x)) (xs : List α) (s : State) :
    OnlyControl s (xs.foldl run s) := by
  induction xs generalizing s with
  | nil => exact rfl
  | cons x xs ih => exact (h s x).trans (ih _)

theorem OnlyControl.queueCtrl (s : State) (p : Nat) (c : CtrlCell) : OnlyControl s (s.queueCtrl p c) := rfl

theorem OnlyControl.sendMsgAll (s : State) (e : Nat) (msg : List Byte) : OnlyControl s (s.sendMsgAll e msg) :=
  OnlyControl.foldl (fun s _ => OnlyControl.queueCtrl s _ _) _ s

theorem OnlyControl.sendGoingDown (s : State) (downUs : Nat) : OnlyControl s (s.sendGoingDown downUs) :=
  (OnlyControl.foldl (fun s e => OnlyControl.sendMsgAll s e _) _ s).trans (OnlyControl.foldl (fun s _ => OnlyControl.queueCtrl s _ _) _ _)

theorem exec_orderlyResetGo {s : State} {v : Word} (haccepts : s.accepts A.routeDownCtrl = true) (hgo : bit v 0 = true)
    (hidle : s.rte.downAt = none) : let u := s.sendGoingDown (s.f A.routeTimerCtrl 16 8 * 1000)
    exec (.orderlyResetGo v) s = .next { u with rte := { u.rte with downAt := some (u.mono + s.f A.routeTimerCtrl 16 8 * 1000000) } } := by
  have hrun : exec (.orderlyResetGo v) s = execOrderlyResetGo v s := rfl
  rw [hrun, execOrderlyResetGo, State.onAccess_accepted _ haccepts, State.startDown, hgo, hidle]
  rfl

/-! ### A relay goes down (R175) -/

/-- What settles a port keeps its mark; beside the port only cells move. -/
theorem State.settlePort_spec (s : State) (p : Nat) (before : State) :
    ∃ x : LinePort, x.downMark = (s.port p).downMark ∧ OnlyCells (s.setPort p x) (s.settlePort p before) := by
  let y : LinePort := { s.port p with
    lossSince := if s.pathFail p then some ((s.port p).lossSince.getD s.mono) else none
    clearSince := if s.pathFail p then none else if before.pathFail p then some s.mono else (s.port p).clearSince }
  let x : LinePort := if s.align p ≠ 2 ∨ s.pathFail p = true then { y with delin := .hunt, rx := [] } else y
  have hmark : x.downMark = (s.port p).downMark := by
    unfold x
    split <;> rfl
  have hroutes (t : State) : OnlyCells t (if t.portUsable p = before.portUsable p then t else t.routesChanged) := by
    split
    · exact OnlyCells.refl t
    · exact OnlyCells.routesChanged t
  exact ⟨x, hmark, hroutes (s.setPort p x)⟩

/-- A port's mark has been set; beside the port only cells have moved. -/
theorem State.settlePort_marks (s : State) (p : Nat) (x : LinePort) (before : State) : let t := (s.setPort p x).settlePort p before
    (t.port p).downMark = x.downMark ∧ SameBytes s t ∧ SameEngines s t ∧ t.sec = s.sec ∧ SameLight s t ∧ SameBase s t ∧ SameHost s t := by
  obtain ⟨y, hy, hcells⟩ := (s.setPort p x).settlePort_spec p before
  obtain ⟨hbytes, hengines, hports, hsec, hlight, hbase, hhost⟩ := hcells.frame
  have hport : ((s.setPort p x).settlePort p before).port p = (((s.setPort p x).setPort p y)).port p := by
    rw [State.port, hports, ← State.port]
  refine ⟨?_, hbytes, hengines, hsec, hlight, hbase, hhost⟩
  rw [hport, State.port_setPort, if_pos rfl, hy, State.port_setPort, if_pos rfl]

theorem exec_goingDownReceive {s : State} {node : Nat} {p : Fin 16} {msg : List Byte} (htype : beAt msg 0 1 = 0x32) (hlen : msg.length = 24)
    (hcrc : hcrcOk msg = true) : exec (.goingDownReceive node p msg) s =
      .next (if beAt msg 2 1 = 1 then (s.takesMessage node msg).markPort p else (s.takesMessage node msg).peerGoesDown (beAt msg 12 4)) := by
  have hgood : beAt msg 0 1 = 0x32 ∧ msgLength 0x32 = some msg.length ∧ hcrcOk msg = true := ⟨htype, by rw [hlen]; rfl, hcrc⟩
  exact congrArg Host.Outcome.next (if_pos hgood)

/-- A marked port is not used. -/
theorem State.portUsable_marked {s : State} {p : Nat} (h : (s.port p).downMark = true) : s.portUsable p = false := by
  rw [State.portUsable, h, Bool.not_true, Bool.and_false]

/-! ### A peer goes down (R192; 04_collectives_and_flights.md R99; 06_gallery.md R130) -/

/-- Collectives of `s` are open as they were or no more; line ports, associations and optics stay. -/
structure OnlyEnds (s t : State) : Prop where
  inst : ∀ g, t.inst g = s.inst g ∨ t.inst g = none
  ports : t.ports = s.ports
  sec : t.sec = s.sec
  opt : t.opt = s.opt

theorem OnlyEnds.refl (s : State) : OnlyEnds s s := ⟨fun _ => .inl rfl, rfl, rfl, rfl⟩

theorem OnlyEnds.trans {s t u : State} (h : OnlyEnds s t) (k : OnlyEnds t u) : OnlyEnds s u := by
  refine ⟨fun g => ?_, k.ports.trans h.ports, k.sec.trans h.sec, k.opt.trans h.opt⟩
  obtain hkept | hnone := k.inst g
  · obtain hfirst | hgone := h.inst g
    · exact .inl (hkept.trans hfirst)
    · exact .inr (hkept.trans hgone)
  · exact .inr hnone

/-- A collective that is open no more stays so. -/
theorem OnlyEnds.closed {s t : State} (h : OnlyEnds s t) {g : Nat} (hg : s.inst g = none) : t.inst g = none :=
  (h.inst g).elim (fun hkept => hkept.trans hg) id

/-- The end of a group's collective leaves those of the other groups. -/
theorem State.endInst_inst_ne (s : State) {j g : Nat} (hj : j ≠ g) (status detail : Nat) : (s.endInst g status detail).inst j = s.inst j := by
  cases hx : s.inst g with
  | none => rw [State.endInst, hx]
  | some x =>
    obtain ⟨hcle, -⟩ := Completes.freeAll (q := x.q) (s.dropInst g) clsRes x.bufs
    obtain ⟨hend, -⟩ := (Completes.endMap (q := x.q) (((s.dropInst g).freeAll clsRes x.bufs).unpin g x.number none) x
      (statusOk status)).trans (Completes.completeStarted _ x.entry status x.flags x.late detail)
    have hinsts := ((congrArg Cle.insts hend).trans (State.unpin_insts _ _ _ _)).trans (congrArg Cle.insts hcle)
    rw [State.endInst_eq hx, State.inst_of_insts_eq hinsts, State.inst, State.inst, State.dropInst]
    dsimp only
    rw [Sparse.find?_erase_ne _ hj]

/-- An abort ends the collective of its group, and no other. -/
theorem State.abortInst_ends {s : State} {g : Nat} {x : Inst} (h : s.inst g = some x) (reason : Nat) :
    OnlyEnds s (s.abortInst g reason) ∧ (s.abortInst g reason).inst g = none := by
  have hqueued : OnlyQueued (s.bump (A.cleCnt (if reason = 7 then 14 else 12))) (s.decideAbort g x.group x.self x.number reason) :=
    OnlyQueued.sendAbort _ _ _ _
  have hrun : s.abortInst g reason = (s.decideAbort g x.group x.self x.number reason).endInst g stAborted x.doneCount := by
    simp only [State.abortInst, State.failInst, h]
  obtain ⟨-, -, hports, hsec, hopt⟩ := hqueued.frame
  obtain ⟨hnone, -, tports, tsec, topt⟩ := State.endInst_closes ((hqueued.inst g).trans h) stAborted x.doneCount
  rw [hrun]
  refine ⟨⟨fun j => ?_, tports.trans hports, tsec.trans hsec, topt.trans hopt⟩, hnone⟩
  by_cases hj : j = g
  · rw [hj]
    exact .inr hnone
  · exact .inl ((State.endInst_inst_ne _ hj _ _).trans (hqueued.inst j))

/-- The gateway `node` is a peer of the collective. -/
def Inst.hasPeer (x : Inst) (node : Nat) : Bool := x.group.gateways.any (fun y => decide (y ≠ x.self) && decide (x.nodeOf y = node))

/-- Ends a group's collective if `node` is a peer of it. -/
def State.endsWith (s : State) (node g : Nat) : State :=
  match s.inst g with
  | none => s
  | some x => if x.hasPeer node then s.abortInst g 2 else s

theorem State.endsWith_ends (s : State) (node g : Nat) : OnlyEnds s (s.endsWith node g) ∧
    ∀ x, s.inst g = some x → x.hasPeer node = true → (s.endsWith node g).inst g = none := by
  rw [State.endsWith]
  cases hx : s.inst g with
  | none =>
    refine ⟨OnlyEnds.refl s, fun x hs => ?_⟩
    cases hs
  | some x =>
    dsimp only
    obtain ⟨hends, hnone⟩ := State.abortInst_ends hx 2
    by_cases hpeer : x.hasPeer node = true
    · rw [if_pos hpeer]
      exact ⟨hends, fun _ _ _ => hnone⟩
    · rw [if_neg hpeer]
      refine ⟨OnlyEnds.refl s, fun y hs hy => ?_⟩
      obtain rfl : x = y := Option.some.inj hs
      exact absurd hy hpeer

/-- Every collective on a list that has the peer ends. -/
theorem State.foldl_endsWith (node : Nat) (gs : List (Nat × Inst)) (s : State) : let t := gs.foldl (fun s i => s.endsWith node i.1) s
    OnlyEnds s t ∧ ∀ g x, s.inst g = some x → x.hasPeer node = true → (∃ i ∈ gs, i.1 = g) → t.inst g = none := by
  induction gs generalizing s with
  | nil =>
    refine ⟨OnlyEnds.refl s, fun g x _ _ hmem => ?_⟩
    obtain ⟨i, hi, -⟩ := hmem
    cases hi
  | cons i gs ih =>
    obtain ⟨hfirst, hends⟩ := s.endsWith_ends node i.1
    obtain ⟨hrest, hlater⟩ := ih (s.endsWith node i.1)
    refine ⟨hfirst.trans hrest, fun g x hx hpeer hmem => ?_⟩
    obtain ⟨e, he, rfl⟩ := hmem
    obtain hhead | htail := List.mem_cons.mp he
    · rw [hhead] at hx ⊢
      exact hrest.closed (hends x hx hpeer)
    · obtain hkept | hnone := hfirst.inst e.1
      · exact hlater e.1 x (hkept.trans hx) hpeer ⟨e, htail, rfl⟩
      · exact hrest.closed hnone

/-- Ends set `n` if its peer is `node`. -/
def State.endsRefillWith (s : State) (node n : Nat) : State :=
  match s.refill n with
  | some r => if r.peer = node then s.refillPeerGone n else s
  | none => s

theorem State.peerGoesDown_eq (s : State) (node : Nat) : s.peerGoesDown node =
    (List.range 4).foldl (fun s n => s.endsRefillWith node n) (s.cle.insts.foldl (fun s i => s.endsWith node i.1) s) := rfl

/-- The loss of a refill's peer touches no collective. -/
theorem State.refillPeerGone_ends (s : State) {n : Nat} (hn : n < 4) : OnlyEnds s (s.refillPeerGone n) := by
  unfold State.refillPeerGone
  cases hr : s.refill n with
  | none => exact OnlyEnds.refl s
  | some r =>
    obtain ⟨-, ⟨hports, -, -, hsec⟩, ⟨hopt, -⟩, -, -, -, hcle, -⟩ :=
      (RefillEnded.quiet hn hr (if r.source then stAborted else stStateLost) false).frame
    exact ⟨fun g => .inl (State.inst_of_insts_eq (congrArg Cle.insts hcle) g), hports, hsec, hopt⟩

theorem State.endsRefillWith_ends (s : State) (node : Nat) {n : Nat} (hn : n < 4) : OnlyEnds s (s.endsRefillWith node n) := by
  rw [State.endsRefillWith]
  split
  · split
    · exact s.refillPeerGone_ends hn
    · exact OnlyEnds.refl s
  · exact OnlyEnds.refl s

theorem State.peerGoesDown_ends (s : State) (node : Nat) : OnlyEnds s (s.peerGoesDown node) ∧
    ∀ g x, s.inst g = some x → x.hasPeer node = true → (s.peerGoesDown node).inst g = none := by
  obtain ⟨hends, hgone⟩ := State.foldl_endsWith node s.cle.insts s
  have hrefills : OnlyEnds (s.cle.insts.foldl (fun s i => s.endsWith node i.1) s) (s.peerGoesDown node) := by
    rw [State.peerGoesDown_eq]
    exact List.foldlRecOn (motive := OnlyEnds _) (List.range 4) _ (OnlyEnds.refl _)
      fun t ht n hn => ht.trans (t.endsRefillWith_ends node (List.mem_range.mp hn))
  refine ⟨hends.trans hrefills, fun g x hx hpeer => hrefills.closed (hgone g x hx hpeer ?_)⟩
  obtain ⟨e, he, -⟩ := Option.map_eq_some_iff.mp hx
  exact ⟨e, List.mem_of_find?_eq_some he, by simpa using List.find?_some he⟩

/-- Settles O49: the notice queues cells, a relay's marks its port, and a peer's ends its collectives. -/
theorem goingDownIsToldAndTaken : Obligations.GoingDownIsToldAndTaken := by
  refine ⟨fun s v haccepts hgo hidle => ?_, fun s node p msg htype hlen hcrc hrelay => ?_,
    fun s node p msg htype hlen hcrc hpeer => ?_, fun s p hmark hclear => ?_⟩
  · have hrun := exec_orderlyResetGo haccepts hgo hidle
    have hsent := OnlyControl.sendGoingDown s (s.f A.routeTimerCtrl 16 8 * 1000)
    generalize s.sendGoingDown (s.f A.routeTimerCtrl 16 8 * 1000) = u at hrun hsent
    rw [hsent] at hrun
    exact ⟨_, hrun, rfl, SameBytes.refl s, ⟨rfl, rfl, rfl, rfl, rfl, rfl⟩, rfl, rfl, ⟨rfl, rfl⟩, ⟨rfl, rfl, rfl, rfl, rfl, rfl⟩,
      ⟨rfl, rfl, rfl, rfl⟩, fun _ _ => ⟨rfl, rfl⟩⟩
  · have hrun := exec_goingDownReceive (s := s) (node := node) (p := p) htype hlen hcrc
    rw [if_pos hrelay] at hrun
    obtain ⟨hmark, hbytes, ⟨hque, hcle, hrue, hlnd, hgal, -⟩, hsec, hlight, hbase, hhost⟩ :=
      (s.takesMessage node msg).settlePort_marks p { (s.takesMessage node msg).port p with downMark := true, clearSince := none }
        (s.takesMessage node msg)
    exact ⟨_, hrun, hmark, State.portUsable_marked hmark, hbytes, hque, hcle, hrue, hlnd, hgal, hsec, hlight, hbase, hhost⟩
  · have hrun := exec_goingDownReceive (s := s) (node := node) (p := p) htype hlen hcrc
    rw [if_neg hpeer] at hrun
    obtain ⟨⟨-, hports, hsec, hopt⟩, hgone⟩ := (s.takesMessage node msg).peerGoesDown_ends (beAt msg 12 4)
    refine ⟨_, hrun, fun g x hx ⟨y, hy, hself, hnode⟩ => hgone g x hx ?_, hports, hsec, hopt⟩
    exact List.any_eq_true.mpr ⟨y, hy, by simp [hself, hnode]⟩
  · have hrun : exec (.portMarkClear p) s = .next ((s.setPort p { s.port p with downMark := false }).settlePort p s) := by
      have hdue : ((s.port p).downMark && s.elapsedSince (s.port p).clearSince 1000000) = true := by rw [hmark, hclear]; rfl
      exact congrArg Host.Outcome.next (if_pos hdue)
    exact ⟨_, hrun, s.settlePort_marks p _ s⟩

end Sys2Proof.Machine
end

section
/-! Defects, alignment and working counts of a line port, and what settling and receiving on it leaves (08_span_framer.md R153, R158,
R167; 09_routes_striping_resequencing.md R176). -/
namespace Sys2Proof.Machine

/-! ### Defects (R158) -/

theorem State.port_of_ports_eq {s t : State} (h : t.ports = s.ports) (q : Nat) : t.port q = s.port q := by
  rw [State.port, h, ← State.port]

theorem State.setB_onlyRegs (s : State) (b i : Nat) (v : Bool) :
    s.setB b i v = { s with ports := (s.setB b i v).ports, regs := (s.setB b i v).regs } := rfl

/-- Only defects of port `p` change, and of its counts only the note of them (count 15, DEFECT_SEEN). -/
structure OnlyDefects (p : Nat) (s t : State) : Prop where
  state : t = { s with ports := t.ports, regs := t.regs }
  regs : ∀ a, [A.lineStatus p, A.lineDefectLatch p].contains a = false → t.reg a = s.reg a
  align : t.align p = s.align p
  port : t.port p = { s.port p with pm := (t.port p).pm }
  counts : ∀ k, k ≠ 15 → (t.port p).pm.getD k 0 = (s.port p).pm.getD k 0
  others : ∀ q, q ≠ p → t.port q = s.port q

theorem OnlyDefects.refl (p : Nat) (s : State) : OnlyDefects p s s :=
  ⟨rfl, fun _ _ => rfl, rfl, rfl, fun _ _ => rfl, fun _ _ => rfl⟩

theorem OnlyDefects.trans {p : Nat} {s t u : State} (h : OnlyDefects p s t) (g : OnlyDefects p t u) :
    OnlyDefects p s u where
  state := by rw [g.state, h.state]
  regs a ha := (g.regs a ha).trans (h.regs a ha)
  align := g.align.trans h.align
  port := by rw [g.port, h.port]
  counts k hk := (g.counts k hk).trans (h.counts k hk)
  others q hq := (g.others q hq).trans (h.others q hq)

theorem OnlyDefects.ite {p : Nat} {c : Prop} [Decidable c] {s t u : State} (h : OnlyDefects p s t)
    (g : OnlyDefects p s u) :
    OnlyDefects p s (if c then t else u) := by
  split
  · exact h
  · exact g

theorem OnlyDefects.setStatus (p : Nat) (s : State) {d : Nat} (v : Bool) (h2 : 2 ≤ d) (h : d < 32) :
    OnlyDefects p s (s.setB (A.lineStatus p) d v) := by
  have hport (q : Nat) : (s.setB (A.lineStatus p) d v).port q = s.port q :=
    State.port_of_ports_eq (State.setB_ports _ _ _ _) q
  refine ⟨State.setB_onlyRegs _ _ _ _, fun a ha => State.reg_setB_ne s _ _ ?_,
    State.f_setB_ne s _ _ _ _ _ _ h (.inr (.inl h2)), by rw [hport],
    fun k _ => by rw [hport], fun q _ => hport q⟩
  rintro rfl
  simp at ha

theorem lineStatus_ne_lineDefectLatch (p : Nat) : A.lineStatus p ≠ A.lineDefectLatch p := by
  unfold A.lineStatus A.lineDefectLatch
  omega

theorem OnlyDefects.setLatch (p : Nat) (s : State) (d : Nat) (v : Bool) :
    OnlyDefects p s (s.setB (A.lineDefectLatch p) d v) := by
  have hport (q : Nat) : (s.setB (A.lineDefectLatch p) d v).port q = s.port q :=
    State.port_of_ports_eq (State.setB_ports _ _ _ _) q
  refine ⟨State.setB_onlyRegs _ _ _ _, fun a ha => State.reg_setB_ne s _ _ ?_, ?_, by rw [hport],
    fun k _ => by rw [hport], fun q _ => hport q⟩
  · rintro rfl
    simp at ha
  · rw [State.align, State.f, State.reg_setB_ne s _ _ (lineStatus_ne_lineDefectLatch p), ← State.f,
      ← State.align]

theorem OnlyDefects.noteDefects (p : Nat) (s : State) : OnlyDefects p s (s.noteDefects p) := by
  unfold State.noteDefects
  dsimp only
  split
  · have hport (x : LinePort) : (s.setPort p x).port p = x := by rw [State.port_setPort, if_pos rfl]
    refine ⟨rfl, fun _ _ => rfl, rfl, by rw [hport], fun k hk => ?_,
      fun q hq => by rw [State.port_setPort, if_neg hq]⟩
    rw [hport, setAt_eq_set, List.getD_eq_getElem?_getD, List.getElem?_set_ne (Ne.symm hk),
      ← List.getD_eq_getElem?_getD]
  · exact OnlyDefects.refl p s

theorem OnlyDefects.setDefect (p : Nat) (s : State) {d : Nat} (v : Bool) (h2 : 2 ≤ d) (h : d < 32) :
    OnlyDefects p s (s.setDefect p d v) := by
  unfold State.setDefect
  dsimp only
  have hstatus := OnlyDefects.setStatus p s v h2 h
  exact .ite (.refl p s) (.ite ((hstatus.trans (.setLatch p _ d true)).trans (.noteDefects p _)) hstatus)

theorem State.noteDefects_reg (s : State) (p a : Nat) : (s.noteDefects p).reg a = s.reg a := by
  unfold State.noteDefects
  dsimp only
  split <;> rfl

/-- A defect that is declared or cleared shows so. -/
theorem State.defect_setDefect (s : State) (p : Nat) {d : Nat} (v : Bool) (h : d < 32) :
    (s.setDefect p d v).defect p d = v := by
  unfold State.setDefect
  dsimp only
  split
  · assumption
  · split
    · rw [State.defect, State.b, State.noteDefects_reg,
        State.reg_setB_ne _ _ _ (lineStatus_ne_lineDefectLatch p), ← State.b,
        State.b_setB_same _ _ _ _ h]
    · exact State.b_setB_same _ _ _ _ h

/-! ### What framers touch -/

/-- The registers that a port's framers set, and the counters of cells that a change of its use moves. -/
def isFramerReg (p a : Nat) : Bool :=
  [A.lineStatus p, A.lineDefectLatch p, A.linePttiAcc p 0, A.linePttiAcc p 1, A.linePttiAcc p 2,
    A.linePttiAcc p 3, A.lineNbrRxId p,
    A.lineNbrRxPort p, A.lineSectDelay p].contains a || isCellCount a

/-- What the host lanes and the module tell of a port. -/
def LinePort.outside (x : LinePort) : Bool × Bool × Option Nat := (x.sigLost, x.framerOn, x.resetPulse)

/-- Only ports, routes, the scheduler and the registers of port `p`'s framers change, and no port's host lanes or module. -/
structure OnlyFramers (p : Nat) (s t : State) : Prop where
  state : t = { s with ports := t.ports, rte := t.rte, sched := t.sched, regs := t.regs }
  regs : ∀ a, isFramerReg p a = false → t.reg a = s.reg a
  outside : ∀ q, (t.port q).outside = (s.port q).outside

theorem OnlyFramers.refl (p : Nat) (s : State) : OnlyFramers p s s := ⟨rfl, fun _ _ => rfl, fun _ => rfl⟩

section
variable {p : Nat} {s t u : State}

theorem OnlyFramers.trans (h : OnlyFramers p s t) (g : OnlyFramers p t u) : OnlyFramers p s u where
  state := by rw [g.state, h.state]
  regs a ha := (g.regs a ha).trans (h.regs a ha)
  outside q := (g.outside q).trans (h.outside q)

theorem OnlyFramers.ite {c : Prop} [Decidable c] (h : OnlyFramers p s t) (g : OnlyFramers p s u) :
    OnlyFramers p s (if c then t else u) := by
  split
  · exact h
  · exact g

theorem OnlyFramers.setReg (s : State) {a : Nat} (v : Word) (h : isFramerReg p a = true) :
    OnlyFramers p s (s.setReg a v) :=
  ⟨rfl, fun b hb => State.reg_setReg_ne s v (by rintro rfl; rw [h] at hb; cases hb), fun _ => rfl⟩

theorem OnlyFramers.setPort (s : State) {q : Nat} {x : LinePort} (h : x.outside = (s.port q).outside) :
    OnlyFramers p s (s.setPort q x) := by
  refine ⟨rfl, fun _ _ => rfl, fun r => ?_⟩
  rw [State.port_setPort]
  split
  · next hr => rw [h, hr]
  · rfl

theorem isFramerReg_lineStatus (p : Nat) : isFramerReg p (A.lineStatus p) = true := by simp [isFramerReg]

theorem OnlyDefects.onlyFramers (h : OnlyDefects p s t) : OnlyFramers p s t where
  state := by
    have hrte : t.rte = s.rte := by rw [h.state]
    have hsched : t.sched = s.sched := by rw [h.state]
    rw [hrte, hsched]
    exact h.state
  regs a ha := h.regs a (by simp_all [isFramerReg])
  outside q := by
    by_cases hq : q = p
    · rw [hq, h.port]
      rfl
    · rw [h.others q hq]

theorem OnlyCells.onlyFramers (h : OnlyCells s t) : OnlyFramers p s t := by
  obtain ⟨hstate, -, hregs⟩ := h
  have hports : t.ports = s.ports := by rw [hstate]
  refine ⟨?_, fun a ha => hregs a (Bool.or_eq_false_iff.mp ha).2,
    fun q => by rw [State.port_of_ports_eq hports]⟩
  rw [hports]
  exact hstate

theorem OnlyFramers.pmAdd (s : State) (k n : Nat) : OnlyFramers p s (s.pmAdd p k n) :=
  .ite (.setPort s rfl) (.refl p s)

/-- A move of the alignment sets the port's bookkeeping of frames and LINE_STATUS.ALIGN; OOF is counted. -/
theorem State.setAlign_eq (s : State) (p a : Nat) :
    ∃ x : LinePort, x.outside = (s.port p).outside ∧ x.rx = (s.port p).rx ∧ s.setAlign p a =
      if s.align p = a then s
      else if a = 0 then ((s.setPort p x).setF (A.lineStatus p) 0 2 a).pmAdd p 8 1 else (s.setPort p x).setF (A.lineStatus p) 0 2 a := by
  let y : LinePort :=
    if a = 2 then { s.port p with inSince := some s.mono, outSince := none }
    else if s.align p = 2 then
      { s.port p with inSince := none, outSince := some s.mono, mfasExp := none, mfasBad := 0, rxBips := [], comms := [], trace := [] }
    else s.port p
  have hy : y.outside = (s.port p).outside ∧ y.rx = (s.port p).rx := by
    unfold y
    split
    · exact ⟨rfl, rfl⟩
    · split <;> exact ⟨rfl, rfl⟩
  exact ⟨{ y with preCount := if a = 1 then 1 else 0, fasRun := 0 }, hy.1, hy.2, rfl⟩

theorem OnlyFramers.setAlign (s : State) (a : Nat) : OnlyFramers p s (s.setAlign p a) := by
  obtain ⟨x, hx, -, heq⟩ := s.setAlign_eq p a
  have hmoved : OnlyFramers p s ((s.setPort p x).setF (A.lineStatus p) 0 2 a) :=
    (OnlyFramers.setPort s hx).trans (.setReg _ _ (isFramerReg_lineStatus p))
  rw [heq]
  exact .ite (.refl p s) (.ite (hmoved.trans (.pmAdd _ _ _)) hmoved)

theorem State.pmAdd_reg (s : State) (p k n a : Nat) : (s.pmAdd p k n).reg a = s.reg a := by
  unfold State.pmAdd
  dsimp only
  split <;> rfl

/-- A working count changes in the port alone. -/
theorem State.pmAdd_port (s : State) (p k n q : Nat) :
    (s.pmAdd p k n).port q = { s.port q with pm := ((s.pmAdd p k n).port q).pm } := by
  unfold State.pmAdd
  dsimp only
  split
  · rw [State.port_setPort]
    split
    · next hq => rw [hq]
    · rfl
  · rfl

/-- The alignment state reads as moved. -/
theorem State.align_setAlign (s : State) (p : Nat) {a : Nat} (h : a < 4) : (s.setAlign p a).align p = a := by
  obtain ⟨x, -, -, heq⟩ := s.setAlign_eq p a
  have hmoved : ((s.setPort p x).setF (A.lineStatus p) 0 2 a).align p = a :=
    (State.f_setF_same _ _ _ _ _ (by omega)).trans (Nat.mod_eq_of_lt h)
  rw [heq]
  split
  · assumption
  · split
    · rw [State.align, State.f, State.pmAdd_reg]
      exact hmoved
    · exact hmoved

/-! ### A change of defects is settled (R176, R192) -/

/-- The port when the changes of its defects have been settled. -/
def State.settledPort (s : State) (p : Nat) (before : State) : LinePort :=
  let x : LinePort := { s.port p with
    lossSince := if s.pathFail p then some ((s.port p).lossSince.getD s.mono) else none
    clearSince := if s.pathFail p then none else if before.pathFail p then some s.mono else (s.port p).clearSince }
  if s.align p ≠ 2 ∨ s.pathFail p = true then { x with delin := .hunt, rx := [] } else x

/-- Beside the port only cells move when a port is settled. -/
theorem OnlyCells.settlePort (s : State) (p : Nat) (before : State) :
    OnlyCells (s.setPort p (s.settledPort p before)) (s.settlePort p before) := by
  have hroutes (t : State) : OnlyCells t (if t.portUsable p = before.portUsable p then t else t.routesChanged) := by
    split
    · exact OnlyCells.refl t
    · exact OnlyCells.routesChanged t
  exact hroutes _

theorem State.settledPort_outside (s : State) (p : Nat) (before : State) :
    (s.settledPort p before).outside = (s.port p).outside := by
  unfold State.settledPort
  dsimp only
  split <;> rfl

theorem State.settledPort_rx (s : State) (p : Nat) (before : State) (halign : s.align p = 2)
    (hpath : s.pathFail p = false) :
    (s.settledPort p before).rx = (s.port p).rx := by
  simp [State.settledPort, halign, hpath]

theorem OnlyFramers.settlePort (s before : State) : OnlyFramers p s (s.settlePort p before) :=
  (OnlyFramers.setPort s (s.settledPort_outside p before)).trans (OnlyCells.settlePort s p before).onlyFramers

/-- Settling a port changes neither its alignment nor a defect. -/
theorem State.settlePort_status (s : State) (p : Fin 16) (before : State) :
    (s.settlePort p before).reg (A.lineStatus p) = s.reg (A.lineStatus p) := by
  obtain ⟨-, -, hregs⟩ := OnlyCells.settlePort s p before
  exact hregs _ (isCellCount_lineStatus p)

theorem State.settlePort_rx (s : State) (p : Nat) (before : State) (halign : s.align p = 2)
    (hpath : s.pathFail p = false) :
    ((s.settlePort p before).port p).rx = (s.port p).rx := by
  obtain ⟨hstate, -, -⟩ := OnlyCells.settlePort s p before
  have hports : (s.settlePort p before).ports = (s.setPort p (s.settledPort p before)).ports := by rw [hstate]
  rw [State.port_of_ports_eq hports, State.port_setPort, if_pos rfl, s.settledPort_rx p before halign hpath]

end

/-! ### Registers and facts that framers leave -/

theorem isFramerReg_lineCtrl (p : Fin 16) : isFramerReg p (A.lineCtrl p) = false := by
  have h : ∀ p : Fin 16, isFramerReg p (A.lineCtrl p) = false := by decide
  exact h p

theorem isFramerReg_lineModStatus (p : Fin 16) : isFramerReg p (A.lineModStatus p) = false := by
  have h : ∀ p : Fin 16, isFramerReg p (A.lineModStatus p) = false := by decide
  exact h p

theorem isFramerReg_pinInStatus (p : Fin 16) : isFramerReg p A.pinInStatus = false := by
  have h : ∀ p : Fin 16, isFramerReg p A.pinInStatus = false := by decide
  exact h p

/-- The framers of a port set no register of the route tables. -/
theorem isFramerReg_route (p : Fin 16) {a : Nat} (h : 0x600000 ≤ a) (h' : a < 0x700000) :
    isFramerReg p a = false := by
  simp [isFramerReg, isCellCount]
  unfold A.lineStatus A.lineDefectLatch A.linePttiAcc A.lineNbrRxId A.lineNbrRxPort A.lineSectDelay A.secCnt A.schedCnt
  omega

section
variable {p : Fin 16} {s t : State} (h : OnlyFramers p s t)
include h

theorem OnlyFramers.portEnabled : t.portEnabled p = s.portEnabled p := by
  rw [State.portEnabled, State.b, h.regs _ (isFramerReg_lineCtrl p), ← State.b, ← State.portEnabled]

theorem OnlyFramers.portOpen : t.portOpen p = s.portOpen p := by
  have hqual : t.portQualOf p = s.portQualOf p := by rw [h.state]; rfl
  rw [State.portOpen, h.portEnabled, hqual, ← State.portOpen]

theorem OnlyFramers.portRole : t.portRole p = s.portRole p := by
  have hslot : t.curSlot = s.curSlot := by
    rw [State.curSlot, State.f, h.regs _ (isFramerReg_route p (by decide) (by decide)), ← State.f,
      ← State.curSlot]
  have hlt : s.curSlot < 2 := fld_lt _ 0 1
  have hvalid : t.slotValid = s.slotValid := by
    rw [State.slotValid, State.b, hslot,
      h.regs _ (isFramerReg_route p (by unfold A.routeSlot; omega) (by unfold A.routeSlot; omega)),
      ← State.b, ← State.slotValid]
  have hentry : t.portEntry p = s.portEntry p := by
    rw [State.portEntry, hslot,
      h.regs _ (isFramerReg_route p (by unfold A.routeTablesPort; omega) (by unfold A.routeTablesPort; omega)), ← State.portEntry]
  rw [State.portRole, hvalid, hentry, ← State.portRole]

/-- Memories, engines, cipher, light, base and the host function stay. -/
theorem OnlyFramers.frame : SameBytes s t ∧ SameEngines s t ∧ t.sec = s.sec ∧ SameLight s t ∧ SameBase s t ∧ SameHost s t := by
  rw [h.state]
  exact ⟨SameBytes.refl s, ⟨rfl, rfl, rfl, rfl, rfl, rfl⟩, rfl, ⟨rfl, rfl⟩, ⟨rfl, rfl, rfl, rfl, rfl,
    rfl⟩, ⟨rfl, rfl, rfl, rfl⟩⟩

end

end Sys2Proof.Machine
end

section
/-! Receipt of a Span frame: its alignment, its overhead and its data bytes (08_span_framer.md R150, R151, R153-R165). -/
namespace Sys2Proof.Machine

/-! ### Overhead leaves alignment and payload (R155-R165) -/

/-- A port's framers read overhead: no alignment moves, and no port's received payload changes. -/
structure OnlyOverhead (p : Nat) (s t : State) : Prop where
  framers : OnlyFramers p s t
  align : t.align p = s.align p
  rx : ∀ q, (t.port q).rx = (s.port q).rx

theorem OnlyOverhead.refl (p : Nat) (s : State) : OnlyOverhead p s s := ⟨.refl p s, rfl, fun _ => rfl⟩

section
variable {p : Nat} {s t u : State}

theorem OnlyOverhead.trans (h : OnlyOverhead p s t) (g : OnlyOverhead p t u) : OnlyOverhead p s u :=
  ⟨h.framers.trans g.framers, g.align.trans h.align, fun q => (g.rx q).trans (h.rx q)⟩

theorem OnlyOverhead.ite {c : Prop} [Decidable c] (h : OnlyOverhead p s t) (g : OnlyOverhead p s u) :
    OnlyOverhead p s (if c then t else u) := by
  split
  · exact h
  · exact g

theorem OnlyOverhead.setPort (h : OnlyOverhead p s t) {q : Nat} {x : LinePort}
    (hout : x.outside = (t.port q).outside := by rfl)
    (hrx : x.rx = (t.port q).rx := by rfl) : OnlyOverhead p s (t.setPort q x) := by
  refine h.trans ⟨.setPort t hout, rfl, fun r => ?_⟩
  rw [State.port_setPort]
  split
  · next hr => rw [hrx, hr]
  · rfl

theorem OnlyOverhead.setReg (h : OnlyOverhead p s t) {a : Nat} (v : Word)
    (ha : isFramerReg p a = true) (hne : A.lineStatus p ≠ a) :
    OnlyOverhead p s (t.setReg a v) :=
  h.trans ⟨.setReg t v ha, State.f_setReg_ne t v 0 2 hne, fun _ => rfl⟩

theorem OnlyOverhead.setDefect (h : OnlyOverhead p s t) {d : Nat} (v : Bool) (h2 : 2 ≤ d) (h32 : d < 32) :
    OnlyOverhead p s (t.setDefect p d v) := by
  have hdefect := OnlyDefects.setDefect p t v h2 h32
  refine h.trans ⟨hdefect.onlyFramers, hdefect.align, fun q => ?_⟩
  by_cases hq : q = p
  · rw [hq, hdefect.port]
  · rw [hdefect.others q hq]

theorem OnlyOverhead.pmAdd (h : OnlyOverhead p s t) (k n : Nat) : OnlyOverhead p s (t.pmAdd p k n) :=
  h.trans (.ite (OnlyOverhead.refl p t).setPort (.refl p t))

theorem OnlyOverhead.rxBip (h : OnlyOverhead p s t) (f : List Byte) : OnlyOverhead p s (t.rxBip p f) := by
  unfold State.rxBip
  extract_lets x checked y
  refine .setPort ?_
  unfold checked
  split
  · extract_lets syn ws wp returned sectionCounted pathCounted z
    clear_value syn ws wp
    have hreturned : OnlyOverhead p s returned := h.setPort
    have hsection : OnlyOverhead p s sectionCounted := by
      unfold sectionCounted
      exact .ite hreturned ((hreturned.pmAdd _ _).pmAdd _ _)
    have hpath : OnlyOverhead p s pathCounted := by
      unfold pathCounted
      exact .ite hsection ((hsection.pmAdd _ _).pmAdd _ _)
    exact .ite hpath.setPort hpath
  · exact h

theorem OnlyOverhead.rxRei (h : OnlyOverhead p s t) (f : List Byte) : OnlyOverhead p s (t.rxRei p f) := by
  unfold State.rxRei
  extract_lets sr pst pr x sOk pOk blocks near far q y
  have hblocks : OnlyOverhead p s blocks := h.setPort
  have hnear : OnlyOverhead p s near := by
    unfold near
    exact .ite (hblocks.pmAdd _ _) hblocks
  have hfar : OnlyOverhead p s far := by
    unfold far
    exact .ite (hnear.pmAdd _ _) hnear
  exact .ite hfar.setPort hfar

theorem OnlyOverhead.rxIndications (h : OnlyOverhead p s t) (f : List Byte) :
    OnlyOverhead p s (t.rxIndications p f) := by
  unfold State.rxIndications
  extract_lets x srdi prdi ais a b c u upd
  have hupd {u : State} (hu : OnlyOverhead p s u) {d : Nat} (n : Nat) (v : Nat × Nat) (h2 : 2 ≤ d) (h32 : d < 32) :
      OnlyOverhead p s (upd u d n v) := .ite (hu.setDefect _ h2 h32) (.ite (hu.setDefect _ h2 h32) hu)
  exact hupd (hupd (hupd h.setPort _ _ (by decide) (by decide)) _ _ (by decide) (by decide)) _ _ (by decide) (by decide)

theorem OnlyOverhead.rxMfas (h : OnlyOverhead p s t) (v : Nat) : OnlyOverhead p s (t.rxMfas p v) := by
  unfold State.rxMfas
  dsimp only
  refine .ite (.ite (h.setPort.setDefect _ (by decide) (by decide)) h.setPort) ?_
  split
  · exact h.setPort
  · exact .ite h.setPort (.ite (h.setPort.setDefect _ (by decide) (by decide)) h.setPort)

theorem OnlyOverhead.rxSection (h : OnlyOverhead p s t) (msg : List Byte) :
    OnlyOverhead p s (t.rxSection p msg) := by
  unfold State.rxSection
  extract_lets n x run u
  have hu : OnlyOverhead p s u := h.setPort
  refine .ite h (.ite ((hu.setReg _ ?_ ?_).setReg _ ?_ ?_) hu)
  · simp [isFramerReg]
  · unfold A.lineStatus A.lineNbrRxId
    omega
  · simp [isFramerReg]
  · unfold A.lineStatus A.lineNbrRxPort
    omega

theorem OnlyOverhead.rxComms (h : OnlyOverhead p s t) (mfas : Nat) (part : List Byte) :
    OnlyOverhead p s (t.rxComms p mfas part) :=
  .ite h.setPort (.ite (h.setPort.rxSection _) h.setPort)

/-- The four words of an accepted trace are registers of the framers. -/
theorem OnlyOverhead.setTrace (h : OnlyOverhead p s t) (w : Nat → Word) :
    OnlyOverhead p s ((List.range 4).foldl (fun s k => s.setReg (A.linePttiAcc p k) (w k)) t) := by
  refine List.foldlRecOn (motive := OnlyOverhead p s) (List.range 4) _ h fun u hu k hk => hu.setReg _ ?_ ?_
  · obtain rfl | rfl | rfl | rfl : k = 0 ∨ k = 1 ∨ k = 2 ∨ k = 3 := by
      have := List.mem_range.mp hk
      omega
    all_goals simp [isFramerReg]
  · unfold A.lineStatus A.linePttiAcc
    omega

theorem OnlyOverhead.rxTrace (h : OnlyOverhead p s t) (mfas : Nat) (b : Byte) :
    OnlyOverhead p s (t.rxTrace p mfas b) :=
  .ite h.setPort (.ite (.ite (h.setPort.setTrace _) h.setPort) h.setPort)

theorem OnlyOverhead.rxDelay (h : OnlyOverhead p s t) (f : List Byte) : OnlyOverhead p s (t.rxDelay p f) :=
  h.setReg _ (by simp [isFramerReg]) (by unfold A.lineStatus A.lineSectDelay; omega)

end

/-- The overhead of a frame in IF is read: counts, BIPs, MFAS, indications, comms channel, trace and delay. -/
def State.rxOverhead (s : State) (p : Nat) (frame : List Byte) : State :=
  let f := scramble frame
  let mfas := beAt f 8 1
  let s := (s.pmAdd p 6 1).pmAdd p 7 (if 3 < fasErrors frame then 1 else 0)
  let s := (((s.rxBip p f).rxMfas p mfas).rxIndications p f).rxRei p f
  if s.defect p dLOM then s
  else
    let s := (s.rxComms p mfas ((f.drop 24).take 16)).rxTrace p mfas (f.getD 19 0)
    if mfas = 0 then s.rxDelay p f else s

theorem OnlyOverhead.rxOverhead (s : State) (p : Nat) (frame : List Byte) :
    OnlyOverhead p s (s.rxOverhead p frame) := by
  have hread := ((((((OnlyOverhead.refl p s).pmAdd 6 1).pmAdd 7 (if 3 < fasErrors frame then 1 else 0)).rxBip (scramble frame)).rxMfas
    (beAt (scramble frame) 8 1)).rxIndications (scramble frame)).rxRei (scramble frame)
  have hcycles := (hread.rxComms (beAt (scramble frame) 8 1) (((scramble frame).drop 24).take 16)).rxTrace (beAt (scramble frame) 8 1)
    ((scramble frame).getD 19 0)
  exact .ite hread (.ite (hcycles.rxDelay _) hcycles)

/-- In IF the overhead is read, the identifiers are compared, and the data bytes go on. -/
theorem State.rxInFrame_eq (s : State) (p : Nat) (frame : List Byte) (fec : FecCounts) :
    s.rxInFrame p frame fec = ((s.rxOverhead p frame).refreshIds p).rxPayload p (scramble frame) fec.badBytes := rfl

/-- The defects of identifiers are set, and the port is settled. -/
theorem State.refreshIds_eq (s : State) (p : Nat) :
    ∃ t, OnlyOverhead p s t ∧ s.refreshIds p = t.settlePort p s :=
  ⟨_, ((OnlyOverhead.refl p s).setDefect _ (by decide) (by decide)).setDefect _ (by decide) (by decide), rfl⟩

/-! ### Data bytes (R150, R151, R154) -/

theorem State.rxPayload_reg (s : State) (p : Nat) (f : List Byte) (bad : List Nat) (a : Nat) :
    (s.rxPayload p f bad).reg a = s.reg a := by
  have hcounted : (if jcOf f = 3 then s.pmAdd p 14 1 else s).reg a = s.reg a := by
    split
    · exact s.pmAdd_reg _ _ _ a
    · rfl
  unfold State.rxPayload
  extract_lets jc t fail
  refine Eq.trans ?_ hcounted
  split
  · rfl
  · split
    · rfl
    · split <;> rfl

theorem OnlyFramers.rxPayload (s : State) (p : Nat) (f : List Byte) (bad : List Nat) :
    OnlyFramers p s (s.rxPayload p f bad) := by
  have hcounted : OnlyFramers p s (if jcOf f = 3 then s.pmAdd p 14 1 else s) := .ite (.pmAdd s _ _) (.refl p s)
  exact .ite hcounted (.ite (hcounted.trans (.setPort _ rfl)) (.ite (hcounted.trans (.setPort _ rfl)) hcounted))

/-- An open endpoint without path fail appends the frame's data bytes to those to be delineated. -/
theorem State.rxPayload_rx {s : State} {p : Fin 16} (hrole : s.portRole p = 1)
    (hopen : s.portOpen p = true) (hpath : s.pathFail p = false)
    (f : List Byte) (bad : List Nat) : ((s.rxPayload p f bad).port p).rx =
      (s.port p).rx ++ dataBytes (jcOf f) (f.zipIdx.map (fun b => (b.1, bad.contains b.2))) := by
  have hcounted : OnlyOverhead p s (if jcOf f = 3 then s.pmAdd p 14 1 else s) :=
    .ite ((OnlyOverhead.refl p s).pmAdd _ _) (.refl p s)
  have hstatus : (if jcOf f = 3 then s.pmAdd p 14 1 else s).reg (A.lineStatus p) = s.reg (A.lineStatus p) := by
    split
    · exact s.pmAdd_reg _ _ _ _
    · rfl
  unfold State.rxPayload
  extract_lets jc t fail
  have htrole : t.portRole p = 1 := hcounted.framers.portRole.trans hrole
  have htpath : t.pathFail p = false := by
    simp only [State.pathFail, State.sectionFail, State.defect, State.b] at hpath ⊢
    rw [hstatus]
    exact hpath
  have hgo : (fail || !t.portOpen p) = false := by
    have htopen : t.portOpen p = true := hcounted.framers.portOpen.trans hopen
    simp [fail, htrole, htpath, htopen]
  rw [hgo, if_neg (by decide), if_pos htrole, State.port_setPort, if_pos rfl]
  exact congrArg (· ++ _) (hcounted.rx p)

end Sys2Proof.Machine
end

section
/-! Span frames on a port whose framers run (08_span_framer.md R148-R154). -/
namespace Sys2Proof.Machine

/-! ### Receipt (R153) -/

/-- The counts of the forward error correction are taken first. -/
def State.fecCounted (s : State) (p : Nat) (fec : FecCounts) : State :=
  ((s.pmAdd p 9 fec.corrected).pmAdd p 10 fec.codewords).pmAdd p 11 fec.uncorrectable

/-- A frame whose alignment has been judged is read if the port is in IF. -/
def State.rxAligned (s : State) (p : Nat) (frame : List Byte) (fec : FecCounts) : State :=
  if s.align p = 2 then s.rxInFrame p frame fec else s

/-- The state after a frame: counts, alignment and reading, settled. -/
def State.received (s : State) (p : Nat) (frame : List Byte) (fec : FecCounts) : State :=
  (((s.fecCounted p fec).rxAlign p frame).rxAligned p frame fec).settlePort p s

theorem exec_spanFrameReceive {s : State} {p : Fin 16} {frame : List Byte} (fec : FecCounts)
    (hon : s.framersOn p = true)
    (hruns : s.linkRuns = true) (hlen : frame.length = 16384) :
    exec (.spanFrameReceive p frame fec) s = .next (s.received p frame fec) := by
  have hgo : ¬ ((!s.framersOn p || !s.linkRuns || decide (frame.length ≠ 16384)) = true) := by simp [hon, hruns, hlen]
  exact congrArg Host.Outcome.next (if_neg hgo)

/-- Counting leaves the alignment's bookkeeping. -/
theorem State.fecCounted_port (s : State) (p : Nat) (fec : FecCounts) (q : Nat) :
    (s.fecCounted p fec).port q = { s.port q with pm := ((s.fecCounted p fec).port q).pm } := by
  unfold State.fecCounted
  rw [State.pmAdd_port, State.pmAdd_port, State.pmAdd_port]

theorem State.fecCounted_reg (s : State) (p : Nat) (fec : FecCounts) (a : Nat) :
    (s.fecCounted p fec).reg a = s.reg a := by
  unfold State.fecCounted
  rw [State.pmAdd_reg, State.pmAdd_reg, State.pmAdd_reg]

theorem State.fecCounted_f (s : State) (p : Nat) (fec : FecCounts) (a lo n : Nat) :
    (s.fecCounted p fec).f a lo n = s.f a lo n := by
  rw [State.f, State.fecCounted_reg, ← State.f]

theorem OnlyOverhead.fecCounted (s : State) (p : Nat) (fec : FecCounts) :
    OnlyOverhead p s (s.fecCounted p fec) :=
  (((OnlyOverhead.refl p s).pmAdd 9 fec.corrected).pmAdd 10 fec.codewords).pmAdd 11 fec.uncorrectable

theorem OnlyFramers.rxAlign (s : State) (p : Nat) (frame : List Byte) :
    OnlyFramers p s (s.rxAlign p frame) := by
  unfold State.rxAlign
  dsimp only
  split
  · exact .ite (.setAlign s 1) (.refl p s)
  · exact .ite (.ite (.setAlign s 2) (.setPort s rfl)) (.setAlign s 0)
  · exact .ite (.ite (.setAlign s 0) (.setPort s rfl)) (.setPort s rfl)

/-- In OOF a good FAS is the first of PRE. -/
theorem State.rxAlign_found {s : State} {p : Nat} {frame : List Byte} (h : s.align p = 0)
    (hfas : fasErrors frame = 0) :
    s.rxAlign p frame = s.setAlign p 1 := by
  simp [State.rxAlign, h, hfas]

/-- In PRE the good FAS that completes the run puts the port into IF. -/
theorem State.rxAlign_confirmed {s : State} {p : Nat} {frame : List Byte} (h : s.align p = 1)
    (hfas : fasErrors frame = 0)
    (hrun : s.f (A.lineCtrl p) 4 4 ≤ (s.port p).preCount + 1) : s.rxAlign p frame = s.setAlign p 2 := by
  simp [State.rxAlign, h, hfas, hrun]

/-- In PRE an errored FAS puts the port back into OOF. -/
theorem State.rxAlign_missed {s : State} {p : Nat} {frame : List Byte} (h : s.align p = 1)
    (hfas : fasErrors frame ≠ 0) :
    s.rxAlign p frame = s.setAlign p 0 := by
  simp [State.rxAlign, h, hfas]

/-- In IF the errored FAS that completes the run puts the port into OOF. -/
theorem State.rxAlign_lost {s : State} {p : Nat} {frame : List Byte} (h : s.align p = 2)
    (hfas : 3 < fasErrors frame)
    (hrun : s.f (A.lineCtrl p) 8 4 ≤ (s.port p).fasRun + 1) : s.rxAlign p frame = s.setAlign p 0 := by
  simp [State.rxAlign, h, hfas, hrun]

/-- In IF a good FAS ends a run of errored ones. -/
theorem State.rxAlign_kept {s : State} {p : Nat} {frame : List Byte} (h : s.align p = 2)
    (hfas : fasErrors frame ≤ 3) :
    s.rxAlign p frame = s.setPort p { s.port p with fasRun := 0 } := by
  simp [State.rxAlign, h, Nat.not_lt.mpr hfas]

theorem State.align_of_status {s t : State} {p : Nat}
    (h : t.reg (A.lineStatus p) = s.reg (A.lineStatus p)) : t.align p = s.align p := by
  rw [State.align, State.f, h, ← State.f, ← State.align]

theorem State.pathFail_of_status {s t : State} {p : Nat} (h : t.reg (A.lineStatus p) = s.reg (A.lineStatus p)) :
    t.pathFail p = s.pathFail p := by
  simp only [State.pathFail, State.sectionFail, State.defect, State.b, h]

theorem OnlyFramers.rxAligned (s : State) (p : Nat) (frame : List Byte) (fec : FecCounts) :
    OnlyFramers p s (s.rxAligned p frame fec) := by
  obtain ⟨t, ht, hsettled⟩ := (s.rxOverhead p frame).refreshIds_eq p
  refine .ite ?_ (.refl p s)
  rw [State.rxInFrame_eq, hsettled]
  exact (((OnlyOverhead.rxOverhead s p frame).trans ht).framers.trans (.settlePort t _)).trans (.rxPayload _ _ _ _)

/-- Reading a frame moves no alignment. -/
theorem State.rxAligned_align (s : State) (p : Fin 16) (frame : List Byte) (fec : FecCounts) :
    (s.rxAligned p frame fec).align p = s.align p := by
  obtain ⟨t, ht, hsettled⟩ := (s.rxOverhead p frame).refreshIds_eq p
  unfold State.rxAligned
  split
  · rw [State.rxInFrame_eq, hsettled, State.align_of_status (State.rxPayload_reg _ _ _ _ _),
      State.align_of_status (State.settlePort_status _ _ _), ht.align,
        (OnlyOverhead.rxOverhead s p frame).align]
  · rfl

/-- A frame's data bytes reach an open endpoint in IF whose path does not fail. -/
theorem State.rxAligned_rx {s : State} {p : Fin 16} {frame : List Byte} (fec : FecCounts)
    (halign : s.align p = 2)
    (hrole : s.portRole p = 1) (hopen : s.portOpen p = true) (hpath : (s.rxAligned p frame fec).pathFail p = false) :
    ((s.rxAligned p frame fec).port p).rx = (s.port p).rx ++
      dataBytes (jcOf (scramble frame)) ((scramble frame).zipIdx.map (fun b => (b.1,
        fec.badBytes.contains b.2))) := by
  obtain ⟨t, ht, hsettled⟩ := (s.rxOverhead p frame).refreshIds_eq p
  have hread : OnlyOverhead p s t := (OnlyOverhead.rxOverhead s p frame).trans ht
  have hframers : OnlyFramers p s (t.settlePort p (s.rxOverhead p frame)) :=
    hread.framers.trans (.settlePort t _)
  rw [State.rxAligned, if_pos halign, State.rxInFrame_eq, hsettled] at hpath ⊢
  rw [State.pathFail_of_status (State.rxPayload_reg _ _ _ _ _)] at hpath
  have htpath : t.pathFail p = false := by rw [← State.pathFail_of_status (t.settlePort_status p _), hpath]
  rw [State.rxPayload_rx (hframers.portRole.trans hrole) (hframers.portOpen.trans hopen) hpath,
    t.settlePort_rx p _ (hread.align.trans halign) htpath, hread.rx]

theorem OnlyFramers.received (s : State) (p : Nat) (frame : List Byte) (fec : FecCounts) :
    OnlyFramers p s (s.received p frame fec) :=
  (((OnlyOverhead.fecCounted s p fec).framers.trans (.rxAlign _ p frame)).trans (.rxAligned _ p frame fec)).trans (.settlePort _ s)

/-- The alignment after a frame is what its FAS makes of it. -/
theorem State.received_align (s : State) (p : Fin 16) (frame : List Byte) (fec : FecCounts) :
    (s.received p frame fec).align p = ((s.fecCounted p fec).rxAlign p frame).align p := by
  rw [State.received, State.align_of_status (State.settlePort_status _ p s), State.rxAligned_align]

/-- A frame with at most 3 wrong bits keeps IF, and an open endpoint without path fail afterwards delivers its data bytes. -/
theorem State.received_payload {s : State} {p : Fin 16} {frame : List Byte} {fec : FecCounts}
    (halign : s.align p = 2)
    (hfas : fasErrors frame ≤ 3) (hrole : s.portRole p = 1) (hopen : s.portOpen p = true)
    (hpath : (s.received p frame fec).pathFail p = false) : let t := s.received p frame fec
    t.align p = 2 ∧ (t.port p).rx = (s.port p).rx ++
      dataBytes (jcOf (scramble frame)) ((scramble frame).zipIdx.map (fun b => (b.1,
        fec.badBytes.contains b.2))) := by
  have hcounted := OnlyOverhead.fecCounted s p fec
  have hkept : OnlyOverhead p s ((s.fecCounted p fec).rxAlign p frame) := by
    rw [State.rxAlign_kept (hcounted.align.trans halign) hfas]
    exact hcounted.setPort
  have hif : ((s.fecCounted p fec).rxAlign p frame).align p = 2 := hkept.align.trans halign
  refine ⟨(s.received_align p frame fec).trans hif, ?_⟩
  rw [State.received, State.pathFail_of_status (State.settlePort_status _ p s)] at hpath
  rw [State.received, State.settlePort_rx _ p s ((State.rxAligned_align _ p frame fec).trans hif) hpath,
    State.rxAligned_rx fec hif (hkept.framers.portRole.trans hrole) (hkept.framers.portOpen.trans hopen) hpath, hkept.rx]

/-! ### Transmission (R148-R151) -/

theorem lfsrXor_length (st : Nat) (bs : List Byte) : (lfsrXor st bs).1.length = bs.length := by
  induction bs generalizing st with
  | nil => rfl
  | cons b r ih => simp [lfsrXor, ih]

theorem prbs31_length (st n : Nat) : (prbs31 st n).1.length = n := by
  rw [prbs31, lfsrXor_length, List.length_replicate]

theorem scramble_length (frame : List Byte) : (scramble frame).length = frame.length := by
  rw [scramble, List.length_append, lfsrXor_length, ← List.length_append, List.take_append_drop]

/-- A transmit buffer filled with idle cells holds what a frame needs. -/
theorem le_fillIdle_length (n : Nat) (tx : List Byte) : n ≤ (fillIdle n tx).length := by
  simp [fillIdle, idleCell]
  omega

/-- `need` bytes of payload to send, PRBS31 or cells with idle ones, and the port without them. -/
def State.takePayload (s : State) (p need : Nat) : List Byte × LinePort :=
  let x := s.port p
  if s.sendsPrbs p then ((prbs31 x.prbs need).1, { x with prbs := (prbs31 x.prbs need).2 })
  else ((fillIdle need x.tx).take need, { x with tx := (fillIdle need x.tx).drop need })

theorem State.takePayload_spec (s : State) (p need : Nat) :
    (s.takePayload p need).1.length = need ∧ (s.takePayload p need).2.mfasTx = (s.port p).mfasTx := by
  unfold State.takePayload
  dsimp only
  split
  · exact ⟨prbs31_length _ _, rfl⟩
  · exact ⟨List.length_take_of_le (le_fillIdle_length need _), rfl⟩

/-- Data bytes that a frame needs with its justification. -/
def frameNeed (jc : Nat) : Nat := if jc = 1 then 16324 else if jc = 2 then 16316 else 16320

/-- A frame that sends no AIS is filled by its justification. -/
theorem State.fillFrame_eq {s : State} {p : Nat} (h : s.sendsAis p = false) : ∃ jc, let r := s.takePayload p (frameNeed jc)
    s.fillFrame p =
      if jc = 1 then ({ jc := 1, njo := r.1.take 4, body := r.1.drop 4, port := r.2 }, s.draw.2)
      else if jc = 2 then ({ jc := 2, njo := [0, 0, 0, 0], body := [0, 0, 0, 0] ++ r.1, port := r.2 }, s.draw.2)
      else ({ jc := 0, njo := [0, 0, 0, 0], body := r.1, port := r.2 }, s.draw.2) := by
  refine ⟨if s.b (A.lineStatus p) 12 then 0 else Config.justify s.freeCtr % 3, ?_⟩
  unfold State.fillFrame
  dsimp only
  rw [if_neg (by simp [h])]
  rfl

/-- What a frame is filled with has the room between its overhead; one free value may be used. -/
theorem State.fillFrame_spec (s : State) (p : Nat) : let r := s.fillFrame p
    r.1.njo.length = 4 ∧ r.1.body.length = 16320 ∧ r.1.port.mfasTx = (s.port p).mfasTx ∧
      r.2 = { s with freeCtr := r.2.freeCtr } := by
  cases hais : s.sendsAis p with
  | true =>
    rw [State.fillFrame, if_pos hais]
    exact ⟨List.length_replicate, List.length_replicate, rfl, rfl⟩
  | false =>
    obtain ⟨jc, heq⟩ := State.fillFrame_eq hais
    obtain ⟨hlen, hport⟩ := s.takePayload_spec p (frameNeed jc)
    generalize s.takePayload p (frameNeed jc) = r at heq hlen hport
    dsimp only at heq ⊢
    rw [heq]
    by_cases hone : jc = 1
    · rw [if_pos hone]
      rw [frameNeed, if_pos hone] at hlen
      exact ⟨List.length_take_of_le (by omega), by rw [List.length_drop, hlen], hport, rfl⟩
    · by_cases htwo : jc = 2
      · rw [if_neg hone, if_pos htwo]
        rw [frameNeed, if_neg hone, if_pos htwo] at hlen
        exact ⟨rfl, by rw [List.length_append, hlen]; rfl, hport, rfl⟩
      · rw [if_neg hone, if_neg htwo]
        rw [frameNeed, if_neg hone, if_neg htwo] at hlen
        exact ⟨rfl, hlen, hport, rfl⟩

theorem State.sectionMsg_length (s : State) (p mfas : Nat) : (s.sectionMsg p mfas).length = 64 := by
  unfold State.sectionMsg
  split <;> simp

theorem State.frameBody_length (s : State) (p : Nat) {y : Fill} (hnjo : y.njo.length = 4)
    (hbody : y.body.length = 16320) :
    (s.frameBody p y).length = 16376 := by
  have hmsg (m : Nat) : (((s.sectionMsg p m).drop (m % 4 * 16)).take 16).length = 16 := by
    rw [List.length_take, List.length_drop, State.sectionMsg_length]
    omega
  simp [State.frameBody, hmsg, hnjo, hbody, -List.length_take, -List.length_drop]

/-- What a transmission leaves before its frame is on the face: a free value may be used, and the port moves on by one frame. -/
structure FrameSent (p : Nat) (s t : State) : Prop where
  state : t = { s with freeCtr := t.freeCtr, ports := t.ports }
  mfas : (t.port p).mfasTx = ((s.port p).mfasTx + 1) % 256
  others : ∀ r, r ≠ p → t.port r = s.port r

theorem FrameSent.pmAdd {p : Nat} {s t : State} (h : FrameSent p s t) (k n : Nat) :
    FrameSent p s (t.pmAdd p k n) := by
  unfold State.pmAdd
  dsimp only
  split
  · refine ⟨by rw [h.state]; rfl, ?_, fun r hr => ?_⟩
    · rw [State.port_setPort, if_pos rfl]
      exact h.mfas
    · rw [State.port_setPort, if_neg hr]
      exact h.others r hr
  · exact h

theorem State.txFrame_sends {s : State} {p : Nat} (hon : s.framersOn p = true) (hruns : s.linkRuns = true) :
    ∃ t body, body.length = 16376 ∧ FrameSent p s t ∧
      s.txFrame p = t.emit (.frame p (scramble (fas ++ body))) := by
  have hgo : ¬ ((!s.framersOn p || !s.linkRuns) = true) := by simp [hon, hruns]
  obtain ⟨hnjo, hbody, hmfas, hstate⟩ := s.fillFrame_spec p
  rw [State.txFrame, if_neg hgo]
  generalize s.fillFrame p = r at hnjo hbody hmfas hstate
  obtain ⟨y, u⟩ := r
  dsimp only at hnjo hbody hmfas hstate ⊢
  have hsent (relay : Bool) (bips : Nat × Nat) : FrameSent p s (u.setPort p (y.port.sent relay bips)) := by
    refine ⟨by rw [hstate]; rfl, ?_, fun r hr => ?_⟩
    · rw [State.port_setPort, if_pos rfl, LinePort.sent, hmfas]
    · rw [State.port_setPort, if_neg hr, hstate]
      rfl
  refine ⟨_, u.frameBody p y, u.frameBody_length p hnjo hbody, ?_, rfl⟩
  split
  · exact (hsent _ _).pmAdd _ _
  · split
    · exact (hsent _ _).pmAdd _ _
    · exact hsent _ _

/-- Settles O42: a receipt aligns, reads overhead and delivers, each by its own lemma; a transmission emits one whole frame. -/
theorem spanFramesAlignDeliverAndGo : Obligations.SpanFramesAlignDeliverAndGo := by
  refine ⟨fun s p frame fec hon hruns hlen => ?_, fun s p hon hruns => ?_⟩
  · obtain ⟨hbytes, ⟨hque, hcle, hrue, hlnd, hgal, -⟩, hsec, hlight, hbase,
      hhost⟩ := (OnlyFramers.received s p frame fec).frame
    have hcounted := OnlyOverhead.fecCounted s p fec
    refine ⟨_, exec_spanFrameReceive fec hon hruns hlen, fun h0 hgood => ?_, fun h1 hgood hrun => ?_,
      fun h1 hbad => ?_,
      fun h2 hbad hrun => ?_, fun h2 hgood hrole hopen hpath => State.received_payload h2 hgood hrole hopen hpath, hbytes, hque, hcle,
      hrue, hlnd, hgal, hsec, hlight, hbase, hhost⟩
    · rw [State.received_align, State.rxAlign_found (hcounted.align.trans h0) hgood,
        State.align_setAlign _ _ (by decide)]
    · rw [State.received_align, State.rxAlign_confirmed (hcounted.align.trans h1) hgood (by
        rw [State.fecCounted_f, State.fecCounted_port]
        exact hrun), State.align_setAlign _ _ (by decide)]
    · rw [State.received_align, State.rxAlign_missed (hcounted.align.trans h1) hbad,
        State.align_setAlign _ _ (by decide)]
    · rw [State.received_align, State.rxAlign_lost (hcounted.align.trans h2) hbad (by
        rw [State.fecCounted_f, State.fecCounted_port]
        exact hrun), State.align_setAlign _ _ (by decide)]
  · obtain ⟨t, body, hlen, hsent, heq⟩ := State.txFrame_sends hon hruns
    have hrun : exec (.spanFrameTransmit p) s = .next (t.emit (.frame p (scramble (fas ++ body)))) :=
      congrArg Host.Outcome.next heq
    obtain ⟨hstate, hmfas, hothers⟩ := hsent
    refine ⟨_, scramble (fas ++ body), hrun, ?_, ?_, rfl, hmfas, hothers, ?_⟩
    · rw [hstate]
      rfl
    · rw [scramble_length, List.length_append, hlen]
      rfl
    · rw [hstate]
      exact ⟨SameBytes.refl s, ⟨rfl, rfl, rfl, rfl, rfl, rfl⟩, rfl, rfl, rfl, ⟨rfl, rfl⟩, ⟨rfl, rfl,
        rfl, rfl, rfl, rfl⟩,
        ⟨rfl, rfl, rfl, rfl⟩, fun _ _ => ⟨rfl, rfl⟩⟩

end Sys2Proof.Machine
end

section
/-! Loss of signal, of frame and of the reference of a port (08_span_framer.md R152, R153, R158). -/
namespace Sys2Proof.Machine

/-! ### Loss of signal (R158) -/

section
variable {p : Nat} {s t : State} (h : OnlyFramers p s t) (q : Nat)
include h

theorem OnlyFramers.sigLost : (t.port q).sigLost = (s.port q).sigLost := congrArg Prod.fst (h.outside q)
theorem OnlyFramers.framerOn : (t.port q).framerOn = (s.port q).framerOn :=
    congrArg (fun x => x.2.1) (h.outside q)
theorem OnlyFramers.resetPulse : (t.port q).resetPulse = (s.port q).resetPulse :=
  congrArg (fun x => x.2.2) (h.outside q)

end

/-- A port is without signal: lost on a host lane, reported lost by its module, or its module absent. -/
def State.losNow (s : State) (p : Nat) : Bool :=
  s.portEnabled p && ((s.port p).sigLost || s.b (A.lineModStatus p) 6 || !s.b (A.lineModStatus p) 0)

theorem State.refreshLos_lost_eq {s : State} {p : Nat} (h : s.losNow p = true) :
    s.refreshLos p = ((s.setDefect p dLOS true).setAlign p 0).settlePort p s := by
  unfold State.losNow at h
  unfold State.refreshLos
  dsimp only
  rw [h, if_pos rfl]

theorem State.refreshLos_clear_eq {s : State} {p : Nat} (h : s.losNow p = false) :
    s.refreshLos p = (s.setDefect p dLOS false).settlePort p s := by
  unfold State.losNow at h
  unfold State.refreshLos
  dsimp only
  rw [h, if_neg (by decide)]

theorem OnlyFramers.setDefect (p : Nat) (s : State) {d : Nat} (v : Bool) (h2 : 2 ≤ d) (h : d < 32) :
    OnlyFramers p s (s.setDefect p d v) := (OnlyDefects.setDefect p s v h2 h).onlyFramers

theorem OnlyFramers.refreshLos (s : State) (p : Nat) : OnlyFramers p s (s.refreshLos p) := by
  cases h : s.losNow p with
  | true =>
    rw [State.refreshLos_lost_eq h]
    exact ((OnlyFramers.setDefect p s _ (by decide) (by decide)).trans (.setAlign _ _)).trans (.settlePort _ _)
  | false =>
    rw [State.refreshLos_clear_eq h]
    exact (OnlyFramers.setDefect p s _ (by decide) (by decide)).trans (.settlePort _ _)

/-- A move of the alignment leaves the defects. -/
theorem State.defect_setAlign (s : State) (p a : Nat) {d : Nat} (h : 2 ≤ d) :
    (s.setAlign p a).defect p d = s.defect p d := by
  obtain ⟨x, -, -, heq⟩ := s.setAlign_eq p a
  have hmoved : ((s.setPort p x).setF (A.lineStatus p) 0 2 a).defect p d = s.defect p d :=
    State.b_setF_ne _ _ _ _ _ _ _ (by omega) (.inr (.inr h))
  rw [heq]
  split
  · rfl
  · split
    · rw [State.defect, State.b, State.pmAdd_reg]
      exact hmoved
    · exact hmoved

theorem State.defect_of_status {s t : State} {p : Nat}
    (h : t.reg (A.lineStatus p) = s.reg (A.lineStatus p)) (d : Nat) :
    t.defect p d = s.defect p d := by
  simp only [State.defect, State.b, h]

/-- A port without signal has dLOS and is in OOF. -/
theorem State.refreshLos_lost {s : State} {p : Fin 16} (h : s.losNow p = true) :
    (s.refreshLos p).defect p dLOS = true ∧ (s.refreshLos p).align p = 0 := by
  rw [State.refreshLos_lost_eq h, State.defect_of_status (State.settlePort_status _ p s),
    State.align_of_status (State.settlePort_status _ p s),
    State.defect_setAlign _ _ _ (by decide), State.defect_setDefect _ _ _ (by decide),
      State.align_setAlign _ _ (by decide)]
  exact ⟨rfl, rfl⟩

/-- A port with signal has no dLOS, and its alignment stays. -/
theorem State.refreshLos_clear {s : State} {p : Fin 16} (h : s.losNow p = false) :
    (s.refreshLos p).defect p dLOS = false ∧ (s.refreshLos p).align p = s.align p := by
  rw [State.refreshLos_clear_eq h, State.defect_of_status (State.settlePort_status _ p s),
    State.align_of_status (State.settlePort_status _ p s), State.defect_setDefect _ _ _ (by decide),
    (OnlyDefects.setDefect p s false (d := dLOS) (by decide) (by decide)).align]
  exact ⟨rfl, rfl⟩

/-- Loss of signal on a host lane of an enabled port. -/
theorem State.signalLost_spec {s : State} {p : Fin 16} (hon : s.portEnabled p = true) :
    let t := (s.setPort p { s.port p with sigLost := true }).refreshLos p
    t.defect p dLOS = true ∧ t.align p = 0 ∧ (t.port p).sigLost = true ∧
      OnlyFramers p (s.setPort p { s.port p with sigLost := true }) t := by
  let u : State := s.setPort p { s.port p with sigLost := true }
  have hsig : (u.port p).sigLost = true := by rw [State.port_setPort, if_pos rfl]
  have hen : u.portEnabled p = true := hon
  have hnow : u.losNow p = true := by
    rw [State.losNow, hen, hsig]
    rfl
  obtain ⟨hdefect, halign⟩ := State.refreshLos_lost hnow
  exact ⟨hdefect, halign, ((OnlyFramers.refreshLos u p).sigLost p).trans hsig, OnlyFramers.refreshLos u p⟩

/-- The signal comes back with a module that is present and reports no loss. -/
theorem State.signalRestored_spec {s : State} {p : Fin 16}
    (hlos : s.b (A.lineModStatus p) 6 = false) (hmod : s.b (A.lineModStatus p) 0 = true) :
    let t := (s.setPort p { s.port p with sigLost := false }).refreshLos p
    t.defect p dLOS = false ∧ t.align p = s.align p ∧ (t.port p).sigLost = false ∧
      OnlyFramers p (s.setPort p { s.port p with sigLost := false }) t := by
  let u : State := s.setPort p { s.port p with sigLost := false }
  have hsig : (u.port p).sigLost = false := by rw [State.port_setPort, if_pos rfl]
  have hnow : u.losNow p = false := by
    have hreported : u.b (A.lineModStatus p) 6 = false := hlos
    have hpresent : u.b (A.lineModStatus p) 0 = true := hmod
    rw [State.losNow, hsig, hreported, hpresent]
    exact Bool.and_false _
  obtain ⟨hdefect, halign⟩ := State.refreshLos_clear hnow
  exact ⟨hdefect, halign, ((OnlyFramers.refreshLos u p).sigLost p).trans hsig, OnlyFramers.refreshLos u p⟩

/-! ### Loss of frame (R153, R158) -/

/-- Declaring or clearing dLOF moves no alignment. -/
theorem State.setDlof_settled (s : State) (p : Fin 16) (v : Bool) : let t := (s.setDefect p dLOF v).settlePort p s
    t.defect p dLOF = v ∧ t.align p = s.align p ∧ OnlyFramers p s t := by
  have hstatus := State.settlePort_status (s.setDefect p dLOF v) p s
  have hdefect := OnlyDefects.setDefect p s v (d := dLOF) (by decide) (by decide)
  exact ⟨(State.defect_of_status hstatus _).trans (s.defect_setDefect p v (by decide)),
    (State.align_of_status hstatus).trans hdefect.align,
    hdefect.onlyFramers.trans (.settlePort _ s)⟩

/-! ### What one port's commands touch -/

/-- Beside port `p`, registers, free values and the faces nothing changes. -/
structure OnlyThisPort (p : Nat) (s t : State) : Prop where
  state : t = { s with ports := t.ports, regs := t.regs, freeCtr := t.freeCtr, outbox := t.outbox }
  others : ∀ r, r ≠ p → t.port r = s.port r

theorem OnlyThisPort.refl (p : Nat) (s : State) : OnlyThisPort p s s := ⟨rfl, fun _ _ => rfl⟩

section
variable {p : Nat} {s t u : State}

theorem OnlyThisPort.trans (h : OnlyThisPort p s t) (g : OnlyThisPort p t u) : OnlyThisPort p s u :=
  ⟨by rw [g.state, h.state], fun r hr => (g.others r hr).trans (h.others r hr)⟩

theorem OnlyThisPort.setPort (s : State) (x : LinePort) : OnlyThisPort p s (s.setPort p x) :=
  ⟨rfl, fun r hr => by rw [State.port_setPort, if_neg hr]⟩

theorem OnlyThisPort.setReg (s : State) (a : Nat) (v : Word) : OnlyThisPort p s (s.setReg a v) :=
    ⟨rfl, fun _ _ => rfl⟩
theorem OnlyThisPort.regs (s : State) (m : Sparse Word) : OnlyThisPort p s { s with regs := m } :=
    ⟨rfl, fun _ _ => rfl⟩
theorem OnlyThisPort.draw (s : State) : OnlyThisPort p s s.draw.2 := ⟨rfl, fun _ _ => rfl⟩
theorem OnlyThisPort.emit (s : State) (e : Sent) : OnlyThisPort p s (s.emit e) := ⟨rfl, fun _ _ => rfl⟩

theorem OnlyDefects.onlyThisPort (h : OnlyDefects p s t) : OnlyThisPort p s t := by
  have hfree : t.freeCtr = s.freeCtr := by rw [h.state]
  have hout : t.outbox = s.outbox := by rw [h.state]
  refine ⟨?_, h.others⟩
  rw [hfree, hout]
  exact h.state

theorem OnlyThisPort.staged (h : OnlyThisPort p s t) (a : Nat) : t.sreg a = s.sreg a := by
  rw [h.state]
  rfl

theorem OnlyThisPort.frame (h : OnlyThisPort p s t) :
    (∀ r, r ≠ p → t.port r = s.port r) ∧ SameBytes s t ∧ SameEngines s t ∧ t.rte = s.rte ∧
    t.sched = s.sched ∧ t.sec = s.sec ∧ SameLight s t ∧ SameBase s t ∧ SameHost s t := by
  refine ⟨h.others, ?_⟩
  rw [h.state]
  exact ⟨SameBytes.refl s, ⟨rfl, rfl, rfl, rfl, rfl, rfl⟩, rfl, rfl, rfl, ⟨rfl, rfl⟩, ⟨rfl, rfl, rfl,
    rfl, rfl, rfl⟩, ⟨rfl, rfl, rfl, rfl⟩⟩

end

/-! ### The module's reference (R152) -/

/-- Re-centring loses or repeats at most 4,096 bytes of the transmit buffer, and changes nothing else of the port. -/
theorem State.recentre_spec (s : State) (p : Nat) :
    ∃ tx, s.recentre p = s.draw.2.setPort p { s.port p with tx := tx } ∧
    tx.length ≤ (s.port p).tx.length + 4096 ∧ (s.port p).tx.length ≤ tx.length + 4096 := by
  refine ⟨_, rfl, ?_⟩
  have hk : Config.recentre s.freeCtr / 2 % 4097 < 4097 := Nat.mod_lt _ (by decide)
  split
  · rw [List.length_drop]
    omega
  · rw [List.length_append, List.length_take]
    omega

theorem State.refChange_eq {s : State} {p : Nat} {lost : Bool} (hon : s.portEnabled p = true)
    (hstatus : s.b (A.lineStatus p) 12 = !lost) :
    s.refChange p lost = ((s.setPort p { s.port p with refLost := lost }).setDefect p 12 lost).recentre p := by
  have hgo : ¬ ((!s.portEnabled p || decide (s.b (A.lineStatus p) 12 = lost)) = true) := by
    rw [hon, hstatus]
    cases lost <;> decide
  exact if_neg hgo

/-- A change of the reference of an enabled port shows in REF_LOST and re-centres its transmit buffer. -/
theorem State.refChange_spec {s : State} {p : Nat} {lost : Bool} (hon : s.portEnabled p = true)
    (hstatus : s.b (A.lineStatus p) 12 = !lost) :
    let t := s.refChange p lost
    t.b (A.lineStatus p) 12 = lost ∧ t.align p = s.align p ∧
      (t.port p).tx.length ≤ (s.port p).tx.length + 4096 ∧
      (s.port p).tx.length ≤ (t.port p).tx.length + 4096 ∧ OnlyThisPort p s t ∧
        SameRegs [A.lineStatus p, A.lineDefectLatch p] s t := by
  let u : State := s.setPort p { s.port p with refLost := lost }
  have hdefect : OnlyDefects p u (u.setDefect p 12 lost) :=
    OnlyDefects.setDefect p u lost (by decide) (by decide)
  obtain ⟨tx, hrecentre, hshort, hlong⟩ := (u.setDefect p 12 lost).recentre_spec p
  have htx : ((u.setDefect p 12 lost).port p).tx = (s.port p).tx := by
    rw [hdefect.port, State.port_setPort, if_pos rfl]
  have honly : OnlyThisPort p s ((u.setDefect p 12 lost).draw.2.setPort p { (u.setDefect p 12 lost).port p with tx := tx }) :=
    (((OnlyThisPort.setPort s _).trans hdefect.onlyThisPort).trans (.draw _)).trans (.setPort _ _)
  rw [htx] at hshort hlong
  rw [State.refChange_eq hon hstatus, hrecentre]
  dsimp only
  rw [State.port_setPort, if_pos rfl]
  exact ⟨u.defect_setDefect p lost (by decide), hdefect.align, hshort, hlong, honly,
    fun a ha => ⟨hdefect.regs a ha, honly.staged a⟩⟩

end Sys2Proof.Machine
end

section
/-! A second's counts of a port are latched, and added ten seconds later (08_span_framer.md R167-R169). -/
namespace Sys2Proof.Machine

/-! ### Registers set one after the other -/

theorem State.reg_foldl_setReg_ne (s : State) (adr : Nat → Nat) (w : Nat → Word) {n a : Nat}
    (h : ∀ k, k < n → a ≠ adr k) :
    ((List.range n).foldl (fun s k => s.setReg (adr k) (w k)) s).reg a = s.reg a :=
  List.foldlRecOn (motive := fun t : State => t.reg a = s.reg a) (List.range n) _ rfl
    fun _ ht k hk => (State.reg_setReg_ne _ _ (h k (List.mem_range.mp hk))).trans ht

theorem State.reg_foldl_setReg (s : State) (adr : Nat → Nat) (w : Nat → Word)
    (hinj : ∀ j k, adr j = adr k → j = k) {n k : Nat} (h : k < n) :
    ((List.range n).foldl (fun s k => s.setReg (adr k) (w k)) s).reg (adr k) = w k := by
  induction n with
  | zero => omega
  | succ n ih =>
    rw [List.range_succ, List.foldl_append, List.foldl_cons, List.foldl_nil, State.reg_setReg]
    split
    · next heq => rw [hinj k n heq]
    · next hne => exact ih (lt_of_le_of_ne (Nat.lt_succ_iff.mp h) fun hk => hne (congrArg adr hk))

/-! ### The latch (R167, R168) -/

/-- At the end of a second a port's degradation is judged: runs of seconds and two defects, no count that the latch stores. -/
theorem State.degrade_spec (s : State) (p : Nat) : ∃ x :
    LinePort, x.pm = (s.port p).pm ∧ x.history = (s.port p).history ∧
    OnlyDefects p (s.setPort p x) (s.degrade p) := by
  unfold State.degrade
  extract_lets x thr m a b u v
  have hv : OnlyDefects p u v := .ite (.setDefect p u _ (by decide) (by decide)) (.ite (.setDefect p u _ (by decide) (by decide)) (.refl p u))
  refine ⟨_, ?_, ?_, hv.trans (.ite (.setDefect p v _ (by decide) (by decide)) (.ite (.setDefect p v _ (by decide) (by decide)) (.refl p v)))⟩
  · rfl
  · rfl

/-- The state at a latch after the judgement of an enabled port. -/
def State.judged (s : State) (p : Nat) : State := if s.portEnabled p then s.degrade p else s

/-- Judging a port leaves its counts 0 to 14, its classified seconds and every register but its status and defect latch. -/
structure OnlyJudged (p : Nat) (s t : State) : Prop where
  regs : ∀ a, [A.lineStatus p, A.lineDefectLatch p].contains a = false → t.reg a = s.reg a
  counts : ∀ k, k ≠ 15 → (t.port p).pm.getD k 0 = (s.port p).pm.getD k 0
  history : (t.port p).history = (s.port p).history
  only : OnlyThisPort p s t

theorem OnlyJudged.judged (s : State) (p : Nat) : OnlyJudged p s (s.judged p) := by
  unfold State.judged
  split
  · obtain ⟨x, hpm, hhistory, hdefects⟩ := s.degrade_spec p
    have hport : (s.setPort p x).port p = x := by rw [State.port_setPort, if_pos rfl]
    refine ⟨hdefects.regs, fun k hk => ?_, ?_, (OnlyThisPort.setPort s x).trans hdefects.onlyThisPort⟩
    · rw [hdefects.counts k hk, hport, hpm]
    · rw [hdefects.port, hport]
      exact hhistory
  · exact ⟨fun _ _ => rfl, fun _ _ => rfl, rfl, .refl p s⟩

/-- The registers of a latch: the counts, the sequence number and the length of the second. -/
def State.latchRegs (s : State) (p : Nat) : State :=
  let x := s.port p
  let s := (List.range 16).foldl (fun s k => s.setReg (A.linePm p k) (BitVec.ofNat 32 (x.pm.getD k 0))) s
  let s := s.setReg (A.linePmSeq p) (s.reg (A.linePmSeq p) + 1)
  s.setReg (A.linePmLen p) (BitVec.ofNat 32 (openDiv (s.mono - x.lastLatch) 1000))

/-- Of a state that differs in registers alone, a register may be set. -/
theorem State.setReg_onlyRegs {s t : State} (h : t = { s with regs := t.regs }) (a : Nat) (v : Word) :
    t.setReg a v = { s with regs := (t.setReg a v).regs } := by
  rw [h]
  rfl

theorem State.latchRegs_eq (s : State) (p : Nat) : s.latchRegs p = { s with regs := (s.latchRegs p).regs } := by
  refine State.setReg_onlyRegs (State.setReg_onlyRegs ?_ _ _) _ _
  exact List.foldlRecOn (motive := fun t : State => t = { s with regs := t.regs }) (List.range 16) _ rfl
    fun _ ht _ _ => State.setReg_onlyRegs ht _ _

theorem State.latchRegs_linePm (s : State) (p : Nat) {k : Nat} (h : k < 16) :
    (s.latchRegs p).reg (A.linePm p k) = BitVec.ofNat 32 ((s.port p).pm.getD k 0) := by
  unfold State.latchRegs
  rw [State.reg_setReg_ne _ _ (by unfold A.linePm A.linePmLen; omega),
    State.reg_setReg_ne _ _ (by unfold A.linePm A.linePmSeq; omega),
    State.reg_foldl_setReg s (A.linePm p) _ (fun j k hjk => by unfold A.linePm at hjk; omega) h]

theorem State.latchRegs_linePmSeq (s : State) (p : Nat) :
    (s.latchRegs p).reg (A.linePmSeq p) = s.reg (A.linePmSeq p) + 1 := by
  unfold State.latchRegs
  rw [State.reg_setReg_ne _ _ (by unfold A.linePmSeq A.linePmLen; omega), State.reg_setReg_same,
    State.reg_foldl_setReg_ne s (A.linePm p) _ (fun k _ => by unfold A.linePmSeq A.linePm; omega)]

theorem State.latchRegs_portEnabled (s : State) (p : Nat) :
    (s.latchRegs p).portEnabled p = s.portEnabled p := by
  unfold State.portEnabled State.latchRegs
  rw [State.b_setReg_ne _ _ _ (by unfold A.lineCtrl A.linePmLen; omega),
    State.b_setReg_ne _ _ _ (by unfold A.lineCtrl A.linePmSeq; omega),
    State.b, State.reg_foldl_setReg_ne s (A.linePm p) _ (fun k _ => by unfold A.lineCtrl A.linePm; omega), ← State.b]

/-- The port at a latch: new counts, and the second's classes at the end of those that wait. -/
def LinePort.latched (x : LinePort) (mono : Nat) (on : Bool) : LinePort :=
  { x with pm := List.replicate 16 0, farBlocks := (0, 0), lastLatch := mono, history := x.history ++ [if on then x.classify else []] }

theorem State.latchPm_eq (s : State) (p : Nat) : let u := (s.judged p).latchRegs p
    s.latchPm p = (u.setPort p (((s.judged p).port p).latched u.mono (u.portEnabled p))).noteDefects p := rfl

theorem OnlyJudged.portEnabled {p : Nat} {s t : State} (h : OnlyJudged p s t) :
    t.portEnabled p = s.portEnabled p := by
  have hctrl : [A.lineStatus p, A.lineDefectLatch p].contains (A.lineCtrl p) = false := by
    unfold A.lineStatus A.lineDefectLatch A.lineCtrl
    simp
  rw [State.portEnabled, State.b, h.regs _ hctrl, ← State.b, ← State.portEnabled]

theorem LinePort.classify_length (x : LinePort) : x.classify.length = 4 := rfl

/-- What a latch stores, clears and appends. -/
theorem State.latchPm_spec (s : State) (p : Nat) : let t := s.latchPm p
    (∀ k, k < 15 → t.reg (A.linePm p k) = BitVec.ofNat 32 ((s.port p).pm.getD k 0) ∧
      (t.port p).pm.getD k 0 = 0) ∧
      t.reg (A.linePmSeq p) = s.reg (A.linePmSeq p) + 1 ∧ (t.port p).lastLatch = s.mono ∧
      (∃ cls, (t.port p).history = (s.port p).history ++ [if s.portEnabled p then cls else []] ∧
        cls.length = 4) ∧ OnlyThisPort p s t := by
  have hjudged := OnlyJudged.judged s p
  have heq := s.latchPm_eq p
  have hregs : OnlyThisPort p (s.judged p) ((s.judged p).latchRegs p) := by
    rw [State.latchRegs_eq]
    exact .regs _ _
  have hmono : ((s.judged p).latchRegs p).mono = s.mono := by
    rw [State.mono, (hjudged.only.trans hregs).state]
    rfl
  dsimp only at heq
  rw [((s.judged p).latchRegs_portEnabled p).trans hjudged.portEnabled, hmono] at heq
  have hnoted := OnlyDefects.noteDefects p
    (((s.judged p).latchRegs p).setPort p (((s.judged p).port p).latched s.mono (s.portEnabled p)))
  have honly := ((hjudged.only.trans hregs).trans (.setPort _ (((s.judged p).port p).latched s.mono (s.portEnabled p)))).trans
    hnoted.onlyThisPort
  dsimp only
  rw [heq]
  refine ⟨fun k hk => ⟨?_, ?_⟩, ?_, ?_, ⟨((s.judged p).port p).classify, ?_, LinePort.classify_length _⟩, honly⟩
  · rw [State.noteDefects_reg, State.setPort_reg, State.latchRegs_linePm _ _ (by omega),
      hjudged.counts k (by omega)]
  · rw [hnoted.counts k (by omega), State.port_setPort, if_pos rfl, LinePort.latched]
    exact List.getD_replicate _ (by omega)
  · have hseq : [A.lineStatus p, A.lineDefectLatch p].contains (A.linePmSeq p) = false := by
      unfold A.lineStatus A.lineDefectLatch A.linePmSeq
      simp
    rw [State.noteDefects_reg, State.setPort_reg, State.latchRegs_linePmSeq, hjudged.regs _ hseq]
  · rw [hnoted.port, State.port_setPort, if_pos rfl]
    rfl
  · rw [hnoted.port, State.port_setPort, if_pos rfl]
    exact congrArg (· ++ _) hjudged.history

/-! ### The compatibility counters (R169) -/

/-- A counter that stops at 0xFFFF_FFFF, after `n` events. -/
def counted (w : Word) (n : Nat) : Word := BitVec.ofNat 32 (min 0xFFFFFFFF (w.toNat + n))

theorem counted_zero (w : Word) : counted w 0 = w := by
  have hw := w.isLt
  rw [counted, Nat.add_zero, Nat.min_eq_right (by omega), BitVec.ofNat_toNat, BitVec.setWidth_eq]

theorem State.reg_bumpIf (s : State) (c : Bool) (a b : Nat) :
    (s.bumpIf c a).reg b = counted (s.reg b) (if b = a then b2n c else 0) := by
  cases c with
  | false => rw [State.bumpIf_false, b2n_false, ite_self, counted_zero]
  | true =>
    rw [State.bumpIf_true]
    by_cases h : b = a
    · rw [if_pos h, h, State.reg_bump_same]
      rfl
    · rw [if_neg h, counted_zero, State.reg_bump_ne s h]

/-- What a second adds to counter `j` of its class: 0 errored, 1 severely errored, 2 unavailable seconds. -/
def SecondClass.adds (c : SecondClass) (un : Bool) (j : Nat) : Nat :=
  if un then (if j = 2 then 1 else 0) else if j = 0 then b2n c.es else if j = 1 then b2n c.ses else 0

theorem lineCpm_inj {p j k : Nat} : A.lineCpm p j = A.lineCpm p k ↔ j = k := by
  unfold A.lineCpm
  omega

/-- A second's class `i` is counted in counters 3i to 3i + 2. -/
theorem State.addClass_reg (s : State) (p i : Nat) (un : Bool) (c : SecondClass) (m : Nat) :
    (s.addClass p i un c).reg (A.lineCpm p m) = counted (s.reg (A.lineCpm p m)) (if m / 3 = i then c.adds un (m % 3) else 0) := by
  cases un with
  | true =>
    have hrun : s.addClass p i true c = s.bumpIf true (A.lineCpm p (3 * i + 2)) := rfl
    have hat : m = 3 * i + 2 ↔ m / 3 = i ∧ m % 3 = 2 := by omega
    simp only [hrun, State.reg_bumpIf, lineCpm_inj, hat, SecondClass.adds, b2n_true, ite_and, if_true]
  | false =>
    have hrun : s.addClass p i false c = (s.bumpIf c.es (A.lineCpm p (3 * i))).bumpIf c.ses (A.lineCpm p (3 * i + 1)) := rfl
    simp only [hrun, State.reg_bumpIf, lineCpm_inj, SecondClass.adds, Bool.false_eq_true, if_false]
    by_cases hi : m / 3 = i
    · rw [if_pos hi]
      by_cases hes : m % 3 = 0
      · rw [if_pos hes, if_pos (by omega), if_neg (by omega), counted_zero]
      · rw [if_neg hes, if_neg (by omega), counted_zero,
          if_congr (by omega : m = 3 * i + 1 ↔ m % 3 = 1) rfl rfl]
    · rw [if_neg hi, if_neg (by omega), if_neg (by omega), counted_zero]

/-- The classes of a second, counted one after the other from class `k` on. -/
def State.addClasses (s : State) (p : Nat) (un : Nat → Bool) (cs : List SecondClass) (k : Nat) : State :=
  (cs.zipIdx k).foldl (fun s e => s.addClass p e.2 (un e.2) e.1) s

/-- The counters of earlier classes stay. -/
theorem State.addClasses_reg_before (s : State) (p : Nat) (un : Nat → Bool)
    (cs : List SecondClass) {k m : Nat} (h : m / 3 < k) :
    (s.addClasses p un cs k).reg (A.lineCpm p m) = s.reg (A.lineCpm p m) := by
  induction cs generalizing s k with
  | nil => rfl
  | cons c cs ih =>
    have hrun : s.addClasses p un (c :: cs) k = (s.addClass p k (un k) c).addClasses p un cs (k + 1) := rfl
    rw [hrun, ih _ (by omega), State.addClass_reg, if_neg (by omega), counted_zero]

/-- Every counter takes what its own class adds. -/
theorem State.addClasses_reg (s : State) (p : Nat) (un : Nat → Bool) (cs : List SecondClass)
    (d : SecondClass) {k i m : Nat}
    (hi : i < cs.length) (hm : m / 3 = k + i) : (s.addClasses p un cs k).reg (A.lineCpm p m) =
      counted (s.reg (A.lineCpm p m)) ((cs.getD i d).adds (un (k + i)) (m % 3)) := by
  induction cs generalizing s k i with
  | nil => cases hi
  | cons c cs ih =>
    have hrun : s.addClasses p un (c :: cs) k = (s.addClass p k (un k) c).addClasses p un cs (k + 1) := rfl
    rw [hrun]
    cases i with
    | zero =>
      rw [State.addClasses_reg_before _ _ _ _ (by omega), State.addClass_reg, if_pos (by omega)]
      rfl
    | succ i =>
      rw [ih _ (Nat.lt_of_succ_lt_succ hi) (by omega), State.addClass_reg, if_neg (by omega),
        counted_zero, Nat.add_right_comm k 1 i]
      rfl

/-- Only registers of a list change. -/
structure OnlyListed (l : List Nat) (s t : State) : Prop where
  state : t = { s with regs := t.regs }
  regs : ∀ a, l.contains a = false → t.reg a = s.reg a

theorem OnlyListed.trans {l : List Nat} {s t u : State} (h : OnlyListed l s t)
    (g : OnlyListed l t u) : OnlyListed l s u :=
  ⟨by rw [g.state, h.state], fun a ha => (g.regs a ha).trans (h.regs a ha)⟩

theorem OnlyListed.setReg {l : List Nat} (s : State) {a : Nat} (v : Word) (h : a ∈ l) :
    OnlyListed l s (s.setReg a v) := by
  refine ⟨rfl, fun b hb => State.reg_setReg_ne s v ?_⟩
  rintro rfl
  rw [List.contains_iff_mem.mpr h] at hb
  cases hb

theorem OnlyListed.frame {l : List Nat} {s t : State} (h : OnlyListed l s t) :
    SameBytes s t ∧ SameEngines s t ∧ SameLines s t ∧ SameLight s t ∧ SameBase s t ∧ SameHost s t ∧
      ∀ a, t.sreg a = s.sreg a := by
  rw [h.state]
  exact ⟨SameBytes.refl s, ⟨rfl, rfl, rfl, rfl, rfl, rfl⟩, ⟨rfl, rfl, rfl, rfl⟩, ⟨rfl, rfl⟩, ⟨rfl, rfl,
    rfl, rfl, rfl, rfl⟩,
    ⟨rfl, rfl, rfl, rfl⟩, fun _ => rfl⟩

theorem OnlyListed.bumpIf {l : List Nat} (s : State) (c : Bool) {a : Nat} (h : a ∈ l) :
    OnlyListed l s (s.bumpIf c a) := by
  refine ⟨by cases c <;> rfl, fun b hb => ?_⟩
  have hne : b ≠ a := by
    rintro rfl
    rw [List.contains_iff_mem.mpr h] at hb
    cases hb
  rw [State.reg_bumpIf, if_neg hne, counted_zero]

/-- The twelve compatibility counters of a port. -/
def cpmRegs (p : Nat) : List Nat := (List.range 12).map (fun k => A.lineCpm p k)

theorem OnlyListed.addClass (s : State) (p : Nat) {i : Nat} (un : Bool) (c : SecondClass) (h : i < 4) :
    OnlyListed (cpmRegs p) s (s.addClass p i un c) := by
  have hmem {m : Nat} (hm : m < 12) : A.lineCpm p m ∈ cpmRegs p := List.mem_map.mpr ⟨m,
    List.mem_range.mpr hm, rfl⟩
  cases un with
  | true => exact .bumpIf s true (hmem (by omega))
  | false => exact (OnlyListed.bumpIf s _ (hmem (by omega))).trans (.bumpIf _ _ (hmem (by omega)))

/-- Counting a second's four classes touches the twelve counters alone. -/
theorem OnlyListed.addClasses (s : State) (p : Nat) (un : Nat → Bool) {cs : List SecondClass}
    (h : cs.length = 4) :
    OnlyListed (cpmRegs p) s (s.addClasses p un cs 0) := by
  refine List.foldlRecOn (motive := OnlyListed (cpmRegs p) s) (cs.zipIdx 0) _ ⟨rfl,
    fun _ _ => rfl⟩ fun t ht e he => ht.trans ?_
  have hlt := List.snd_lt_of_mem_zipIdx he
  exact .addClass t p _ _ (by omega)

/-- Whether each class is unavailable from the port's oldest second on. -/
def LinePort.unavailableFrom (x : LinePort) : List Bool :=
  (List.range 4).map (fun i => unavailableNow (x.unavailable.getD i false) i x.history)

theorem LinePort.unavailableFrom_getD (x : LinePort) {i : Nat} (h : i < 4) :
    x.unavailableFrom.getD i false = unavailableNow (x.unavailable.getD i false) i x.history := by
  simp [LinePort.unavailableFrom, h]

/-- The port without its oldest second `c`. -/
def LinePort.withoutOldest (x : LinePort) (c : List SecondClass) (rest : List (List SecondClass)) : LinePort :=
  { x with history := rest, unavailable := if c.isEmpty then x.unavailable else x.unavailableFrom }

/-- With ten later seconds known the oldest is counted. -/
theorem State.addCpm_eq {s : State} {p : Nat} {c : List SecondClass} {rest : List (List SecondClass)} (h : (s.port p).history = c :: rest)
    (hten : 10 ≤ rest.length) : s.addCpm p =
      (s.setPort p ((s.port p).withoutOldest c rest)).addClasses p (fun i => (s.port p).unavailableFrom.getD i false) c 0 := by
  unfold State.addCpm LinePort.withoutOldest LinePort.unavailableFrom
  dsimp only
  rw [h]
  dsimp only
  rw [if_neg (by omega)]
  rfl

/-- Counter `j` of class `i` after the oldest second has been counted. -/
theorem State.addCpm_reg {s : State} {p : Nat} {c : List SecondClass} {rest : List (List SecondClass)} (h : (s.port p).history = c :: rest)
    (hten : 10 ≤ rest.length) (hlen : c.length = 4) (d : SecondClass) {i j : Nat} (hi : i < 4) (hj : j < 3) :
    (s.addCpm p).reg (A.lineCpm p (3 * i + j)) = counted (s.reg (A.lineCpm p (3 * i + j)))
      ((c.getD i d).adds (unavailableNow ((s.port p).unavailable.getD i false) i (s.port p).history) j) := by
  rw [State.addCpm_eq h hten, State.addClasses_reg _ _ _ _ d (hi.trans_eq hlen.symm) (by omega), Nat.zero_add,
    LinePort.unavailableFrom_getD _ hi, (by omega : (3 * i + j) % 3 = j), State.setPort_reg]

/-- The addition takes the port's oldest second out, and touches the port and its twelve counters alone. -/
theorem State.addCpm_only {s : State} {p : Nat} {c : List SecondClass} {rest : List (List SecondClass)} (h : (s.port p).history = c :: rest)
    (hten : 10 ≤ rest.length) (hlen : c.length = 4) :
    ((s.addCpm p).port p).history = rest ∧ OnlyThisPort p s (s.addCpm p) ∧
      SameRegs (cpmRegs p) s (s.addCpm p) := by
  have hlisted := OnlyListed.addClasses (s.setPort p ((s.port p).withoutOldest c rest)) p
    (fun i => (s.port p).unavailableFrom.getD i false) hlen
  rw [← State.addCpm_eq h hten] at hlisted
  have honly : OnlyThisPort p s (s.addCpm p) := by
    rw [hlisted.state]
    exact (OnlyThisPort.setPort s _).trans (.regs _ _)
  have hports : (s.addCpm p).ports = (s.setPort p ((s.port p).withoutOldest c rest)).ports := by rw [hlisted.state]
  refine ⟨?_, honly, fun a ha => ⟨hlisted.regs a ha, honly.staged a⟩⟩
  rw [State.port_of_ports_eq hports, State.port_setPort, if_pos rfl]
  rfl

/-- Settles O43: signal and frame losses settle the port, a latch and an addition touch only the port and its counters. -/
theorem portDefectsAndCountsFollowTheirTimers : Obligations.PortDefectsAndCountsFollowTheirTimers := by
  refine ⟨fun s p hon => ?_, fun s p hlos hmod => ?_, fun s p hon halign hdue => ?_, fun s p hdue => ?_,
    fun s p c lost hc hon hstatus => ?_, fun s p => ?_, fun s p c rest hhistory hten hlen => ?_⟩
  · obtain ⟨hdefect, halign, hsig, honly⟩ := State.signalLost_spec hon
    exact ⟨_, rfl, hdefect, halign, hsig, honly.frame⟩
  · obtain ⟨hdefect, halign, hsig, honly⟩ := State.signalRestored_spec hlos hmod
    exact ⟨_, rfl, hdefect, halign, hsig, honly.frame⟩
  · have hgo : (s.portEnabled p && decide (s.align p ≠ 2) && s.elapsedSince (s.port p).outSince 100000) = true := by
      rw [hon, hdue, decide_eq_true halign]
      rfl
    obtain ⟨hdefect, hkept, honly⟩ := s.setDlof_settled p true
    exact ⟨_, congrArg Host.Outcome.next (if_pos hgo), hdefect, hkept, honly.frame⟩
  · obtain ⟨hdefect, hkept, honly⟩ := s.setDlof_settled p false
    exact ⟨_, congrArg Host.Outcome.next (if_pos hdue), hdefect, hkept, honly.frame⟩
  · obtain ⟨hshown, halign, hshort, hlong, honly, hregs⟩ := State.refChange_spec hon hstatus
    obtain ⟨hothers, hbytes, hengines, hrte, hsched, hsec, hlight, hbase, hhost⟩ := honly.frame
    have hrun : exec c s = .next (s.refChange p lost) := by
      obtain hloss | hreturn := List.mem_pair.mp hc
      · cases hloss
        rfl
      · cases hreturn
        rfl
    exact ⟨_, hrun, hshown, halign, hshort, hlong, hothers, hbytes, hengines, hrte, hsched, hsec,
      hlight, hbase, hhost, hregs⟩
  · obtain ⟨hcounts, hseq, hlast, ⟨cls, hhistory, hlen⟩, honly⟩ := s.latchPm_spec p
    refine ⟨s.latchPm p, rfl, hcounts, hseq, hlast, fun hoff => ?_, fun hon => ⟨cls, hlen, ?_⟩, honly.frame⟩
    · rw [hhistory, hoff]
      rfl
    · rw [hhistory, hon]
      rfl
  · obtain ⟨hrest, honly, hregs⟩ := State.addCpm_only hhistory hten hlen
    obtain ⟨hothers, hbytes, hengines, hrte, hsched, hsec, hlight, hbase, hhost⟩ := honly.frame
    have hadds {i : Nat} (hi : i < 4) {un : Bool} (hun : unavailableNow ((s.port p).unavailable.getD i false) i (s.port p).history = un)
        (j : Nat) (hj : j < 3) : (s.addCpm p).reg (A.lineCpm p (3 * i + j)) = counted (s.reg (A.lineCpm p (3 * i + j)))
          ((c.getD i { es := false, ses := false }).adds un j) := by
      rw [State.addCpm_reg hhistory hten hlen { es := false, ses := false } hi hj, hun]
    refine ⟨s.addCpm p, rfl, hrest, fun i hi hun => ⟨hadds hi hun 2 (by decide), ?_, ?_⟩,
      fun i hi hun => ⟨?_, hadds hi hun 0 (by decide),
      hadds hi hun 1 (by decide)⟩, hothers, hbytes, hengines, hrte, hsched, hsec, hlight, hbase, hhost, hregs⟩
    · exact (hadds hi hun 0 (by decide)).trans (counted_zero _)
    · exact (hadds hi hun 1 (by decide)).trans (counted_zero _)
    · exact (hadds hi hun 2 (by decide)).trans (counted_zero _)

end Sys2Proof.Machine
end

section
/-! The events of a line module (08_span_framer.md R171; 20_pins_package_electrical.md R360, R366). -/
namespace Sys2Proof.Machine

/-! ### What a module's events touch -/

/-- Memories, engines, cipher, light, power and bring-up stay. -/
def SameButModules (s t : State) : Prop :=
  SameBytes s t ∧ SameEngines s t ∧ t.sec = s.sec ∧ SameLight s t ∧ t.power = s.power ∧ t.boot = s.boot

theorem SameButModules.refl (s : State) : SameButModules s s :=
  ⟨SameBytes.refl s, ⟨rfl, rfl, rfl, rfl, rfl, rfl⟩, rfl, ⟨rfl, rfl⟩, rfl, rfl⟩

section
variable {s t u : State}

theorem SameButModules.trans (h : SameButModules s t) (g : SameButModules t u) : SameButModules s u := by
  simp only [SameButModules, SameBytes, SameEngines, SameLight] at h g ⊢
  simp_all

theorem SameButModules.draw (s : State) : SameButModules s s.draw.2 := .refl s
theorem SameButModules.setReg (s : State) (a : Nat) (v : Word) : SameButModules s (s.setReg a v) := .refl s
theorem SameButModules.setB (s : State) (a i : Nat) (v : Bool) : SameButModules s (s.setB a i v) := .refl s
theorem SameButModules.setPort (s : State) (p : Nat) (x : LinePort) : SameButModules s (s.setPort p x) :=
    .refl s
theorem SameButModules.pins (s : State) (x : Pins) : SameButModules s { s with pins := x } := .refl s

theorem SameButModules.ports (s : State) (x : Sparse LinePort) : SameButModules s { s with ports := x } :=
  .refl s

theorem OnlyFramers.sameButModules {p : Nat} (h : OnlyFramers p s t) : SameButModules s t := by
  rw [h.state]
  exact SameButModules.refl s

theorem OnlyReports.sameButModules (h : OnlyReports s t) : SameButModules s t := by
  obtain ⟨-, hbytes, hengines, ⟨-, -, -, hsec⟩, hlight, ⟨hpower, -, hboot, -⟩, -⟩ := h
  exact ⟨hbytes, hengines, hsec, hlight, hpower, hboot⟩

theorem OnlyListed.sameButModules {l : List Nat} (h : OnlyListed l s t) : SameButModules s t := by
  rw [h.state]
  exact SameButModules.refl s

end

/-! ### The reset pulse (R360) -/

/-- Bit `p` of a number in which it has been set. -/
theorem nfld_lor_two_pow (m p : Nat) : nfld (Nat.lor m (2 ^ p)) p 1 = 1 := by
  have hset : (m ||| 2 ^ p).testBit p = true := by rw [Nat.testBit_or, Nat.testBit_two_pow_self, Bool.or_true]
  have hbit := Nat.toNat_testBit (m ||| 2 ^ p) p
  rw [hset] at hbit
  exact hbit.symm

/-- Bit `p` of a number in which it has been cleared. -/
theorem nfld_sub_bit (m p : Nat) : nfld (m - (m / 2 ^ p % 2) * 2 ^ p) p 1 = 0 := by
  have hle : 2 ^ p * (m / 2 ^ p % 2) ≤ m :=
    (Nat.mul_le_mul_left _ (Nat.mod_le _ _)).trans (Nat.mul_div_le m (2 ^ p))
  rw [nfld, Nat.mul_comm (m / 2 ^ p % 2), Nat.sub_mul_div_of_le _ _ _ hle]
  omega

/-- The reset pulse of a module begins. -/
def State.startPulse (s : State) (p : Nat) : State :=
  { s.setPort p { s.port p with resetPulse := some s.mono } with pins := { s.pins with modResetLow := Nat.lor s.pins.modResetLow (2 ^ p) } }

theorem State.pins_reg (s : State) (y : Pins) (a : Nat) : ({ s with pins := y } : State).reg a = s.reg a := rfl

/-- The reset pulse of a new module begins on an enabled port. -/
def State.pulseEnabled (s : State) (p : Nat) : State := if s.portEnabled p then s.startPulse p else s

theorem State.pulseEnabled_spec (s : State) (p : Nat) : let t := s.pulseEnabled p
    (∀ a, t.reg a = s.reg a) ∧
      (s.portEnabled p = true → (t.port p).resetPulse = some s.mono ∧
        nfld t.pins.modResetLow p 1 = 1) ∧ SameButModules s t := by
  unfold State.pulseEnabled
  split
  · refine ⟨fun a => (State.pins_reg _ _ a).trans (State.setPort_reg s p _ a), fun _ => ⟨?_,
      nfld_lor_two_pow _ p⟩,
      (SameButModules.setPort s p _).trans (.pins _ _)⟩
    exact congrArg LinePort.resetPulse ((s.port_setPort p p _).trans (if_pos rfl))
  · next hoff => exact ⟨fun _ => rfl, fun hon => absurd hon hoff, .refl s⟩

/-- The end of a reset pulse changes ports and pins alone. -/
theorem State.endPulse_eq (s : State) (p : Nat) :
    ∃ x y, s.endPulse p = { s with ports := x, pins := y } ∧ nfld y.modResetLow p 1 = 0 ∧
    x = (s.setPort p { s.port p with resetPulse := none }).ports := ⟨_, _, rfl, nfld_sub_bit _ p, rfl⟩

theorem portsAndPins_frame (s : State) (x : Sparse LinePort) (y : Pins) : let t : State := { s with ports := x, pins := y }
    SameBytes s t ∧ SameEngines s t ∧ t.sec = s.sec ∧ SameLight s t ∧ SameHost s t ∧ SameRegs [] s t :=
  ⟨SameBytes.refl s, ⟨rfl, rfl, rfl, rfl, rfl, rfl⟩, rfl, ⟨rfl, rfl⟩, ⟨rfl, rfl, rfl, rfl⟩,
    fun _ _ => ⟨rfl, rfl⟩⟩

/-! ### Insertion and removal (R360) -/

/-- LINE_MOD_STATUS and PIN_IN_STATUS show a module's presence, and the log records it. -/
def State.showModule (s : State) (p : Nat) (w : Word) (present : Bool) (vendor : Nat) : State :=
  ((s.setReg (A.lineModStatus p) w).setB A.pinInStatus p present).logModule p vendor

/-- A new module is shown, with its vendor in the log. -/
def State.showInserted (s : State) (p : Nat) : State :=
  s.draw.2.showModule p 1 true (Config.outside s.freeCtr % 0x10000000000000000)

theorem State.insertModule_eq {s : State} {p : Nat} (h : s.modPresent p = false) :
    s.insertModule p = (((s.showInserted p).pulseEnabled p).driveLp p).refreshLos p := by
  rw [State.insertModule, h]
  rfl

/-- The port without its module: no reset pulse, and the framers stop. -/
def State.unplugged (s : State) (p : Nat) : State :=
  (s.endPulse p).setPort p { s.port p with framerOn := false, resetPulse := none }

theorem State.removeModule_eq {s : State} {p : Nat} (h : s.modPresent p = true) :
    s.removeModule p = (((s.unplugged p).showModule p 0 false 0).driveLp p).refreshLos p := by
  rw [State.removeModule, h]
  rfl

/-- The log's own registers are not a port's. -/
theorem isLogReg_line (p : Fin 16) : isLogReg (A.lineModStatus p) = false ∧ isLogReg (A.lineCtrl p) = false := by
  have h : ∀ p : Fin 16, isLogReg (A.lineModStatus p) = false ∧ isLogReg (A.lineCtrl p) = false := by decide
  exact h p

theorem State.logModule_reg (s : State) (p vendor : Nat) {a : Nat} (h : isLogReg a = false) :
    (s.logModule p vendor).reg a = s.reg a :=
  State.logEvent_reg s _ h

theorem OnlyReports.logModule (s : State) (p vendor : Nat) : OnlyReports s (s.logModule p vendor) :=
  OnlyReports.logEvent s _

theorem pinInStatus_ne_line (p : Nat) (hp : p < 16) :
    A.pinInStatus ≠ A.lineModStatus p ∧ A.pinInStatus ≠ A.lineCtrl p := by
  unfold A.pinInStatus A.lineModStatus A.lineCtrl
  omega

/-- Driving MOD_LPMODE_n and looking for the signal leaves the presence, the pulse and the framers of every module. -/
theorem State.driven_refreshed (s : State) (p : Fin 16) : let t := (s.driveLp p).refreshLos p
    t.reg (A.lineModStatus p) = s.reg (A.lineModStatus p) ∧ t.reg A.pinInStatus = s.reg A.pinInStatus ∧
      (t.port p).resetPulse = (s.port p).resetPulse ∧ (t.port p).framerOn = (s.port p).framerOn ∧
      t.pins.modResetLow = s.pins.modResetLow ∧ SameButModules s t := by
  have hrefresh := OnlyFramers.refreshLos (s.driveLp p) p
  refine ⟨hrefresh.regs _ (isFramerReg_lineModStatus p), hrefresh.regs _ (isFramerReg_pinInStatus p),
    hrefresh.resetPulse p,
    hrefresh.framerOn p, ?_, hrefresh.sameButModules⟩
  rw [hrefresh.state]
  rfl

theorem lineCtrl_ne_lineModStatus (p : Nat) : A.lineCtrl p ≠ A.lineModStatus p := by
  unfold A.lineCtrl A.lineModStatus
  omega

theorem State.showModule_spec (s : State) (p : Fin 16) (w : Word) (present : Bool) (vendor : Nat) : let t := s.showModule p w present vendor
    t.reg (A.lineModStatus p) = w ∧ t.b A.pinInStatus p = present ∧ t.portEnabled p = s.portEnabled p ∧
      t.mono = s.mono ∧
      t.ports = s.ports ∧ SameButModules s t := by
  let u : State := (s.setReg (A.lineModStatus p) w).setB A.pinInStatus p present
  obtain ⟨hmod, hctrl⟩ := isLogReg_line p
  obtain ⟨hpin, hpin'⟩ := pinInStatus_ne_line p p.isLt
  have hlog : OnlyReports u (s.showModule p w present vendor) := OnlyReports.logModule u p vendor
  have hrest : SameButModules s (s.showModule p w present vendor) :=
    ((SameButModules.setReg s _ _).trans (.setB _ _ _ _)).trans hlog.sameButModules
  obtain ⟨-, -, -, ⟨hports, -⟩, -, ⟨-, htime, -⟩, -⟩ := hlog
  refine ⟨?_, ?_, ?_, congrArg TimeBase.mono (htime.trans ((State.setB_time _ _ _ _).trans (State.setReg_time _ _ _))),
    hports.trans ((State.setB_ports _ _ _ _).trans (State.setReg_ports _ _ _)), hrest⟩
  · rw [State.showModule, State.logModule_reg _ _ _ hmod, State.reg_setB_ne _ _ _ hpin.symm,
      State.reg_setReg_same]
  · rw [State.b, State.showModule, State.logModule_reg _ _ _ (by decide), ← State.b,
      State.b_setB_same _ _ _ _ (by omega)]
  · rw [State.portEnabled, State.b, State.showModule, State.logModule_reg _ _ _ hctrl,
      State.reg_setB_ne _ _ _ hpin'.symm,
      State.reg_setReg_ne _ _ (lineCtrl_ne_lineModStatus p), ← State.b, ← State.portEnabled]

/-- An inserted module is present, and on an enabled port its reset pulse begins. -/
theorem State.insertModule_spec {s : State} {p : Fin 16} (h : s.modPresent p = false) : let t := s.insertModule p
    t.modPresent p = true ∧ t.b A.pinInStatus p = true ∧
      (s.portEnabled p = true → (t.port p).resetPulse = some s.mono ∧
        nfld t.pins.modResetLow p 1 = 1) ∧ SameButModules s t := by
  obtain ⟨hmod, hpin, hon, hmono, -,
    hshown⟩ := s.draw.2.showModule_spec p 1 true (Config.outside s.freeCtr % 0x10000000000000000)
  obtain ⟨hkept, hpulse, hstarted⟩ := (s.showInserted p).pulseEnabled_spec p
  obtain ⟨htmod, htpin, htpulse, -, htlow, htrest⟩ := ((s.showInserted p).pulseEnabled p).driven_refreshed p
  dsimp only
  rw [State.insertModule_eq h]
  refine ⟨?_, ?_, fun henabled => ?_, (((SameButModules.draw s).trans hshown).trans hstarted).trans htrest⟩
  · rw [State.modPresent, State.b, htmod, hkept, State.showInserted, hmod]
    rfl
  · rw [State.b, htpin, hkept, ← State.b, State.showInserted, hpin]
  · obtain ⟨hstart, hlow⟩ := hpulse (hon.trans henabled)
    rw [htpulse, hstart, htlow]
    exact ⟨congrArg some hmono, hlow⟩

theorem State.unplugged_spec (s : State) (p : Nat) : let t := s.unplugged p
    (t.port p).resetPulse = none ∧ (t.port p).framerOn = false ∧ t.portEnabled p = s.portEnabled p ∧
      SameButModules s t := by
  obtain ⟨x, y, heq, -⟩ := s.endPulse_eq p
  have hpulse : SameButModules s (s.endPulse p) := by
    rw [heq]
    exact (SameButModules.ports s x).trans (.pins _ y)
  have hctrl : (s.endPulse p).portEnabled p = s.portEnabled p := by
    rw [heq]
    rfl
  unfold State.unplugged
  refine ⟨?_, ?_, hctrl, hpulse.trans (.setPort _ _ _)⟩
  · rw [State.port_setPort, if_pos rfl]
  · rw [State.port_setPort, if_pos rfl]

/-- A removed module is absent: its port has neither reset pulse nor framers, and, enabled, no signal. -/
theorem State.removeModule_spec {s : State} {p : Fin 16} (h : s.modPresent p = true) : let t := s.removeModule p
    t.modPresent p = false ∧ t.b A.pinInStatus p = false ∧ (t.port p).resetPulse = none ∧
      (t.port p).framerOn = false ∧
      (s.portEnabled p = true → t.defect p dLOS = true) ∧ SameButModules s t := by
  obtain ⟨hpulse, hframer, hon, hunplugged⟩ := s.unplugged_spec p
  obtain ⟨hmod, hpin, honShown, -, hports, hshown⟩ := (s.unplugged p).showModule_spec p 0 false 0
  let u : State := (s.unplugged p).showModule p 0 false 0
  have hport : u.port p = (s.unplugged p).port p := State.port_of_ports_eq hports p
  obtain ⟨htmod, htpin, htpulse, htframer, -, htrest⟩ := u.driven_refreshed p
  dsimp only
  rw [State.removeModule_eq h]
  refine ⟨?_, ?_, htpulse.trans ((congrArg LinePort.resetPulse hport).trans hpulse),
    htframer.trans ((congrArg LinePort.framerOn hport).trans hframer), fun henabled => ?_,
      (hunplugged.trans hshown).trans htrest⟩
  · rw [State.modPresent, State.b, htmod, hmod]
    rfl
  · rw [State.b, htpin, ← State.b, hpin]
  · have hgone : (u.driveLp p).b (A.lineModStatus p) 0 = false := by
      rw [State.b, State.driveLp_reg, hmod]
      rfl
    have hen : (u.driveLp p).portEnabled p = true := by
      rw [State.portEnabled, State.b, State.driveLp_reg, ← State.b, ← State.portEnabled, honShown, hon,
        henabled]
    refine (State.refreshLos_lost ?_).1
    rw [State.losNow, hen, hgone, Bool.not_false, Bool.or_true]
    rfl

/-! ### The management core's sequence (R171) -/

theorem State.bringsUp_iff {s : State} {p : Nat} :
    s.bringsUp p = true ↔ s.modPresent p = true ∧ s.portEnabled p = true ∧ s.modAuto p = true ∧
      s.appSel p ≠ 0 := by
  simp [State.bringsUp, and_assoc]

/-- The module's state and flags have been read. -/
def State.flagsRead (s : State) (p : Nat) (m : ModuleFlags) : State :=
  ((s.setF (A.lineModStatus p) 1 3 m.state).setB (A.lineModStatus p) 5 m.txFault).setB (A.lineModStatus p) 6 m.rxLos

/-- A present module that the management core runs shows what has been read; a new fault is logged. -/
theorem State.readModule_eq {s : State} {p : Nat} (m : ModuleFlags)
    (hpresent : s.modPresent p = true) (hauto : s.modAuto p = true) :
    ∃ t, (t = s.flagsRead p m ∨ t = (s.flagsRead p m).logModule p 0) ∧ s.readModule p m = t.refreshLos p := by
  have hgo : ¬ ((!(s.modPresent p && s.modAuto p)) = true) := by simp [hpresent, hauto]
  refine ⟨_, ?_, if_neg hgo⟩
  split
  · exact .inr rfl
  · exact .inl rfl

theorem SameBase.trans {s t u : State} (h : SameBase s t) (g : SameBase t u) : SameBase s u := by
  obtain ⟨hpower, htime, hboot, hlife, hpins, hfaults⟩ := h
  obtain ⟨gpower, gtime, gboot, glife, gpins, gfaults⟩ := g
  exact ⟨gpower.trans hpower, gtime.trans htime, gboot.trans hboot, glife.trans hlife,
    gpins.trans hpins, gfaults.trans hfaults⟩

/-- The writes that select an application on four lanes. -/
def laneWrites (p app : Nat) : List Sent := (List.range 4).map (fun l => .cmisWrite p 0x10 (145 + l) (app * 16))

/-- Selecting an application and applying it is five writes. -/
theorem State.applyApp_eq (s : State) (p : Nat) :
    s.applyApp p = { s with outbox := s.outbox ++ laneWrites p (s.appSel p) ++ [.cmisWrite p 0x10 143 0x0F] } := by
  have hlanes : (List.range 4).foldl (fun s l => s.emit (.cmisWrite p 0x10 (145 + l) (s.appSel p * 16))) s =
      { s with outbox := s.outbox ++ [.cmisWrite p 0x10 145 (s.appSel p * 16)] ++ [.cmisWrite p 0x10 146 (s.appSel p * 16)] ++
        [.cmisWrite p 0x10 147 (s.appSel p * 16)] ++ [.cmisWrite p 0x10 148 (s.appSel p * 16)] } := rfl
  rw [State.applyApp, hlanes, List.append_assoc, List.append_assoc, List.append_assoc]
  rfl

theorem State.applyApp_spec (s : State) (p : Nat) : let t := s.applyApp p
    t.outbox = s.outbox ++ laneWrites p (s.appSel p) ++ [.cmisWrite p 0x10 143 0x0F] ∧ (∀ a,
      t.reg a = s.reg a) ∧ t.port p = s.port p ∧
      OnlyThisPort p s t := by
  dsimp only
  rw [State.applyApp_eq]
  exact ⟨rfl, fun _ => rfl, rfl, rfl, fun _ _ => rfl⟩

/-- Deactivating the data path of a present module is one write; DPATH falls and the framers stop. -/
theorem State.deactivate_spec {s : State} {p : Nat} (h : s.modPresent p = true) : let t := s.deactivate p
    t.outbox = s.outbox ++ [.cmisWrite p 0x10 128 0x0F] ∧ (∀ a,
      t.reg a = (s.setB (A.lineModStatus p) 4 false).reg a) ∧
      (t.port p).framerOn = false ∧ OnlyThisPort p s t := by
  unfold State.deactivate
  rw [if_pos h]
  refine ⟨rfl, fun a => ?_, ?_, ((OnlyThisPort.emit s _).trans (.setReg _ _ _)).trans (.setPort _ _)⟩
  · rw [State.setPort_reg, State.setB, State.setB, State.reg_setF, State.reg_setF, State.emit_reg,
      State.emit_reg]
  · rw [State.port_setPort, if_pos rfl]

/-- LINE_MOD_STATUS of a module that is Ready with its application advertised and its data path deactivated. -/
def State.readyShown (s : State) (p : Nat) : State :=
  ((s.setF (A.lineModStatus p) 1 3 3).setB (A.lineModStatus p) 7 false).setB (A.lineModStatus p) 4 false

theorem State.readyShown_spec (s : State) (p : Nat) : let t := s.readyShown p
    t.f (A.lineModStatus p) 1 3 = 3 ∧ t.b (A.lineModStatus p) 7 = false ∧ t.b (A.lineModStatus p) 4 = false ∧
      OnlyListed [A.lineModStatus p] s t := by
  refine ⟨?_, ?_, State.b_setB_same _ _ _ _ (by decide),
    ((OnlyListed.setReg s _ (by simp)).trans (.setReg _ _ (by simp))).trans (.setReg _ _ (by simp))⟩
  · exact ((State.f_setB_ne _ _ _ _ _ _ _ (by decide) (.inr (.inl (by decide)))).trans
      (State.f_setB_ne _ _ _ _ _ _ _ (by decide) (.inr (.inl (by decide))))).trans (State.f_setF_same _ _ _ _ _ (by decide))
  · exact (State.b_setB_ne _ _ _ _ _ _ (by decide) (.inr (by decide))).trans (State.b_setB_same _ _ _ _ (by decide))

/-- Ready with the application advertised: CFG_ERR is cleared, the data path deactivated and the application applied. -/
theorem State.moduleReady_advertised {s : State} {p : Nat} (hup : s.bringsUp p = true)
    (hpulse : (s.port p).resetPulse = none) :
    let t := s.moduleReady p true
    t.outbox = s.outbox ++ [.cmisWrite p 0x10 128 0x0F] ++ laneWrites p (s.appSel p) ++ [.cmisWrite p 0x10 143 0x0F] ∧
      (∀ a, t.reg a = (s.readyShown p).reg a) ∧ (t.port p).framerOn = false ∧ OnlyThisPort p s t := by
  let u : State := (s.setF (A.lineModStatus p) 1 3 3).setB (A.lineModStatus p) 7 false
  have hgo : ¬ ((!s.bringsUp p || (s.port p).resetPulse.isSome) = true) := by simp [hup, hpulse]
  have hrun : s.moduleReady p true = (u.deactivate p).applyApp p := by
    unfold State.moduleReady
    dsimp only
    rw [if_neg hgo, if_pos rfl]
  have hpresent : u.modPresent p = true :=
    ((State.b_setB_ne _ _ _ _ _ _ (by decide) (.inr (by decide))).trans
      (State.b_setF_ne _ _ _ _ _ _ _ (by decide) (.inr (.inl (by decide))))).trans (State.bringsUp_iff.mp hup).1
  obtain ⟨hdown, hdownRegs, hframer, honlyDown⟩ := State.deactivate_spec hpresent
  obtain ⟨hsent, hregs, hport, honly⟩ := (u.deactivate p).applyApp_spec p
  have hshown (a : Nat) : ((u.deactivate p).applyApp p).reg a = (s.readyShown p).reg a :=
    (hregs a).trans (hdownRegs a)
  have happ : (u.deactivate p).appSel p = s.appSel p := by
    have hne : [A.lineModStatus p].contains (A.lineModCtrl p) = false := by
      unfold A.lineModStatus A.lineModCtrl
      simp
    obtain ⟨-, -, -, hlisted⟩ := s.readyShown_spec p
    rw [State.appSel, State.f, hdownRegs]
    exact congrArg (fld · 0 4) (hlisted.regs _ hne)
  have hu : OnlyThisPort p s u := (OnlyThisPort.setReg s _ _).trans (.setReg _ _ _)
  have hout : u.outbox = s.outbox := (State.setB_outbox _ _ _ _).trans (State.setF_outbox _ _ _ _ _)
  dsimp only
  rw [hrun, hsent, hdown, hout, happ, hport]
  exact ⟨rfl, hshown, hframer, (hu.trans honlyDown).trans honly⟩

/-- Ready without the application sets CFG_ERR. -/
theorem State.moduleReady_missing {s : State} {p : Nat} (hup : s.bringsUp p = true)
    (hpulse : (s.port p).resetPulse = none) :
    s.moduleReady p false = (s.setF (A.lineModStatus p) 1 3 3).setB (A.lineModStatus p) 7 true := by
  have hgo : ¬ ((!s.bringsUp p || (s.port p).resetPulse.isSome) = true) := by simp [hup, hpulse]
  exact if_neg hgo

theorem State.dataPathUp_eq {s : State} {p : Nat} (hup : s.bringsUp p = true)
    (hcfg : s.b (A.lineModStatus p) 7 = false) :
    s.dataPathUp p = (s.setB (A.lineModStatus p) 4 true).setPort p { (s.setB (A.lineModStatus p) 4 true).port p with framerOn := true } := by
  have hgo : ¬ ((!s.bringsUp p || s.b (A.lineModStatus p) 7) = true) := by simp [hup, hcfg]
  exact if_neg hgo

/-- What has been read shows in LINE_MOD_STATUS, and the module stays present. -/
theorem State.flagsRead_shows (s : State) (p : Nat) (m : ModuleFlags) : let t := s.flagsRead p m
    t.f (A.lineModStatus p) 1 3 = m.state % 8 ∧ t.b (A.lineModStatus p) 5 = m.txFault ∧
      t.b (A.lineModStatus p) 6 = m.rxLos ∧
      t.b (A.lineModStatus p) 0 = s.b (A.lineModStatus p) 0 := by
  unfold State.flagsRead
  refine ⟨?_, ?_, State.b_setB_same _ _ _ _ (by decide), ?_⟩
  · exact ((State.f_setB_ne _ _ _ _ _ _ _ (by decide) (.inr (.inl (by decide)))).trans
      (State.f_setB_ne _ _ _ _ _ _ _ (by decide) (.inr (.inl (by decide))))).trans (State.f_setF_same _ _ _ _ _ (by decide))
  · exact (State.b_setB_ne _ _ _ _ _ _ (by decide) (.inr (by decide))).trans (State.b_setB_same _ _ _ _ (by decide))
  · exact ((State.b_setB_ne _ _ _ _ _ _ (by decide) (.inr (by decide))).trans
      (State.b_setB_ne _ _ _ _ _ _ (by decide) (.inr (by decide)))).trans
      (State.b_setF_ne _ _ _ _ _ _ _ (by decide) (.inr (.inl (by decide))))

theorem OnlyListed.flagsRead (s : State) (p : Nat) (m : ModuleFlags) :
    OnlyListed [A.lineModStatus p] s (s.flagsRead p m) :=
  ((OnlyListed.setReg s _ (by simp)).trans (.setReg _ _ (by simp))).trans (.setReg _ _ (by simp))

theorem isReportReg_lineCtrl (p : Fin 16) : isReportReg (A.lineCtrl p) = false := by
  have h : ∀ p : Fin 16, isReportReg (A.lineCtrl p) = false := by decide
  exact h p

theorem isReportReg_lineModStatus (p : Fin 16) : isReportReg (A.lineModStatus p) = false := by
  have h : ∀ p : Fin 16, isReportReg (A.lineModStatus p) = false := by decide
  exact h p

/-- A module's state and flags that have been read show in LINE_MOD_STATUS, and a lost receive signal is a loss of signal. -/
theorem State.readModule_spec {s : State} {p : Fin 16} (m : ModuleFlags)
    (hpresent : s.modPresent p = true) (hauto : s.modAuto p = true) :
    let t := s.readModule p m
    t.f (A.lineModStatus p) 1 3 = m.state % 8 ∧ t.b (A.lineModStatus p) 5 = m.txFault ∧
      t.b (A.lineModStatus p) 6 = m.rxLos ∧
      t.modPresent p = true ∧ (s.portEnabled p = true → m.rxLos = true → t.defect p dLOS = true) ∧
      SameBytes s t ∧ SameEngines s t ∧ t.sec = s.sec ∧ SameLight s t ∧ SameBase s t := by
  obtain ⟨u, hu, heq⟩ := State.readModule_eq m hpresent hauto
  obtain ⟨hstate, htx, hrx, hmod⟩ := s.flagsRead_shows p m
  have hread := OnlyListed.flagsRead s p m
  have hreports : OnlyReports (s.flagsRead p m) u := by
    obtain rfl | rfl := hu
    · exact OnlyReports.refl _
    · exact OnlyReports.logModule _ _ _
  have hrefresh := OnlyFramers.refreshLos u p
  obtain ⟨hbytes, hengines, hsec, hlight, -,
    -⟩ := (hread.sameButModules.trans hreports.sameButModules).trans hrefresh.sameButModules
  obtain ⟨hregs, -, -, -, -, hbase, -⟩ := hreports
  obtain ⟨-, -, -, -, hbaseRefreshed, -⟩ := hrefresh.frame
  obtain ⟨-, -, -, -, hbaseRead, -⟩ := hread.frame
  have hlogged : u.reg (A.lineModStatus p) = (s.flagsRead p m).reg (A.lineModStatus p) :=
    (hregs _ (isReportReg_lineModStatus p)).1
  have hshown : (u.refreshLos p).reg (A.lineModStatus p) = (s.flagsRead p m).reg (A.lineModStatus p) :=
    (hrefresh.regs _ (isFramerReg_lineModStatus p)).trans hlogged
  dsimp only
  rw [heq]
  refine ⟨?_, ?_, ?_, ?_, fun henabled hlost => ?_, hbytes, hengines, hsec, hlight,
    (hbaseRead.trans hbase).trans hbaseRefreshed⟩
  · rw [State.f, hshown, ← State.f, hstate]
  · rw [State.b, hshown, ← State.b, htx]
  · rw [State.b, hshown, ← State.b, hrx]
  · rw [State.modPresent, State.b, hshown, ← State.b, hmod]
    exact hpresent
  · have hen : u.portEnabled p = true := by
      rw [State.portEnabled, State.b, (hregs _ (isReportReg_lineCtrl p)).1, hread.regs _ (by simp)]
      exact henabled
    have hlos : u.b (A.lineModStatus p) 6 = true := by rw [State.b, hlogged, ← State.b, hrx, hlost]
    refine (State.refreshLos_lost ?_).1
    rw [State.losNow, hen, hlos, Bool.or_true, Bool.true_or]
    rfl

/-- DataPathActivated enables the framers, and touches the port and LINE_MOD_STATUS alone. -/
theorem State.dataPathUp_spec {s : State} {p : Nat} (hup : s.bringsUp p = true)
    (hcfg : s.b (A.lineModStatus p) 7 = false) :
    let t := s.dataPathUp p
    t.b (A.lineModStatus p) 4 = true ∧ t.framersOn p = true ∧ OnlyThisPort p s t ∧
      SameRegs [A.lineModStatus p] s t := by
  obtain ⟨-, hon, -⟩ := State.bringsUp_iff.mp hup
  dsimp only
  rw [State.dataPathUp_eq hup hcfg]
  refine ⟨?_, ?_, (OnlyThisPort.setReg s _ _).trans (.setPort _ _), fun a ha => ⟨?_, ?_⟩⟩
  · rw [State.setPort_b, State.b_setB_same _ _ _ _ (by decide)]
  · rw [State.framersOn, State.port_setPort, if_pos rfl, Bool.or_true, Bool.and_true,
      State.portEnabled, State.setPort_b, State.b,
      State.reg_setB_ne _ _ _ (lineCtrl_ne_lineModStatus p)]
    exact hon
  · rw [State.setPort_reg, State.reg_setB_ne _ _ _ (by rintro rfl; simp at ha)]
  · rw [State.setPort_sreg, State.setB_sreg]

/-- Settles O44: each event shows the module's state, and beside ports, pins and the log only routes can follow. -/
theorem modulesComeUpByTheirSequence : Obligations.ModulesComeUpByTheirSequence := by
  refine ⟨fun s p habsent => ⟨_, rfl, State.insertModule_spec habsent⟩, fun s p hpresent => ⟨_, rfl,
    State.removeModule_spec hpresent⟩,
    fun s p m c hc hpresent hauto => ?_, fun s p hup hpulse => ?_, fun s p hup hpulse => ?_,
      fun s p hup hcfg => ?_, fun s p hdue => ?_⟩
  · have hrun : exec c s = .next (s.readModule p m) := by
      obtain rfl | rfl := List.mem_pair.mp hc <;> rfl
    exact ⟨_, hrun, State.readModule_spec m hpresent hauto⟩
  · obtain ⟨hstate, hcfg, hpath, hlisted⟩ := s.readyShown_spec p
    obtain ⟨hsent, hregs, hframer, honly⟩ := State.moduleReady_advertised hup hpulse
    obtain ⟨hothers, hbytes, hengines, -, -, hsec, hlight, hbase, hhost⟩ := honly.frame
    refine ⟨s.moduleReady p true, rfl, ?_, ?_, ?_, hframer, hsent, hothers, hbytes, hengines, hsec,
      hlight, hbase, hhost,
      fun a ha => ⟨(hregs a).trans (hlisted.regs a ha), honly.staged a⟩⟩
    · rw [State.f, hregs, ← State.f, hstate]
    · rw [State.b, hregs, ← State.b, hcfg]
    · rw [State.b, hregs, ← State.b, hpath]
  · have hrun : exec (.moduleReady p false) s = .next ((s.setF (A.lineModStatus p) 1 3 3).setB (A.lineModStatus p) 7 true) :=
      congrArg Host.Outcome.next (State.moduleReady_missing hup hpulse)
    have hlisted : OnlyListed [A.lineModStatus p] s ((s.setF (A.lineModStatus p) 1 3 3).setB (A.lineModStatus p) 7 true) :=
      (OnlyListed.setReg s _ (by simp)).trans (.setReg _ _ (by simp))
    obtain ⟨hbytes, hengines, hlines, hlight, hbase, hhost, hstaged⟩ := hlisted.frame
    refine ⟨_, hrun, State.b_setB_same _ _ _ _ (by decide), ?_, hbytes, hengines, hlines, hlight, hbase, hhost,
      fun a ha => ⟨hlisted.regs a ha, hstaged a⟩⟩
    exact (State.f_setB_ne _ _ _ _ _ _ _ (by decide) (.inr (.inl (by decide)))).trans (State.f_setF_same _ _ _ _ _ (by decide))
  · obtain ⟨hpath, hframers, honly, hregs⟩ := State.dataPathUp_spec hup hcfg
    obtain ⟨hothers, hbytes, hengines, -, -, hsec, hlight, hbase, hhost⟩ := honly.frame
    exact ⟨s.dataPathUp p, rfl, hpath, hframers, hothers, hbytes, hengines, hsec, hlight, hbase, hhost, hregs⟩
  · obtain ⟨x, y, heq, hlow, hx⟩ := s.endPulse_eq p
    have hrun : exec (.moduleResetPulseEnd p) s = .next (s.endPulse p) :=
      congrArg Host.Outcome.next (if_pos hdue)
    rw [heq] at hrun
    have hport (r : Nat) : ({ s with ports := x, pins := y } : State).port r = (s.setPort p { s.port p with resetPulse := none }).port r := by
      rw [State.port, State.port, ← hx]
    refine ⟨_, hrun, ?_, hlow, fun r hr => ?_, portsAndPins_frame s x y⟩
    · rw [hport, State.port_setPort, if_pos rfl]
    · rw [hport, State.port_setPort, if_neg hr]

end Sys2Proof.Machine
end
